-- ==== Sys2Proof/Word.lean ====
section
/-! DEFINITION. The words the hub's messages and registers are made of, and their plainest arithmetic. -/

namespace Sys2Proof

/-- One byte of a line, a flit or a memory. -/
abbrev Byte := BitVec 8

/-- A register word of the configuration window (R378). -/
abbrev Word32 := BitVec 32

/-- A physical address, 48 bits (Table: Limits). -/
abbrev Addr := BitVec 48

/-- Bytes of one hub line (Table: Limits). -/
def lineBytes : Nat := 128

end Sys2Proof
end

