-- ==== Sys2Proof/Syntax.lean ====
section
/-! DEFINITION. The commands of the hub: one constructor of `Instr` for each row of spec/opcode_table.json, and the
shapes of their operands. The table gives no operand fields and no bits; the operands here are the fields of the message,
descriptor or register access that the row stands for (log entry 1). -/

namespace Sys2Proof

/-- Request header of a link message (Table: Request header, R330), less OPCODE (the row names it) and DSLOTS (the
data list's length in 16-byte slots). -/
structure ReqHdr where
  vc : Bool
  cls : BitVec 2
  pid : BitVec 6
  stream : BitVec 10
  tag : BitVec 12
  addr : Addr
  len : BitVec 3
  hway : BitVec 5
  sub : BitVec 6
  deriving DecidableEq, Repr

/-- Response header of a message the twin's home sends on LL7 (Table: Response header, R330, R341). -/
structure RspHdr where
  vc : Bool
  lstat : BitVec 2
  stream : BitVec 10
  tag : BitVec 12
  state : BitVec 3
  reason : BitVec 3
  declined : Bool
  pass : Bool
  deriving DecidableEq, Repr

/-- Snoop header of a snoop or forward that the twin sends on LL7 (Table: Snoop header, R330). -/
structure SnpHdr where
  vc : Bool
  snpid : BitVec 12
  addr : Addr
  size128 : Bool
  deriving DecidableEq, Repr

/-- A command descriptor as fetched (Table: Command descriptor, R265), less OPCODE, which the row names. `rsvdA` and
`rsvdB` are its reserved bits [15:10] and [63:38]. -/
structure CmdWord where
  auth : Bool
  irq : Bool
  rsvdA : BitVec 6
  tag : BitVec 16
  pid : BitVec 6
  rsvdB : BitVec 26
  counter : BitVec 64
  arg0 : BitVec 64
  arg1 : BitVec 64
  arg2 : BitVec 64
  arg3 : BitVec 64
  arg4 : BitVec 64
  mac : BitVec 64
  deriving DecidableEq, Repr

/-- A Mover descriptor as posted (Table: Mover descriptor as posted, R282). -/
structure MovDesc where
  op : BitVec 4
  cls : BitVec 2
  irq : Bool
  done : Bool
  len : BitVec 25
  rsvdA : BitVec 31
  src : Addr
  rsvdB : BitVec 16
  dst : Addr
  rsvdC : BitVec 16
  pattern : BitVec 64
  deriving DecidableEq, Repr

/-- Who makes a register access and through which die's window (R378 to R381). -/
structure RegAcc where
  link : BitVec 3
  vc : Bool
  pid : BitVec 6
  stream : BitVec 10
  tag : BitVec 12
  die : BitVec 1
  deriving DecidableEq, Repr

/-- What training found and the peer announced (R315 to R320, Table: Parameters exchanged). `credits` is the peer's eight
initial credits, pool 4 × VC + channel. -/
structure UpInfo where
  width : BitVec 2
  rate16 : Bool
  lanes : BitVec 3
  hubRole : Bool
  revMax : Byte
  hubId : Bool
  credits : List Byte
  proxyGeom : Word32
  rdMin : BitVec 4
  rdMax : BitVec 4
  wrMax : BitVec 4
  deriving DecidableEq, Repr

/-- The fields of a firmware image's header that the hub keeps (Table: Firmware image header, R396). -/
structure FwHdr where
  minor : Byte
  major : Byte
  live : Bool
  rdMin : BitVec 4
  rdMax : BitVec 4
  wrMax : BitVec 4
  deriving DecidableEq, Repr

/-- What the devices did to stored bits of a line since it was last read: errors that have no row of their own (R278 calls
an injected error the equal of a natural one). `words` are XOR masks on 72-bit words (word index in the line), `beats` on the
sixteen symbols of an array beat (beat index), `crc` on the stored CRC of CRC line mode. `path` is what its message met on the internal paths
(R225): 1 a parity failure mended by the resend, 2 a repeat failure in a data byte, 3 one in a header byte. -/
structure Disturb where
  words : List (Nat × BitVec 72)
  beats : List (Nat × BitVec 128)
  crc : Word32
  path : BitVec 2 := 0#2
  deriving DecidableEq, Repr

/-- Stages of link training (Table: Training stages, R316). -/
inductive TrainStage where
  | detect | lock | width | param | eq
  deriving DecidableEq, Repr

/-- Why a training attempt failed (LINK_n_TRAIN.REASON, R319). -/
inductive TrainReason where
  | timeout | role | rev | credit
  deriving DecidableEq, Repr

/-- Structures of the background test (R352). -/
inductive BtStruct where
  | tags | sieve | kettle | buffers
  deriving DecidableEq, Repr

/-- The commands of the hub, one per row of spec/opcode_table.json. -/
inductive Instr where
  /-- RD_SHARED (R105). -/
  | rdShared (l : BitVec 3) (h : ReqHdr)
  /-- RD_UNIQUE (R105). -/
  | rdUnique (l : BitVec 3) (h : ReqHdr)
  /-- RD_ONCE (R105). -/
  | rdOnce (l : BitVec 3) (h : ReqHdr)
  /-- RD_NOSNP (R143). -/
  | rdNosnp (l : BitVec 3) (h : ReqHdr)
  /-- CLEAN_UNIQUE (R106). -/
  | cleanUnique (l : BitVec 3) (h : ReqHdr)
  /-- RD_RESV (R168). -/
  | rdResv (l : BitVec 3) (h : ReqHdr)
  /-- WR_LINE (R55). -/
  | wrLine (l : BitVec 3) (h : ReqHdr) (d : List Byte)
  /-- WR_PART (R56). -/
  | wrPart (l : BitVec 3) (h : ReqHdr) (d : List Byte)
  /-- WR_NOSNP (R143). -/
  | wrNosnp (l : BitVec 3) (h : ReqHdr) (d : List Byte)
  /-- ZERO_LINE (R60). -/
  | zeroLine (l : BitVec 3) (h : ReqHdr)
  /-- ATOMIC (R122). -/
  | atomic (l : BitVec 3) (h : ReqHdr) (d : List Byte)
  /-- ST_COND (R169). -/
  | stCond (l : BitVec 3) (h : ReqHdr) (d : List Byte)
  /-- CAST_OFFER (R61). -/
  | castOffer (l : BitVec 3) (h : ReqHdr)
  /-- CAST_DATA (R62). -/
  | castData (l : BitVec 3) (h : ReqHdr) (d : List Byte)
  /-- WRITE_BACK (R57). -/
  | writeBack (l : BitVec 3) (h : ReqHdr) (d : List Byte)
  /-- EVICT_NOTE (R142). -/
  | evictNote (l : BitVec 3) (h : ReqHdr)
  /-- FENCE (R164). -/
  | fence (l : BitVec 3) (h : ReqHdr)
  /-- RESV_CLEAR (R170). -/
  | resvClear (l : BitVec 3) (h : ReqHdr)
  /-- PF_HINT (R87). -/
  | pfHint (l : BitVec 3) (h : ReqHdr)
  /-- SNP_RSP (R149). -/
  | snpRsp (l : BitVec 3) (snpid : BitVec 12) (st : BitVec 3) (dirty wbPending : Bool) (d : List Byte)
  /-- FWD_DONE (R149). -/
  | fwdDone (l : BitVec 3) (snpid : BitVec 12) (st : BitVec 3) (dirty passed : Bool)
  /-- DATA (R109). -/
  | data (l : BitVec 3) (r : RspHdr) (snpid : BitVec 12) (fromHome : Bool) (d : List Byte)
  /-- LINK_CTL_SET_REPORT (R131). -/
  | linkCtlSetReport (l : BitVec 3) (qid : Byte) (hset : BitVec 16) (d : List Byte)
  /-- LINK_CTL_SET_QUERY (R154). -/
  | linkCtlSetQuery (l : BitVec 3) (qid : Byte) (hset : BitVec 16)
  /-- TICK (R174). -/
  | tick (l : BitVec 3) (frame : Word32)
  /-- SNP_SHARED (R134). -/
  | snpShared (l : BitVec 3) (h : SnpHdr)
  /-- SNP_UNIQUE (R134). -/
  | snpUnique (l : BitVec 3) (h : SnpHdr)
  /-- SNP_INVAL (R134). -/
  | snpInval (l : BitVec 3) (h : SnpHdr)
  /-- SNP_FWD_SHARED (R134). -/
  | snpFwdShared (l : BitVec 3) (h : SnpHdr)
  /-- SNP_FWD_UNIQUE (R134). -/
  | snpFwdUnique (l : BitVec 3) (h : SnpHdr)
  /-- COMP (R133). -/
  | comp (l : BitVec 3) (r : RspHdr)
  /-- COMP_DATA (R133). -/
  | compData (l : BitVec 3) (r : RspHdr) (d : List Byte)
  /-- WB_ACK (R133). -/
  | wbAck (l : BitVec 3) (r : RspHdr)
  /-- FENCE_ACK (R163). -/
  | fenceAck (l : BitVec 3) (r : RspHdr)
  /-- SC_RESULT (R169). -/
  | scResult (l : BitVec 3) (r : RspHdr)
  /-- CAST_ACCEPT (R62). -/
  | castAccept (l : BitVec 3) (r : RspHdr)
  /-- CAST_DECLINE (R61). -/
  | castDecline (l : BitVec 3) (r : RspHdr)
  /-- CAST_DONE (R62). -/
  | castDone (l : BitVec 3) (r : RspHdr)
  /-- FLIT_RECEIVED (R323). -/
  | flitReceived (l : BitVec 3) (flit : List Byte)
  /-- REPLAY_TIMER (R324). -/
  | replayTimer (l : BitVec 3)
  /-- RECOVERY_TIMEOUT (R325). -/
  | recoveryTimeout (l : BitVec 3)
  /-- LINK_DOWN (R337). -/
  | linkDown (l : BitVec 3)
  /-- LINK_UP (R316). -/
  | linkUp (l : BitVec 3) (u : UpInfo)
  /-- TRAINING_STAGE_TIMEOUT (R316). -/
  | trainingStageTimeout (l : BitVec 3) (stage : TrainStage) (reason : TrainReason)
  /-- TRAINING_BACKOFF_EXPIRY (R317). -/
  | trainingBackoffExpiry (l : BitVec 3)
  /-- MEM_TRAIN_BACKOFF_EXPIRY (R401). -/
  | memTrainBackoffExpiry (die : BitVec 1) (j : BitVec 3)
  /-- CHANNEL_TRAINED (R401). -/
  | channelTrained (k : BitVec 3) (rate : BitVec 4) (units : BitVec 16) (full : Bool)
  /-- ARRAY_TRAINED (R404). -/
  | arrayTrained (rate : BitVec 2) (dens full : Bool)
  /-- NEAR_ZERO_FILL_DONE (R404). -/
  | nearZeroFillDone
  /-- FW_RETRY_BACKOFF_EXPIRY (R395). -/
  | fwRetryBackoffExpiry
  /-- FW_IMAGE_AUTHENTICATED (R396). -/
  | fwImageAuthenticated (slot : Bool) (f : FwHdr)
  /-- FTICK_EDGE (R174). -/
  | ftickEdge (ball : Bool) (falling : Bool)
  /-- INTERNAL_TIMER_TICK (R174). -/
  | internalTimerTick
  /-- FRAME_TICK (R180). -/
  | frameTick
  /-- SYNTHETIC_TICK (R176). -/
  | syntheticTick
  /-- TICK_FAILOVER (R177). -/
  | tickFailover
  /-- SUBFRAME_STEP (R183). -/
  | subframeStep
  /-- STEWARD_PASS (R197). -/
  | stewardPass
  /-- STEWARD_PASS_DISCARD (R197). -/
  | stewardPassDiscard
  /-- PMU_WINDOW_END (R365). -/
  | pmuWindowEnd
  /-- BW_WINDOW_END (R374). -/
  | bwWindowEnd
  /-- HISTORY_FOLD (R351). -/
  | historyFold
  /-- LADLE_EXPIRY (R88). -/
  | ladleExpiry (cluster : BitVec 3) (line : BitVec 41)
  /-- RESV_EXPIRY (R170). -/
  | resvExpiry (die : BitVec 1) (mon : Nat)
  /-- CLASS_B_PROMOTE (R181). -/
  | classBPromote (txn : Nat)
  /-- SNOOP_TIMEOUT (R119). -/
  | snoopTimeout (l : BitVec 3) (snpid : BitVec 12)
  /-- TONGS_HOLD_END (R123). -/
  | tongsHoldEnd (line : BitVec 41)
  /-- LID_TIMEOUT (R386). -/
  | lidTimeout (die : BitVec 1)
  /-- PAIR_TIMEOUT (R387). -/
  | pairTimeout (die : BitVec 1)
  /-- FILL_DATA_LANDS (R150). -/
  | fillDataLands (txn : Nat) (x : Disturb)
  /-- PREFETCH_LANDS (R89). -/
  | prefetchLands (cluster : BitVec 3) (line : BitVec 41) (x : Disturb)
  /-- MEMORY_WRITE_COMPLETE (R438). -/
  | memoryWriteComplete (wb : Nat)
  /-- TRACKER_FREED_RETRY (R19). -/
  | trackerFreedRetry (slice : BitVec 5)
  /-- STREAM_MISS_RETRY (R45). -/
  | streamMissRetry (l : BitVec 3) (stream : BitVec 10) (cluster : BitVec 3)
  /-- TAG_SET_REBUILD (R93). -/
  | tagSetRebuild (slice : BitVec 5) (set : BitVec 12)
  /-- WALKER_TURN (R68). -/
  | walkerTurn (slice : BitVec 5)
  /-- WHISK_LINE_READ (R230). -/
  | whiskLineRead (r : BitVec 4) (line : Nat) (x : Disturb)
  /-- WHISK_LAP_END (R231). -/
  | whiskLapEnd (r : BitVec 4)
  /-- BT_STEP (R352). -/
  | btStep (die : BitVec 1) (struct : BtStruct) (fails : Bool)
  /-- REBUILD_START (R237). -/
  | rebuildStart
  /-- REBUILD_DONE (R237). -/
  | rebuildDone
  /-- REMAP_COPY_DONE (R235). -/
  | remapCopyDone (lane : BitVec 2) (row : Nat)
  /-- COLANDER_DRAIN (R355). -/
  | colanderDrain (die : BitVec 1)
  /-- SEAL_COMPLETE (R245). -/
  | sealComplete (w : BitVec 4)
  /-- CACHE_WARM_SECTOR (R308). -/
  | cacheWarmSector (p : BitVec 6)
  /-- MOVER_CHUNK_DONE (R286). -/
  | moverChunkDone (p : BitVec 6)
  /-- NOP (R270). -/
  | nop (m : BitVec 2) (opcode : Byte) (c : CmdWord)
  /-- CACHE_ENABLE (R78). -/
  | cacheEnable (m : BitVec 2) (c : CmdWord)
  /-- CACHE_DISABLE (R80). -/
  | cacheDisable (m : BitVec 2) (c : CmdWord)
  /-- CACHE_DISABLE_DRAIN_DONE (R80). -/
  | cacheDisableDrainDone
  /-- CACHE_RANGE (R73). -/
  | cacheRange (m : BitVec 2) (c : CmdWord)
  /-- CACHE_RANGE_DONE (R74). -/
  | cacheRangeDone
  /-- WAY_POWER (R83). -/
  | wayPower (m : BitVec 2) (c : CmdWord)
  /-- WAY_POWER_OFF_DONE (R83). -/
  | wayPowerOffDone
  /-- WAY_LOCK (R75). -/
  | wayLock (m : BitVec 2) (c : CmdWord)
  /-- WAY_LOCK_DONE (R75). -/
  | wayLockDone
  /-- REGION_SET (R213). -/
  | regionSet (m : BitVec 2) (c : CmdWord)
  /-- SHADOW_LOAD_DONE (R216). -/
  | shadowLoadDone
  /-- ARRAY_POP_SET (R214). -/
  | arrayPopSet (m : BitVec 2) (c : CmdWord)
  /-- PART_CREATE (R295). -/
  | partCreate (m : BitVec 2) (c : CmdWord)
  /-- PART_SET (R298). -/
  | partSet (m : BitVec 2) (c : CmdWord)
  /-- PART_QUIESCE (R301). -/
  | partQuiesce (m : BitVec 2) (c : CmdWord)
  /-- PART_QUIESCE_DONE (R301). -/
  | partQuiesceDone (p : BitVec 6)
  /-- PART_RESUME (R300). -/
  | partResume (m : BitVec 2) (c : CmdWord)
  /-- PART_RESET (R302). -/
  | partReset (m : BitVec 2) (c : CmdWord)
  /-- PART_FREEZE (R303). -/
  | partFreeze (m : BitVec 2) (c : CmdWord)
  /-- PART_FREEZE_DONE (R303). -/
  | partFreezeDone (p : BitVec 6)
  /-- PART_SAVE (R304). -/
  | partSave (m : BitVec 2) (c : CmdWord)
  /-- PART_SAVE_DONE (R305). -/
  | partSaveDone (p : BitVec 6)
  /-- PART_RESTORE (R306). -/
  | partRestore (m : BitVec 2) (c : CmdWord)
  /-- PART_RESTORE_LOAD_DONE (R307). -/
  | partRestoreLoadDone (p : BitVec 6)
  /-- PART_DESTROY (R305). -/
  | partDestroy (m : BitVec 2) (c : CmdWord)
  /-- WITNESS_ARM (R241). -/
  | witnessArm (m : BitVec 2) (c : CmdWord)
  /-- WITNESS_DISARM (R242). -/
  | witnessDisarm (m : BitVec 2) (c : CmdWord)
  /-- EXPERT_SET (R270). -/
  | expertSet (m : BitVec 2) (c : CmdWord)
  /-- KEY_LOAD (R276). -/
  | keyLoad (m : BitVec 2) (c : CmdWord)
  /-- KEY_ROTATE (R276). -/
  | keyRotate (m : BitVec 2) (c : CmdWord)
  /-- FW_STAGE (R414). -/
  | fwStage (m : BitVec 2) (c : CmdWord)
  /-- FW_SWITCH (R415). -/
  | fwSwitch (m : BitVec 2) (c : CmdWord)
  /-- FW_HANDOVER (R415). -/
  | fwHandover
  /-- ERR_INJECT (R279). -/
  | errInject (m : BitVec 2) (c : CmdWord)
  /-- LEDGER_ERASE (R280). -/
  | ledgerErase (m : BitVec 2) (c : CmdWord)
  /-- MOVER_COPY (R285). -/
  | moverCopy (p : BitVec 6) (d : MovDesc)
  /-- MOVER_FILL (R285). -/
  | moverFill (p : BitVec 6) (d : MovDesc)
  /-- MOVER_ZERO (R285). -/
  | moverZero (p : BitVec 6) (d : MovDesc)
  /-- MOVER_CRC (R286). -/
  | moverCrc (p : BitVec 6) (d : MovDesc)
  /-- MOVER_COMPARE (R286). -/
  | moverCompare (p : BitVec 6) (d : MovDesc)
  /-- CMD_DB (R260). -/
  | cmdDb (a : RegAcc) (m : BitVec 2) (v : Word32)
  /-- CPL_DB (R261). -/
  | cplDb (a : RegAcc) (m : BitVec 2) (v : Word32)
  /-- EVT_DB (R262). -/
  | evtDb (a : RegAcc) (v : Word32)
  /-- MOV_DB (R260). -/
  | movDb (a : RegAcc) (p : BitVec 6) (v : Word32)
  /-- WIT_SEAL (R244). -/
  | witSeal (a : RegAcc) (w : BitVec 4) (v : Word32)
  /-- LID_KEY_WRITE (R386). -/
  | lidKeyWrite (a : RegAcc) (v : Word32)
  /-- WARM_RESET_WEST (R413). -/
  | warmResetWest (a : RegAcc) (v : Word32)
  /-- WARM_RESET_EAST (R413). -/
  | warmResetEast (a : RegAcc) (v : Word32)
  /-- WARM_RESET_DONE (R413). -/
  | warmResetDone (die : BitVec 1)
  /-- SNAP (R399). -/
  | snap (a : RegAcc) (v : Word32)
  /-- PARK (R405). -/
  | park (a : RegAcc) (v : Word32)
  /-- PARK_DRAIN_DONE (R406). -/
  | parkDrainDone
  /-- WIT_CTL_CLEAR (R256). -/
  | witCtlClear (a : RegAcc) (v : Word32)
  /-- LINK_ENABLE (R317). -/
  | linkEnable (a : RegAcc) (n : BitVec 3) (v : Word32)
  /-- RETRAIN (R325). -/
  | retrain (a : RegAcc) (n : BitVec 3) (v : Word32)
  /-- MGR_CTL_ENABLE (R259). -/
  | mgrCtlEnable (a : RegAcc) (m : BitVec 2) (v : Word32)
  /-- COH_HOST_GEOM_WRITE (R100). -/
  | cohHostGeomWrite (a : RegAcc) (n : BitVec 3) (v : Word32)
  /-- COH_TWIN_GEOM_WRITE (R135). -/
  | cohTwinGeomWrite (a : RegAcc) (v : Word32)
  /-- CACHE_TRK_CTL_WRITE (R66). -/
  | cacheTrkCtlWrite (a : RegAcc) (v : Word32)
  /-- CACHE_CAST_CTL_WRITE (R63). -/
  | cacheCastCtlWrite (a : RegAcc) (v : Word32)
  /-- FS_PERIOD_WRITE (R188). -/
  | fsPeriodWrite (a : RegAcc) (v : Word32)
  /-- FS_TICK_CTL_WRITE (R177). -/
  | fsTickCtlWrite (a : RegAcc) (v : Word32)
  /-- WHISK_FLOOR_WRITE (R239). -/
  | whiskFloorWrite (a : RegAcc) (v : Word32)
  /-- PMU_CLR_CYC (R364). -/
  | pmuClrCyc (a : RegAcc) (v : Word32)
  /-- PMU_CLR_CNT (R364). -/
  | pmuClrCnt (a : RegAcc) (v : Word32)
  /-- MB_SEL_WRITE (R389). -/
  | mbSelWrite (a : RegAcc) (k : BitVec 2) (v : Word32)
  /-- MAILBOX_FETCH_DONE (R389). -/
  | mailboxFetchDone (die : BitVec 1) (k : BitVec 2)
  /-- MB_LAST_WORD_READ (R390). -/
  | mbLastWordRead (a : RegAcc) (k : BitVec 2)
  /-- CLEAR_ON_READ (R385). -/
  | clearOnRead (a : RegAcc) (off : BitVec 20)
  /-- BIT_ALIAS_WRITE (R383). -/
  | bitAliasWrite (a : RegAcc) (byte : BitVec 14) (bit : BitVec 3) (v : Word32)
  /-- REGISTER_WRITE (R381). -/
  | registerWrite (a : RegAcc) (off : BitVec 20) (v : Word32)
  /-- I3C_READ (R432). -/
  | i3cRead (index : Byte)
  /-- I3C_DYNAMIC_ADDRESS (R432). -/
  | i3cDynamicAddress (addr : BitVec 7)
  /-- BYPASS (R433). -/
  | bypass
  /-- IDCODE (R433). -/
  | idcode
  /-- SAMPLE_PRELOAD (R433). -/
  | samplePreload
  /-- EXTEST (R433). -/
  | extest
  /-- EXTEST_PULSE (R433). -/
  | extestPulse
  /-- EXTEST_TRAIN (R433). -/
  | extestTrain
  /-- COLD_RESET (R411). -/
  | coldReset
  /-- PWR_GOOD (R394). -/
  | pwrGood (hubId bootSel : Bool) (arrayPop : BitVec 2)
  /-- RAIL_OUT_OF_RANGE (R422). -/
  | railOutOfRange (aon : Bool)
  /-- PWR_WARN (R173). -/
  | pwrWarn
  /-- PWR_WARN_SNOOP_DEADLINE (R173). -/
  | pwrWarnSnoopDeadline
  /-- PWR_WARN_DRAIN_DONE (R173). -/
  | pwrWarnDrainDone
  /-- PWR_WARN_RELEASE (R410). -/
  | pwrWarnRelease
  /-- WAKE (R408). -/
  | wake
  /-- KETTLE_PARKED_SCRUB (R346). -/
  | kettleParkedScrub (word : BitVec 19) (x : BitVec 72)
  /-- THERM_CROSSING (R425). -/
  | thermCrossing (die : BitVec 1) (temp : Byte)
  /-- BLOCK_LOCK_LOSS (R325). -/
  | blockLockLoss (l : BitVec 3)
  /-- PEER_RECOVERY_TRAINING_SETS (R325). -/
  | peerRecoveryTrainingSets (l : BitVec 3)
  /-- MEM_TRAINING_FAILED (R401). -/
  | memTrainingFailed (die : BitVec 1) (j : BitVec 3) (reason : BitVec 3)
  /-- CHANNEL_LOST (R189). -/
  | channelLost (k : BitVec 3) (rate : BitVec 4)
  /-- FW_IMAGE_AUTH_FAILED (R395). -/
  | fwImageAuthFailed
  /-- FW_RESUMED_FROM_RETENTION (R408). -/
  | fwResumedFromRetention (digestGood : Bool)
  /-- FW_STAGE_DONE (R414). -/
  | fwStageDone (digestGood : Bool)
  /-- FW_HANDOVER_DONE (R415). -/
  | fwHandoverDone
  /-- RING_FETCH_ERR (R263). -/
  | ringFetchErr (mover : Bool) (i : BitVec 6)
  /-- FLIT_TIME (R329). -/
  | flitTime (l : BitVec 3)
  deriving DecidableEq, Repr

end Sys2Proof
end

