-- ==== Sys2Proof/Decode.lean ====
section
/-! DEFINITION. Commands spelled by words of spec/opcode_table.json. The table gives its 186 rows no bits and no fields, so no word spells a
command: commands come as messages, descriptors, register accesses and events (log entry 1). The bits of link headers are read by
`readHeader` in Machine/Link.lean. -/

namespace Sys2Proof

/-- The command that a word of the table's bits spells: none, since no row has bits. -/
def decodeTableWord (_nbits _w : Nat) : Option Instr := none

end Sys2Proof
end

