-- ==== Sys2Proof/Config.lean ====
section
/-! DEFINITION. What one implementation fixes and the values the spec leaves open. The free values are opaque: nothing can
evaluate them and no statement rests on one of their values. -/

namespace Sys2Proof.Config

/-- Free value: where the search for an unused snoop identifier begins (R113 asks only that identifiers outstanding to one
host differ). Log entry 3. -/
opaque freeSnpId : Nat → BitVec 12

/-- Free value: the tag a hub puts on a request of its own or a carried one on LL7 ("a tag of its own", R340). Log entry 3. -/
opaque freeTag : Nat → BitVec 12

/-- Free value: the query identifier of a LINK_CTL(SET_QUERY) (Table: Management header). Log entry 3. -/
opaque freeQid : Nat → Byte

/-- Free value: the non-zero symbol value of ERR_INJECT kinds 0 and 1 and the CRC mask of kind 4, which R279 names only as
"a non-zero value". Made non-zero where it is used. Log entry 4. -/
opaque freeSymbol : Nat → BitVec 32

/-- Free value: which of the free ways the steward gives (`give(free_way())`, R195, names none). Log entry 19. -/
opaque freePick : Nat → Nat

/-- Free value: idle data cycles of a region's lane or channel in a frame, in lines (R196); they are a matter of timing, which the model leaves
out. Log entry 20. -/
opaque freeIdle : Nat → Nat

/-- Free value: what the hub answers to a request for a granule that a violation has left undefined: nothing, or an opcode, a link status, a
state and data ("no guarantee about any data, response, event or state", R5, R136). Log entry 97. -/
opaque freeReply : Nat → Option (Byte × BitVec 4 × BitVec 3 × List Byte)

/-- Free value: the bytes of a granule that a violation has left undefined (R5, R136). Log entry 97. -/
opaque freeGranule : Nat → List Byte

/-- Free value: what main memory holds after a cold reset, as cells ("not guaranteed", R412). Log entry 23. -/
opaque freeMain : Nat → List (Nat × Byte)

/-- Free value: whether a device's post-package repair of a row is offered and succeeds (R199, R234, R235). Log entry 124. -/
opaque freeRepair : Nat → Bool

/-- Free value: how far a spare rebuild has come, in 2 MiB units of array offset (R237 gives it the idle cycles, which are a matter of timing).
Log entry 59. -/
opaque freeProgress : Nat → Nat

/-- Free value: the internal path and the byte that a PATH_PARITY record names, which the spec does not number (Table: Colander record types).
Log entry 125. -/
opaque freePath : Nat → BitVec 12

/-- Open constant: whether the bytes of a firmware image pass the SHA-256 body digest and the ECDSA P-256 signature under
the vendor key, whose hash is fused at manufacture and not in the spec (R396). Log entry 5. -/
opaque imageSignatureGood : List Byte → Bool

/-- Open constant: whether a staged image's start-up checks pass in standby memory (R415 step 1 names no check). Log entry 5. -/
opaque startupChecksPass : List Byte → Bool

/-- Stepping of the part modelled: the first production stepping (CB_IDENT.STEP, R433). Log entry 6. -/
def stepping : Nat := 0x01

/-- IDCODE of the first production stepping (R433). -/
def idcode : Word32 := 0x14100B67#32

end Sys2Proof.Config
end

