-- ==== Sys2Proof/Machine/State.lean ====
section
/-! DEFINITION. The state of the hub as plain data: every register, table, queue, mode and pin the spec names, the queue of
waiting commands, and the machine right after reset. Banks are association lists; a key with no entry holds the bank's
default (see Machine/Ops.lean). Registers with bits of their own in the configuration window live as words in `regs`, where
an absent word holds its reset value (Machine/RegTable.lean). -/

namespace Sys2Proof.Machine

/-- A table indexed by a number. -/
abbrev Bank (α : Type) := List (Nat × α)

/-- Package phases (Table: Package phases, R393). -/
inductive LcPhase where
  | boot | romService | run | parking | parked | drain
  deriving DecidableEq, Repr

/-- Link states (R325). -/
inductive LinkSt where
  | down | training | up | recovery
  deriving DecidableEq, Repr

/-- Partition states (Table: Partition transitions, R292). -/
inductive PartSt where
  | free | created | active | quiescing | quiesced | frozen
  deriving DecidableEq, Repr

/-- Cache states (CACHE_WALK_STAT.CSTATE). -/
inductive CacheSt where
  | off | on | draining
  deriving DecidableEq, Repr

/-- Hub line states (Table: Hub line states). `flushing zeros inval` records that zeros are pending and that the line becomes
INVALID when its write completes (R37). -/
inductive LineSt where
  | invalid | clean | dirty | zero | filling | poisoned
  | flushing (zeros inval : Bool)
  deriving DecidableEq, Repr

/-- Witness window states (WIT_STAT.STATE). -/
inductive WinSt where
  | disarmed | opened | sealing | sealed
  deriving DecidableEq, Repr

/-- Region types (Table: Region type codes, R210). -/
inductive RType where
  | nwt | nwb | nnc | dev | near | shadow | kettle | cfg
  deriving DecidableEq, Repr

/-- One entry of the region map (Table: Region map entry, R209). SIZE 0 is an invalid entry; reset: SIZE 0, CLASS 0b11, other
fields 0 (Tables RMAP_n_BASE to RMAP_n_SRC). -/
structure REntry where
  base : Nat := 0
  size : Nat := 0
  typ : RType := .nwt
  cls : Nat := 3
  ecc : Bool := false
  mirror : Bool := false
  hub : Bool := false
  tbase : Nat := 0
  src : Nat := 0
  deriving DecidableEq, Repr

/-- A link message, in or out: every field of the headers of R330 and its data slots' bytes; `uid` and `at_` are the number and the cycle of
its acceptance (R157), 0 where it was not accepted from flits, `adm` whether it was admitted then (R289). -/
structure Msg where
  op : Nat
  vc : Bool := false
  cls : Nat := 0
  pid : Nat := 0
  stream : Nat := 0
  tag : Nat := 0
  addr : Nat := 0
  len : Nat := 0
  hway : Nat := 0
  sub : Nat := 0
  snpid : Nat := 0
  size128 : Bool := false
  state : Nat := 0
  dirty : Bool := false
  wbPending : Bool := false
  passed : Bool := false
  lstat : Nat := 0
  reason : Nat := 0
  declined : Bool := false
  pass : Bool := false
  frame : Nat := 0
  vector : Nat := 0
  kind : Nat := 0
  qid : Nat := 0
  hset : Nat := 0
  data : List Byte := []
  uid : Nat := 0
  at_ : Nat := 0
  adm : Bool := false
  deriving DecidableEq, Repr

/-- Where a request comes from: a link, the Mover (R285), a witness seal (R245), the hub as PID 0 (R258, R216, R304), cache
warming (R308), a back-invalidation of the Sieve (R128). -/
inductive Src where
  | link | mover | wseal | hub0 | warm | backInv
  deriving DecidableEq, Repr

/-- An accepted request (R157). `size` is in bytes; `data` and `mask` are its write bytes and enables from `addr` on;
`cls` is the class it is served at, `carried` the one before demotion (R185); `host` is the requester's host number, 7 the twin, 8 a
host without a cache or no host; `ent` is the region-map entry that it was checked against (R27); `uid` numbers acceptances (R163) and `job` ties hub requests to the operation that made them. -/
structure Req where
  op : Nat
  src : Src := .link
  link : Nat := 8
  host : Nat := 8
  pid : Nat := 0
  cls : Nat := 3
  carried : Nat := 3
  stream : Nat := 0
  tag : Nat := 0
  vc : Bool := false
  addr : Nat := 0
  size : Nat := 128
  hway : Nat := 0
  sub : Nat := 0
  data : List Byte := []
  mask : List Bool := []
  at_ : Nat := 0
  uid : Nat := 0
  job : Nat := 0
  admitted : Bool := true
  ent : REntry := {}
  deriving DecidableEq, Repr

/-- Stage of an ordered request (R137, R139, R109, R129): `stalled` is ordered and not evaluated; `snoop` waits for answers;
`reissue` waits to send a PASSED forward or an unanswered snoop again (R114, R148); `serve` is due its data from the home; `fill`
waits for memory; `cast` waits for CAST_DATA; `retryQ` is in the Sieve retry queue; `backWait` waits for a back-invalidation; `alloc` is an accepted castout whose allocation waits for write-buffer lines (R38); `ready`
has all it needs, or waits for write-buffer lines (R38); `perform` waits for its memory channel (R161); `closing` has sent its completion and waits for the owner's DATA or its crossed transactions. -/
inductive TxnPh where
  | stalled | snoop | reissue | serve | fill | alloc | cast | retryQ | backWait | ready | perform | closing
  deriving DecidableEq, Repr

/-- An open transaction at a home slice, in home order (R14, R136). `lo` and `n` give the granules it covers; `trk`, `cnt`
and `wb` what it holds: a tracker, one that counts for its stream (R44), a write-buffer line; `grant` the state recorded for its
requester, `err` that its data cannot be used; `counted` that its lookup has had its outcome (R42); `fwd` says an owner's forward answered it, `upg` that it is an upgrade without data, or an ST_COND whose reservation is not lost,
`wbGate` that a WB_PENDING answer concerns it (R125); `pieces` data that owners returned, by address; `slot` the set and way it fills; `way` its requester's way in the Sieve (R101, R128);
`seq` orders its memory read among buffered lines; `crossed` the transactions or acceptances it waits for (R125, R164); `since` is the
cycle plus 1 at which it began to wait at its channel (R181). -/
structure Txn where
  id : Nat
  req : Req
  slice : Nat := 0
  ph : TxnPh := .stalled
  lo : Nat := 0
  n : Nat := 128
  trk : Bool := false
  cnt : Bool := false
  wb : Bool := false
  grant : Nat := 0
  err : Bool := false
  counted : Bool := false
  fwd : Bool := false
  upg : Bool := false
  wbGate : Bool := false
  seq : Nat := 0
  pieces : List (Nat × List Byte) := []
  slot : Option (Nat × Nat) := none
  way : Nat := 0
  crossed : List Nat := []
  cancelled : Bool := false
  since : Nat := 0
  promoted : Bool := false
  deriving DecidableEq, Repr

/-- A snoop or forward outstanding at a host (R112, R113): `kind` 0 SHARED, 1 UNIQUE, 2 INVAL, 3 FWD_SHARED, 4 FWD_UNIQUE.
`held` is R146's wait at the home for transaction `heldFor`; `owner` says it was directed at the owner; `sent` is the cycle plus 1
its first flit left in, 0 before, and `base` the latest other moment of R119; `timedOut` that R119 has reported it; `done` that its
FWD_DONE came and its DATA has not; `wb` that its WRITE_BACK is awaited (R125); `passed` that its answer crossed a notice (R126). -/
structure Snp where
  id : Nat
  host : Nat
  link : Nat
  kind : Nat
  addr : Nat
  size : Nat
  txn : Nat
  owner : Bool
  vc : Bool
  held : Bool
  heldFor : Nat := 0
  sent : Nat := 0
  base : Nat := 0
  timedOut : Bool := false
  passed : Bool := false
  wb : Bool := false
  dataSeen : Bool := false
  done : Bool := false
  deriving DecidableEq, Repr

/-- Why a request has not been ordered: no tracker, write-buffer line or Tongs line (R19, R47, R123); the stream rule (R45); a
full Sieve retry queue (R129); the Seam of a die in warm reset (R25); a set under recovery (R41, R131). -/
inductive WaitWhy where
  | resource | stream | undone | retryFull | seam | recovery
  deriving DecidableEq, Repr

/-- A request waiting at its slice or in its stream's queue, not ordered (R16, R19, R45). -/
structure Waiting where
  req : Req
  slice : Nat
  why : WaitWhy
  deriving DecidableEq, Repr

/-- A Sieve entry (Table: Sieve entry, R99): position (host set, way) of one host, the granule whose tag it holds and its
state (Table: Host-line states), from which its words follow; `par` says that PAR differs from their parity; `seq` orders writes for R128; `at_` is the cycle plus 1 in which the last flit of its M or E grant
left (R119). -/
structure SEnt where
  host : Nat
  set : Nat
  way : Nat
  addr : Nat
  st : Nat
  seq : Nat
  at_ : Nat := 0
  par : Bool := false
  deriving DecidableEq, Repr

/-- A sector tag entry (Table: Sector tag entry, R35) that is not in its initial state. `tagPar` and `statePar` say that TAG_PAR or
STATE_PAR differs from the parity of the bits it covers; `cast` codes its accepted castout lines whose fate is open (R63). -/
structure Sector where
  slice : Nat
  set : Nat
  way : Nat
  addr : Nat
  lines : List LineSt
  pid : Nat
  age : Nat
  echo : Bool
  tagPar : Bool := false
  statePar : Bool := false
  cast : List Nat := []
  deriving DecidableEq, Repr

/-- A write-buffer line (R38, R55, R59): bytes of one hub line on their way to `tgt`, 0 main memory, 1 the array, 2 an echo line of it (R92), at
target offset `off`; `poison` writes the poison marking; `txn` the transaction that waits for it to be performed (R161). Of a mirrored line that one
channel has taken, `half` names the copy still to come (R208): true the odd channel's. -/
structure WbLine where
  id : Nat
  cluster : Nat
  line : Nat
  tgt : Nat
  off : Nat
  mirror : Bool
  ecc : Bool
  data : List Byte
  mask : List Bool
  poison : Bool
  pid : Nat := 0
  txn : Nat := 0
  dev : Bool := false
  half : Option Bool := none
  deriving DecidableEq, Repr

/-- A line held by the Tongs (R123): `since` is the cycle of its first operation plus 1, 0 before it; `first` the least number of a transaction
ordered after that operation; `asked` the host granules that its ATOMICs' snoops took back (R127); `data` its 128 bytes. -/
structure Tong where
  cluster : Nat
  line : Nat
  since : Nat
  first : Nat := 0
  asked : List (Nat × Nat) := []
  data : List Byte := []
  deriving DecidableEq, Repr

/-- A Ladle entry or a prefetch in flight (R86 to R90). -/
structure LadleE where
  cluster : Nat
  line : Nat
  pid : Nat
  cls : Nat
  inFlight : Bool
  killed : Bool
  data : List Byte
  frame : Nat
  seq : Nat
  deriving DecidableEq, Repr

/-- A stream-detector entry (R85). -/
structure Det where
  cluster : Nat
  link : Nat
  stream : Nat
  page : Nat
  last : Nat
  stride : Int
  run : Nat
  used : Nat
  deriving DecidableEq, Repr

/-- A reservation monitor (R167). -/
structure Mon where
  id : Nat
  die : Nat
  granule : Nat
  link : Nat
  stream : Nat
  pid : Nat
  at_ : Nat
  deriving DecidableEq, Repr

/-- A message waiting at a link's transmitter: its slots and how many have left; `lat` is the die and class (4 × die +
class), the acceptance cycle and the PID of a request whose latency it ends (R375). -/
structure Out where
  msg : Msg
  slots : Nat
  sent : Nat := 0
  lat : Option (Nat × Nat × Nat) := none
  deriving DecidableEq, Repr

/-- A payload flit sent and not acknowledged (R324); `ends` are the messages whose last slot it carries (R333, R338). -/
structure SentFlit where
  seq : Nat
  bytes : List Byte
  ends : List Msg := []
  replays : Nat := 0
  deriving DecidableEq, Repr

/-- A link (R314 to R339). Registers LINK_n_CTL and LINK_n_ERR are words of `regs`; the fields below give LINK_n_STAT,
LINK_n_TRAIN, LINK_n_CR_0 and LINK_n_CR_1. Credit lists have one entry per pool, 4 × VC + channel; `crHeld` lists slots taken in whose
credit is not yet returned: the acceptance they belong to (0 none), pool and slots. `firstFail` says that a failure since the last UP has not
been reported. `replayAt` is the next flit of a replay, `cur` the flit last sent, `owed` the bytes of a message received in part. -/
structure Link where
  st : LinkSt := .down
  rev11 : Bool := false
  width : Nat := 0
  rate16 : Bool := false
  degr : Bool := false
  peerHub : Bool := false
  peerId : Bool := false
  lanes : Nat := 0
  attempts : Nat := 0
  stage : Nat := 0
  reason : Nat := 0
  backoff : Nat := 0
  backoffFrom : Option Nat := none
  firstFail : Bool := false
  saved : Bool := false
  credits : List Nat := []
  used : List Nat := []
  crIn : List Nat := []
  crOut : List Nat := []
  crSel : Nat := 0
  txSeq : Nat := 0
  rxSeq : Nat := 1023
  nak : Bool := false
  replay : List SentFlit := []
  replayAt : Option Nat := none
  ackAt : Nat := 0
  replays : Nat := 0
  q : List Out := []
  cur : List Byte := []
  vc1Run : Nat := 0
  owed : List Byte := []
  owedSlots : Nat := 0
  inbox : List Msg := []
  recAt : Nat := 0
  recFull : Bool := false
  rxBytes : Nat := 0
  txBytes : Nat := 0
  crHeld : List (Nat × Nat × Nat) := []
  deriving DecidableEq, Repr

/-- A request on its way to the twin (R133, R340, R342): `key` numbers it in the hub, `ownTag` names it on LL7, `addr` and `size` are what it
asks for there. `ph` 0 waits to be sent, 1 has been sent, 2 has its answer `resp` and waits for local copies to go, 3 is answered and kept for
the hub's own operation. `way` is its proxy way, `data` whether DATA has come; `retry` that it waits in the Sieve retry queue
(R129). -/
structure TwinReq where
  key : Nat
  ownTag : Nat := 0
  req : Req
  addr : Nat
  size : Nat
  ph : Nat := 0
  way : Option Nat := none
  resp : Option Msg := none
  data : Bool := false
  comp : Bool := false
  retry : Bool := false
  deriving DecidableEq, Repr

/-- Local copies of a twin-homed granule being asked for (R133, R134): `kind` 0 to 4 a snoop or forward from the twin, 5 taken back for the
request `forReq`, 6 sharers removed before its grant is passed on, 7 removed because LL7 is down (R343), 8 taken back for a forward, or with
`shared` a SNP_SHARED, that the local granules do not fit, 9 taken back before a notice that leaves none. `st`, `dirty`, `wbp` and `pieces` put the local answers together; `held` waits for a grant to be passed
on. -/
structure TwinSnp where
  key : Nat
  kind : Nat
  snpid : Nat := 0
  addr : Nat
  size : Nat
  vc : Bool := false
  forReq : Nat := 0
  st : Nat := 0
  dirty : Bool := false
  wbp : Bool := false
  passed : Bool := false
  pieces : List (Nat × List Byte) := []
  held : Bool := false
  shared : Bool := false
  deriving DecidableEq, Repr

/-- The twin's side of the hub (R132 to R134, R340). -/
structure Twin where
  peerGeom : BitVec 32 := 0#32
  peerRdMax : Nat := 0
  proxy : List SEnt := []
  reqs : List TwinReq := []
  snps : List TwinSnp := []
  deriving DecidableEq, Repr

/-- A set recovery: the LINK_CTL(SET_QUERY) outstanding (R131, R338). `granules` are those that the lost link `lost`
(8: none) left to settle. -/
structure Recovery where
  qid : Nat
  host : Nat
  link : Nat
  set : Nat
  die : Nat
  granules : List Nat
  lost : Nat
  held : List Req
  deriving DecidableEq, Repr

/-- A partition (R292 to R305). Its window registers are given by these fields. -/
structure Part where
  st : PartSt := .free
  busy : Bool := false
  warming : Bool := false
  level : Nat := 0
  links : BitVec 8 := 0#8
  kbase : Nat := 0
  kcount : Nat := 0
  monq : Nat := 0
  movLog : Nat := 0
  movDie : Nat := 0
  witCnt : Nat := 0
  cntGrant : Bool := false
  wayMask : BitVec 16 := 0#16
  wayMin : Nat := 0
  wayMax : Nat := 0
  share : Nat := 0
  depth : Nat := 0
  depthMin : Nat := 0
  depthMax : Nat := 0
  bud : List Nat := []
  budNow : List Nat := []
  bmax : List Nat := []
  arg0 : BitVec 64 := 0#64
  movHead : Nat := 0
  movTail : Nat := 0
  movStop : Bool := false
  page : Bank Nat := []
  run : Bank Nat := []
  resumeTicks : Nat := 0
  castHit : Nat := 0
  castGone : Nat := 0
  castFrac : Nat := 64
  castDen : Nat := 64
  landed : Nat := 0
  moved : Nat := 0
  landedDone : Nat := 0
  movedDone : Nat := 0
  deriving DecidableEq, Repr

/-- A witness window (R240). `sealAt` is the cycle in which its seal completed; `lost` the cycle and the WSIG of a seal in force that was broken
or replaced since the last tick (R248, R249). -/
structure Win where
  st : WinSt := .disarmed
  pid : Nat := 0
  base : Nat := 0
  lines : Nat := 0
  writers : BitVec 8 := 0#8
  reader : Nat := 0
  static : Bool := false
  group : Nat := 0
  pinEn : Bool := false
  wsig : BitVec 64 := 0#64
  rsig : BitVec 64 := 0#64
  rsigLat : BitVec 64 := 0#64
  cov : List Nat := []
  derr : Nat := 0
  covLat : Nat := 0
  derrLat : Nat := 0
  last : Nat := 0
  reason : Nat := 0
  sealErr : Nat := 0
  broken : Bool := false
  sealFrame : Nat := 0
  sealTicks : Option Nat := none
  armTicks : Nat := 0
  failed : Bool := false
  restoreSig : Option (BitVec 64) := none
  sealAt : Nat := 0
  lost : Option (Nat × BitVec 64) := none
  deriving DecidableEq, Repr

/-- A completion held until its ring has a slot (R261); FRAME and PHASE are put in when it is written. -/
structure HeldCpl where
  entry : List Byte
  irq : Bool
  deriving DecidableEq, Repr

/-- A manager's rings (R259 to R261); its MGR_m_ registers are words of `regs`. `fetchStop` is R263's stop. -/
structure Mgr where
  head : Nat := 0
  tail : Nat := 0
  cplTail : Nat := 0
  cplHead : Nat := 0
  phase : Bool := true
  held : List HeldCpl := []
  lastCtr : Nat := 0
  fetchStop : Bool := false
  deriving DecidableEq, Repr

/-- A heavy command running (R268): which command (`opcode`), whose, and the units done. -/
structure Heavy where
  job : Nat
  mgr : Nat
  opcode : Nat
  tag : Nat
  irq : Bool
  pid : Nat
  units : Nat := 0
  bad : Nat := 0
  deriving DecidableEq, Repr

/-- A walk (R67 to R70). `kind` is CACHE_WALK_STAT.KIND; `op` 0 CLEAN, 1 INVAL, 2 CLEAN_INVAL for ranges, drains and way cleans, 0 lock,
1 unlock, 2 unlock ALL for locks, 0 freeze, 1 hot sectors for a partition walk. `next` counts, for each slice, the sets (set mode) or 32 KiB
blocks (probe mode) passed, and `again` lists those to process again (R70). `waits` are the write-buffer lines it waits for (R74), `lastAt` the
cycle of its last event. -/
structure Walk where
  job : Nat
  kind : Nat
  op : Nat
  setMode : Bool
  base : Nat := 0
  len : Nat := 0
  pid : Nat := 0
  mask : BitVec 16 := 0#16
  next : Bank Nat := []
  again : Bank (List Nat) := []
  done : Nat := 0
  count : Nat := 0
  missed : Nat := 0
  bad : Nat := 0
  waits : List Nat := []
  hot : List Nat := []
  lastAt : Nat := 0
  deriving DecidableEq, Repr

/-- A running Mover descriptor (R285). `demoted` codes the lines of its chunk that were charged at class B (R185): line × 2, plus 1 for a write. -/
structure MovRun where
  pid : Nat
  d : MovDesc
  doneBytes : Nat
  crc : BitVec 64
  firstDiff : Option Nat
  stop : Bool
  job : Nat
  demoted : List Nat := []
  deriving DecidableEq, Repr

/-- A Colander and its die's event ring (R262, R355, R356): `fresh` of its records entered in cycle `freshAt` − 1. -/
structure Col where
  stages : List (BitVec 128) := []
  drops : Nat := 0
  tail : Nat := 0
  head : Nat := 0
  lastDrain : Nat := 0
  fresh : Nat := 0
  freshAt : Nat := 0
  deriving DecidableEq, Repr

/-- The Lid of one die (R386, R387). -/
structure Lid where
  openAt : Option Nat := none
  pair : Option (Nat × Word32 × Nat) := none
  deriving DecidableEq, Repr

/-- A mailbox (R389 to R391). -/
structure Mbox where
  valid : Bool := false
  busy : Bool := false
  err : Bool := false
  words : List Word32 := []
  deriving DecidableEq, Repr

/-- One die's PMU (R359): PMU_CYC, PMU_CNT_n, PMU_LAT_n and its window. Event, filter and control registers are words of
`regs`; `frzAt` is the cycle plus 1 of an overflow that froze it, `clrAt` those of the counters' clears, and `prev` the selections that a write
replaced, each with its cycle plus 1, to whose end they govern (R361 to R364). -/
structure Pmu where
  cyc : Nat := 0
  cnt : Bank Nat := []
  lat : Bank Nat := []
  winLeft : Option Nat := none
  slotHk : List Nat := []
  frzAt : Nat := 0
  clrAt : Bank Nat := []
  prev : Bank (Nat × (Nat × Nat)) := []
  deriving DecidableEq, Repr

/-- A latency record of one class and frame (R375). -/
structure LatRec where
  min : Nat := 0xFFFFFFFF
  max : Nat := 0
  buckets : Bank Nat := []
  deriving DecidableEq, Repr

/-- An entry of a correction table (R233): `loc` is coded as kind × 2^40 + place. -/
structure CorrEnt where
  loc : Nat
  pos : Nat
  count : Nat
  lap : Nat
  seq : Nat
  deriving DecidableEq, Repr

/-- A corrected write-back that is pending (R232): the location it belongs to, what it rewrites, `kind` 0 a main-memory word, 1 its partner's
copy, 2 an array line, numbered `key`, and its host line. -/
structure WBack where
  id : Nat
  loc : Nat
  kind : Nat
  key : Nat
  line : Nat
  deriving DecidableEq, Repr

/-- The walk of one Whisk over a lane (r = 0–3) or channel (r = 4–11) (R228, R231): `next` is the least line number not yet passed in the lap,
`lines` the lines read in the frame, `carry` those left over (R192), `rate` the pace in lines per frame; `begun` that its first lap has begun, `poison` the poisoned lines
met (R230). -/
structure WhiskPos where
  lap : Nat := 0
  lapFrame : Nat := 0
  lapAt : Nat := 0
  lines : Nat := 0
  lapFrames : Nat := 0
  lapMs : Nat := 0
  carry : Nat := 0
  rate : Nat := 0
  next : Nat := 0
  begun : Bool := false
  poison : Nat := 0
  deriving DecidableEq, Repr

/-- One background-test walk (R352, R354); `begun` that its first lap has begun. -/
structure BtPos where
  begun : Bool := false
  region : Nat := 0
  lapFrame : Nat := 0
  lapFrames : Nat := 0
  steps : Nat := 0
  carry : Nat := 0
  deriving DecidableEq, Repr

/-- A remap of a lane row into a spare row (R235). -/
structure Remap where
  lane : Nat
  row : Nat
  spare : Nat
  copied : Bool
  deriving DecidableEq, Repr

/-- What R397's Table: Boot configuration records. -/
structure BootCfg where
  expert : List Bool := []
  geoms : Bank Word32 := []
  twinGeom : Word32 := 0#32
  rmap : Bank REntry := []
  parts : Bank Part := []
  linkCtl : Bank Word32 := []
  cbAcc : Word32 := 0#32
  tickCtl : Word32 := 0#32
  period : Word32 := 0#32
  cacheSize : Nat := 0
  deriving DecidableEq, Repr

/-- The Ledger's records (Table: Ledger records, R347 to R351). `meta` holds, per record number, the sequence number of the copy
in force and its slot pair (R348, R349); `bad` lists records both of whose copies fail their check (R400); `failing` lists
records whose verify fails (R350). -/
structure Ledger where
  floor : Bank Nat := []
  keys : Bank (BitVec 128) := []
  pop : Option Nat := none
  boot : Option BootCfg := none
  bootSlot : Bool := false
  retire : List Nat := []
  remap : List Remap := []
  mainRows : List Nat := []
  failed : BitVec 11 := 0#11
  rowSpread : List (Nat × Nat) := []
  posD10 : Nat := 15
  training : List Nat := []
  spares : List (Nat × Nat × Nat) := []
  typeCnt : Bank Nat := []
  typeNew : Bank Nat := []
  sev3 : List (BitVec 128) := []
  power : List (Nat × Nat) := []
  recs : Bank (Nat × Nat) := []
  bad : List Nat := []
  failing : List Nat := []
  deriving DecidableEq, Repr

/-- The memories behind the hub, each a list of cells in canonical form (an absent byte reads 0), and what is wrong with their
stored check bits: 72-bit error masks per 8-byte word (R207), 16-symbol masks per array beat (R219) and CRC masks per array line
(R221). Masks are relative to the correct code, so a poison marking is mask 0x81 in bits [71:64], E0 in symbol 15, or all ones. `encLine` gives the host line
whose address an array line's code was made with (R218, R221), and `encRange` the offset, length and host address of ranges written as one. -/
structure Mem where
  main : List Host.Cell := []
  array : List Host.Cell := []
  kettle : List Host.Cell := []
  mainErr : Bank (BitVec 72) := []
  mirrErr : Bank (BitVec 72) := []
  ketErr : Bank (BitVec 72) := []
  beatErr : Bank (BitVec 128) := []
  crcErr : Bank Word32 := []
  encLine : Bank Nat := []
  encRange : List (Nat × Nat × Nat) := []
  injected : List Nat := []
  deriving DecidableEq, Repr

/-- A steward decision waiting for the next step boundary (R197). -/
structure Decision where
  kind : Nat
  pid : Nat
  newV : Nat
  mask : BitVec 16
  basis : Nat
  deriving DecidableEq, Repr

/-- The Frame Sequencer and the steward (R174 to R198). `tickPend`: 1 a real, 2 a synthetic tick accepted and not yet run;
`tickCtl` and `period` are the values in force, `tickAt` the cycle of the last tick, `relStep` the step whose release is in force. -/
structure FrameSeq where
  started : Bool := false
  fresh : Bool := false
  frame : Nat := 0
  tickAt : Nat := 0
  step : Nat := 0
  synth : Bool := false
  synthRun : Nat := 0
  srcNow : Nat := 3
  tickPend : Nat := 0
  tickCtl : Word32 := 0x0000033F#32
  period : Nat := 16667
  srcWritten : Bool := false
  charged : Bank Nat := []
  allow : Bank Int := []
  regionCnt : Bank Nat := []
  overcommit : Bool := false
  ghosts : Bank (List Nat) := []
  hist : Bank Nat := []
  histDone : Bank Nat := []
  passFrame : Option Nat := none
  decisions : List Decision := []
  skipPass : Bool := false
  fallback : List Nat := []
  deriving DecidableEq, Repr

/-- The cache's package-wide state (R78 to R84). `echoDue` are echo writes, merged per set, that wait for a write-buffer line (R92). -/
structure Cache where
  cst : CacheSt := .off
  size : Nat := 0
  sectors : List Sector := []
  locks : List (Nat × Nat × Nat) := []
  retired : List (Nat × Nat × Nat) := []
  powered : BitVec 16 := 0#16
  pending : BitVec 16 := 0#16
  echoDue : List WbLine := []
  coldCnt : Bank Nat := []
  deriving DecidableEq, Repr

/-- Device failure, rebuild, remap, Whisk, correction tables and internal paths (R225 to R238). `consec` counts consecutive corrections by lane × 16 +
position (R236), `backs` are the corrected write-backs pending (R232). `pathErr` lists parity errors that
wait on the next data message of a line; `flushBad` lists FLUSHING lines whose array line is rewritten when their write completes (R222);
`evict` lists slots retired by R234 whose sector is still to be evicted. -/
structure Integ where
  corr : Bank (List CorrEnt) := []
  corrSeq : Nat := 0
  whisk : Bank WhiskPos := []
  failed : BitVec 11 := 0#11
  posD10 : Nat := 15
  rebuild : Bool := false
  rebuildPtr : Nat := 0
  rebuildDue : Bool := false
  degraded : Bool := false
  consec : Bank Nat := []
  backs : List WBack := []
  pathErr : List (Nat × Nat) := []
  evict : List (Nat × Nat × Nat) := []
  flushBad : List Nat := []
  deriving DecidableEq, Repr

/-- The SPI flash's two slots as the hub knows them (LC_FW_A, LC_FW_B, R395, R414). -/
structure FwSlot where
  valid : Bool := false
  live : Bool := false
  failed : Bool := false
  attempts : Nat := 0
  major : Nat := 0
  minor : Nat := 0
  rdMin : Nat := 0
  rdMax : Nat := 0
  wrMax : Nat := 0
  image : List Byte := []
  deriving DecidableEq, Repr

/-- An LPDDR5X channel or array lane's training (LC_TRAIN_j, R401). -/
structure MemTrain where
  trained : Bool := false
  rate : Nat := 0
  attempts : Nat := 0
  full : Bool := false
  reason : Nat := 0
  backoff : Nat := 0
  backoffFrom : Option Nat := none
  selfRefresh : Bool := false
  deriving DecidableEq, Repr

/-- Phases, power and life cycle (R393 to R416) and the sideband pins (R428, R429). `back` is the phase that PWR_WARN left, `drainAt` its
cycle; `wakeWait` a WAKE held (R411), `waking` a wake whose main memory is not yet back (R408); `warm` gives the cause of each die's warm reset in
progress; `handover` the slot of an FW_SWITCH, taken in frame `handAt`, `handRun` its pause (R415); `named` that R416 has named the boot slot;
`cacheSize` the recorded cache size (R404); `chans` and `laneTrain` the channels' and lanes' training. -/
structure Life where
  phase : LcPhase := .boot
  back : LcPhase := .boot
  resetLow : Bool := true
  hubId : Bool := false
  bootSel : Bool := false
  arrayPop : Nat := 0
  pwrWarn : Bool := false
  drainAt : Option Nat := none
  drainDone : Bool := false
  warnGone : Bool := false
  wakeWait : Bool := false
  waking : Bool := false
  parkErr : Nat := 0
  parked : Bool := false
  kettleUp : Bool := false
  fullUp : Bool := false
  kettleLost : Bool := true
  lastRst : Bank Nat := []
  warm : Bank Nat := []
  fwMajor : Nat := 0
  fwMinor : Nat := 0
  fwSlot : Bool := false
  rdMin : Nat := 0
  rdMax : Nat := 0
  wrMax : Nat := 0
  slotA : FwSlot := {}
  slotB : FwSlot := {}
  romBackoff : Nat := 0
  romFrom : Option Nat := none
  handover : Option Bool := none
  handRun : Bool := false
  handAt : Nat := 0
  named : Bool := false
  cacheSize : Nat := 0
  chans : Bank MemTrain := []
  lanes : MemTrain := {}
  laneTrain : Bank MemTrain := []
  mainUnits : Nat := 0
  arrayUp : Bool := false
  zeroing : Bool := false
  dens24 : Bool := false
  mismatch : Bool := false
  temp : Bank Nat := []
  thermN : Bool := false
  witFaultN : Bool := false
  intN : BitVec 4 := 0#4
  deriving DecidableEq, Repr

/-- The I3C target and the test access port (R432, R433). -/
structure Side where
  i3cDyn : Option Nat := none
  i3cOut : Option Word32 := none
  tapInstr : Nat := 0
  tapOut : Option Word32 := none
  deriving DecidableEq, Repr

/-- A freeze-image save or restore in progress (R304 to R308). `image` holds the bytes to write once they are known, or for a restore the header
and CONFIG once they have passed; `marks` are the places in it that take the poison marking; `level` is 0 in a restore whose header is still to
be checked. -/
structure ImgJob where
  job : Nat
  pid : Nat
  save : Bool
  addr : Nat
  level : Nat
  hot : Bool
  image : List Byte
  arg0 : BitVec 64
  marks : List Nat := []
  deriving DecidableEq, Repr

/-- The hub: everything but the queue of waiting commands. `orphans` are snoops (host and identifier) that R173 has done without, whose late
answers mean nothing; `pfSkip` counts hints and prefetches not issued, by cluster and PID (R87). -/
structure Hub where
  now : Nat := 0
  free : Nat := 0
  regs : Bank Word32 := []
  life : Life := {}
  led : Ledger := {}
  rmap : Bank REntry := []
  mem : Mem := {}
  cache : Cache := {}
  sieve : List SEnt := []
  recov : List Recovery := []
  txns : List Txn := []
  nextId : Nat := 1
  snps : List Snp := []
  orphans : List (Nat × Nat) := []
  waiting : List Waiting := []
  wbs : List WbLine := []
  tongs : List Tong := []
  ladle : List LadleE := []
  pfSkip : Bank Nat := []
  dets : List Det := []
  mons : List Mon := []
  links : Bank Link := []
  twin : Twin := {}
  parts : Bank Part := []
  wins : Bank Win := []
  mgrs : Bank Mgr := []
  heavy : List Heavy := []
  walks : List Walk := []
  shadows : List (Nat × Nat × REntry) := []
  images : List ImgJob := []
  warm : Bank (List Nat) := []
  warmAt : Nat := 0
  stage : Option (Nat × Bool × List Byte) := none
  movs : List MovRun := []
  fs : FrameSeq := {}
  col : Bank Col := []
  lid : Bank Lid := []
  mbox : Bank Mbox := []
  pmu : Bank Pmu := []
  bwLeft : Nat := 0
  bwLat : Bank (Nat × Nat) := []
  lat : Bank LatRec := []
  latDone : Bank LatRec := []
  occ : Bank (List Nat) := []
  occDone : Bank (Nat × List Nat) := []
  rounds : Bank (List Nat) := []
  slotUse : Bank (List (Nat × Bool)) := []
  integ : Integ := {}
  bt : Bank BtPos := []
  side : Side := {}
  undef : List Nat := []
  deriving DecidableEq, Repr

/-- The state of the machine: the hub and the queue of commands that are waiting, first in, first out. -/
structure State where
  hub : Hub
  pending : List Instr
  deriving DecidableEq, Repr

/-- Why the machine stops with a fault. -/
inductive Fault where
  /-- A flit that begins a header in a slot that an earlier message still owes data to (chapter 13, Undefined cases, R5). Raised by
  FLIT_RECEIVED. Safe: the model stops where the spec gives no guarantee. -/
  | undefinedMessage
  deriving DecidableEq, Repr

/-- Why the machine gives a command no meaning. -/
inductive Refusal where
  /-- The command has no meaning in this model yet. Raised by the dispatch only. Safe. -/
  | notModelled (mnemonic : String)
  deriving DecidableEq, Repr

/-- The machine right after reset: RESET_N low, every register at its reset value (no word listed in `regs`), nothing in
any table, the Ledger and the Kettle as a new part has them. -/
def State.reset : State := { hub := {}, pending := [] }

end Sys2Proof.Machine
end

