-- ==== Sys2Proof/Machine/Ops.lean ====
section
/-! DEFINITION. The named operations over banks, bit fields, bytes and the memories behind the hub. -/

namespace Sys2Proof.Machine

/-! ### Banks -/

/-- The entry of a bank at a key. -/
def bfind {α : Type} : Bank α → Nat → Option α
  | [], _ => none
  | (k, v) :: r, i => if k = i then some v else bfind r i

/-- The entry of a bank at a key, or the bank's default. -/
def bget {α : Type} (b : Bank α) (i : Nat) (d : α) : α := (bfind b i).getD d

/-- A bank with one entry written; keys stay in rising order. -/
def bset {α : Type} : Bank α → Nat → α → Bank α
  | [], i, v => [(i, v)]
  | (k, w) :: r, i, v =>
    if i < k then (i, v) :: (k, w) :: r
    else if i = k then (i, v) :: r
    else (k, w) :: bset r i v

/-- A bank with one entry changed, starting from the default where it has none. -/
def bupd {α : Type} (b : Bank α) (i : Nat) (d : α) (f : α → α) : Bank α := bset b i (f (bget b i d))

/-- A bank without the entry at a key. -/
def bdel {α : Type} (b : Bank α) (i : Nat) : Bank α := b.filter (fun e => e.1 != i)

/-! ### Bit fields and bytes -/

/-- Bits `hi` down to `lo` of a number. -/
def bits (v hi lo : Nat) : Nat := (v >>> lo) % 2 ^ (hi + 1 - lo)

/-- One bit of a number. -/
def bitOf (v i : Nat) : Bool := v.testBit i

/-- 1 for true. -/
def b2n (b : Bool) : Nat := if b then 1 else 0

/-- A number with bits `hi` down to `lo` replaced by `x` (taken modulo the field's width). -/
def putBits (v hi lo x : Nat) : Nat :=
  v - (bits v hi lo) * 2 ^ lo + (x % 2 ^ (hi + 1 - lo)) * 2 ^ lo

/-- A field's value placed at its lowest bit. -/
def fieldAt (x lo : Nat) : Nat := x * 2 ^ lo

/-- Number of set bits among the lowest `n`. -/
def popcount (v n : Nat) : Nat := ((List.range n).filter (fun i => v.testBit i)).length

/-- A count that stops at the most its field holds. -/
def satAdd (v n width : Nat) : Nat := min (v + n) (2 ^ width - 1)

/-- The set bit numbers among the lowest `n`, rising. -/
def bitList (v n : Nat) : List Nat := (List.range n).filter (fun i => v.testBit i)

/-- A number with one bit set or cleared. -/
def setBit (v i : Nat) (b : Bool) : Nat := putBits v i i (b2n b)

/-- The number that bytes spell, least significant first. -/
def ofBytes : List Byte → Nat
  | [] => 0
  | b :: r => b.toNat + 256 * ofBytes r

/-- The `n` bytes of a number, least significant first. -/
def toBytes : Nat → Nat → List Byte
  | 0, _ => []
  | n + 1, v => BitVec.ofNat 8 v :: toBytes n (v / 256)

/-- A list of bytes made exactly `n` long, filled with zeros. -/
def fitBytes (n : Nat) (l : List Byte) : List Byte := (l ++ List.replicate (n - l.length) 0#8).take n

/-- A mask made exactly `n` long, filled with false. -/
def fitMask (n : Nat) (l : List Bool) : List Bool := (l ++ List.replicate (n - l.length) false).take n

/-- Bytes with the enabled ones of `new` put over `old`. -/
def mergeBytes : List Byte → List Byte → List Bool → List Byte
  | o :: os, n :: ns, m :: ms => (if m then n else o) :: mergeBytes os ns ms
  | os, _, _ => os

/-- `n` bytes of a list from place `i`. -/
def slice {α : Type} (l : List α) (i n : Nat) : List α := (l.drop i).take n

/-- A list with `new` put over it from place `i`. -/
def splice {α : Type} (l : List α) (i : Nat) (new : List α) : List α :=
  l.take i ++ new ++ l.drop (i + new.length)

/-- Rounds a quotient up. -/
def ceilDiv (a b : Nat) : Nat := (a + b - 1) / b

/-- The first element that passes a test, with it replaced. -/
def updFirst {α : Type} (p : α → Bool) (f : α → α) : List α → List α
  | [] => []
  | x :: r => if p x then f x :: r else x :: updFirst p f r

/-- The list without its first element that passes a test. -/
def delFirst {α : Type} (p : α → Bool) : List α → List α
  | [] => []
  | x :: r => if p x then r else x :: delFirst p r

/-- Sum of a list of numbers. -/
def sumOf : List Nat → Nat
  | [] => 0
  | x :: r => x + sumOf r

/-- Largest of a list of numbers, 0 for none. -/
def maxOf : List Nat → Nat
  | [] => 0
  | x :: r => max x (maxOf r)

/-- The first element for which `f` is smallest. -/
def minBy {α : Type} (f : α → Nat) : List α → Option α
  | [] => none
  | x :: r =>
    match minBy f r with
    | none => some x
    | some y => if f x ≤ f y then some x else some y

/-- Applies a change of the hub for each element in turn. -/
def forEach {α : Type} (l : List α) (f : α → Hub → Hub) (h : Hub) : Hub := l.foldl (fun h x => f x h) h

/-! ### Memories

A memory is a list of cells with strictly rising addresses and no cell equal to 0; a byte not listed reads 0. For the
Kettle and the near memory this is the spec's (R346, R404); for main memory and the rest of the array the spec names no
contents after power-on, and 0 is a DESIGN CHOICE, unsafe (log entry 7). -/

/-- One byte of a memory. -/
def memRead : List Host.Cell → Nat → Byte
  | [], _ => 0#8
  | (a, v) :: r, i => if i < a then 0#8 else if i = a then v else memRead r i

/-- A memory with one byte written, in canonical form. -/
def memWrite : List Host.Cell → Nat → Byte → List Host.Cell
  | [], i, v => if v = 0#8 then [] else [(i, v)]
  | (a, w) :: r, i, v =>
    if i < a then (if v = 0#8 then (a, w) :: r else (i, v) :: (a, w) :: r)
    else if i = a then (if v = 0#8 then r else (i, v) :: r)
    else (a, w) :: memWrite r i v

/-- Whether a memory is in its canonical form: addresses strictly rising, no cell 0. -/
def Memory.wf : List Host.Cell → Bool
  | [] => true
  | [(_, v)] => v != 0#8
  | (a, v) :: (b, w) :: r => v != 0#8 && decide (a < b) && Memory.wf ((b, w) :: r)

/-- `n` bytes of a memory from an address. -/
def memReadN (m : List Host.Cell) (a n : Nat) : List Byte := (List.range n).map (fun i => memRead m (a + i))

/-- A memory with bytes written from an address. -/
def memWriteN (m : List Host.Cell) (a : Nat) : List Byte → List Host.Cell
  | [] => m
  | b :: r => memWriteN (memWrite m a b) (a + 1) r

/-- The three memories are in canonical form. -/
def Mem.wf (m : Mem) : Bool := Memory.wf m.main && Memory.wf m.array && Memory.wf m.kettle

/-! ### Meanings and the queue -/

/-- A meaning whose effect on the hub is always defined: the queue stays as it is. -/
def liftHub (f : Hub → Hub) (s : State) : Host.Outcome State Fault Refusal := .next ⟨f s.hub, s.pending⟩

/-- The meaning of a received flit, undefined where `f` answers none (R5, R322). -/
def liftFlit (f : Hub → Option Hub) (s : State) : Host.Outcome State Fault Refusal :=
  match f s.hub with
  | some h => .next ⟨h, s.pending⟩
  | none => .fault .undefinedMessage

end Sys2Proof.Machine
end

