-- ==== Sys2Proof/Machine/Codes.lean ====
section
/-! DEFINITION. The codes the spec names: CRC-64/ECMA-182 (R243), CRC-32C (R221), SEC-DED (72,64) (R207), the chip-kill
Reed-Solomon code (R218 to R220), AES-128, AES-CMAC and AES Key Wrap (R272, R276). -/

namespace Sys2Proof.Machine

/-! ### CRCs -/

/-- One bit of a CRC shifted out at the top. -/
def crcShift (poly width : Nat) : Nat → Nat → Nat
  | 0, c => c
  | n + 1, c =>
    let d := (c * 2) % 2 ^ width
    crcShift poly width n (if c.testBit (width - 1) then Nat.xor d poly else d)

/-- CRC-64/ECMA-182 of bytes, with R243's parameters, from a running value. -/
def crc64From (c : Nat) (l : List Byte) : Nat :=
  l.foldl (fun c b => crcShift 0x42F0E1EBA9EA3693 64 8 (Nat.xor c (b.toNat * 2 ^ 56))) c

/-- CRC-64/ECMA-182 of bytes (R243). -/
def crc64 (l : List Byte) : Nat := crc64From 0 l

/-- Bytes of an address, most significant first (R243). -/
def addrBytesBE (a : Nat) : List Byte := (toBytes 6 a).reverse

/-- Hash of a line: CRC of its address and its 128 bytes (R243). -/
def lineHash (a : Nat) (d : List Byte) : BitVec 64 := BitVec.ofNat 64 (crc64 (addrBytesBE (a / 128 * 128) ++ d))

/-- One byte of a reflected CRC. -/
def crc32Bits : Nat → Nat → Nat
  | 0, c => c
  | n + 1, c => crc32Bits n (if c.testBit 0 then Nat.xor (c / 2) 0x82F63B78 else c / 2)

/-- Reflected CRC-32C from a running value, no final XOR: linear in its bytes when it starts from 0. -/
def crc32From (c : Nat) (l : List Byte) : Nat := l.foldl (fun c b => crc32Bits 8 (Nat.xor c b.toNat)) c

/-- CRC-32C of an array line in CRC line mode: address least significant byte first, then the line (R221). -/
def lineCrc (a : Nat) (d : List Byte) : Nat :=
  Nat.xor (crc32From 0xFFFFFFFF (toBytes 6 (a / 128 * 128) ++ d)) 0xFFFFFFFF

/-! ### SEC-DED (72,64) (R207) -/

/-- Outcome of a check of a word, a beat or a line, from best to worst. -/
inductive EccOut where
  | clean | corrected | poison | bad
  deriving DecidableEq, Repr

/-- Rank of an outcome; a line takes the worst (R219). -/
def EccOut.rank : EccOut → Nat
  | .clean => 0
  | .corrected => 1
  | .poison => 2
  | .bad => 3

/-- The worse of two outcomes. -/
def EccOut.worse (a b : EccOut) : EccOut := if a.rank < b.rank then b else a

/-- Columns H(0) to H(63). -/
def hColumns : List Nat :=
  (List.range 256).filter (fun v => popcount v 8 = 3) ++ ((List.range 256).filter (fun v => popcount v 8 = 5)).take 8

/-- XOR of the columns of the set bits of a 64-bit value: the check byte of a word, and the part of a syndrome that a data
error causes. -/
def hCheck (d : Nat) : Nat :=
  (hColumns.foldl (fun (p : Nat × Nat) c => (p.1 + 1, if d.testBit p.1 then Nat.xor p.2 c else p.2)) (0, 0)).2

/-- Classifies a stored word from the error in it (data in bits [63:0], check byte in [71:64]): the outcome, and the error left
in the data that is used. -/
def secded (e : Nat) : EccOut × Nat :=
  let d := e % 2 ^ 64
  let s := Nat.xor (e / 2 ^ 64 % 256) (hCheck d)
  if s = 0 then (.clean, d)
  else if s = 0x81 then (.poison, d)
  else if popcount s 8 = 1 then (.corrected, d)
  else match hColumns.findIdx? (· == s) with
    | some i => (.corrected, Nat.xor d (2 ^ i))
    | none => (.bad, d)

/-! ### Chip-kill code (R218 to R220) -/

/-- Product in GF(2^8) with polynomial 0x11D. -/
def gfMulN : Nat → Nat → Nat → Nat
  | 0, _, _ => 0
  | n + 1, a, b =>
    let a2 := if a.testBit 7 then Nat.xor (a * 2 % 256) 0x1D else a * 2
    Nat.xor (if b.testBit 0 then a else 0) (gfMulN n a2 (b / 2))

/-- Product in GF(2^8). -/
def gfMul (a b : Nat) : Nat := gfMulN 8 a b

/-- Power of the primitive element. -/
def alphaPow : Nat → Nat
  | 0 => 1
  | n + 1 => gfMul 2 (alphaPow n)

/-- Inverse in GF(2^8), 0 for 0. -/
def gfInv (a : Nat) : Nat := ((List.range 256).find? (fun b => gfMul a b = 1)).getD 0

/-- Symbol `i` of a beat's error. -/
def symOf (e i : Nat) : Nat := e / 2 ^ (8 * i) % 256

/-- S0 of a beat's error. -/
def synd0 (e : Nat) : Nat := (List.range 16).foldl (fun s i => Nat.xor s (symOf e i)) 0

/-- S1 of a beat's error. -/
def synd1 (e : Nat) : Nat := (List.range 16).foldl (fun s i => Nat.xor s (gfMul (symOf e i) (alphaPow i))) 0

/-- Classifies a beat from the error in it, with no erasure, one erased position (R220) or two (R238): the outcome, the symbol
position corrected where one is, and the error left in what is used. -/
def beatCheck (erased : List Nat) (e : Nat) : EccOut × Option Nat × Nat :=
  match erased with
  | [] =>
    let s0 := synd0 e
    let s1 := synd1 e
    if s0 = 0 ∧ s1 = 0 then (.clean, none, e)
    else if s0 = 0 ∨ s1 = 0 then (.bad, none, e)
    else match (List.range 16).find? (fun j => gfMul s0 (alphaPow j) = s1) with
      | none => (.bad, none, e)
      | some j =>
        if j < 10 then (.corrected, some j, Nat.xor e (s0 * 2 ^ (8 * j)))
        else if j = 15 ∧ s0 = 0xE0 then (.poison, none, e)
        else (.bad, none, e)
  | [i] =>
    let f := Nat.xor e (symOf e i * 2 ^ (8 * i))
    let s0 := synd0 f
    if synd1 f = gfMul s0 (alphaPow i) then (.clean, none, Nat.xor f (s0 * 2 ^ (8 * i))) else (.bad, none, f)
  | i :: j :: _ =>
    let f := Nat.xor (Nat.xor e (symOf e i * 2 ^ (8 * i))) (symOf e j * 2 ^ (8 * j))
    let s0 := synd0 f
    let s1 := synd1 f
    let xj := gfMul (Nat.xor s1 (gfMul s0 (alphaPow i))) (gfInv (Nat.xor (alphaPow i) (alphaPow j)))
    (.clean, none, Nat.xor (Nat.xor f (Nat.xor s0 xj * 2 ^ (8 * i))) (xj * 2 ^ (8 * j)))

/-- The errors of data symbols 0 to 7 of a beat, as eight bytes of the line. -/
def beatData (e : Nat) : List Byte := toBytes 8 (e / 2 ^ 16 % 2 ^ 64)

/-! ### AES-128 (NIST FIPS 197; the spec names SP 800-38B and SP 800-38F). PRESUMED: the standards' text, log entry 8. -/

/-- The AES S-box, byte x in bits [8x+7:8x]. -/
def aesSboxN : Nat := 0x16bb54b00f2d99416842e6bf0d89a18cdf2855cee9871e9b948ed9691198f8e19e1dc186b95735610ef6034866b53e708a8bbd4b1f74dde8c6b4a61c2e2578ba08ae7a65eaf4566ca94ed58d6d37c8e779e4959162acd3c25c2406490a3a32e0db0b5ede14b8ee4688902a22dc4f816073195d643d7ea7c41744975fec130ccdd2f3ff1021dab6bcf5389d928f40a351a89f3c507f02f94585334d43fbaaefd0cf584c4a39becb6a5bb1fc20ed00d153842fe329b3d63b52a05a6e1b1a2c830975b227ebe28012079a059618c323c7041531d871f1e5a534ccf73f362693fdb7c072a49cafa2d4adf04759fa7dc982ca76abd7fe2b670130c56f6bf27b777c63

/-- The inverse S-box. -/
def aesInvSboxN : Nat := 0x7d0c2155631469e126d677ba7e042b17619953833cbbebc8b0f52aae4d3be0a0ef9cc9939f7ae52d0d4ab519a97f51605fec8027591012b131c7078833a8dd1ff45acd78fec0db9a2079d2c64b3e56fc1bbe18aa0e62b76f89c5291d711af1476edf751ce837f9e28535ade72274ac9673e6b4f0cecff297eadc674f4111913a6b8a130103bdafc1020f3fca8f1e2cd00645b3b80558e4f70ad3bc8c00abd890849d8da75746155edab9edfd5048706c92b6655dcc5ca4d41698688664f6f87225d18b6d49a25b76b224d92866a12e084ec3fa420b954cee3d23c2a632947b54cbe9dec444438e3487ff2f9b8239e37cfbd7f3819ea340bf38a53630d56a0952

/-- S-box of a byte. -/
def aesSub (x : Nat) : Nat := (aesSboxN >>> (8 * x)) % 256

/-- Inverse S-box of a byte. -/
def aesInvSub (x : Nat) : Nat := (aesInvSboxN >>> (8 * x)) % 256

/-- Product in the AES field (polynomial 0x11B). -/
def aesMulN : Nat → Nat → Nat → Nat
  | 0, _, _ => 0
  | n + 1, a, b =>
    let a2 := if a.testBit 7 then Nat.xor (a * 2 % 256) 0x1B else a * 2
    Nat.xor (if b.testBit 0 then a else 0) (aesMulN n a2 (b / 2))

/-- Elementwise XOR of two lists of bytes. -/
def xorBytes (a b : List Nat) : List Nat := List.zipWith Nat.xor a b

/-- The next round key from the last. -/
def aesNextKey (rcon : Nat) (k : List Nat) : List Nat :=
  let t := [Nat.xor (aesSub (k.getD 13 0)) rcon, aesSub (k.getD 14 0), aesSub (k.getD 15 0), aesSub (k.getD 12 0)]
  let w0 := xorBytes (slice k 0 4) t
  let w1 := xorBytes (slice k 4 4) w0
  let w2 := xorBytes (slice k 8 4) w1
  let w3 := xorBytes (slice k 12 4) w2
  w0 ++ w1 ++ w2 ++ w3

/-- The eleven round keys of a key. -/
def aesKeys : List Nat → Nat → List Nat → List (List Nat)
  | [], _, k => [k]
  | _ :: r, rcon, k => k :: aesKeys r (aesMulN 8 rcon 2) (aesNextKey rcon k)

/-- Bytes of the state taken in the order of a row shift. -/
def aesShift (o : List Nat) (s : List Nat) : List Nat := o.map (fun i => s.getD i 0)

/-- One column times a circulant matrix row list. -/
def aesCol (m : List Nat) (c : List Nat) : List Nat :=
  (List.range 4).map (fun r =>
    (List.range 4).foldl (fun s i => Nat.xor s (aesMulN 8 (c.getD i 0) (m.getD ((i + 4 - r) % 4) 0))) 0)

/-- All four columns times a matrix. -/
def aesMix (m : List Nat) (s : List Nat) : List Nat :=
  aesCol m (slice s 0 4) ++ aesCol m (slice s 4 4) ++ aesCol m (slice s 8 4) ++ aesCol m (slice s 12 4)

/-- Rounds of the cipher over the remaining round keys. -/
def aesRounds : List (List Nat) → List Nat → List Nat
  | [], s => s
  | [k], s => xorBytes (aesShift [0, 5, 10, 15, 4, 9, 14, 3, 8, 13, 2, 7, 12, 1, 6, 11] (s.map aesSub)) k
  | k :: k2 :: r, s =>
    aesRounds (k2 :: r)
      (xorBytes (aesMix [2, 3, 1, 1] (aesShift [0, 5, 10, 15, 4, 9, 14, 3, 8, 13, 2, 7, 12, 1, 6, 11] (s.map aesSub))) k)

/-- AES-128 of one block. -/
def aesEnc (key blk : List Nat) : List Nat :=
  match aesKeys (List.range 10) 1 key with
  | [] => blk
  | k :: r => aesRounds r (xorBytes blk k)

/-- Rounds of the inverse cipher over the remaining round keys, last first. -/
def aesInvRounds : List (List Nat) → List Nat → List Nat
  | [], s => s
  | [k], s => xorBytes ((aesShift [0, 13, 10, 7, 4, 1, 14, 11, 8, 5, 2, 15, 12, 9, 6, 3] s).map aesInvSub) k
  | k :: k2 :: r, s =>
    aesInvRounds (k2 :: r)
      (aesMix [14, 11, 13, 9]
        (xorBytes ((aesShift [0, 13, 10, 7, 4, 1, 14, 11, 8, 5, 2, 15, 12, 9, 6, 3] s).map aesInvSub) k))

/-- AES-128 inverse of one block. -/
def aesDec (key blk : List Nat) : List Nat :=
  match (aesKeys (List.range 10) 1 key).reverse with
  | [] => blk
  | k :: r => aesInvRounds r (xorBytes blk k)

/-- Doubling of a block in the CMAC field. -/
def cmacDouble (b : List Nat) : List Nat :=
  let v := b.foldl (fun s x => s * 256 + x) 0
  let w := if v.testBit 127 then Nat.xor (v * 2 % 2 ^ 128) 0x87 else v * 2
  (toBytes 16 w).reverse.map BitVec.toNat

/-- Chained encryption of full blocks, the last one XORed with the subkey. -/
def cmacBlocks (key sub : List Nat) : List (List Nat) → List Nat → List Nat
  | [], c => c
  | [m], c => aesEnc key (xorBytes (xorBytes m sub) c)
  | m :: r, c => cmacBlocks key sub r (aesEnc key (xorBytes m c))

/-- AES-CMAC of a message of whole blocks (the 64-byte message of R272): the first 8 bytes of its 16, in output order. -/
def cmac64 (key : List Nat) (msg : List Nat) : List Nat :=
  let k1 := cmacDouble (aesEnc key (List.replicate 16 0))
  (cmacBlocks key k1 [slice msg 0 16, slice msg 16 16, slice msg 32 16, slice msg 48 16] (List.replicate 16 0)).take 8

/-- One step of AES Key Unwrap for a 128-bit key: (A, R1, R2) with counter t. -/
def unwrapStep (key : List Nat) (p : List Nat × List Nat × List Nat) (t : Nat) : List Nat × List Nat × List Nat :=
  let (a, r1, r2) := p
  let a' := xorBytes a ([0, 0, 0, 0, 0, 0, 0, t])
  if t % 2 = 0 then
    let b := aesDec key (a' ++ r2)
    (b.take 8, r1, b.drop 8)
  else
    let b := aesDec key (a' ++ r1)
    (b.take 8, b.drop 8, r2)

/-- AES Key Unwrap of 24 bytes under a key: the 16 bytes of the key, or none where the initial value is not the default. -/
def keyUnwrap (key wrapped : List Nat) : Option (List Nat) :=
  let p := [12, 11, 10, 9, 8, 7, 6, 5, 4, 3, 2, 1].foldl (unwrapStep key) (slice wrapped 0 8, slice wrapped 8 8, slice wrapped 16 8)
  if p.1 = List.replicate 8 0xA6 then some (p.2.1 ++ p.2.2) else none

end Sys2Proof.Machine
end

