-- ==== Sys2Proof/Machine/RegTable.lean ====
section
/-! DEFINITION. Every register of the control block and the block registers that the spec's tables give (R377): offset, stride
and count, whether both windows show one register, and each field with its access code and reset value. A field whose reset value
the spec names by its source (strap, firmware, Ledger, boot) is read from that source; its word here is 0. -/

namespace Sys2Proof.Machine

/-- Access codes of register fields (Table: Access code behaviour, R382). -/
inductive Acc where
  | rw | ro | rc | wo | wk | wp
  deriving DecidableEq, Repr

/-- One field: top bit, bottom bit, access code, reset value. -/
structure RegField where
  hi : Nat
  lo : Nat
  acc : Acc
  rst : Nat
  deriving DecidableEq, Repr

/-- One register or a row of equal ones: index i (from `first`, `count` of them) is at `base + stride * i`. -/
structure RegRow where
  base : Nat
  stride : Nat
  first : Nat
  count : Nat
  pkg : Bool
  fields : List RegField
  deriving DecidableEq, Repr

/-- Registers of spec/02_cache_lookup_and_allocation.md: CACHE_CFG, CACHE_AGE_CTL, CACHE_TRK_CTL, CACHE_CAST_CTL. -/
def regsCache : List RegRow := [
  ⟨0x04000, 4, 0, 1, false, [⟨8, 8, .ro, 0⟩, ⟨2, 2, .ro, 0⟩, ⟨1, 0, .ro, 0⟩]⟩,
  ⟨0x04004, 4, 0, 1, false, [⟨18, 16, .rw, 6⟩, ⟨14, 12, .rw, 6⟩, ⟨10, 8, .rw, 5⟩, ⟨6, 4, .rw, 2⟩, ⟨2, 0, .rw, 2⟩]⟩,
  ⟨0x04008, 4, 0, 1, false, [⟨21, 16, .rw, 8⟩, ⟨14, 8, .rw, 8⟩, ⟨6, 0, .rw, 8⟩]⟩,
  ⟨0x0400C, 4, 0, 1, false, [⟨11, 8, .rw, 4⟩, ⟨7, 2, .rw, 4⟩, ⟨1, 0, .rw, 0⟩]⟩]

/-- Registers of spec/03_cache_maintenance_prefetch_power.md: CACHE_WALK_CTL, CACHE_WALK_STAT, CACHE_LOCK_STAT, CACHE_WAY_PWR, CACHE_PAR_STAT, LADLE_CTL. -/
def regsCacheMaint : List RegRow := [
  ⟨0x04010, 4, 0, 1, false, [⟨11, 8, .rw, 4⟩, ⟨4, 0, .rw, 16⟩]⟩,
  ⟨0x04014, 4, 0, 1, false, [⟨31, 30, .ro, 0⟩, ⟨29, 27, .ro, 0⟩, ⟨26, 26, .ro, 0⟩, ⟨16, 0, .ro, 0⟩]⟩,
  ⟨0x04018, 4, 0, 1, false, [⟨31, 16, .rc, 0⟩, ⟨15, 8, .rc, 0⟩]⟩,
  ⟨0x0401C, 4, 0, 1, false, [⟨31, 16, .ro, 0⟩, ⟨15, 0, .ro, 0⟩]⟩,
  ⟨0x04020, 4, 0, 1, false, [⟨31, 16, .rc, 0⟩, ⟨15, 8, .rc, 0⟩]⟩,
  ⟨0x04024, 4, 0, 1, false, [⟨31, 31, .ro, 0⟩, ⟨11, 8, .rw, 8⟩, ⟨2, 0, .rw, 3⟩]⟩]

/-- Registers of spec/04_coherence_protocol.md: COH_CFG, COH_HOST_n_GEOM, COH_TWIN_GEOM, COH_TWIN_PEER, COH_SIEVE_STAT, COH_ERR_STAT. -/
def regsCoherence : List RegRow := [
  ⟨0x04040, 4, 0, 1, true, [⟨31, 31, .ro, 0⟩, ⟨27, 16, .rw, 256⟩, ⟨9, 0, .rw, 100⟩]⟩,
  ⟨0x04050, 4, 0, 7, true, [⟨31, 24, .wk, 0⟩, ⟨23, 23, .wk, 0⟩, ⟨22, 22, .wk, 0⟩, ⟨20, 16, .wk, 0⟩, ⟨15, 12, .wk, 0⟩, ⟨9, 5, .wk, 0⟩]⟩,
  ⟨0x0406C, 4, 0, 1, true, [⟨23, 23, .wk, 0⟩, ⟨22, 22, .wk, 1⟩, ⟨15, 12, .wk, 0⟩, ⟨9, 5, .wk, 0⟩]⟩,
  ⟨0x04070, 4, 0, 1, true, [⟨23, 23, .ro, 0⟩, ⟨22, 22, .ro, 0⟩, ⟨15, 12, .ro, 0⟩, ⟨9, 5, .ro, 0⟩]⟩,
  ⟨0x04074, 4, 0, 1, false, [⟨31, 31, .rc, 0⟩, ⟨28, 24, .ro, 0⟩, ⟨19, 0, .ro, 0⟩]⟩,
  ⟨0x04078, 4, 0, 1, false, [⟨31, 16, .rc, 0⟩, ⟨15, 8, .rc, 0⟩, ⟨7, 0, .rc, 0⟩]⟩]

/-- Registers of spec/06_memory_ordering.md: RESV_STAT, RESV_LOSS, WB_STAT. -/
def regsOrdering : List RegRow := [
  ⟨0x04080, 4, 0, 1, false, [⟨6, 0, .ro, 0⟩]⟩,
  ⟨0x04084, 4, 0, 1, false, [⟨31, 24, .rc, 0⟩, ⟨23, 16, .rc, 0⟩, ⟨15, 8, .rc, 0⟩, ⟨7, 0, .rc, 0⟩]⟩,
  ⟨0x04088, 4, 0, 1, false, [⟨31, 31, .ro, 0⟩, ⟨8, 0, .ro, 0⟩]⟩]

/-- Registers of spec/07_frame_sequencer_and_budgets.md: FS_CFG, FS_TICK_CTL, FS_PERIOD, FS_STEP, FS_FRAME, FS_CAP, FS_ADMIT, FS_HK_STAT, FS_STAT, FS_OVR_CAUSE, STW_CTL. -/
def regsFrame : List RegRow := [
  ⟨0x04100, 4, 0, 1, true, [⟨31, 31, .ro, 0⟩, ⟨11, 8, .rw, 4⟩, ⟨3, 0, .rw, 3⟩]⟩,
  ⟨0x04104, 4, 0, 1, true, [⟨15, 15, .wk, 0⟩, ⟨14, 12, .wk, 0⟩, ⟨11, 8, .wk, 3⟩, ⟨6, 6, .wk, 0⟩, ⟨3, 2, .wk, 3⟩, ⟨1, 0, .wk, 3⟩]⟩,
  ⟨0x04108, 4, 0, 1, true, [⟨15, 0, .wk, 16667⟩]⟩,
  ⟨0x0410C, 4, 0, 1, true, [⟨31, 12, .ro, 0⟩, ⟨8, 8, .ro, 0⟩, ⟨7, 6, .ro, 3⟩, ⟨3, 0, .ro, 0⟩]⟩,
  ⟨0x04110, 4, 0, 1, true, [⟨31, 0, .ro, 0⟩]⟩,
  ⟨0x04114, 4, 0, 1, true, [⟨19, 0, .ro, 0⟩]⟩,
  ⟨0x04118, 4, 0, 1, true, [⟨19, 0, .ro, 0⟩]⟩,
  ⟨0x0411C, 4, 0, 1, true, [⟨19, 0, .ro, 0⟩]⟩,
  ⟨0x04120, 4, 0, 1, true, [⟨31, 24, .rc, 0⟩, ⟨23, 16, .rc, 0⟩, ⟨15, 8, .rc, 0⟩, ⟨4, 4, .rc, 0⟩, ⟨3, 3, .rc, 0⟩, ⟨2, 2, .rc, 0⟩, ⟨1, 1, .ro, 0⟩, ⟨0, 0, .rc, 0⟩]⟩,
  ⟨0x04124, 4, 0, 1, true, [⟨31, 24, .rc, 0⟩, ⟨23, 16, .rc, 0⟩, ⟨15, 8, .rc, 0⟩, ⟨7, 0, .rc, 0⟩]⟩,
  ⟨0x04128, 4, 0, 1, true, [⟨23, 16, .rw, 8⟩, ⟨15, 8, .rw, 48⟩, ⟨7, 0, .rw, 16⟩]⟩]

/-- Registers of spec/08_array_and_main_memory.md: ARRAY_STAT, ARRAY_LAYOUT, MEM_STAT, MEM_RATE, RMAP_n_BASE, RMAP_n_ATTR, RMAP_n_TGT, RMAP_n_SRC. -/
def regsMemory : List RegRow := [
  ⟨0x04180, 4, 0, 1, true, [⟨31, 30, .ro, 0⟩, ⟨29, 28, .ro, 0⟩, ⟨27, 27, .ro, 0⟩, ⟨26, 26, .ro, 0⟩, ⟨25, 24, .ro, 0⟩, ⟨23, 23, .ro, 0⟩]⟩,
  ⟨0x04184, 4, 0, 1, true, [⟨29, 16, .ro, 0⟩, ⟨13, 0, .ro, 0⟩]⟩,
  ⟨0x04188, 4, 0, 1, true, [⟨31, 24, .ro, 0⟩, ⟨15, 0, .ro, 0⟩]⟩,
  ⟨0x0418C, 4, 0, 1, true, [⟨31, 0, .ro, 0⟩]⟩,
  ⟨0x05000, 16, 0, 64, true, [⟨31, 31, .ro, 0⟩, ⟨26, 0, .ro, 0⟩]⟩,
  ⟨0x05004, 16, 0, 64, true, [⟨23, 23, .ro, 0⟩, ⟨22, 22, .ro, 0⟩, ⟨21, 20, .ro, 3⟩, ⟨19, 16, .ro, 0⟩, ⟨15, 0, .ro, 0⟩]⟩,
  ⟨0x05008, 16, 0, 64, true, [⟨15, 0, .ro, 0⟩]⟩,
  ⟨0x0500C, 16, 0, 64, true, [⟨26, 0, .ro, 0⟩]⟩]

/-- Registers of spec/09_integrity_scrub_repair.md: WHISK_FLOOR, WHISK_CEIL, WHISK_RATE, WHISK_LAP_ARR, WHISK_LAP_MAIN, CORR_CTL, CORR_STAT, ARRAY_DEV_STAT, REBUILD_PROG, REMAP_STAT, PATH_STAT. -/
def regsIntegrity : List RegRow := [
  ⟨0x041C0, 4, 0, 1, true, [⟨31, 16, .rw, 2000⟩, ⟨15, 0, .rw, 1000⟩]⟩,
  ⟨0x041C4, 4, 0, 1, true, [⟨31, 16, .rw, 20000⟩, ⟨15, 0, .rw, 8000⟩]⟩,
  ⟨0x041C8, 4, 0, 1, true, [⟨31, 31, .ro, 0⟩, ⟨30, 16, .rw, 0⟩, ⟨14, 0, .rw, 0⟩]⟩,
  ⟨0x041CC, 4, 0, 1, false, [⟨31, 14, .ro, 0⟩, ⟨13, 0, .ro, 0⟩]⟩,
  ⟨0x041D0, 4, 0, 1, false, [⟨31, 14, .ro, 0⟩, ⟨13, 0, .ro, 0⟩]⟩,
  ⟨0x041D4, 4, 0, 1, true, [⟨3, 0, .rw, 4⟩]⟩,
  ⟨0x041D8, 4, 0, 1, false, [⟨31, 24, .rc, 0⟩, ⟨23, 16, .rc, 0⟩, ⟨15, 8, .rc, 0⟩, ⟨6, 0, .ro, 0⟩]⟩,
  ⟨0x041DC, 4, 0, 1, true, [⟨31, 21, .ro, 0⟩, ⟨20, 17, .ro, 0⟩, ⟨16, 16, .ro, 0⟩, ⟨15, 15, .ro, 0⟩]⟩,
  ⟨0x041E0, 4, 0, 1, false, [⟨13, 0, .ro, 0⟩]⟩,
  ⟨0x041E4, 4, 0, 1, false, [⟨26, 16, .ro, 0⟩, ⟨10, 0, .ro, 0⟩]⟩,
  ⟨0x041E8, 4, 0, 1, false, [⟨31, 16, .rc, 0⟩, ⟨15, 0, .rc, 0⟩]⟩]

/-- Registers of spec/10_fetch_witness.md: WIT_n_CFG, WIT_n_ADDR_LO, WIT_n_ADDR_HI, WIT_n_OWN, WIT_CTL, WIT_FAULT, WIT_CNT. -/
def regsWitness : List RegRow := [
  ⟨0x04200, 16, 0, 16, true, [⟨31, 24, .ro, 0⟩, ⟨23, 20, .ro, 0⟩, ⟨19, 19, .ro, 0⟩, ⟨18, 18, .ro, 0⟩, ⟨17, 15, .ro, 0⟩, ⟨14, 0, .ro, 0⟩]⟩,
  ⟨0x04204, 16, 0, 16, true, [⟨31, 7, .ro, 0⟩]⟩,
  ⟨0x04208, 16, 0, 16, true, [⟨15, 0, .ro, 0⟩]⟩,
  ⟨0x0420C, 16, 0, 16, true, [⟨31, 31, .ro, 0⟩, ⟨5, 0, .ro, 0⟩]⟩,
  ⟨0x04300, 4, 0, 1, true, [⟨1, 1, .wk, 0⟩, ⟨0, 0, .rw, 0⟩]⟩,
  ⟨0x04304, 4, 0, 1, true, [⟨31, 31, .ro, 0⟩, ⟨15, 0, .ro, 0⟩]⟩,
  ⟨0x04308, 4, 0, 1, true, [⟨31, 16, .rc, 0⟩, ⟨15, 0, .rc, 0⟩]⟩]

/-- Registers of spec/11_command_rings_and_mover.md: MGR_m_CTL, MGR_m_CMD_LO, MGR_m_CMD_HI, MGR_m_CPL_LO, MGR_m_CPL_HI, MGR_m_SIZE, MGR_m_STAT, INT_STAT, MOV_CTL, KEY_STAT, EVT_LO, EVT_HI. -/
def regsRings0 : List RegRow := [
  ⟨0x04400, 32, 0, 4, true, [⟨31, 31, .wk, 0⟩, ⟨30, 30, .wk, 0⟩, ⟨29, 29, .wk, 0⟩, ⟨28, 28, .wk, 0⟩, ⟨27, 25, .wk, 0⟩, ⟨23, 16, .wk, 0⟩, ⟨15, 8, .wk, 0⟩, ⟨5, 0, .wk, 0⟩]⟩,
  ⟨0x04404, 32, 0, 4, true, [⟨31, 6, .wk, 0⟩]⟩,
  ⟨0x04408, 32, 0, 4, true, [⟨15, 0, .wk, 0⟩]⟩,
  ⟨0x0440C, 32, 0, 4, true, [⟨31, 4, .wk, 0⟩]⟩,
  ⟨0x04410, 32, 0, 4, true, [⟨15, 0, .wk, 0⟩]⟩,
  ⟨0x04414, 32, 0, 4, true, [⟨11, 8, .wk, 4⟩, ⟨3, 0, .wk, 4⟩]⟩,
  ⟨0x04418, 32, 0, 4, true, [⟨31, 16, .ro, 0⟩, ⟨11, 8, .ro, 0⟩, ⟨3, 3, .rc, 0⟩, ⟨2, 2, .rc, 0⟩, ⟨1, 1, .ro, 0⟩, ⟨0, 0, .ro, 0⟩]⟩,
  ⟨0x04480, 4, 0, 1, true, [⟨5, 4, .rc, 0⟩, ⟨3, 0, .rc, 0⟩]⟩,
  ⟨0x04484, 4, 0, 1, true, [⟨31, 31, .ro, 0⟩]⟩,
  ⟨0x04488, 4, 0, 1, true, [⟨3, 0, .ro, 0⟩]⟩,
  ⟨0x04490, 4, 0, 1, false, [⟨31, 4, .wk, 0⟩, ⟨0, 0, .wk, 0⟩]⟩,
  ⟨0x04494, 4, 0, 1, false, [⟨19, 16, .wk, 8⟩, ⟨15, 0, .wk, 0⟩]⟩]

/-- Registers of spec/11_command_rings_and_mover.md: EVT_STAT, MOV_RING_p_LO, MOV_RING_p_HI, MOV_RING_p_CTL, MOV_RING_p_STAT. -/
def regsRings1 : List RegRow := [
  ⟨0x04498, 4, 0, 1, false, [⟨31, 16, .ro, 0⟩, ⟨15, 0, .ro, 0⟩]⟩,
  ⟨0x05400, 16, 1, 63, true, [⟨31, 5, .rw, 0⟩]⟩,
  ⟨0x05404, 16, 1, 63, true, [⟨15, 0, .rw, 0⟩]⟩,
  ⟨0x05408, 16, 1, 63, true, [⟨31, 24, .rw, 0⟩, ⟨22, 20, .rw, 0⟩, ⟨19, 16, .rw, 1⟩, ⟨8, 8, .ro, 0⟩, ⟨3, 0, .ro, 0⟩]⟩,
  ⟨0x0540C, 16, 1, 63, true, [⟨31, 16, .ro, 0⟩, ⟨2, 2, .rc, 0⟩, ⟨1, 1, .rc, 0⟩, ⟨0, 0, .ro, 0⟩]⟩]

/-- Registers of spec/12_partitions_and_migration.md: PART_POOL, PART_MOV_POOL, PART_IMG_STAT, PART_p_STAT, PART_p_GRANT, PART_p_GRANT2, PART_p_WAYS, PART_p_LADLE, PART_p_BUD_c c=0, PART_p_BUD_c c=1, PART_p_BUD_c c=2, PART_p_BMAX_c c=0. -/
def regsPartitions0 : List RegRow := [
  ⟨0x04500, 4, 0, 1, true, [⟨28, 24, .ro, 16⟩, ⟨22, 16, .ro, 64⟩, ⟨14, 8, .ro, 64⟩, ⟨6, 0, .ro, 64⟩]⟩,
  ⟨0x04504, 4, 0, 1, true, [⟨28, 16, .ro, 4096⟩, ⟨12, 0, .ro, 4096⟩]⟩,
  ⟨0x04508, 4, 0, 1, true, [⟨19, 16, .ro, 0⟩, ⟨11, 8, .ro, 0⟩, ⟨7, 4, .ro, 0⟩, ⟨3, 0, .ro, 0⟩]⟩,
  ⟨0x05800, 64, 1, 63, true, [⟨31, 16, .rc, 0⟩, ⟨11, 8, .ro, 0⟩, ⟨5, 5, .ro, 0⟩, ⟨4, 4, .ro, 0⟩, ⟨2, 0, .ro, 0⟩]⟩,
  ⟨0x05804, 64, 1, 63, true, [⟨31, 24, .ro, 0⟩, ⟨22, 16, .ro, 0⟩, ⟨13, 8, .ro, 0⟩, ⟨6, 0, .ro, 0⟩]⟩,
  ⟨0x05808, 64, 1, 63, true, [⟨31, 31, .ro, 0⟩, ⟨4, 0, .ro, 0⟩]⟩,
  ⟨0x0580C, 64, 1, 63, true, [⟨25, 21, .ro, 0⟩, ⟨20, 16, .ro, 0⟩, ⟨15, 0, .ro, 0⟩]⟩,
  ⟨0x05810, 64, 1, 63, true, [⟨22, 18, .ro, 0⟩, ⟨17, 13, .ro, 0⟩, ⟨12, 8, .ro, 0⟩, ⟨7, 0, .ro, 0⟩]⟩,
  ⟨0x05814, 64, 1, 63, true, [⟨19, 0, .ro, 0⟩]⟩,
  ⟨0x05818, 64, 1, 63, true, [⟨19, 0, .ro, 0⟩]⟩,
  ⟨0x0581C, 64, 1, 63, true, [⟨19, 0, .ro, 0⟩]⟩,
  ⟨0x05820, 64, 1, 63, true, [⟨19, 0, .ro, 0⟩]⟩]

/-- Registers of spec/12_partitions_and_migration.md: PART_p_BMAX_c c=1, PART_p_BMAX_c c=2. -/
def regsPartitions1 : List RegRow := [
  ⟨0x05824, 64, 1, 63, true, [⟨19, 0, .ro, 0⟩]⟩,
  ⟨0x05828, 64, 1, 63, true, [⟨19, 0, .ro, 0⟩]⟩]

/-- Registers of spec/13_linlek_link.md: LINK_n_CTL, LINK_n_STAT, LINK_n_TRAIN, LINK_n_ERR, LINK_n_CR_0, LINK_n_CR_1. -/
def regsLink : List RegRow := [
  ⟨0x04600, 64, 0, 8, false, [⟨31, 31, .wk, 0⟩, ⟨30, 30, .wk, 0⟩, ⟨29, 29, .wk, 0⟩, ⟨28, 28, .wk, 0⟩, ⟨27, 26, .wk, 0⟩, ⟨25, 25, .wk, 0⟩]⟩,
  ⟨0x04604, 64, 0, 8, false, [⟨31, 30, .ro, 0⟩, ⟨29, 29, .ro, 0⟩, ⟨28, 27, .ro, 0⟩, ⟨26, 26, .ro, 0⟩, ⟨25, 25, .ro, 0⟩, ⟨24, 24, .ro, 0⟩, ⟨23, 23, .ro, 0⟩, ⟨22, 20, .ro, 0⟩]⟩,
  ⟨0x04608, 64, 0, 8, false, [⟨31, 16, .ro, 0⟩, ⟨15, 13, .ro, 0⟩, ⟨12, 10, .ro, 0⟩, ⟨7, 0, .ro, 0⟩]⟩,
  ⟨0x0460C, 64, 0, 8, false, [⟨31, 16, .rc, 0⟩, ⟨15, 8, .rc, 0⟩, ⟨7, 4, .rc, 0⟩, ⟨3, 2, .rc, 0⟩, ⟨1, 0, .rc, 0⟩]⟩,
  ⟨0x04610, 64, 0, 8, false, [⟨31, 24, .ro, 0⟩, ⟨23, 16, .ro, 0⟩, ⟨15, 8, .ro, 0⟩, ⟨7, 0, .ro, 0⟩]⟩,
  ⟨0x04614, 64, 0, 8, false, [⟨31, 24, .ro, 0⟩, ⟨23, 16, .ro, 0⟩, ⟨15, 8, .ro, 0⟩, ⟨7, 0, .ro, 0⟩]⟩]

/-- Registers of spec/14_on_chip_memories_and_events.md: KET_STAT, LEDGER_STAT, BT_CTL, BT_STAT, BT_LAP_s, COL_STAT. -/
def regsOnChip : List RegRow := [
  ⟨0x04800, 4, 0, 1, false, [⟨31, 16, .rc, 0⟩, ⟨15, 8, .rc, 0⟩, ⟨0, 0, .rc, 0⟩]⟩,
  ⟨0x04804, 4, 0, 1, true, [⟨31, 22, .ro, 0⟩, ⟨15, 8, .rc, 0⟩]⟩,
  ⟨0x04808, 4, 0, 1, true, [⟨3, 0, .rw, 8⟩]⟩,
  ⟨0x0480C, 4, 0, 1, false, [⟨31, 24, .rc, 0⟩, ⟨20, 16, .ro, 0⟩]⟩,
  ⟨0x04810, 4, 0, 4, false, [⟨15, 0, .ro, 0⟩]⟩,
  ⟨0x04820, 4, 0, 1, false, [⟨31, 16, .ro, 0⟩, ⟨5, 0, .ro, 0⟩]⟩]

/-- Registers of spec/15_monitoring.md: PMU_CTL, PMU_CLR, PMU_EVT_n, PMU_FILT_n, PMU_ABASE, PMU_ALIMIT, PMU_OVF, BW_CTL. -/
def regsMonitor : List RegRow := [
  ⟨0x04900, 4, 0, 1, false, [⟨31, 31, .rw, 0⟩, ⟨30, 30, .rw, 0⟩, ⟨29, 29, .rw, 0⟩, ⟨20, 16, .rw, 0⟩]⟩,
  ⟨0x04904, 4, 0, 1, false, [⟨31, 9, .wo, 0⟩, ⟨8, 8, .wo, 0⟩, ⟨7, 0, .wo, 0⟩]⟩,
  ⟨0x04910, 8, 0, 8, false, [⟨31, 31, .rw, 0⟩, ⟨11, 8, .rw, 15⟩, ⟨7, 0, .rw, 0⟩]⟩,
  ⟨0x04914, 8, 0, 8, false, [⟨31, 29, .rw, 7⟩, ⟨28, 20, .rw, 511⟩, ⟨19, 16, .rw, 15⟩, ⟨15, 15, .rw, 0⟩, ⟨14, 14, .rw, 0⟩, ⟨5, 0, .rw, 0⟩]⟩,
  ⟨0x04950, 4, 0, 1, false, [⟨27, 0, .rw, 0⟩]⟩,
  ⟨0x04954, 4, 0, 1, false, [⟨27, 0, .rw, 0⟩]⟩,
  ⟨0x04958, 4, 0, 1, false, [⟨8, 8, .rc, 0⟩, ⟨7, 0, .rc, 0⟩]⟩,
  ⟨0x04960, 4, 0, 1, true, [⟨4, 0, .rw, 1⟩]⟩]

/-- Registers of spec/16_register_interface.md: CB_IDENT, CB_STRAP, CB_FW, CB_BOOT, CB_RESET, CB_ACC, CB_ERR, LID_KEY, LID_STAT, CB_TEMP, CB_SCRATCH_i, MB_k_SEL. -/
def regsControl0 : List RegRow := [
  ⟨0x00000, 4, 0, 1, false, [⟨31, 16, .ro, 16640⟩, ⟨15, 8, .ro, 0⟩, ⟨0, 0, .ro, 0⟩]⟩,
  ⟨0x00004, 4, 0, 1, false, [⟨3, 2, .ro, 0⟩, ⟨1, 1, .ro, 0⟩, ⟨0, 0, .ro, 0⟩]⟩,
  ⟨0x00008, 4, 0, 1, false, [⟨31, 24, .ro, 0⟩, ⟨23, 16, .ro, 0⟩, ⟨8, 8, .ro, 0⟩]⟩,
  ⟨0x0000C, 4, 0, 1, false, [⟨31, 28, .ro, 0⟩, ⟨3, 3, .ro, 0⟩, ⟨2, 2, .ro, 0⟩, ⟨1, 1, .ro, 0⟩, ⟨0, 0, .ro, 0⟩]⟩,
  ⟨0x00010, 4, 0, 1, true, [⟨1, 1, .wp, 0⟩, ⟨0, 0, .wp, 0⟩]⟩,
  ⟨0x00018, 4, 0, 1, true, [⟨31, 24, .wp, 0⟩, ⟨6, 6, .wp, 0⟩, ⟨5, 0, .wp, 0⟩]⟩,
  ⟨0x00020, 4, 0, 1, false, [⟨13, 0, .rc, 0⟩]⟩,
  ⟨0x00024, 4, 0, 1, false, [⟨31, 16, .wo, 0⟩, ⟨15, 0, .wo, 0⟩]⟩,
  ⟨0x00028, 4, 0, 1, false, [⟨4, 4, .rc, 0⟩, ⟨3, 3, .rc, 0⟩, ⟨2, 2, .rc, 0⟩, ⟨1, 1, .ro, 0⟩, ⟨0, 0, .ro, 0⟩]⟩,
  ⟨0x0002C, 4, 0, 1, false, [⟨31, 31, .rc, 0⟩, ⟨23, 16, .wk, 115⟩, ⟨7, 0, .ro, 0⟩]⟩,
  ⟨0x00040, 4, 0, 4, false, [⟨31, 0, .rw, 0⟩]⟩,
  ⟨0x00100, 128, 0, 4, false, [⟨15, 0, .rw, 0⟩]⟩]

/-- Registers of spec/16_register_interface.md: MB_k_STAT, MB_k_DATA_i i=0, MB_k_DATA_i i=1, MB_k_DATA_i i=2, MB_k_DATA_i i=3, MB_k_DATA_i i=4, MB_k_DATA_i i=5, MB_k_DATA_i i=6, MB_k_DATA_i i=7, MB_k_DATA_i i=8, MB_k_DATA_i i=9, MB_k_DATA_i i=10. -/
def regsControl1 : List RegRow := [
  ⟨0x00104, 128, 0, 4, false, [⟨31, 31, .ro, 0⟩, ⟨30, 30, .ro, 0⟩, ⟨29, 29, .ro, 0⟩, ⟨20, 16, .ro, 0⟩]⟩,
  ⟨0x00108, 128, 0, 4, false, [⟨31, 0, .ro, 0⟩]⟩,
  ⟨0x0010C, 128, 0, 4, false, [⟨31, 0, .ro, 0⟩]⟩,
  ⟨0x00110, 128, 0, 4, false, [⟨31, 0, .ro, 0⟩]⟩,
  ⟨0x00114, 128, 0, 4, false, [⟨31, 0, .ro, 0⟩]⟩,
  ⟨0x00118, 128, 0, 4, false, [⟨31, 0, .ro, 0⟩]⟩,
  ⟨0x0011C, 128, 0, 4, false, [⟨31, 0, .ro, 0⟩]⟩,
  ⟨0x00120, 128, 0, 4, false, [⟨31, 0, .ro, 0⟩]⟩,
  ⟨0x00124, 128, 0, 4, false, [⟨31, 0, .ro, 0⟩]⟩,
  ⟨0x00128, 128, 0, 4, false, [⟨31, 0, .ro, 0⟩]⟩,
  ⟨0x0012C, 128, 0, 4, false, [⟨31, 0, .ro, 0⟩]⟩,
  ⟨0x00130, 128, 0, 4, false, [⟨31, 0, .ro, 0⟩]⟩]

/-- Registers of spec/16_register_interface.md: MB_k_DATA_i i=11, MB_k_DATA_i i=12, MB_k_DATA_i i=13, MB_k_DATA_i i=14, MB_k_DATA_i i=15, MB_k_DATA_i i=16, MB_k_DATA_i i=17. -/
def regsControl2 : List RegRow := [
  ⟨0x00134, 128, 0, 4, false, [⟨31, 0, .ro, 0⟩]⟩,
  ⟨0x00138, 128, 0, 4, false, [⟨31, 0, .ro, 0⟩]⟩,
  ⟨0x0013C, 128, 0, 4, false, [⟨31, 0, .ro, 0⟩]⟩,
  ⟨0x00140, 128, 0, 4, false, [⟨31, 0, .ro, 0⟩]⟩,
  ⟨0x00144, 128, 0, 4, false, [⟨31, 0, .ro, 0⟩]⟩,
  ⟨0x00148, 128, 0, 4, false, [⟨31, 0, .ro, 0⟩]⟩,
  ⟨0x0014C, 128, 0, 4, false, [⟨31, 0, .ro, 0⟩]⟩]

/-- Registers of spec/17_bringup_power_lifecycle.md: LC_CTL, LC_STAT, LC_FW_A, LC_FW_B, LC_TRAIN_j. -/
def regsLife : List RegRow := [
  ⟨0x06800, 4, 0, 1, true, [⟨1, 1, .wp, 0⟩, ⟨0, 0, .wp, 0⟩]⟩,
  ⟨0x06808, 4, 0, 1, true, [⟨31, 28, .ro, 0⟩, ⟨27, 26, .ro, 0⟩, ⟨4, 4, .rc, 0⟩, ⟨3, 3, .ro, 0⟩, ⟨2, 2, .ro, 0⟩, ⟨0, 0, .ro, 0⟩]⟩,
  ⟨0x0680C, 4, 0, 1, true, [⟨31, 31, .ro, 0⟩, ⟨30, 30, .ro, 0⟩, ⟨29, 29, .ro, 0⟩, ⟨28, 28, .ro, 0⟩, ⟨27, 16, .ro, 0⟩, ⟨15, 8, .ro, 0⟩, ⟨7, 0, .ro, 0⟩]⟩,
  ⟨0x06810, 4, 0, 1, true, [⟨31, 31, .ro, 0⟩, ⟨30, 30, .ro, 0⟩, ⟨29, 29, .ro, 0⟩, ⟨28, 28, .ro, 0⟩, ⟨27, 16, .ro, 0⟩, ⟨15, 8, .ro, 0⟩, ⟨7, 0, .ro, 0⟩]⟩,
  ⟨0x06820, 4, 0, 6, false, [⟨31, 16, .ro, 0⟩, ⟨15, 15, .ro, 0⟩, ⟨14, 14, .ro, 0⟩, ⟨13, 11, .ro, 0⟩, ⟨7, 0, .ro, 0⟩]⟩]

/-- Every register of the configuration window but the doorbells and pages. -/
def regTable : List RegRow :=
  regsCache ++ regsCacheMaint ++ regsCoherence ++ regsOrdering ++ regsFrame ++ regsMemory ++ regsIntegrity ++ regsWitness ++ regsRings0 ++ regsRings1 ++ regsPartitions0 ++ regsPartitions1 ++ regsLink ++ regsOnChip ++ regsMonitor ++ regsControl0 ++ regsControl1 ++ regsControl2 ++ regsLife

/-- Whether an offset is one of a row's registers. -/
def RegRow.has (r : RegRow) (off : Nat) : Bool :=
  decide (r.base + r.stride * r.first ≤ off) && decide (off < r.base + r.stride * (r.first + r.count))
    && decide ((off - r.base) % r.stride = 0)

/-- The row of a word's offset. -/
def findRow (off : Nat) : Option RegRow := regTable.find? (fun r => r.has off)

/-- The word that a register holds after reset. -/
def RegRow.reset (r : RegRow) : Nat := sumOf (r.fields.map (fun f => f.rst * 2 ^ f.lo))

/-- Bits of a word in fields with one of the access codes. -/
def RegRow.maskOf (r : RegRow) (p : Acc → Bool) : Nat :=
  sumOf (r.fields.map (fun f => if p f.acc then (2 ^ (f.hi + 1 - f.lo) - 1) * 2 ^ f.lo else 0))

/-- The key in `regs` of a register in a die's window. -/
def regKey (r : RegRow) (die off : Nat) : Nat := if r.pkg then off else die * 0x100000 + off

/-- The stored word of a register, its reset word where none is stored. -/
def regGet (h : Hub) (die off : Nat) : Nat :=
  match findRow off with
  | none => 0
  | some r => ((bfind h.regs (regKey r die off)).map BitVec.toNat).getD r.reset

/-- The hub with a register's stored word written. -/
def regPut (h : Hub) (die off v : Nat) : Hub :=
  match findRow off with
  | none => h
  | some r => { h with regs := bset h.regs (regKey r die off) (BitVec.ofNat 32 v) }

/-- A field of a register. -/
def regField (h : Hub) (die off hi lo : Nat) : Nat := bits (regGet h die off) hi lo

/-- The hub with a field of a register written. -/
def regSetField (h : Hub) (die off hi lo x : Nat) : Hub := regPut h die off (putBits (regGet h die off) hi lo x)

end Sys2Proof.Machine
end

