-- ==== Sys2Proof/Machine/Event.lean ====
section
/-! DEFINITION. What every part of the hub reports through: messages queued on links, interrupts (R264), Colander records
(R355 to R358), PMU events (R361 to R363) and partition counter pages (R366). -/

namespace Sys2Proof.Machine

/-! ### Homes (R6 to R9) -/

/-- Home die of an address (R7). -/
def homeDie (a : Nat) : Nat := b2n ((bitOf a 13 != bitOf a 20) != (bitOf a 27 != bitOf a 34))

/-- Home region RG of an address (R8). -/
def homeRg (a : Nat) : Nat := 2 * homeDie a + b2n ((bitOf a 12 != bitOf a 19) != (bitOf a 26 != bitOf a 33))

/-- Home cluster of an address (R9). -/
def homeCluster (a : Nat) : Nat := 2 * homeRg a + b2n (bitOf a 14)

/-- Home slice of an address (R9). -/
def homeSlice (a : Nat) : Nat := 8 * homeRg a + 4 * b2n (bitOf a 14) + bits a 11 10

/-- Cluster of a slice. -/
def clusterOf (s : Nat) : Nat := s / 4

/-- Die of a slice, and of a cluster. -/
def dieOfSlice (s : Nat) : Nat := s / 16

/-- Die of a cluster. -/
def dieOfCluster (c : Nat) : Nat := c / 4

/-- Die of a link (Table: Instance placement). -/
def dieOfLink (l : Nat) : Nat := l / 4

/-- LPDDR5X channel of an address (R206). -/
def homeChannel (a : Nat) : Nat := 2 * homeRg a + b2n (bitOf a 14)

/-- Cycles in one microsecond: HCLK is 1.25 GHz. -/
def cyclesPerUs : Nat := 1250

/-- Microseconds since the current frame's tick (FS_STEP.US). -/
def frameUs (h : Hub) : Nat := (h.now - h.fs.tickAt) / cyclesPerUs

/-! ### Links and hosts -/

/-- A link's state. -/
def link (h : Hub) (l : Nat) : Link := bget h.links l {}

/-- The hub with a link's state changed. -/
def setLink (h : Hub) (l : Nat) (f : Link → Link) : Hub := { h with links := bupd h.links l {} f }

/-- Whether a link is UP or in RECOVERY, which counts as trained (R325). -/
def linkTrained (h : Hub) (l : Nat) : Bool :=
  match (link h l).st with
  | .up => true
  | .recovery => true
  | _ => false

/-- Whether LL7 is a twin link: its peer has announced the hub role (R31, R319). -/
def isTwinLink (h : Hub) (l : Nat) : Bool := l == 7 && (link h 7).peerHub

/-- The geometry word in force of host n (COH_HOST_n_GEOM); 7 is the peer's proxy (COH_TWIN_PEER). -/
def geomWord (h : Hub) (n : Nat) : Nat :=
  if n < 7 then regGet h 0 (0x4050 + 4 * n) else h.twin.peerGeom.toNat

/-- Whether host n's geometry is VALID. -/
def geomValid (h : Hub) (n : Nat) : Bool := bitOf (geomWord h n) 23

/-- The links host n uses. -/
def geomLinks (h : Hub) (n : Nat) : Nat := if n < 7 then bits (geomWord h n) 31 24 else 0x80

/-- The host of a link: 0 to 6, 7 for the twin, 8 for a host without a cache (R336). -/
def hostOfLink (h : Hub) (l : Nat) : Nat :=
  if isTwinLink h l then 7
  else ((List.range 7).find? (fun n => geomValid h n && bitOf (geomLinks h n) l)).getD 8

/-- The snoop link of a host: its lowest-numbered trained link (R30). -/
def snoopLink (h : Hub) (n : Nat) : Option Nat :=
  (List.range 8).find? (fun l => bitOf (geomLinks h n) l && linkTrained h l && (n == 7 || !isTwinLink h l))

/-- Channel of a message from its OPCODE (R330): 0 REQ, 1 SNP, 2 RSP, 3 MGT. -/
def chanOf (op : Nat) : Nat := op / 64 % 4

/-- A message handed to a link's transmitter; nothing where the link is down or training (R150, R337). -/
def sendMsg (l : Nat) (m : Msg) (h : Hub) : Hub :=
  if linkTrained h l then
    setLink h l (fun k => { k with q := k.q ++ [{ msg := m, slots := 1 + ceilDiv m.data.length 16 }] })
  else h

/-! ### Interrupts (R264) -/

/-- MGR_m_CTL. -/
def mgrCtl (h : Hub) (m : Nat) : Nat := regGet h 0 (0x4400 + 0x20 * m)

/-- The four INT_N outputs, bit m set while INT_N[m] is asserted. -/
def intPins (h : Hub) : BitVec 4 :=
  let st := regGet h 0 0x4480
  BitVec.ofNat 4 (sumOf ((List.range 4).map (fun m =>
    2 ^ m * b2n ((bitOf st m && bitOf (mgrCtl h m) 30) || (bits st 5 4 != 0 && bitOf (mgrCtl h m) 29)))))

/-- The hub with its INT_N outputs as INT_STAT and MGR_m_CTL make them. -/
def setIntPins (h : Hub) : Hub := { h with life := { h.life with intN := intPins h } }

/-- INTR on manager m's link, where the manager asks for it (R264). -/
def sendIntr (m : Nat) (h : Hub) : Hub :=
  let c := mgrCtl h m
  if bitOf c 28 && !(isTwinLink h (bits c 27 25)) then
    sendMsg (bits c 27 25) { op := 0xC2, vc := true, vector := bits c 23 16 } h
  else h

/-- Sets a cause bit of INT_STAT; a bit that goes from 0 to 1 sends one INTR for each manager whose cause bit it is. -/
def raiseCause (b : Nat) (h : Hub) : Hub :=
  if bitOf (regGet h 0 0x4480) b then h
  else
    let h := regSetField h 0 0x4480 b b 1
    let h :=
      if b < 4 then sendIntr b h
      else forEach ((List.range 4).filter (fun m => bitOf (mgrCtl h m) 29)) sendIntr h
    setIntPins h

/-- An interrupt for an event arising on a die. -/
def raiseEvt (die : Nat) (h : Hub) : Hub := raiseCause (4 + die % 2) h

/-! ### The Colander -/

/-- A Colander record (Table: Colander record, R357). -/
def mkRecord (h : Hub) (typ sev blk die pid : Nat) (inj : Bool) (payload : Nat) : BitVec 128 :=
  BitVec.ofNat 128 (typ % 256 + (sev % 4) * 2 ^ 8 + (die % 2) * 2 ^ 10 + (blk % 16) * 2 ^ 11 + b2n inj * 2 ^ 15
    + (pid % 64) * 2 ^ 16 + (frameUs h % 2 ^ 20) * 2 ^ 22 + (h.fs.frame % 2 ^ 32) * 2 ^ 42 + (payload % 2 ^ 54) * 2 ^ 74)

/-- The Colander of a die. -/
def col (h : Hub) (die : Nat) : Col := bget h.col die {}

/-- Counts a record's TYPE for the history (R351). -/
def countType (typ : Nat) (h : Hub) : Hub :=
  { h with led := { h.led with typeNew := bupd h.led.typeNew typ 0 (fun n => satAdd n 1 32) } }

/-- Stages that may take a record in this cycle: one that a drain of the cycle freed may not yet (R355). -/
def colRoom (h : Hub) (c : Col) : Nat := 32 - c.stages.length - b2n (c.lastDrain == h.now + 1)

/-- Rank of a record among those offered in one cycle: highest severity first, then lowest BLOCK (R356). -/
def recordRank (r : BitVec 128) : Nat := (3 - bits r.toNat 9 8) * 16 + bits r.toNat 14 11

/-- Records of one cycle with one more, in the order in which they enter. -/
def enterRanked (r : BitVec 128) : List (BitVec 128) → List (BitVec 128)
  | [] => [r]
  | x :: l => if recordRank r < recordRank x then r :: x :: l else x :: enterRanked r l

/-- A record entering the chain among those that entered in this cycle, or dropped and counted where it, or one that it goes before, finds no stage
(R356). -/
def colEnter (h : Hub) (r : BitVec 128) (c : Col) : Col :=
  let n := if c.freshAt = h.now + 1 then min c.fresh c.stages.length else 0
  let old := c.stages.take (c.stages.length - n)
  let new := enterRanked r (c.stages.drop (c.stages.length - n))
  if 0 < colRoom h c then { c with stages := old ++ new, fresh := n + 1, freshAt := h.now + 1 }
  else { c with stages := old ++ new.take n, drops := satAdd c.drops 1 16 }

/-- A pending GAP enters where a stage is free (R356). -/
def colGap (die : Nat) (h : Hub) : Hub :=
  let c := col h die
  if c.drops != 0 && decide (0 < colRoom h c) then
    let c' : Col := { c with stages := c.stages ++ [mkRecord h 0xFF 1 13 die 0 false c.drops], drops := 0, fresh := 0 }
    countType 0xFF { h with col := bset h.col die c' }
  else h

/-- A record offered to a die's Colander, behind a pending GAP (R356).
A record of SEV 2 or 3 sets its BLOCK's bit of CB_ERR whether or not it is dropped, and one of SEV 3 is kept in the Ledger's
history (R351). -/
def offerRecord (die sev blk typ : Nat) (r : BitVec 128) (h : Hub) : Hub :=
  let h := colGap die (countType typ h)
  let h := if sev ≥ 2 then regSetField h die 0x20 blk blk 1 else h
  let h := if sev = 3 then
      { h with led := { h.led with sev3 := (h.led.sev3 ++ [r]).drop ((h.led.sev3.length + 1) - 256) } } else h
  { h with col := bset h.col die (colEnter h r (col h die)) }

/-- Makes a record and offers it. -/
def recordInj (typ sev blk die pid : Nat) (inj : Bool) (payload : Nat) (h : Hub) : Hub :=
  offerRecord die sev blk typ (mkRecord h typ sev blk die pid inj payload) h

/-- Makes a record that no injected error caused. -/
def record (typ sev blk die pid payload : Nat) (h : Hub) : Hub := recordInj typ sev blk die pid false payload h

/-! ### PMU events -/

/-- The attributes an occurrence carries (R362). -/
structure Attr where
  pid : Option Nat := none
  port : Option Nat := none
  cls : Option Nat := none
  addr : Option Nat := none
  qual : Option Nat := none
  deriving DecidableEq, Repr

/-- Whom an access of memory, the array or the Kettle is for, as one number: its PID, and its class where a request makes it (R362). -/
def whoOf (pid cls : Nat) : Nat := pid + 64 * (cls + 1)

/-- The PID of an access. -/
def whoPid (who : Nat) : Nat := who % 64

/-- The class of an access, if it has one. -/
def whoCls (who : Nat) : Option Nat := if who < 64 then none else some (who / 64 - 1)

/-- Privilege bit of a PID in PMU_FILT_n.PRIV: 0 hub, 1 guest, 2 manager (R362). -/
def privOf (h : Hub) (pid : Nat) : Nat :=
  if pid = 0 then 0
  else if (List.range 4).any (fun m => bitOf (mgrCtl h m) 31 && bits (mgrCtl h m) 5 0 == pid) then 2
  else 1

/-- A PMU register word of a die, or its reset word. -/
def pmuWord (h : Hub) (die off rst : Nat) : Nat := ((bfind h.regs (die * 0x100000 + off)).map BitVec.toNat).getD rst

/-- Whether an occurrence passes the filters of a PMU_FILT_n word (R362). -/
def pmuPass (h : Hub) (die f : Nat) (a : Attr) : Bool :=
  (match a.pid with
    | some p => bitOf f (29 + privOf h p) && (!(bitOf f 14) || bits f 5 0 == p)
    | none => bits f 31 29 == 7 && !(bitOf f 14))
  && (match a.port with
    | some l => bitOf f (20 + min l 8)
    | none => bits f 28 20 == 0x1FF)
  && (match a.cls with
    | some c => bitOf f (16 + c)
    | none => bits f 19 16 == 15)
  && (match a.addr with
    | some x => !(bitOf f 15) || (decide (pmuWord h die 0x4950 0 ≤ x / 2 ^ 20) && decide (x / 2 ^ 20 ≤ pmuWord h die 0x4954 0))
    | none => !(bitOf f 15))

/-- The PMU of a die. -/
def pmuOf (h : Hub) (die : Nat) : Pmu := bget h.pmu die {}

/-- PMU_EVT_n and PMU_FILT_n as they govern counting in this cycle: a write governs from the next one (R364). -/
def pmuSel (h : Hub) (die n : Nat) : Nat × Nat :=
  let cur := (pmuWord h die (0x4910 + 8 * n) 0, pmuWord h die (0x4914 + 8 * n) 0xFFFF0000)
  match bfind (pmuOf h die).prev n with
  | some p => if p.1 = h.now + 1 then p.2 else cur
  | none => cur

/-- What governs counter n is kept for the rest of the cycle in which its event or filter is written. -/
def keepSel (die n : Nat) (h : Hub) : Hub :=
  let k := pmuSel h die n
  { h with pmu := bupd h.pmu die {} (fun p => { p with prev := bset p.prev n (h.now + 1, k) }) }

/-- Whether the counters of a die hold their values: from the cycle after an overflow that FRZ_OVF freezes on (R363). -/
def pmuHeld (h : Hub) (die : Nat) : Bool := bitOf (pmuWord h die 0x4900 0) 31 && (pmuOf h die).frzAt != h.now + 1

/-- A counter of a die that wraps: its PMU_OVF bit, FREEZE and the interrupt that PMU_CTL asks for (R363). -/
def pmuOverflow (die b : Nat) (h : Hub) : Hub :=
  let h := regSetField h die 0x4958 b b 1
  let c := regGet h die 0x4900
  let h := if bitOf c 30 && !(bitOf c 31) then
      regSetField { h with pmu := bupd h.pmu die {} (fun p => { p with frzAt := h.now + 1 }) } die 0x4900 31 31 1 else h
  if bitOf c 29 then raiseEvt die h else h

/-- Adds to programmable counter n of a die. -/
def pmuAdd (die n x : Nat) (h : Hub) : Hub :=
  let p := pmuOf h die
  let v := bget p.cnt n 0 + x
  let h := { h with pmu := bset h.pmu die { p with cnt := bset p.cnt n (v % 2 ^ 48) } }
  if v ≥ 2 ^ 48 then pmuOverflow die n h else h

/-- `x` occurrences of an event on a die (R361). -/
def pmu (ev die x : Nat) (a : Attr) (h : Hub) : Hub :=
  forEach (List.range 8) (fun n h =>
    match bfind h.regs (die * 0x100000 + 0x4910 + 8 * n) with
    | none => h
    | some _ =>
      let k := pmuSel h die n
      if k.1.testBit 31 && bits k.1 7 0 == ev && !(pmuHeld h die) && bget (pmuOf h die).clrAt n 0 != h.now + 1
          && (match a.qual with
            | some q => bits k.1 11 8 == 15 || bits k.1 11 8 == q
            | none => true)
          && pmuPass h die k.2 a then pmuAdd die n x h
      else h) h

/-! ### Partitions and their counter pages -/

/-- A partition's entry. -/
def part (h : Hub) (p : Nat) : Part := bget h.parts p {}

/-- The hub with a partition's entry changed. -/
def setPart (h : Hub) (p : Nat) (f : Part → Part) : Hub := { h with parts := bupd h.parts p {} f }

/-- PART_p_STAT.STATE: a partition that PART_RESTORE loads holds its grants as if CREATED and still shows FREE (R292, R306). -/
def shownSt (p : Part) : PartSt :=
  match p.st, p.busy with
  | .created, true => .free
  | st, _ => st

/-- Adds to value `i` of a partition's running frame counts (R366). -/
def pageAdd (pid i x : Nat) (h : Hub) : Hub :=
  if 0 < pid ∧ pid < 64 then
    match (part h pid).st with
    | .free => h
    | _ => setPart h pid (fun p => { p with run := bupd p.run i 0 (· + x) })
  else h

/-- Raises value `i` of a partition's running frame counts to at least `x`. -/
def pageMax (pid i x : Nat) (h : Hub) : Hub :=
  if 0 < pid ∧ pid < 64 then setPart h pid (fun p => { p with run := bupd p.run i 0 (max x) }) else h

end Sys2Proof.Machine
end

