-- ==== Sys2Proof/Machine/Memory.lean ====
section
/-! DEFINITION. The region map, where bytes lie (R199 to R217), and what reads and writes of main memory, the array and the
Kettle do with the codes that protect them (R207, R218 to R238, R344, R345). -/

namespace Sys2Proof.Machine

/-! ### The region map (R209 to R212) -/

/-- Bytes of the map's granule. -/
def unit2M : Nat := 2 ^ 21

/-- Whether an entry is valid (R209). -/
def REntry.valid (e : REntry) : Bool := e.size != 0

/-- Whether a valid entry's range holds an address. -/
def REntry.holds (e : REntry) (a : Nat) : Bool :=
  e.valid && decide (e.base * unit2M ≤ a) && decide (a < (e.base + e.size) * unit2M)

/-- The entry that serves an address: the lowest-numbered valid one that holds it (R211). -/
def rmapFind (h : Hub) (a : Nat) : Option (Nat × REntry) := h.rmap.find? (fun e => e.2.holds a)

/-- The entry that serves every byte of a range, as R211 resolves it. -/
def rmapRange (h : Hub) (a n : Nat) : Option (Nat × REntry) :=
  match rmapFind h a with
  | none => none
  | some (i, e) =>
    if e.holds (a + n - 1) && !(h.rmap.any (fun f => decide (f.1 < i) && f.2.valid
        && decide (f.2.base * unit2M < a + n) && decide (a < (f.2.base + f.2.size) * unit2M)))
    then some (i, e) else none

/-- Whether an entry is homed on this hub. -/
def REntry.here (e : REntry) (h : Hub) : Bool := e.hub == h.life.hubId

/-- Offset of an address in its entry's target space. DEDUCED: offsets follow addresses from TBASE (log entry 9). -/
def REntry.off (e : REntry) (a : Nat) : Nat := e.tbase * unit2M + (a - e.base * unit2M)

/-- Whether a type's data is in main memory. -/
def RType.isMain : RType → Bool
  | .nwt => true
  | .nwb => true
  | .nnc => true
  | .dev => true
  | _ => false

/-- Whether a type is cached in the sector tags (R39). -/
def RType.cached : RType → Bool
  | .nwt => true
  | .nwb => true
  | _ => false

/-- Whether a type's lines are looked up in the Sieve (R39). -/
def RType.sieve : RType → Bool
  | .nwt => true
  | .nwb => true
  | .nnc => true
  | .near => true
  | _ => false

/-- Type of a code (Table: Region type codes); none where it is reserved. -/
def RType.ofCode : Nat → Option RType
  | 0 => some .nwt
  | 1 => some .nwb
  | 2 => some .nnc
  | 3 => some .dev
  | 4 => some .near
  | 5 => some .shadow
  | 6 => some .kettle
  | 7 => some .cfg
  | _ => none

/-- Code of a type. -/
def RType.code : RType → Nat
  | .nwt => 0
  | .nwb => 1
  | .nnc => 2
  | .dev => 3
  | .near => 4
  | .shadow => 5
  | .kettle => 6
  | .cfg => 7

/-- Footprint F of an entry in 2 MiB units (Table: Footprints). -/
def REntry.foot (e : REntry) : Nat :=
  match e.typ with
  | .cfg => 0
  | t => if t.isMain then ceilDiv (e.size * (if e.ecc then 9 else 8) * (if e.mirror then 2 else 1)) 8 else e.size

/-! ### The array (R200 to R204) -/

/-- The population in force, recorded in the Ledger: 0 none, 1 nine, 2 ten, 3 eleven devices. -/
def popOf (h : Hub) : Nat := h.led.pop.getD 0

/-- Whether the population uses chip-kill. -/
def chipKill (h : Hub) : Bool := decide (2 ≤ popOf h)

/-- Array data capacity in 2 MiB units. -/
def arrayUnits (h : Hub) : Nat := if h.life.dens24 then 12288 else 8192

/-- Start of the remap reserve, the top 1/256 of the array (R204). -/
def mapTop (h : Hub) : Nat := arrayUnits h - arrayUnits h / 256

/-- Cache area of a size code in 2 MiB units (Table: Cache area by size). -/
def cacheArea (h : Hub) (size : Nat) : Nat :=
  if size = 0 then 0 else (if chipKill h then 258 else 256) * 2 ^ (size - 1)

/-- Top of the cache area in use (R204). -/
def cacheTop (h : Hub) : Nat :=
  match h.cache.cst with
  | .off => 0
  | _ => cacheArea h h.cache.size

/-- Whether the population permits a type (Table: Populations). -/
def popPermits (pop : Nat) (expert : Bool) : RType → Bool
  | .nwb => decide (2 ≤ pop) && expert
  | .near => decide (2 ≤ pop)
  | .shadow => decide (1 ≤ pop)
  | _ => true

/-- Whether the code's part of Table: Populations permits a type, whatever the expert control. -/
def popHolds (pop : Nat) (t : RType) : Bool := popPermits pop true t

/-- Sets per slice at the size in force (R10). -/
def setsInUse (h : Hub) : Nat := if h.cache.size = 0 then 0 else 512 * 2 ^ h.cache.size

/-- Set index of an address at the size in force (R10). -/
def setIndex (h : Hub) (a : Nat) : Nat := (a / 2 ^ 15) % (max 1 (setsInUse h))

/-- Array offset of a cache line's slot. DESIGN CHOICE: placement in the cache area is internal to the hub (R2), log entry 10. -/
def slotOffset (slice set way line : Nat) : Nat := ((((set * 16 + way) * 32 + slice) * 8) + line) * 128

/-- Whether a channel is trained (MEM_STAT.TRAINED). -/
def chanTrained (h : Hub) (k : Nat) : Bool := (bget h.life.chans k {}).trained

/-! ### The Ledger's writes (R348 to R350) -/

/-- Slot pairs of a record kind, a row of Table: Ledger records. Records are numbered 16 × row + manager (DESIGN CHOICE, log
entry 11). -/
def ledgerPairs (rec : Nat) : Nat :=
  match rec / 16 with
  | 0 => 16
  | 1 => 4
  | 3 => 2
  | 6 => 2
  | 7 => 2
  | _ => 1

/-- A record write: sequence raised, next slot pair. A record whose verify fails three times keeps its old value, sends
LEDGER_ERR, raises an interrupt and counts in WERR (R350). Answers whether the write was verified. -/
def ledgerWrite (rec : Nat) (h : Hub) : Bool × Hub :=
  if h.led.failing.contains rec then
    let h := record 0x71 3 11 0 0 rec h
    let h := raiseEvt 0 h
    (false, regSetField h 0 0x4804 15 8 (satAdd (regField h 0 0x4804 15 8) 1 8))
  else
    let r := bget h.led.recs rec (0, 0)
    (true, { h with led := { h.led with recs := bset h.led.recs rec (r.1 + 1, (r.2 + 1) % ledgerPairs rec) } })

/-- A record write with its change of the Ledger, made only where the write is verified. -/
def ledgerPut (rec : Nat) (f : Ledger → Ledger) (h : Hub) : Hub :=
  let (ok, h) := ledgerWrite rec h
  if ok then { h with led := f h.led } else h

/-! ### Device failure, correction table, hard errors (R233 to R238) -/

/-- Codeword position of device Dk (Table: Chip-kill codeword positions). -/
def posOfDev (k : Nat) : Nat := if k < 8 then 2 + k else 9 - k

/-- Device at a codeword position, D10 where it has taken it. -/
def devOfPos (h : Hub) (p : Nat) : Nat :=
  if h.integ.posD10 = p then 10 else if 2 ≤ p then p - 2 else 9 - p

/-- Positions that are erasures (R220, R237, R238): those of failed devices that D10 has not taken. -/
def erasedPos (h : Hub) (off : Nat) : List Nat :=
  ((List.range 10).filter (fun k => h.integ.failed.toNat.testBit k)).map posOfDev |>.filter (fun p =>
    !(h.integ.posD10 == p && !h.integ.failed.toNat.testBit 10) &&
    !(h.integ.rebuild && decide (off / unit2M < h.integ.rebuildPtr)))

/-- Starts the disable drain of an ON cache (R80); `job` 0 is the hub's own. -/
def startDrain (job : Nat) (h : Hub) : Hub :=
  { h with cache := { h.cache with cst := .draining },
           walks := h.walks ++ [{ job := job, kind := 2, op := 2, setMode := true, lastAt := h.now }] }

/-- What DEGRADED starts (R238): the disable drain, or the end of the array's service where the cache is OFF. -/
def degrade (h : Hub) : Hub :=
  match h.cache.cst with
  | .on => startDrain 0 h
  | .off => { h with life := { h.life with arrayUp := false } }
  | .draining => h

/-- Declares device Dk failed (R236): Ledger, ARRAY_DEV_STAT, record and interrupt; a second failed device sets DEGRADED, whether the first is an
erasure or the spare has taken its position (R238), and starts the disable drain. -/
def declareFailed (k cause : Nat) (h : Hub) : Hub :=
  if h.integ.failed.toNat.testBit k then h
  else
    let second := h.integ.failed != 0#11
    let h := { h with integ := { h.integ with failed := h.integ.failed ||| BitVec.ofNat 11 (2 ^ k) } }
    let h := ledgerPut 0x60 (fun l => { l with failed := h.integ.failed }) h
    let h := raiseEvt 0 (record 0x36 3 4 0 0 (k + 16 * cause) h)
    if second && !h.integ.degraded then
      let h := { h with integ := { h.integ with degraded := true } }
      degrade (raiseEvt 0 (record 0x38 3 4 0 0 h.integ.failed.toNat h))
    else h

/-- Lane row of an array offset: 16 KiB of one lane. DESIGN CHOICE: consecutive 64 KiB of offsets share one row of each lane, log
entry 10. -/
def laneRow (off : Nat) : Nat := off / 65536

/-- Location of a correction in the cache area, coded with kind 0. -/
def locSlot (slice set way : Nat) : Nat := (slice * 4096 + set) * 16 + way

/-- Location of a lane row, kind 1. -/
def locRow (lane row : Nat) : Nat := 2 ^ 40 + lane * 2 ^ 24 + row

/-- Location of a channel row, kind 2. DESIGN CHOICE: 64 KiB of main-memory offsets share one row of each channel, log
entry 10. -/
def locChan (ch row : Nat) : Nat := 2 * 2 ^ 40 + ch * 2 ^ 24 + row

/-- Spare rows of one lane (R235). -/
def spareRows (h : Hub) : Nat := if h.life.dens24 then 1536 else 1024

/-- Remaps a hard lane row into a spare row, or says that none is free (R235). -/
def remapRow (lane row : Nat) (h : Hub) : Hub :=
  let used := (h.led.remap.filter (fun r => r.lane == lane)).map Remap.spare
  match (List.range (used.length + 1)).find? (fun s => !used.contains s && decide (s < spareRows h)) with
  | none => record 0x35 2 4 (lane / 2) 0 (lane + 4 * row) h
  | some s =>
    if h.led.remap.any (fun r => r.lane == lane && r.row == row) then h
    else ledgerPut 0x50 (fun l => { l with remap := l.remap ++ [{ lane := lane, row := row, spare := s, copied := false }] }) h

/-- Retires a cache slot (R234): its bit, its offset in the Ledger's list, and its sector's eviction. -/
def retireSlot (slice set way : Nat) (h : Hub) : Hub :=
  if h.cache.retired.contains (slice, set, way) then h
  else
    let off := slotOffset slice set way 0
    let h := { h with cache := { h.cache with retired := h.cache.retired ++ [(slice, set, way)] },
                      integ := { h.integ with evict := h.integ.evict ++ [(slice, set, way)] } }
    if h.led.retire.length < 4096 then ledgerPut 0x40 (fun l => { l with retire := l.retire ++ [off] }) h
    else record 0x34 2 4 (slice / 16) 0 (off / 128) h

/-- A hard error at a position in a lane row counts for that device's row spread; more than 16 distinct rows declare it failed (R236). -/
def spreadRow (pos row : Nat) (h : Hub) : Hub :=
  if chipKill h && decide (pos < 10) && !(h.led.rowSpread.contains (pos, row)) then
    let h := ledgerPut 0x60 (fun l => { l with rowSpread := l.rowSpread ++ [(pos, row)] }) h
    if (h.led.rowSpread.filter (fun x => x.1 == pos)).length > 16 then declareFailed (devOfPos h pos) 0 h else h
  else h

/-- Acts on a hard error by where it lies (R233, R234); `pos` is the chip-kill position. -/
def hardError (die loc pos : Nat) (h : Hub) : Hub :=
  let kind := loc / 2 ^ 40
  let r := loc % 2 ^ 40
  let h := regSetField h die 0x41D8 15 8 (satAdd (regField h die 0x41D8 15 8) 1 8)
  if kind = 0 then
    let slice := r / 65536
    let h := record 0x33 2 4 die 0 (0 + 4 * (slice / 8) + 32 * (r % 65536 + 65536 * (slice % 8))) h
    spreadRow pos (slice / 8 * 2 ^ 24 + laneRow (slotOffset slice (r / 16 % 4096) (r % 16) 0)) (retireSlot slice (r / 16 % 4096) (r % 16) h)
  else if kind = 1 then
    let lane := r / 2 ^ 24
    spreadRow pos r (remapRow lane (r % 2 ^ 24) (record 0x33 2 4 die 0 (1 + 4 * lane + 32 * (r % 2 ^ 24)) h))
  else
    let h := record 0x33 2 5 die 0 (2 + 4 * (r / 2 ^ 24) + 32 * (r % 2 ^ 24)) h
    if h.led.mainRows.contains r then h else ledgerPut 0x50 (fun l => { l with mainRows := l.mainRows ++ [r] }) h

/-- CORR_CTL.THRESH in force: 2 to 15, 0 and 1 act as 4. -/
def corrThresh (h : Hub) : Nat :=
  let t := regField h 0 0x41D4 3 0
  if t < 2 then 4 else t

/-- Lap number of the lane or channel that holds a location. -/
def lapOf (h : Hub) (loc : Nat) : Nat :=
  let r := loc % 2 ^ 40
  let w := if loc / 2 ^ 40 = 0 then r / 65536 / 8 else if loc / 2 ^ 40 = 1 then r / 2 ^ 24 else 4 + r / 2 ^ 24
  (bget h.integ.whisk w {}).lap

/-- One correction at a location enters the die's correction table (R233). -/
def corrNote (die loc pos : Nat) (h : Hub) : Hub :=
  let t := bget h.integ.corr die []
  match t.find? (fun e => e.loc == loc) with
  | some e =>
    if e.count + 1 ≥ corrThresh h then
      hardError die loc pos { h with integ := { h.integ with corr := bset h.integ.corr die (t.filter (fun x => x.loc != loc)) } }
    else
      let t' := updFirst (fun x => x.loc == loc) (fun x => { x with count := x.count + 1, pos := pos, lap := lapOf h loc }) t
      { h with integ := { h.integ with corr := bset h.integ.corr die t' } }
  | none =>
    let n : CorrEnt := { loc := loc, pos := pos, count := 0, lap := lapOf h loc, seq := h.integ.corrSeq }
    let t' := if t.length < 64 then t
      else match minBy (fun e => e.count * 2 ^ 64 + e.seq) t with
        | some v => t.filter (fun x => x.loc != v.loc)
        | none => t
    { h with integ := { h.integ with corr := bset h.integ.corr die (t' ++ [n]), corrSeq := h.integ.corrSeq + 1 } }

/-! ### Corrected write-backs (R232) -/

/-- Drops the corrected write-back of a word or line: a write has taken its place. -/
def dropBack (kind key : Nat) (h : Hub) : Hub :=
  { h with integ := { h.integ with backs := h.integ.backs.filter (fun b => !(b.kind == kind && b.key == key)) } }

/-- A correction at a location: it enters the correction table and schedules a corrected write-back, charged to the housekeeping reserve; nothing
while one is pending there (R232, R233). -/
def correctAt (die loc pos kind key a bytes : Nat) (h : Hub) : Hub :=
  if h.integ.backs.any (fun b => b.loc == loc) then h
  else
    let b : WBack := { id := h.nextId, loc := loc, kind := kind, key := key, line := a / 128 }
    corrNote die loc pos (pmu 0x1C (homeDie a) bytes { addr := some a } { h with nextId := h.nextId + 1, integ := { h.integ with backs := h.integ.backs ++ [b] } })

/-! ### Reads -/

/-- Bytes with an error XORed in. -/
def xorData (d : List Byte) (e : Nat) : List Byte := List.zipWith (fun x y => x ^^^ y) d (toBytes d.length e)

/-- What a read gave: the hub after it, whether it met data that cannot be used, and the bytes. -/
structure Got where
  h : Hub
  err : Bool
  data : List Byte

/-- Key of an injected error: kind 0 main memory, 1 the partner copy, 2 Kettle, 3 array beat, 4 array line CRC. -/
def injKey (kind i : Nat) : Nat := kind * 2 ^ 44 + i

/-- Error in a main-memory word of one copy. -/
def mainErrOf (h : Hub) (partner : Bool) (w : Nat) : Nat :=
  (bget (if partner then h.mem.mirrErr else h.mem.mainErr) w 0#72).toNat

/-- A main-memory word's error in one copy as the devices now hold it; 0 removes it. -/
def putMainErr (partner : Bool) (w e : Nat) (h : Hub) : Hub :=
  let put := fun (b : Bank (BitVec 72)) => if e = 0 then bdel b w else bset b w (BitVec.ofNat 72 e)
  let inj := h.mem.injected.filter (fun k => k != injKey (b2n partner) w)
  if partner then { h with mem := { h.mem with mirrErr := put h.mem.mirrErr, injected := inj } }
  else { h with mem := { h.mem with mainErr := put h.mem.mainErr, injected := inj } }

/-- A main-memory word's copy written with an error in it; 0 none. A corrected write-back pending there is dropped (R232). -/
def setMainErr (partner : Bool) (w e : Nat) (h : Hub) : Hub := dropBack (b2n partner) w (putMainErr partner w e h)

/-- Errors that come into a main-memory word's copy. -/
def xorMainErr (partner : Bool) (w x : Nat) (h : Hub) : Hub := putMainErr partner w (Nat.xor (mainErrOf h partner w) x) h

/-- The poison marking of a SEC-DED word: check byte XORed with 0x81 (R224). -/
def poisonWord : Nat := 0x81 * 2 ^ 64

/-- Marks a main-memory word POISONED, in each copy whose channel takes it (R208, R223, R224). -/
def poisonCopies (e : REntry) (a w : Nat) (h : Hub) : Hub :=
  if e.mirror then
    forEach [false, true] (fun p h => if chanTrained h (2 * homeRg a + b2n p) then setMainErr p w poisonWord h else h) h
  else setMainErr false w poisonWord h

/-- The copy that a mirrored line which one channel has taken still waits for (R208). -/
def WbLine.other (w : WbLine) : Option Bool := if w.mirror then w.half else none

/-- Whether a write-buffer line has come as far as it can: one channel of its pair has taken it and the other is not trained (R208). -/
def WbLine.rests (w : WbLine) (h : Hub) : Bool :=
  match w.other with
  | some p => !(chanTrained h (2 * homeRg (w.line * 128) + b2n p))
  | none => false

/-- A copy of a mirrored line's words as the write left the other. -/
def goodCopy (p : Bool) (w : WbLine) (h : Hub) : Hub :=
  forEach ((List.range 16).filter (fun i => (slice w.mask (8 * i) 8).any id)) (fun i h =>
    setMainErr p (w.off / 8 + i) (if w.poison && w.ecc then poisonWord else 0) h) h

/-- An uncorrectable main-memory word is counted and reported (R223, CORR_STAT.UE_MAIN, MEM_UE). -/
def mainUe (a who : Nat) (inj : Bool) (h : Hub) : Hub :=
  let die := homeDie a
  let h := regSetField h die 0x41D8 23 16 (satAdd (regField h die 0x41D8 23 16) 1 8)
  let h := pmu 0x17 die 1 { pid := some (whoPid who), addr := some a } h
  recordInj 0x31 2 5 die 0 inj (a / 128) h

/-- The channel that holds a copy of an address (R206). -/
def copyChannel (e : REntry) (a : Nat) (partner : Bool) : Nat := if e.mirror then 2 * homeRg a + b2n partner else homeChannel a

/-- A corrected main-memory word: counted, and its corrected write-back scheduled (R232, R233). -/
def mainCe (e : REntry) (a who : Nat) (partner : Bool) (h : Hub) : Hub :=
  let die := homeDie a
  let off := e.off a / 8 * 8
  let ch := copyChannel e a partner
  let h := pmu 0x16 die 1 { pid := some (whoPid who), addr := some a, qual := some ch } h
  correctAt die (locChan ch (off / 65536)) 15 (b2n partner) (off / 8) a 8 (pageAdd (whoPid who) 29 1 h)

/-- One 8-byte word of main memory at host address `a` of entry `e` (R207, R208, R217, R223, R224). -/
def readMainWord (e : REntry) (a pid : Nat) (h : Hub) : Got :=
  let off := e.off a / 8 * 8
  let w := off / 8
  let raw := memReadN h.mem.main off 8
  if e.mirror then
    let c0 := 2 * homeRg a
    let t0 := chanTrained h c0
    let t1 := chanTrained h (c0 + 1)
    if !t0 && !t1 then ⟨h, true, raw⟩
    else if !e.ecc then
      ⟨h, false, xorData raw (mainErrOf h (!t0) w % 2 ^ 64)⟩
    else
      let p := !t0
      match secded (mainErrOf h p w) with
      | (.clean, x) => ⟨h, false, xorData raw x⟩
      | (.corrected, x) => ⟨mainCe e a pid p h, false, xorData raw x⟩
      | (o, _) =>
        let other := if t0 && t1 then secded (mainErrOf h (!p) w) else (.bad, 0)
        match other with
        | (.clean, x) =>
          let h := setMainErr p w 0 h
          let die := homeDie a
          ⟨regSetField h die 0x41E8 15 0 (satAdd (regField h die 0x41E8 15 0) 1 16), false, xorData raw x⟩
        | (.corrected, x) =>
          let h := mainCe e a pid (!p) (setMainErr p w 0 h)
          let die := homeDie a
          ⟨regSetField h die 0x41E8 15 0 (satAdd (regField h die 0x41E8 15 0) 1 16), false, xorData raw x⟩
        | _ =>
          if o = .poison then ⟨h, true, raw⟩
          else
            let inj := h.mem.injected.contains (injKey (b2n p) w)
            ⟨poisonCopies e a w (mainUe a pid inj h), true, raw⟩
  else if !chanTrained h (homeChannel a) then ⟨h, true, raw⟩
  else if !e.ecc then ⟨h, false, xorData raw (mainErrOf h false w % 2 ^ 64)⟩
  else
    match secded (mainErrOf h false w) with
    | (.clean, x) => ⟨h, false, xorData raw x⟩
    | (.corrected, x) => ⟨mainCe e a pid false h, false, xorData raw x⟩
    | (.poison, _) => ⟨h, true, raw⟩
    | (.bad, _) =>
      let inj := h.mem.injected.contains (injKey 0 w)
      ⟨setMainErr false w poisonWord (mainUe a pid inj h), true, raw⟩

/-- The Kettle's error in a word written; 0 removes it. -/
def setKetErr (w e : Nat) (h : Hub) : Hub :=
  let inj := h.mem.injected.filter (fun k => k != injKey 2 w)
  { h with mem := { h.mem with ketErr := if e = 0 then bdel h.mem.ketErr w else bset h.mem.ketErr w (BitVec.ofNat 72 e), injected := inj } }

/-- A Kettle offset's host address in the first KETTLE entry of this hub, or the offset where there is none: its home die stores the word (R344). -/
def kettleAddr (h : Hub) (off : Nat) : Nat :=
  match h.rmap.find? (fun e => e.2.typ == .kettle && e.2.here h) with
  | some (_, e) => e.base * unit2M + off
  | none => off

/-- One 8-byte Kettle word, at Kettle offset `off` on die `die` (R345). -/
def readKettleWord (off die who : Nat) (h : Hub) : Got :=
  let w := off / 8
  let raw := memReadN h.mem.kettle (w * 8) 8
  match secded (bget h.mem.ketErr w 0#72).toNat with
  | (.clean, x) => ⟨h, false, xorData raw x⟩
  | (.corrected, x) =>
    ⟨regSetField (setKetErr w 0 h) die 0x4800 31 16 (satAdd (regField h die 0x4800 31 16) 1 16), false, xorData raw x⟩
  | (.poison, _) => ⟨h, true, raw⟩
  | (.bad, _) =>
    let inj := h.mem.injected.contains (injKey 2 w)
    let h := setKetErr w poisonWord h
    let h := regSetField h die 0x4800 15 8 (satAdd (regField h die 0x4800 15 8) 1 8)
    let h := pmu 0x17 die 1 { pid := some (whoPid who), addr := some (kettleAddr h (off / 8 * 8)) } h
    ⟨recordInj 0x70 2 10 die 0 inj w h, true, raw⟩

/-- Words read one after the other, bytes joined. -/
def readWords (f : Nat → Hub → Got) : List Nat → Hub → Got
  | [], h => ⟨h, false, []⟩
  | w :: r, h =>
    let g := f w h
    let k := readWords f r g.h
    ⟨k.h, g.err || k.err, g.data ++ k.data⟩

/-- The 8-byte words that cover a range. -/
def wordsOf (a n : Nat) : List Nat := (List.range ((a % 8 + n + 7) / 8)).map (fun i => (a / 8 + i) * 8)

/-- A range of main memory, word by word. -/
def readMain (e : REntry) (a n who : Nat) (h : Hub) : Got :=
  let g := readWords (fun w h => readMainWord e w who h) (wordsOf a n) h
  let ch := copyChannel e a (e.mirror && !(chanTrained h (2 * homeRg a)))
  let h := pmu 0x18 (homeDie a) n { pid := some (whoPid who), cls := whoCls who, addr := some a, qual := some ch } g.h
  ⟨h, g.err, slice g.data (a % 8) n⟩

/-- A range of the Kettle, word by word; the die is the home of the host address (R344). -/
def readKettle (e : REntry) (a n pid : Nat) (h : Hub) : Got :=
  let g := readWords (fun w h => readKettleWord (e.off w) (homeDie w) pid h) (wordsOf a n) h
  ⟨g.h, g.err, slice g.data (a % 8) n⟩

/-- Error of beat `b` of an array line. -/
def beatErrOf (h : Hub) (off b : Nat) : Nat := (bget h.mem.beatErr (off / 8 + b) 0#128).toNat

/-- The host line whose address an array line's code was made with; none where nothing has been written there since the array trained. -/
def encAddr (h : Hub) (off : Nat) : Option Nat :=
  match bfind h.mem.encLine (off / 128) with
  | some k => some k
  | none => (h.mem.encRange.find? (fun r => decide (r.1 ≤ off) && decide (off < r.1 + r.2.1))).map (fun r => (r.2.2 + (off - r.1)) / 128)

/-- Bits in which the address that a line's code was made with differs from the one meant, as line numbers (R218, R221). DEDUCED: a line not written
since the array trained reads with no address error (log entry 126). -/
def addrDiff (h : Hub) (off a : Nat) : Nat := match encAddr h off with | some k => Nat.xor k (a / 128) | none => 0

/-- Error of beat `b` of an array line read at an address: what the devices hold, and in positions 10 to 15 the difference of the address symbols
(Table: Chip-kill codeword positions). -/
def beatAt (h : Hub) (off a b : Nat) : Nat := Nat.xor (beatErrOf h off b) (addrDiff h off a % 2 ^ 41 * 2 ^ 84)

/-- The array line's code made anew with an address. -/
def encodeLine (off a : Nat) (h : Hub) : Hub := { h with mem := { h.mem with encLine := bset h.mem.encLine (off / 128) (a / 128) } }

/-- The array line's stored check made good: no error in any beat or in its CRC. -/
def clearLineErr (off : Nat) (h : Hub) : Hub :=
  let k := off / 8
  let h := dropBack 2 (off / 128) h
  { h with mem := { h.mem with
      beatErr := h.mem.beatErr.filter (fun e => decide (e.1 < k) || decide (k + 16 ≤ e.1)),
      crcErr := bdel h.mem.crcErr (off / 128),
      injected := h.mem.injected.filter (fun i => !(decide (injKey 3 k ≤ i) && decide (i < injKey 3 (k + 16))) && i != injKey 4 (off / 128)) } }

/-- The array line of an address stored with the poison marking (R224). -/
def poisonLine (off a : Nat) (h : Hub) : Hub :=
  let h := encodeLine off a (clearLineErr off h)
  if chipKill h then
    { h with mem := { h.mem with beatErr := (List.range 16).foldl (fun b i => bset b (off / 8 + i) (BitVec.ofNat 128 (0xE0 * 2 ^ 120))) h.mem.beatErr } }
  else { h with mem := { h.mem with crcErr := bset h.mem.crcErr (off / 128) 0xFFFFFFFF#32 } }

/-- What an array line read gave. -/
structure Line where
  h : Hub
  out : EccOut
  data : List Byte
  inj : Bool := false

/-- One array line (R219 to R221): outcome and data; corrections are counted, and entered in the correction
table at `loc` with a corrected write-back. -/
def readArrayLine (off a who loc : Nat) (h : Hub) : Line :=
  let raw := memReadN h.mem.array off 128
  let die := homeDie a
  let rg := homeRg a
  let k := off / 8
  let inj := h.mem.injected.any (fun i => (decide (injKey 3 k ≤ i) && decide (i < injKey 3 (k + 16))) || i == injKey 4 (off / 128))
  let h := pmu 0x1A die 128 { pid := some (whoPid who), cls := whoCls who, addr := some a, qual := some rg } h
  if chipKill h then
    let er := erasedPos h off
    let bs := (List.range 16).map (fun b => beatCheck er (beatAt h off a b))
    let out := bs.foldl (fun o x => o.worse x.1) .clean
    let data := List.zipWith (fun x y => x ^^^ y) raw (bs.flatMap (fun x => beatData x.2.2))
    let ps := bs.filterMap (fun x => x.2.1)
    let h := forEach (List.range 10) (fun p (h : Hub) =>
      { h with integ := { h.integ with consec := if ps.contains p then bupd h.integ.consec (16 * rg + p) 0 (· + 1) else bdel h.integ.consec (16 * rg + p) } }) h
    let h := forEach ps (fun p h => pmu 0x15 die 1 { pid := some (whoPid who), addr := some a, qual := some (devOfPos h p) } h) h
    let h := pageAdd (whoPid who) 29 ps.length h
    let h : Hub := match out, ps with
      | .corrected, p :: _ =>
        if h.integ.failed.toNat.testBit (devOfPos h p) then h else correctAt die loc p 2 (off / 128) a 128 h
      | _, _ => h
    let h := match (List.range 10).find? (fun p => decide (1024 ≤ bget h.integ.consec (16 * rg + p) 0)) with
      | some p => declareFailed (devOfPos h p) 1 h
      | none => h
    ⟨h, out, data, inj⟩
  else
    let e := (List.range 16).map (fun b => beatData (beatErrOf h off b))
    let d := Nat.xor (crc32From 0 (toBytes 6 (addrDiff h off a * 128) ++ e.flatten)) (bget h.mem.crcErr (off / 128) 0#32).toNat
    let data := List.zipWith (fun x y => x ^^^ y) raw e.flatten
    ⟨h, if d = 0 then .clean else if d = 0xFFFFFFFF then .poison else .bad, data, inj⟩

/-- An uncorrectable array line is counted and reported (CORR_STAT.UE_ARR, ARRAY_UE). -/
def arrayUe (a who : Nat) (inj : Bool) (h : Hub) : Hub :=
  let die := homeDie a
  let h := regSetField h die 0x41D8 31 24 (satAdd (regField h die 0x41D8 31 24) 1 8)
  let h := pmu 0x17 die 1 { pid := some (whoPid who), addr := some a } h
  recordInj 0x30 2 4 die 0 inj (a / 128) h

/-! ### Writes -/

/-- One main-memory word written whole. In a mirrored region each trained channel takes it; a copy whose channel takes nothing keeps its old
codeword, and the line waits in the buffer for it (R208). -/
def putMainWord (e : REntry) (a : Nat) (d : List Byte) (h : Hub) : Hub :=
  let off := e.off a / 8 * 8
  let w := off / 8
  let diff := Nat.xor (ofBytes (memReadN h.mem.main off 8)) (ofBytes d)
  let left := fun (p : Bool) =>
    if e.mirror && !(chanTrained h (2 * homeRg a + b2n p)) then Nat.xor (mainErrOf h p w) (diff + hCheck diff * 2 ^ 64) else 0
  setMainErr true w (left true) (setMainErr false w (left false) { h with mem := { h.mem with main := memWriteN h.mem.main off d } })

/-- The bytes of one main-memory word with enabled bytes changed. A partial write to an ECC word merges with the stored word; one
that meets a word that cannot be used writes nothing (R207, R224). -/
def writeMainWord (e : REntry) (a pid : Nat) (d : List Byte) (m : List Bool) (h : Hub) : Hub :=
  let off := e.off a / 8 * 8
  let w := off / 8
  if m.all (· == false) then h
  else if m.all (· == true) then putMainWord e a d h
  else if e.ecc then
    let g := readMainWord e (a / 8 * 8) pid h
    if g.err then g.h else putMainWord e a (mergeBytes g.data d m) g.h
  else putMainWord e a (mergeBytes (xorData (memReadN h.mem.main off 8) (mainErrOf h (e.mirror && !(chanTrained h (2 * homeRg a))) w % 2 ^ 64)) d m) h

/-- Bytes of a range written to main memory (`a` is 8-byte aligned). -/
def writeMain (e : REntry) (a pid : Nat) (d : List Byte) (m : List Bool) (h : Hub) : Hub :=
  forEach (List.range (ceilDiv d.length 8)) (fun i h =>
    writeMainWord e (a + 8 * i) pid (slice d (8 * i) 8) (fitMask 8 (slice m (8 * i) 8)) h) h

/-- The poison marking on the words of a line of main memory that a mask names (R224); in a region with ECC clear the data is written as held
and POISON_DROP says so. -/
def poisonMain (e : REntry) (a pid : Nat) (d : List Byte) (m : List Bool) (h : Hub) : Hub :=
  if e.ecc then
    forEach ((List.range 16).filter (fun i => (slice m (8 * i) 8).any id)) (fun i h =>
      poisonCopies e a (e.off a / 8 + i) h) h
  else record 0x32 2 5 (homeDie a) 0 (a / 128) (writeMain e a pid d m h)

/-- One Kettle word with enabled bytes changed (R344). -/
def writeKettleWord (off die pid : Nat) (d : List Byte) (m : List Bool) (h : Hub) : Hub :=
  let o := off / 8 * 8
  if m.all (· == false) then h
  else if m.all (· == true) then setKetErr (o / 8) 0 { h with mem := { h.mem with kettle := memWriteN h.mem.kettle o d } }
  else
    let g := readKettleWord o die pid h
    if g.err then g.h
    else setKetErr (o / 8) 0 { g.h with mem := { g.h.mem with kettle := memWriteN g.h.mem.kettle o (mergeBytes g.data d m) } }

/-- Bytes of a range written to the Kettle. -/
def writeKettle (e : REntry) (a pid : Nat) (d : List Byte) (m : List Bool) (h : Hub) : Hub :=
  forEach (List.range (ceilDiv d.length 8)) (fun i h =>
    writeKettleWord (e.off (a + 8 * i)) (homeDie a) pid (slice d (8 * i) 8) (fitMask 8 (slice m (8 * i) 8)) h) h

/-- A whole array line written with a good code. -/
def writeArrayLine (off a who : Nat) (d : List Byte) (h : Hub) : Hub :=
  let h := pmu 0x1B (homeDie a) 128 { pid := some (whoPid who), cls := whoCls who, addr := some a, qual := some (homeRg a) } h
  encodeLine off a (clearLineErr off { h with mem := { h.mem with array := memWriteN h.mem.array off d } })

/-- A NEAR line with enabled bytes changed; a partial write to a line that cannot be used writes nothing and leaves it marked
(R223, R224). -/
def writeNear (e : REntry) (a pid : Nat) (d : List Byte) (m : List Bool) (h : Hub) : Hub :=
  let off := e.off (a / 128 * 128)
  if m.all (· == true) then writeArrayLine off a pid d h
  else if m.all (· == false) then h
  else
    let r := readArrayLine off a pid (locRow (homeRg a) (laneRow off)) h
    match r.out with
    | .poison => r.h
    | .bad => poisonLine off a (arrayUe a pid r.inj r.h)
    | _ => writeArrayLine off a pid (mergeBytes r.data d m) r.h

/-- A NEAR line read (R223): DATA_ERROR where it is uncorrectable, and the line takes the poison marking. -/
def readNear (e : REntry) (a pid : Nat) (h : Hub) : Got :=
  let off := e.off (a / 128 * 128)
  if !h.life.arrayUp then ⟨h, true, List.replicate 128 0#8⟩
  else
    let r := readArrayLine off a pid (locRow (homeRg a) (laneRow off)) h
    match r.out with
    | .poison => ⟨r.h, true, r.data⟩
    | .bad => ⟨poisonLine off a (arrayUe a pid r.inj r.h), true, r.data⟩
    | _ => ⟨r.h, false, r.data⟩

end Sys2Proof.Machine
end

