-- ==== Sys2Proof/Machine/Charge.lean ====
section
/-! DEFINITION. Admission of requests (R289), classes and budgets (R181 to R189), capacity and the housekeeping reserve (R187 to
R191). -/

namespace Sys2Proof.Machine

/-! ### Capacity (R187) -/

/-- Data rate of a channel's rate code in MB/s: an x16 channel at R MT/s carries 2 × R. -/
def rateMB : Nat → Nat
  | 1 => 2 * 4266
  | 2 => 2 * 6400
  | 3 => 2 * 7500
  | 4 => 2 * 8533
  | _ => 0

/-- Raw rate of the trained channels in MB/s. -/
def rawMB (h : Hub) : Nat :=
  sumOf ((List.range 8).map (fun k => if chanTrained h k then rateMB (bget h.life.chans k {}).rate else 0))

/-- Derated frame capacity CAP in 64 KiB units for a period of P µs (R187). -/
def capOf (h : Hub) (p : Nat) : Nat := rawMB h * 8 * p / (9 * 65536)

/-- Sum of the class S and D budgets of partitions not FREE (R188, FS_ADMIT). -/
def sdSum (h : Hub) : Nat :=
  sumOf (h.parts.map (fun e =>
    match e.2.st with
    | .free => 0
    | _ => e.2.bud.getD 0 0 + e.2.bud.getD 1 0))

/-- Whether admission holds for a sum at a period (R188). -/
def admits (h : Hub) (sum p : Nat) : Bool := decide (sum ≤ capOf h p * 60 / 100)

/-- FS_CFG.HK_PCT in force. -/
def hkPct (h : Hub) : Nat := regField h 0 0x4100 3 0

/-- Main-memory housekeeping reserve per frame in units (R190, FS_HK_STAT). -/
def hkReserve (h : Hub) (p pct : Nat) : Nat := capOf h p * pct / 100

/-- Lanes trained: the four lanes train together (R404). -/
def lanesTrained (h : Hub) : Nat := if h.life.lanes.trained then 4 else 0

/-- Rate of one lane in MB/s by ARRAY_STAT.RATE (Table: Bandwidth by path). -/
def laneMB : Nat → Nat
  | 1 => 128000
  | 2 => 144000
  | 3 => 160000
  | _ => 0

/-- Raw rate of the trained lanes in MB/s. -/
def arrayMB (h : Hub) : Nat := lanesTrained h * laneMB h.life.lanes.rate

/-- Whether Whisk floors (MB/s), a period and a reserve percentage keep R191. -/
def hkHolds (h : Hub) (arr main p pct : Nat) : Bool :=
  (rawMB h == 0 || decide (ceilDiv (main * p) 65536 ≤ capOf h p * pct / 100))
  && (lanesTrained h == 0 || decide (ceilDiv (arr * p) 65536 ≤ arrayMB h * p / 65536 * pct / 100))

/-- FS_STAT.OVERCOMMIT follows admission; setting it sends the record and the interrupt (R189). -/
def checkOvercommit (h : Hub) : Hub :=
  let ovr := !(admits h (sdSum h) h.fs.period)
  if ovr && !h.fs.overcommit then
    let h := record 0x21 2 2 0 0 (capOf h h.fs.period + sdSum h * 2 ^ 20) { h with fs := { h.fs with overcommit := true } }
    raiseEvt 0 h
  else { h with fs := { h.fs with overcommit := ovr } }

/-! ### Allowances and charges (R183 to R185) -/

/-- Key of an allowance: region, PID, class. -/
def allowKey (rg pid cls : Nat) : Nat := (rg * 64 + pid) * 4 + cls

/-- Allowance of a region for a PID and class. -/
def allowance (h : Hub) (rg pid cls : Nat) : Int := bget h.fs.allow (allowKey rg pid cls) 0

/-- Sets every region's allowances for the release of step k (R183). -/
def releaseStep (k : Nat) (h : Hub) : Hub :=
  forEach ((h.parts.filter (fun e => e.2.st != .free)).map Prod.fst) (fun p h =>
    forEach [0, 1, 2] (fun c h =>
      let release : Int := ((k + 1) * ((part h p).budNow.getD c 0 * 65536) / 16 : Nat)
      let rem := release - (bget h.fs.charged (p * 4 + c) 0 : Nat)
      forEach [0, 1, 2, 3] (fun rg h => { h with fs := { h.fs with allow := bset h.fs.allow (allowKey rg p c) (Int.fdiv rem 4) } }) h) h) h

/-- Bytes a region serves for a PID and class since its last report (R22). -/
def serve (rg pid cls bytes : Nat) (h : Hub) : Hub :=
  { h with fs := { h.fs with regionCnt := bupd h.fs.regionCnt (allowKey rg pid cls) 0 (· + bytes) } }

/-- The regions report their counts to the Frame Sequencer, which adds what they charge to what the frame has charged so far (R22, R183). -/
def reportRegions (h : Hub) : Hub :=
  { h with fs := { h.fs with regionCnt := [], charged := h.fs.regionCnt.foldl (fun c e =>
      let key := e.1 % 256
      if key % 4 < 3 ∧ 4 ≤ key then bupd c key 0 (· + e.2) else c) h.fs.charged } }

/-- Charges bytes to a PID and class at a region (R184); class B and PID 0 are charged to no budget, but are served all the same. -/
def charge (rg pid cls bytes : Nat) (h : Hub) : Hub :=
  let h := serve rg pid cls bytes h
  if cls < 3 ∧ pid ≠ 0 then
    pageAdd pid (1 + cls) bytes { h with fs := { h.fs with
      allow := bset h.fs.allow (allowKey rg pid cls) (allowance h rg pid cls - (bytes : Int)) } }
  else h

/-- Housekeeping bytes of an address (PMU event HK_B, R190). -/
def hkBytes (a bytes : Nat) (h : Hub) : Hub := pmu 0x1C (homeDie a) bytes { addr := some a } h

/-- Whether R185 would demote a request of this PID and class at this region. -/
def spent (h : Hub) (rg pid cls : Nat) : Bool := decide (cls < 3) && decide (allowance h rg pid cls ≤ 0)

/-- Class at which a request is served: demoted to B where its region's allowance is spent, counted and charged (R184, R185). -/
def chargeRequest (a pid cls bytes port : Nat) (h : Hub) : Nat × Hub :=
  let rg := homeRg a
  if pid = 0 then (cls, serve rg pid cls bytes (hkBytes a bytes h))
  else if cls ≥ 3 then (3, pageAdd pid 7 bytes (serve rg pid 3 bytes h))
  else if spent h rg pid cls then
    (3, serve rg pid 3 bytes <| pmu 0x13 (homeDie a) 1 { pid := some pid, port := some port, cls := some cls, addr := some a } (pageAdd pid (4 + cls) bytes h))
  else (cls, charge rg pid cls bytes h)

/-! ### Admission (R288, R289) -/

/-- Whether a request of a PID is admitted from a link (R289, R342). -/
def admitted (h : Hub) (l pid stream : Nat) : Bool :=
  if pid = 0 then isTwinLink h l && decide (896 ≤ stream)
  else match (part h pid).st with
    | .active => (part h pid).links.toNat.testBit l
    | _ => false

/-- Counts a request that is not admitted in PART_p_STAT.DENY_CNT of its PID (R289). -/
def countDeny (pid : Nat) (h : Hub) : Hub :=
  if 0 < pid ∧ pid < 64 then
    let off := 0x5800 + 64 * pid
    regSetField h 0 off 31 16 (satAdd (regField h 0 off 31 16) 1 16)
  else h

end Sys2Proof.Machine
end

