-- ==== Sys2Proof/Machine/Ordering.lean ====
section
/-! DEFINITION. Witness windows as requests see them (R249, R250) and reservation monitors (R167 to R170). -/

namespace Sys2Proof.Machine

/-! ### Windows -/

/-- A witness window. -/
def win (h : Hub) (n : Nat) : Win := bget h.wins n {}

/-- The hub with a window changed. -/
def setWin (h : Hub) (n : Nat) (f : Win → Win) : Hub := { h with wins := bupd h.wins n {} f }

/-- Whether a window is armed. -/
def Win.armed (w : Win) : Bool := w.st != .disarmed

/-- Whether a window is SEALING or SEALED. -/
def Win.sealed (w : Win) : Bool :=
  match w.st with
  | .sealing => true
  | .sealed => true
  | _ => false

/-- Whether a window's range meets `[a, a + n)`. -/
def Win.meets (w : Win) (a n : Nat) : Bool := decide (w.base < a + n) && decide (a < w.base + w.lines * 128)

/-- Whether an address lies in a SEALING or SEALED window (R250). -/
def inSealed (h : Hub) (a : Nat) : Bool := h.wins.any (fun e => e.2.sealed && e.2.meets a 1)

/-- Whether a window's seal is in force for the frame that ends (R248). -/
def Win.inForce (w : Win) : Bool :=
  w.st == .sealed && (match w.sealTicks with | some k => if w.static then decide (1 ≤ k) else k == 1 | none => false)

/-- A window whose seal, if it is in force, is broken or replaced in a cycle (R248, R249). -/
def Win.loseSeal (now : Nat) (w : Win) : Win := if w.inForce then { w with lost := some (now, w.wsig) } else w

/-- Ends a window's seal with an error (R246). -/
def sealError (n code : Nat) (h : Hub) : Hub :=
  record 0x40 2 7 0 (win h n).pid (n + 16 * code) (setWin h n (fun w => { w with st := .opened, sealErr := code, sealTicks := none, restoreSig := none }))

/-- A break of one window's seal at a line (R249). -/
def breakSeal (n a : Nat) (h : Hub) : Hub :=
  let w := win h n
  let h := regSetField h 0 0x4308 15 0 (satAdd (regField h 0 0x4308 15 0) 1 16)
  let h := pmu 0x25 (homeDie a) 1 { pid := some w.pid, addr := some a } h
  let h := setWin h n (fun w => { w with broken := true })
  match w.st with
  | .sealing => sealError n 1 h
  | _ => record 0x41 1 7 0 w.pid (n + 16 * (a / 128)) (setWin h n (fun w => { w.loseSeal h.now with st := .opened, sealTicks := none }))

/-- A request ordered for `[a, a + n)` breaks every seal of its lines (R249). -/
def breakSeals (a n : Nat) (h : Hub) : Hub :=
  forEach ((h.wins.filter (fun e => e.2.sealed && e.2.meets a n)).map Prod.fst) (fun i h => breakSeal i a h) h

/-! ### Reservations -/

/-- A lost reservation is counted: `hi` is the top bit of its cause's count in RESV_LOSS (31 WRITE, 23 CLEAR, 15 EVICT, 7 OTHER). -/
def countLoss (die pid hi : Nat) (h : Hub) : Hub :=
  pmu 0x23 die 1 { pid := some pid } (regSetField h die 0x4084 hi (hi - 7) (satAdd (regField h die 0x4084 hi (hi - 7)) 1 8))

/-- A monitor is lost. -/
def loseMon (m : Mon) (hi : Nat) (h : Hub) : Hub :=
  countLoss m.die m.pid hi { h with mons := h.mons.filter (fun x => x.id != m.id) }

/-- Loses every monitor that passes a test. -/
def loseMons (p : Mon → Bool) (hi : Nat) (h : Hub) : Hub := forEach (h.mons.filter p) (fun m h => loseMon m hi h) h

/-- Loses the reservations on the granules of `[a, a + n)` that were set before a number in home order and whose link and stream pass a test, and
those that ST_CONDs ordered after it and not yet judged still hold (R137, R169, R170, log entry 101). -/
def loseResv (id a n : Nat) (p : Nat → Nat → Bool) (h : Hub) : Hub :=
  let h := loseMons (fun m => decide (m.id < id) && decide (m.granule < a + n) && decide (a < m.granule + 128) && p m.link m.stream) 31 h
  let lost := fun (t : Txn) => t.req.op == 0x26 && t.upg && decide (id < t.id)
    && decide (t.req.addr / 128 * 128 < a + n) && decide (a < t.req.addr / 128 * 128 + 128) && p t.req.link t.req.stream
  forEach (h.txns.filter lost) (fun t h => countLoss (homeDie t.req.addr) t.req.pid 31 h)
    { h with txns := h.txns.map (fun t => if lost t then { t with upg := false } else t) }

/-- A write to the granules of `[a, a + n)`, of a number in home order, by a stream (link 8 for the hub's own) loses other streams'
reservations (R170). -/
def writeLoss (id a n l stream : Nat) (h : Hub) : Hub := loseResv id a n (fun k x => !(k == l && x == stream)) h

/-- A grant of E or M on a granule to a host, for a request of a number in home order, loses other hosts' reservations (R170). -/
def grantLoss (id a n host : Nat) (h : Hub) : Hub := loseResv id a n (fun k _ => hostOfLink h k != host) h

/-- Releases a stream's reservation without a loss (R168, R169). -/
def releaseResv (l stream : Nat) (h : Hub) : Hub := { h with mons := h.mons.filter (fun m => !(m.link == l && m.stream == stream)) }

/-- Whether a stream holds an unlost reservation on the granule of an address; one of 12,500 cycles' age is lost (R169, R170). -/
def holdsResv (h : Hub) (a l stream : Nat) : Bool :=
  h.mons.any (fun m => m.link == l && m.stream == stream && m.granule == a / 128 * 128 && decide (h.now < m.at_ + 12500))

/-- Sets a monitor for a stream (R168): quota of the partition on the die, then the die's 64. -/
def setResv (a l stream pid : Nat) (h : Hub) : Hub :=
  let h := releaseResv l stream h
  let die := homeDie a
  let q := (part h pid).monq
  if q = 0 then h
  else
    let mine := h.mons.filter (fun m => m.die == die && m.pid == pid)
    let all := h.mons.filter (fun m => m.die == die)
    let h :=
      if mine.length ≥ q then (match minBy Mon.id mine with | some m => loseMon m 15 h | none => h)
      else if all.length ≥ 64 then (match minBy Mon.id all with | some m => loseMon m 15 h | none => h)
      else h
    { h with mons := h.mons ++ [{ id := h.nextId, die := die, granule := a / 128 * 128, link := l, stream := stream, pid := pid, at_ := h.now }],
             nextId := h.nextId + 1 }

end Sys2Proof.Machine
end

