-- ==== Sys2Proof/Machine/Cache.lean ====
section
/-! DEFINITION. Sector tags and line states (R35 to R38), allocation and replacement (R47 to R54), write-buffer lines, and the effect
of a write on the hub cache and on the buffer (R55 to R60), with the echo table (R91, R92). -/

namespace Sys2Proof.Machine

/-! ### Trackers and write-buffer lines (R18, R47) -/

/-- Trackers in use in a cluster: open transactions that hold one and prefetches in flight. -/
def trkUsed (h : Hub) (cl : Nat) : Nat :=
  (h.txns.filter (fun t => t.trk && clusterOf t.slice == cl)).length
    + (h.ladle.filter (fun e => e.inFlight && e.cluster == cl)).length

/-- CACHE_TRK_CTL of a cluster's die. -/
def trkCtl (h : Hub) (cl : Nat) : Nat := regGet h (dieOfCluster cl) 0x4008

/-- Whether a request of a class may take a tracker (R47). -/
def canTrk (h : Hub) (cl cls : Nat) : Bool :=
  let free := 128 - trkUsed h cl
  let c := trkCtl h cl
  if cls = 0 then decide (0 < free)
  else if cls = 1 then decide (bits c 6 0 < free)
  else decide (bits c 6 0 + bits c 14 8 < free)

/-- Write-buffer lines in use in a cluster. -/
def wbUsed (h : Hub) (cl : Nat) : Nat :=
  (h.wbs.filter (fun w => w.cluster == cl)).length + (h.txns.filter (fun t => t.wb && clusterOf t.slice == cl)).length

/-- Write-buffer lines free in a cluster. -/
def wbFree (h : Hub) (cl : Nat) : Nat := 64 - wbUsed h cl

/-- Whether a write of a class may take a write-buffer line (R47). -/
def canWb (h : Hub) (cl cls : Nat) : Bool :=
  if cls = 0 then decide (0 < wbFree h cl) else decide (bits (trkCtl h cl) 21 16 < wbFree h cl)

/-! ### Sectors -/

/-- Whether a line state holds anything. -/
def LineSt.present : LineSt → Bool
  | .invalid => false
  | _ => true

/-- Whether a line is in transit. -/
def LineSt.moving : LineSt → Bool
  | .filling => true
  | .flushing _ _ => true
  | _ => false

/-- Whether a sector tag entry is valid. -/
def Sector.valid (s : Sector) : Bool := s.lines.any LineSt.present

/-- The entry of a way slot; a slot never written is INVALID with AGE 7 and PID 0 (R78). -/
def sector (h : Hub) (sl set way : Nat) : Sector :=
  (h.cache.sectors.find? (fun s => s.slice == sl && s.set == set && s.way == way)).getD
    { slice := sl, set := set, way := way, addr := 0, lines := List.replicate 8 .invalid, pid := 0, age := 7, echo := false }

/-- The hub with a way slot's entry written. -/
def putSector (s : Sector) (h : Hub) : Hub :=
  let same := fun (x : Sector) => x.slice == s.slice && x.set == s.set && x.way == s.way
  let all := if h.cache.sectors.any same then h.cache.sectors.map (fun x => if same x then s else x) else h.cache.sectors ++ [s]
  { h with cache := { h.cache with sectors := all } }

/-- The valid sector that holds an address (R42); none while the cache is OFF (R11). -/
def findSector (h : Hub) (a : Nat) : Option Sector :=
  match h.cache.cst with
  | .off => none
  | _ => h.cache.sectors.find? (fun s => s.slice == homeSlice a && s.addr == a / 1024 * 1024 && s.valid)

/-- Index of a line in its sector. -/
def lineIx (a : Nat) : Nat := a / 128 % 8

/-- State of a line in the hub cache. -/
def lineSt (h : Hub) (a : Nat) : LineSt :=
  match findSector h a with
  | some s => s.lines.getD (lineIx a) .invalid
  | none => .invalid

/-- Whether an address lies in an NWB region. -/
def isNwb (h : Hub) (a : Nat) : Bool :=
  match rmapFind h a with
  | some (_, e) => e.typ == .nwb
  | none => false

/-! ### The echo table (R91, R92) -/

/-- An address homed on a slice, for what the slice reads and writes for itself. -/
def sliceAddr (sl : Nat) : Nat := (((List.range 32).map (1024 * ·)).find? (fun a => homeSlice a == sl)).getD 0

/-- Array offset of a set's echo line, above the cache data. DESIGN CHOICE (log entry 10). -/
def echoOffset (h : Hub) (sl set : Nat) : Nat := setsInUse h * 16 * 32 * 1024 + (set * 32 + sl) * 128

/-- The number of a set's echo line among the lines of the write buffer, above those of host addresses. -/
def echoKey (sl set : Nat) : Nat := 2 ^ 41 + set * 32 + sl

/-- A set's echo line as the slice sees it through the write buffer (R92, R93). -/
def echoBytes (h : Hub) (sl set : Nat) : List Byte :=
  let mine := (h.wbs ++ h.cache.echoDue).filter (fun w => w.line == echoKey sl set)
  mine.foldl (fun d w => mergeBytes d w.data w.mask) (memReadN h.mem.array (echoOffset h sl set) 128)

/-- The echo entry of a way: 64 bits laid out as Table: Echo entry. -/
def echoOf (h : Hub) (sl set way : Nat) : Nat := ofBytes (slice (echoBytes h sl set) (8 * way) 8)

/-- V, DMASK and ZMASK of an echo entry, and its PID (Table: Echo entry). -/
def echoV (v : Nat) : Bool := bitOf v 63
def echoD (v : Nat) : Nat := bits v 33 26
def echoZ (v : Nat) : Nat := bits v 25 18
def echoPid (v : Nat) : Nat := bits v 39 34

/-- TAG of an address: bits [47:25], those below the tag width of R10 stored as 0 (R35). -/
def tagOf (h : Hub) (a : Nat) : Nat := a / 2 ^ 25 / (setsInUse h / 2 ^ 10) * (setsInUse h / 2 ^ 10)

/-- An echo entry put together (Table: Echo entry). -/
def echoWord (tag pid d z : Nat) : Nat := 2 ^ 63 + fieldAt tag 40 + fieldAt pid 34 + fieldAt d 26 + fieldAt z 18

/-- The sector address that an echo entry of a set of a slice describes: TAG and the set index give bits [47:15], the slice the rest. -/
def echoSector (sl set v : Nat) : Nat :=
  let top := bits v 62 40 * 2 ^ 25 + set * 2 ^ 15
  (((List.range 32).map (fun i => top + 1024 * i)).find? (fun a => homeSlice a == sl)).getD top

/-- Writes a way's echo entry: into the pending echo write of its set, or as a new one, charged to the housekeeping reserve; it waits
outside the buffer where no line of that is free (R92). -/
def putEcho (sl set way v : Nat) (h : Hub) : Hub :=
  let key := echoKey sl set
  let m := splice (List.replicate 128 false) (8 * way) (List.replicate 8 true)
  let d := splice (List.replicate 128 0#8) (8 * way) (toBytes 8 v)
  let join := fun (w : WbLine) => if w.line == key then
    { w with data := mergeBytes w.data d m, mask := List.zipWith (fun x y => x || y) w.mask m } else w
  if h.wbs.any (fun w => w.line == key) then { h with wbs := h.wbs.map join }
  else if h.cache.echoDue.any (fun w => w.line == key) then
    { h with cache := { h.cache with echoDue := h.cache.echoDue.map join } }
  else
    let w : WbLine := { id := h.nextId, cluster := clusterOf sl, line := key, tgt := 2, off := echoOffset h sl set, mirror := false, ecc := false,
                        data := d, mask := m, poison := false }
    let h := hkBytes (sliceAddr sl) 128 { h with nextId := h.nextId + 1 }
    if 0 < wbFree h (clusterOf sl) then { h with wbs := h.wbs ++ [w] }
    else { h with cache := { h.cache with echoDue := h.cache.echoDue ++ [w] } }

/-- Echo writes that waited for a write-buffer line take one where it is free. -/
def settleEcho (h : Hub) : Hub :=
  forEach h.cache.echoDue (fun w h =>
    if 0 < wbFree h w.cluster then
      { h with wbs := h.wbs ++ [w], cache := { h.cache with echoDue := h.cache.echoDue.filter (fun x => x.id != w.id) } }
    else h) h

/-- Echo updates of one line's change of state (Table: Echo entry updates). -/
def echoLine (s : Sector) (ix : Nat) (old st : LineSt) (h : Hub) : Hub :=
  if !chipKill h || old == st then h
  else
    let v := if s.echo then echoOf h s.slice s.set s.way else 0
    let bit := 2 ^ ix
    let off := fun (x : Nat) => Nat.land x (255 - bit)
    let mark := fun (d z : Nat) =>
      putEcho s.slice s.set s.way (echoWord (tagOf h s.addr) s.pid d z) (putSector { sector h s.slice s.set s.way with echo := true } h)
    match st with
    | .dirty => mark (Nat.lor (echoD v) bit) (off (echoZ v))
    | .zero => if isNwb h s.addr then mark (off (echoD v)) (Nat.lor (echoZ v) bit) else h
    | .invalid =>
      if s.echo then putEcho s.slice s.set s.way (putBits (putBits v 33 26 (off (echoD v))) 25 18 (off (echoZ v))) h else h
    | _ => h

/-- A sector's echo entry when it is evicted: V cleared (Table: Echo entry updates). -/
def echoGone (s : Sector) (h : Hub) : Hub :=
  if chipKill h && s.echo then putEcho s.slice s.set s.way (setBit (echoOf h s.slice s.set s.way) 63 false) h else h

/-- Fate of an accepted castout line whose sector or line goes before any hit (R63). `cast` codes index + 8 × PID. -/
def castGone (s : Sector) (ix : Nat) (h : Hub) : Hub :=
  forEach (s.cast.filter (fun c => c % 8 == ix)) (fun c h => setPart h (c / 8) (fun p => { p with castGone := p.castGone + 1 })) h

/-- Changes the state of one line of a way slot, with its echo and castout bookkeeping. -/
def setSlotLine (sl set way ix : Nat) (st : LineSt) (h : Hub) : Hub :=
  let s := sector h sl set way
  let old := s.lines.getD ix .invalid
  let h := match st with | .invalid => castGone s ix h | _ => h
  let keep := match st with | .invalid => s.cast.filter (fun c => c % 8 != ix) | _ => s.cast
  let h := putSector { s with lines := s.lines.set ix st, cast := keep } h
  echoLine s ix old st h

/-- Changes the state of the line that holds an address; nothing where its sector is absent. -/
def setLineSt (a : Nat) (st : LineSt) (h : Hub) : Hub :=
  match findSector h a with
  | some s => setSlotLine s.slice s.set s.way (lineIx a) st h
  | none => h

/-- A demand hit or fill: AGE 0, and a castout line's first demand hit is counted (R54, R63). PID 0 changes no AGE (R52). -/
def touch (a pid : Nat) (h : Hub) : Hub :=
  match findSector h a with
  | none => h
  | some s =>
    if pid = 0 then h
    else
      let ix := lineIx a
      let h := forEach (s.cast.filter (fun c => c % 8 == ix)) (fun c h => setPart h (c / 8) (fun p => { p with castHit := p.castHit + 1 })) h
      putSector { s with age := 0, cast := s.cast.filter (fun c => c % 8 != ix) } h

/-- Array offset of the line of an address in its way slot. -/
def lineOffset (s : Sector) (a : Nat) : Nat := slotOffset s.slice s.set s.way (lineIx a)

/-! ### Write-buffer lines -/

/-- A region-map entry that maps one hub line as a write-buffer line's target says. -/
def WbLine.entry (w : WbLine) : REntry :=
  { base := w.line * 128 / unit2M, size := 1, typ := if w.tgt = 1 then .near else .nwt, tbase := w.off / unit2M, ecc := w.ecc, mirror := w.mirror }

/-- Pending lines of the buffer for a hub line, oldest first, of those numbered below `before`. -/
def wbLines (h : Hub) (line before : Nat) : List WbLine := h.wbs.filter (fun w => w.line == line && decide (w.id < before))

/-- Buffered bytes over a line's data, with which bytes of what results cannot be used (R43, R59). -/
def overlayBytes (h : Hub) (line before : Nat) (bad : List Bool) (d : List Byte) : List Bool × List Byte :=
  (wbLines h line before).foldl (fun (p : List Bool × List Byte) w =>
    (List.zipWith (fun b m => if m then w.poison else b) p.1 w.mask, mergeBytes p.2 w.data w.mask)) (bad, d)

/-- Buffered bytes over a line's data, with whether any byte of what results cannot be used. -/
def overlay (h : Hub) (line before : Nat) (err : Bool) (d : List Byte) : Bool × List Byte :=
  let o := overlayBytes h line before (List.replicate 128 err) d
  (o.1.any id, o.2)

/-- Whether the buffer holds a whole line (outcome 6 of R42). -/
def wholeInWb (h : Hub) (line : Nat) : Bool :=
  let ms := (wbLines h line h.nextId).map WbLine.mask
  !ms.isEmpty && (List.range 128).all (fun i => ms.any (fun m => m.getD i false))

/-- Whether an open read of memory for the line was ordered after a buffered line, so that it must not see later bytes. -/
def readBehind (h : Hub) (line id : Nat) : Bool :=
  h.txns.any (fun t => t.ph == .fill && t.req.addr / 128 == line && decide (id < t.seq))

/-- Puts bytes of one hub line into the buffer, merged into a line of it that has not issued (R59), on their way to where entry `e`
keeps the line, for whom `who` says. -/
def bufferWrite (e : REntry) (a : Nat) (d : List Byte) (m : List Bool) (poison : Bool) (who txn : Nat) (h : Hub) : Hub :=
  let line := a / 128
  let tgt := if e.typ.isMain then 0 else 1
  let dev := e.typ == .dev
  let old := (h.wbs.filter (fun w => w.line == line)).getLast?
  let fresh : WbLine := {
    id := h.nextId, cluster := homeCluster a, line := line, tgt := tgt, off := e.off (line * 128),
    mirror := e.mirror, ecc := e.ecc, data := d, mask := m, poison := poison, pid := who, txn := txn, dev := dev }
  let add := { h with wbs := h.wbs ++ [fresh], nextId := h.nextId + 1 }
  match old with
  | none => add
  | some w =>
    if dev || w.dev || w.poison || poison || w.other.isSome || readBehind h line w.id then add
    else
      let w' := { w with data := mergeBytes w.data d m, mask := List.zipWith (fun x y => x || y) w.mask m, txn := txn }
      { h with wbs := h.wbs.map (fun x => if x.id == w.id then w' else x) }

/-- All bytes of a line enabled. -/
def allMask : List Bool := List.replicate 128 true

/-- A line of zeros. -/
def zeroLine : List Byte := List.replicate 128 0#8

/-! ### Eviction and allocation (R38, R49 to R54) -/

/-- Whether a line must be moved to memory when its sector leaves (R38). -/
def mustMove (nwb : Bool) : LineSt → Bool
  | .dirty => true
  | .zero => nwb
  | .poisoned => nwb
  | _ => false

/-- An array line's data as the devices hold it, with no check made. -/
def arrayHeld (h : Hub) (off : Nat) : List Byte :=
  xorData (memReadN h.mem.array off 128) (ofBytes ((List.range 16).flatMap (fun b => beatData (beatErrOf h off b))))

/-- Copies one line that leaves the cache into the buffer (R38): its data, zeros, or the poison marking. Answers the hub and whether its
data was uncorrectable. -/
def moveOut (s : Sector) (ix : Nat) (st : LineSt) (h : Hub) : Bool × Hub :=
  let a := s.addr + 128 * ix
  match rmapFind h a with
  | none => (false, h)
  | some (_, e) =>
    match st with
    | .zero => (false, bufferWrite e a zeroLine allMask false 0 0 (hkBytes a 128 h))
    | .poisoned => (true, bufferWrite e a (arrayHeld h (slotOffset s.slice s.set s.way ix)) allMask true 0 0 (hkBytes a 128 h))
    | _ =>
      let r := readArrayLine (slotOffset s.slice s.set s.way ix) a 0 (locSlot s.slice s.set s.way) h
      match r.out with
      | .clean => (false, bufferWrite e a r.data allMask false 0 0 (hkBytes a 128 r.h))
      | .corrected => (false, bufferWrite e a r.data allMask false 0 0 (hkBytes a 128 r.h))
      | o => (true, bufferWrite e a r.data allMask true 0 0 (hkBytes a 128 (if o = .poison then r.h else arrayUe a 0 r.inj r.h)))

/-- Evicts a sector (R38): none where too few write-buffer lines are free. The entry keeps its PID; its echo entry's V clears. -/
def evictSector (sl set way : Nat) (h : Hub) : Option Hub :=
  let s := sector h sl set way
  let nwb := isNwb h s.addr
  let moved := (List.range 8).filter (fun i => mustMove nwb (s.lines.getD i .invalid))
  if moved.length > wbFree h (clusterOf sl) then none
  else
    let h := forEach moved (fun i h => (moveOut s i (s.lines.getD i .invalid) h).2) h
    let h := forEach (List.range 8) (fun i h => castGone s i h) h
    let h := echoGone s h
    some (putSector { sector h sl set way with lines := List.replicate 8 .invalid, echo := false, cast := [], tagPar := false, statePar := false } h)

/-- Way mask of a partition; PID 0 has none (R52). -/
def wayMask (h : Hub) (pid : Nat) : Nat := if pid = 0 then 0 else (part h pid).wayMask.toNat

/-- Whether a way counts as powered: the cache is ON, the way is powered and no power-off waits on it (R80, R83). -/
def wayPowered (h : Hub) (w : Nat) : Bool :=
  h.cache.cst == .on && h.cache.powered.toNat.testBit w && !h.cache.pending.toNat.testBit w

/-- Whether a slot is locked. -/
def isLocked (h : Hub) (sl set w : Nat) : Bool := h.cache.locks.contains (sl, set, w)

/-- Eligible ways of a set for an allocation by a partition (R49). -/
def eligible (h : Hub) (sl set pid : Nat) : List Nat :=
  (List.range 16).filter (fun w =>
    let s := sector h sl set w
    (wayMask h pid).testBit w && !h.cache.retired.contains (sl, set, w) && wayPowered h w
      && !(isLocked h sl set w && (s.pid != pid || s.valid)) && !(s.lines.any LineSt.moving))

/-- The victim among the eligible ways, with the ages that the choice writes (R53). -/
def chooseVictim (h : Hub) (sl set pid : Nat) : Option (Nat × Hub) :=
  let el := eligible h sl set pid
  match el with
  | [] => none
  | _ =>
    match el.find? (fun w => !(sector h sl set w).valid && isLocked h sl set w) with
    | some w => some (w, h)
    | none =>
      match el.find? (fun w => !(sector h sl set w).valid) with
      | some w => some (w, h)
      | none =>
        let top := maxOf (el.map (fun w => (sector h sl set w).age))
        let h := forEach el (fun w h => putSector { sector h sl set w with age := (sector h sl set w).age + 7 - top } h) h
        (el.find? (fun w => (sector h sl set w).age == 7)).map (fun w => (w, h))

/-- Insertion age of a class, or of a castout (4), on a slice's die (R54). -/
def insAge (h : Hub) (sl cls : Nat) : Nat := regField h (dieOfSlice sl) 0x4004 (4 * cls + 2) (4 * cls)

/-- What a search for a place for a line gave. -/
inductive Place where
  /-- A way slot of the line's set, whose sector is the line's. -/
  | got (h : Hub) (set way : Nat)
  /-- No place: the request is served without allocation (R51). -/
  | no
  /-- The eviction waits for write-buffer lines (R38). -/
  | wait

/-- A place for the line of an address, allocated for a partition (R49, R50, R53); a new sector takes `age` and `owner`. -/
def placeLine (a pid owner age : Nat) (h : Hub) : Place :=
  let sl := homeSlice a
  match findSector h a with
  | some s => if h.cache.cst == .on && (wayMask h pid).testBit s.way then .got h s.set s.way else .no
  | none =>
    if h.cache.cst != .on then .no
    else
      let set := setIndex h a
      match chooseVictim h sl set pid with
      | none => .no
      | some (w, h1) =>
        match evictSector sl set w h1 with
        | none => .wait
        | some h2 =>
          .got (putSector { sector h2 sl set w with addr := a / 1024 * 1024, pid := owner, age := age, lines := List.replicate 8 .invalid } h2) set w

/-- A request served without allocation is counted (R51). -/
def countBypass (a pid cls port : Nat) (h : Hub) : Hub :=
  pmu 0x06 (homeDie a) 1 { pid := some pid, port := some port, cls := some cls, addr := some a } (pageAdd pid 15 1 h)

/-! ### Reading a cached line (R223) -/

/-- What a read of a cached line gave: its data, DATA_ERROR, or the need to fetch it from memory. -/
inductive CRead where
  | good (h : Hub) (d : List Byte)
  | bad (h : Hub)
  | miss (h : Hub)

/-- Whether main memory behind an address can be read at all (R217). -/
def memReadable (h : Hub) (e : REntry) (a : Nat) : Bool :=
  if e.mirror then chanTrained h (2 * homeRg a) || chanTrained h (2 * homeRg a + 1) else chanTrained h (homeChannel a)

/-- Reads the line of an address from the cache, by its state. A slot that holds the poison marking (R237) is a poison read: nothing is counted, and
the line becomes POISONED (R224). -/
def readCached (a who : Nat) (h : Hub) : CRead :=
  match findSector h a, rmapFind h a with
  | some s, some (_, e) =>
    let line := a / 128
    let off := lineOffset s a
    let loc := locSlot s.slice s.set s.way
    match s.lines.getD (lineIx a) .invalid with
    | .zero => .good h zeroLine
    | .poisoned => .bad h
    | .flushing true _ => .good h zeroLine
    | .flushing false _ =>
      let r := readArrayLine off a who loc h
      match r.out with
      | .clean => .good r.h (overlay r.h line r.h.nextId false r.data).2
      | .corrected => .good r.h (overlay r.h line r.h.nextId false r.data).2
      | o =>
        let h := if o = .poison then r.h else arrayUe a who r.inj r.h
        let h := { h with integ := { h.integ with flushBad := h.integ.flushBad.filter (· != line) ++ [line] } }
        if wholeInWb h line then .good h (overlay h line h.nextId false r.data).2
        else
          let g := readMain e (line * 128) 128 who h
          let o := overlay g.h line g.h.nextId g.err g.data
          if o.1 then .bad g.h else .good g.h o.2
    | .clean =>
      let r := readArrayLine off a who loc h
      match r.out with
      | .clean => .good r.h r.data
      | .corrected => .good r.h r.data
      | .poison => .bad (setLineSt a .poisoned r.h)
      | .bad =>
        let h := arrayUe a who r.inj r.h
        let h := if chipKill h then h else corrNote (homeDie a) loc 15 h
        if memReadable h e a then .miss (setLineSt a .invalid h) else .bad (setLineSt a .poisoned h)
    | .dirty =>
      let r := readArrayLine off a who loc h
      match r.out with
      | .clean => .good r.h r.data
      | .corrected => .good r.h r.data
      | .poison => .bad (setLineSt a .poisoned r.h)
      | .bad => .bad (setLineSt a .poisoned (arrayUe a who r.inj r.h))
    | _ => .miss h
  | _, _ => .miss h

/-! ### Writes (R55 to R60) -/

/-- What the effect of a write on the home copy is. -/
inductive WRes where
  /-- Done: the bytes are held (R158). -/
  | done (h : Hub)
  /-- DATA_ERROR, nothing written (R58, R224, R60). -/
  | derr (h : Hub)
  /-- An NWB partial miss: the line is FILLING and its fetch is due (R56). -/
  | fetch (h : Hub) (set way : Nat)
  /-- Waits for write-buffer lines (R38). -/
  | wait

/-- What the buffer holds of word `i` of a hub line: poison, a whole good word, or nothing that decides (R224). -/
def wbWord (h : Hub) (line i : Nat) : Option Bool :=
  (wbLines h line h.nextId).foldl (fun (o : Option Bool) w =>
    let m := slice w.mask (8 * i) 8
    if w.poison && m.any id then some true else if m.all id then some false else o) none

/-- Whether a partial write to main memory would meet a word that cannot be used (R224): the word's check is read now. -/
def partialBad (e : REntry) (a who : Nat) (m : List Bool) (h : Hub) : Bool × Hub :=
  if !e.ecc then (false, h)
  else
    (List.range 16).foldl (fun (p : Bool × Hub) i =>
      let w := fitMask 8 (slice m (8 * i) 8)
      if w.any id && !(w.all id) then
        match wbWord p.2 (a / 128) i with
        | some bad => (p.1 || bad, p.2)
        | none =>
          let g := readMainWord e (a / 128 * 128 + 8 * i) who p.2
          (p.1 || g.err, g.h)
      else p) (false, h)

/-- Whether main memory is needed and its channel cannot be reached (R217). -/
def memBars (h : Hub) (e : REntry) (a : Nat) : Bool := e.typ.isMain && !memReadable h e a

/-- Puts bytes of a line through the buffer to main memory or to NEAR. -/
def throughBuffer (e : REntry) (a : Nat) (d : List Byte) (m : List Bool) (who txn : Nat) (h : Hub) : WRes :=
  if memBars h e a then .derr h
  else if e.typ == .dev then .done (bufferWrite e a d m false who txn h)
  else if e.typ.isMain then
    let (bad, h) := partialBad e a who m h
    if bad then .derr h else .done (bufferWrite e a d m false who txn h)
  else if !h.life.arrayUp then .derr h
  else if m.all id then .done (bufferWrite e a d m false who txn h)
  else
    let covered := wholeInWb h (a / 128)
    if covered then .done (bufferWrite e a d m false who txn h)
    else
      let g := readNear e a who h
      let o := overlay g.h (a / 128) g.h.nextId g.err g.data
      if o.1 then .derr g.h else .done (bufferWrite e a d m false who txn g.h)

/-- A write hit is counted and sets AGE 0; a write that attached to a fill and merges when it has landed is no hit (R48, R54). -/
def writeHit (a pid cls port : Nat) (merge : Bool) (h : Hub) : Hub :=
  if merge then h
  else touch a pid (pmu 0x02 (homeDie a) 1 { pid := some pid, port := some port, cls := some cls, addr := some a } (pageAdd pid 13 1 h))

/-- A write's bytes merged into the cached line, which becomes DIRTY (NWB) or FLUSHING with its bytes in the buffer (NWT, or a
line already FLUSHING, R59). -/
def mergeLine (e : REntry) (s : Sector) (a : Nat) (base d : List Byte) (m : List Bool) (who txn : Nat) (flushing : Option Bool) (h : Hub) : WRes :=
  if e.typ == .nwb && flushing.isNone then
    .done (setLineSt a .dirty (writeArrayLine (lineOffset s a) a who (mergeBytes base d m) h))
  else if memBars h e a then .derr h
  else
    let h := writeArrayLine (lineOffset s a) a who (mergeBytes base d m) h
    .done (setLineSt a (.flushing false (flushing.getD false)) (bufferWrite e a d m false who txn h))

/-- A write of enabled bytes to one hub line of an NWT or NWB region, by the line's state (R37, R55, R56, R58, R59, R223). -/
def writeCached (e : REntry) (a : Nat) (d : List Byte) (m : List Bool) (pid cls port txn : Nat) (merge : Bool) (h : Hub) : WRes :=
  let whole := m.all id
  let who := whoOf pid cls
  let missCase := fun (h : Hub) =>
    if e.typ == .nwb then
      let old := (findSector h a).isSome
      match placeLine a pid pid (insAge h (homeSlice a) cls) h with
      | .no => throughBuffer e a d m who txn (countBypass a pid cls port h)
      | .wait => WRes.wait
      | .got g set way =>
        let g' := if old then touch a pid g else g
        if whole then
          .done (setSlotLine (homeSlice a) set way (lineIx a) .dirty (writeArrayLine (slotOffset (homeSlice a) set way (lineIx a)) a who d g'))
        else if memBars h e a then .derr h
        else .fetch (setSlotLine (homeSlice a) set way (lineIx a) .filling g') set way
    else throughBuffer e a d m who txn h
  match findSector h a with
  | none => missCase h
  | some s =>
    let onto := fun (base : List Byte) (fl : Option Bool) (h : Hub) => mergeLine e s a base d m who txn fl (writeHit a pid cls port merge h)
    let read := fun (fl : Option Bool) =>
      match readCached a who h with
      | .good h base => onto base fl h
      | .bad h => WRes.derr h
      | .miss h => missCase h
    match s.lines.getD (lineIx a) .invalid with
    | .zero => onto zeroLine none h
    | .flushing z i => if z then onto zeroLine (some i) h else read (some i)
    | .poisoned => if whole then onto zeroLine none h else .derr h
    | .clean => if whole then onto zeroLine none h else read none
    | .dirty => if whole then onto zeroLine none h else read none
    | .filling => .wait
    | .invalid => missCase h

/-- ZERO_LINE on one hub line (R37, R60). A line whose FLUSHING ends in INVALID keeps that end (DESIGN CHOICE, log entry 117). -/
def zeroHome (e : REntry) (a : Nat) (pid cls port txn : Nat) (h : Hub) : WRes :=
  let cached := findSector h a
  let who := whoOf pid cls
  let put := fun (st : LineSt) (fresh : Bool) (set way : Nat) (h : Hub) =>
    setSlotLine (homeSlice a) set way (lineIx a) st (if fresh then h else touch a pid h)
  match e.typ with
  | .shadow => .derr h
  | .kettle => .done (writeKettle e (a / 128 * 128) who zeroLine allMask h)
  | .nwt =>
    if lineSt h a == .filling then .wait
    else if memBars h e a then .derr h
    else
      let inval := match lineSt h a with | .flushing _ i => i | _ => false
      let here := match cached with | some s => if (lineSt h a).present then some s else none | none => none
      match here with
      | some s => .done (bufferWrite e a zeroLine allMask false who txn (put (.flushing true inval) false s.set s.way h))
      | none =>
        match placeLine a pid pid (insAge h (homeSlice a) cls) h with
        | .got h set way => .done (bufferWrite e a zeroLine allMask false who txn (put (.flushing true false) cached.isNone set way h))
        | .wait => .wait
        | .no => .done (bufferWrite e a zeroLine allMask false who txn (countBypass a pid cls port h))
  | .nwb =>
    match lineSt h a with
    | .filling => .wait
    | .flushing _ i =>
      if memBars h e a then .derr h
      else .done (bufferWrite e a zeroLine allMask false who txn (touch a pid (setLineSt a (.flushing true i) h)))
    | st =>
      if st.present then .done (touch a pid (setLineSt a .zero h))
      else
        match placeLine a pid pid (insAge h (homeSlice a) cls) h with
        | .got h set way => .done (put .zero cached.isNone set way h)
        | .wait => .wait
        | .no =>
          if memBars h e a then .derr h
          else .done (bufferWrite e a zeroLine allMask false who txn (countBypass a pid cls port h))
  | _ => throughBuffer e a zeroLine allMask who txn h

/-- A write of enabled bytes to one hub line, by its region's type (R55 to R60, R107). -/
def writeHome (e : REntry) (a : Nat) (d : List Byte) (m : List Bool) (pid cls port txn : Nat) (merge : Bool) (h : Hub) : WRes :=
  match e.typ with
  | .nwt => writeCached e a d m pid cls port txn merge h
  | .nwb => writeCached e a d m pid cls port txn merge h
  | .shadow => .derr h
  | .cfg => .derr h
  | .kettle =>
    let bad := (List.range 16).any (fun i =>
      let w := slice m (8 * i) 8
      w.any id && !(w.all id) && (readKettleWord (e.off (a / 128 * 128 + 8 * i)) (homeDie a) (whoOf pid cls) h).err)
    if bad then .derr h else .done (writeKettle e (a / 128 * 128) (whoOf pid cls) d m h)
  | _ => throughBuffer e a d m (whoOf pid cls) txn h

end Sys2Proof.Machine
end

