-- ==== Sys2Proof/Machine/Sieve.lean ====
section
/-! DEFINITION. The Sieve: host geometries and positions (R98 to R101, R128 to R132), states of host lines, and the issue of snoops
and forwards (R30, R113, R119, R146). Host 7 is the twin's proxy. -/

namespace Sys2Proof.Machine

/-! ### Geometry -/

/-- Line size of a geometry word. -/
def wordLine (w : Nat) : Nat := if bitOf w 22 then 128 else 64

/-- Sets of a geometry word. -/
def wordSets (w : Nat) : Nat := 2 ^ (bits w 15 12 + 8)

/-- Ways of a geometry word; 0 means 32. -/
def wordWays (w : Nat) : Nat := if bits w 9 5 = 0 then 32 else bits w 9 5

/-- Entries per position (R99): two where the tag is wider than 28 bits. -/
def wordEntries (w : Nat) : Nat := if 48 - (Nat.log2 (wordLine w) + Nat.log2 (wordSets w)) ≤ 28 then 1 else 2

/-- COH_CFG.EXPERT. -/
def cohExpert (h : Hub) : Bool := bitOf (regGet h 0 0x4040) 31

/-- Mirrored ways of host n's geometry word: MWAYS in compressed mode (R128), else its ways. -/
def mirrorWays (h : Hub) (w : Nat) : Nat := if cohExpert h && bits w 20 16 != 0 then bits w 20 16 else wordWays w

/-- Whether a host is in compressed mode (R128). -/
def compressed (h : Hub) (n : Nat) : Bool := decide (n < 7) && cohExpert h && bits (geomWord h n) 20 16 != 0

/-- Granule of a host. -/
def granOf (h : Hub) (n : Nat) : Nat := wordLine (geomWord h n)

/-- Entries a geometry word takes on each die, 0 while it is not VALID. -/
def wordAllot (h : Hub) (w : Nat) (mways : Bool) : Nat :=
  if bitOf w 23 then wordSets w * (if mways then mirrorWays h w else wordWays w) * wordEntries w else 0

/-- COH_TWIN_GEOM. -/
def twinGeom (h : Hub) : Nat := regGet h 0 0x406C

/-- Entries allotted on each die (R100): declared hosts with `n`'s word replaced by `w` (n = 7: none of them), the own proxy with
geometry `tw` and the mirror of the peer's. -/
def allotment (h : Hub) (n w tw : Nat) : Nat :=
  sumOf ((List.range 7).map (fun k => wordAllot h (if k = n then w else geomWord h k) true))
    + wordAllot h tw false + wordAllot h h.twin.peerGeom.toNat false

/-- Host set of an address. -/
def hostSet (h : Hub) (n a : Nat) : Nat := a / granOf h n % wordSets (geomWord h n)

/-- Whether two byte ranges overlap. -/
def overlaps (a n b m : Nat) : Bool := decide (a < b + m) && decide (b < a + n)

/-! ### States -/

/-- Whether an entry shows its host holding its granule. -/
def SEnt.live (e : SEnt) : Bool := e.st != 0

/-- Whether an entry shows an owner. -/
def SEnt.owns (e : SEnt) : Bool := decide (3 ≤ e.st)

/-- State of a host for the granule of an address. -/
def hostSt (h : Hub) (n a : Nat) : Nat :=
  match h.sieve.find? (fun e => e.host == n && e.addr == a / granOf h n * granOf h n) with
  | some e => e.st
  | none => 0

/-- Entries of hosts other than `ex` that hold any byte of a range. -/
def holders (h : Hub) (lo n ex : Nat) : List SEnt :=
  h.sieve.filter (fun e => e.live && e.host != ex && overlaps e.addr (granOf h e.host) lo n)

/-- Sets a host's state for the granule of an address, where it has an entry; I leaves the position empty. DEDUCED: the entry's word is
written, so that it counts for R128's order of writing (log entry 119). -/
def setHostSt (n a st : Nat) (h : Hub) : Hub :=
  let g := a / granOf h n * granOf h n
  if st = 0 then { h with sieve := h.sieve.filter (fun e => !(e.host == n && e.addr == g)) }
  else { h with sieve := h.sieve.map (fun e => if e.host == n && e.addr == g then { e with st := st, par := false, seq := h.nextId } else e),
                nextId := h.nextId + 1 }

/-- The words of an entry's position (Table: Sieve entry, R99): STATE, PAR and TAG, and the upper tag bits of a wide position. -/
def sieveWords (h : Hub) (e : SEnt) : List Nat :=
  let w := geomWord h e.host
  let tag := e.addr / (wordLine w * wordSets w)
  let word := fun (st t : Nat) (flip : Bool) =>
    let v := fieldAt st 29 + bits t 27 0
    v + fieldAt ((popcount v 32 + b2n flip) % 2) 28
  if wordEntries w = 1 then [word e.st tag e.par] else [word e.st tag e.par, word 0 (tag / 2 ^ 28) false]

/-- Whether a position holds a word whose parity is odd (R99, R131). -/
def parityBad (h : Hub) (e : SEnt) : Bool := (sieveWords h e).any (fun w => popcount w 32 % 2 == 1)

/-- Takes every entry of a host that overlaps a range to I. -/
def dropHost (n lo len : Nat) (h : Hub) : Hub :=
  { h with sieve := h.sieve.filter (fun e => !(e.host == n && overlaps e.addr (granOf h e.host) lo len)) }

/-- Whether two entries or an address and an entry share a position's host set on one die. -/
def samePos (h : Hub) (n a : Nat) (e : SEnt) : Bool :=
  e.host == n && e.set == hostSet h n a && homeDie e.addr == homeDie a

/-- Whether an open transaction other than `id`, a Tongs hold or a retry entry covers an entry (R128, R129). -/
def entryOpen (h : Hub) (id : Nat) (e : SEnt) : Bool :=
  h.txns.any (fun t => t.id != id && t.ph != .closing && overlaps e.addr (granOf h e.host) t.lo t.n)
    || h.tongs.any (fun t => overlaps e.addr (granOf h e.host) (t.line * 128) 128)
    || h.twin.reqs.any (fun q => q.key != id && q.ph != 3 && overlaps e.addr (granOf h e.host) q.addr q.size)

/-- What a request's position holds. -/
inductive Spot where
  /-- The position may be written. -/
  | free (way : Nat)
  /-- The request waits in the Sieve retry queue (R101, R129). -/
  | retry
  /-- A victim must be taken back first (R128). -/
  | victim (e : SEnt)

/-- The position of a host for an address (R101, R128, R130): the way that HWAY names, or in compressed mode the first free way or
a victim. -/
def findSpot (h : Hub) (id n a hway : Nat) : Spot :=
  let mine := h.sieve.filter (fun e => samePos h n a e && e.addr != a / granOf h n * granOf h n)
  if compressed h n then
    let ways := mirrorWays h (geomWord h n)
    match h.sieve.find? (fun e => samePos h n a e && e.addr == a / granOf h n * granOf h n) with
    | some e => .free e.way
    | none =>
      match (List.range ways).find? (fun w => !mine.any (fun e => e.way == w && (e.live || entryOpen h id e))) with
      | some w => .free w
      | none =>
        match minBy SEnt.seq (mine.filter (fun e => e.live && !entryOpen h id e)) with
        | some e => .victim e
        | none => .retry
  else if mine.any (fun e => e.way == hway && decide (2 ≤ e.st)) then .retry
  else .free hway

/-- Writes a host's entry into a position (R101): the position's S entry is overwritten, the same position of the other die is cleared
where it holds S, and a stale S entry of the same granule in another way goes. -/
def putEntry (n a way st : Nat) (h : Hub) : Hub :=
  let g := a / granOf h n * granOf h n
  let set := hostSet h n a
  let keep := h.sieve.filter (fun e => !(e.host == n && (e.addr == g || (e.set == set && e.way == way
    && (homeDie e.addr == homeDie a || decide (e.st ≤ 1))))))
  { h with sieve := keep ++ [{ host := n, set := set, way := way, addr := g, st := st, seq := h.nextId }], nextId := h.nextId + 1 }

/-! ### Snoops and forwards -/

/-- Opcode of a snoop kind. -/
def snpOp (kind : Nat) : Nat := 0x51 + kind

/-- An identifier not outstanding at a host (R113), searched from a free value (log entry 3). -/
def freshSnpId (h : Hub) (n : Nat) : Nat :=
  let used := (h.snps.filter (fun s => s.host == n)).map Snp.id ++ (h.orphans.filter (fun o => o.1 == n)).map Prod.snd
  let b := (Config.freeSnpId h.free).toNat
  ((List.range 4096).map (fun i => (b + i) % 4096)).find? (fun i => !used.contains i) |>.getD b

/-- Sends a snoop that need not wait. -/
def launchSnp (s : Snp) (h : Hub) : Hub :=
  let pid := ((h.txns.find? (fun t => t.id == s.txn)).map (fun t => t.req.pid)).getD 0
  let cls := ((h.txns.find? (fun t => t.id == s.txn)).map (fun t => t.req.cls)).getD 3
  pmu 0x09 (homeDie s.addr) 1 { pid := some pid, cls := some cls, addr := some s.addr }
    (sendMsg s.link { op := snpOp s.kind, vc := s.vc, snpid := s.id, addr := s.addr, size128 := s.size == 128 } h)

/-- Latest moment that R119 knows for a host's grant on a granule: the grant's last flit, plus TENURE. -/
def grantMoment (h : Hub) (n g : Nat) : Nat :=
  match h.sieve.find? (fun e => e.host == n && e.addr == g) with
  | some e => if e.at_ = 0 then 0 else e.at_ + regField h 0 0x4040 27 16
  | none => 0

/-- The transaction whose grant to a host is recorded for a range and not yet sent (R146). -/
def grantPending (h : Hub) (n lo len : Nat) : Option Nat :=
  (h.txns.find? (fun t => t.req.host == n && t.grant != 0 && t.ph != .closing && overlaps t.lo t.n lo len)).map Txn.id

/-- Sends a snoop or forward of a transaction to a host for one granule (R30, R112, R113, R146). A host with no trained link is
never snooped (R120); one that the transaction has outstanding there is not sent twice when another is re-issued. -/
def issueSnp (kind : Nat) (e : SEnt) (owner : Bool) (t : Txn) (h : Hub) : Hub :=
  match snoopLink h e.host with
  | none => h
  | some l =>
    if h.snps.any (fun s => s.txn == t.id && s.host == e.host && s.addr == e.addr && !s.done) then h else
    let g := granOf h e.host
    let pend := (h.txns.filter (fun u => u.id != t.id)).find? (fun u =>
      u.req.host == e.host && u.grant != 0 && u.ph != .closing && overlaps u.lo u.n e.addr g)
    let s : Snp := { id := freshSnpId h e.host, host := e.host, link := l, kind := kind, addr := e.addr, size := g,
                     txn := t.id, owner := owner, vc := t.req.carried == 0, held := pend.isSome,
                     heldFor := (pend.map Txn.id).getD 0, base := grantMoment h e.host e.addr }
    let h := { h with snps := h.snps ++ [s], free := h.free + 1 }
    if pend.isSome then h else launchSnp s h

/-- Releases the snoops that waited for a grant to be sent (R146, R150). -/
def releaseHeld (id : Nat) (h : Hub) : Hub :=
  let ready := h.snps.filter (fun s => s.held && s.heldFor == id)
  let h := { h with snps := h.snps.map (fun s => if s.held && s.heldFor == id then { s with held := false } else s) }
  forEach ready (fun s h => launchSnp { s with held := false } h) h

/-- Asks a host for a set of its cache: LINK_CTL(SET_QUERY) on its snoop link (R131, R338). Nothing where it has none. -/
def queryLink (host set die : Nat) (granules : List Nat) (l lost : Nat) (h : Hub) : Hub :=
  let qid := (Config.freeQid h.free).toNat
  let used := h.recov.map Recovery.qid
  let q := (((List.range 256).map (fun i => (qid + i) % 256)).find? (fun i => !used.contains i)).getD qid
  sendMsg l { op := 0xC3, vc := true, kind := 0, qid := q, hset := set }
    { h with free := h.free + 1, recov := h.recov ++ [{ qid := q, host := host, link := l, set := set, die := die, granules := granules, lost := lost, held := [] }] }

/-- Starts the recovery of a host set. -/
def startQuery (host set die : Nat) (granules : List Nat) (lost : Nat) (h : Hub) : Hub :=
  match snoopLink h host with
  | none => h
  | some l => queryLink host set die granules l lost h

/-- Whether the recovery of a host set on a die is running (R131). -/
def recovering (h : Hub) (host set die : Nat) : Bool :=
  h.recov.any (fun v => v.host == host && v.set == set && v.die == die && v.granules.isEmpty)

/-- Starts the recovery of the host set of an entry whose parity fails, unless it runs already (R131). -/
def recoverEntry (e : SEnt) (h : Hub) : Hub :=
  if recovering h e.host e.set (homeDie e.addr) then h else startQuery e.host e.set (homeDie e.addr) [] 8 h

/-- A lookup that meets Sieve entries whose parity fails starts the recovery of their host sets (R131). -/
def detectSieve (a : Nat) (h : Hub) : Hub :=
  forEach (h.sieve.filter (fun e => e.set == hostSet h e.host a && homeDie e.addr == homeDie a && parityBad h e)) recoverEntry h

/-- Snoops and forwards of a transaction still to be answered. -/
def txnSnps (h : Hub) (id : Nat) : List Snp := h.snps.filter (fun s => s.txn == id && !s.done)

/-- Takes a snoop out of the list of those outstanding. -/
def closeSnp (s : Snp) (h : Hub) : Hub := { h with snps := h.snps.filter (fun x => !(x.id == s.id && x.host == s.host)) }

/-- The most snoops and forwards outstanding at the owner of any one granule of a range (R112). -/
def ownerLoad (h : Hub) (lo n : Nat) : Nat :=
  maxOf ((List.range (ceilDiv n 64)).map (fun k =>
    (h.snps.filter (fun s => s.owner && !s.done && !s.wb && overlaps s.addr s.size (lo + 64 * k) 64)).length))

end Sys2Proof.Machine
end

