-- ==== Sys2Proof/Machine/Ladle.lean ====
section
/-! DEFINITION. The Ladle (R85 to R90): stream detectors, the conditions and the issue of a prefetch, hits and kills. -/

namespace Sys2Proof.Machine

/-- LADLE_CTL of a cluster's die. -/
def ladleCtl (h : Hub) (cl : Nat) : Nat := regGet h (dieOfCluster cl) 0x4024

/-- Reads that confirm a detector (LADLE_CTL.TRAIN): 0 and 1 act as 2. -/
def trainCount (h : Hub) (cl : Nat) : Nat := max 2 (bits (ladleCtl h cl) 2 0)

/-- The Ladle entry or prefetch in flight for a line. -/
def ladleFind (h : Hub) (line : Nat) : Option LadleE := h.ladle.find? (fun e => e.line == line && !e.killed)

/-- Whether a prefetch for a line is held back (R86). DEDUCED: a POISONED line is a valid one, as R35's sectors count validity (log entry 118). -/
def prefetchBarred (h : Hub) (line pid cls : Nat) : Bool :=
  let a := line * 128
  let cl := homeCluster a
  (lineSt h a).present
    || h.wbs.any (fun w => w.line == line)
    || (ladleFind h line).isSome
    || (holders h a 128 9).any SEnt.owns
    || decide (128 - trkUsed h cl ≤ bits (trkCtl h cl) 6 0 + bits (trkCtl h cl) 14 8 + bits (ladleCtl h cl) 11 8)
    || spent h (homeRg a) pid cls
    || (part h pid).share == 0
    || h.life.phase == .drain

/-- Counts a hint or a prefetch that is not issued (R87); no register reports it. -/
def countSkip (a pid : Nat) (h : Hub) : Hub := { h with pfSkip := bupd h.pfSkip (homeCluster a * 64 + pid) 0 (· + 1) }

/-- Issues one prefetch (R86): charged at issue, replacing the partition's oldest entry where its share is used. Its slot is kept undecided
(R372): 64 + PID in `slotUse`. -/
def issuePrefetch (line pid cls : Nat) (h : Hub) : Hub :=
  if prefetchBarred h line pid cls then countSkip (line * 128) pid h
  else
    let a := line * 128
    let cl := homeCluster a
    let h := pmu 0x0F (homeDie a) 1 { pid := some pid, cls := some cls, addr := some a } (pageAdd pid 23 1 h)
    let h := charge (homeRg a) pid cls 128 h
    let mine := h.ladle.filter (fun e => e.cluster == cl && e.pid == pid && !e.killed)
    let h :=
      if mine.length < (part h pid).share then h
      else match minBy LadleE.seq mine with
        | none => h
        | some v =>
          if v.inFlight then { h with ladle := h.ladle.map (fun e => if e.seq == v.seq then { e with killed := true } else e) }
          else { h with ladle := h.ladle.filter (fun e => e.seq != v.seq) }
    let n : LadleE := { cluster := cl, line := line, pid := pid, cls := cls, inFlight := true, killed := false, data := [],
                        frame := h.fs.frame, seq := h.nextId }
    { h with ladle := h.ladle ++ [n], nextId := h.nextId + 1, slotUse := bupd h.slotUse (homeSlice a) [] (· ++ [(64 + pid, false)]) }

/-- The stride between two lines of a page confirms a detector only where it is a non-zero multiple of 128 B of at most 2 KiB. -/
def strideOk (s : Int) : Bool := s != 0 && decide (s.natAbs ≤ 16)

/-- A demand read trains its detector (R85); a confirmed one issues the partition's depth of lines. -/
def trainDetector (a l stream pid cls : Nat) (h : Hub) : Hub :=
  let cl := homeCluster a
  let page := a / 4096
  let ln := a / 128
  let same := fun (d : Det) => d.cluster == cl && d.link == l && d.stream == stream && d.page == page
  let d' : Det := match h.dets.find? same with
    | some d =>
      let s : Int := (ln : Int) - (d.last : Int)
      { d with last := ln, stride := s, run := if s = d.stride && decide (2 ≤ d.run) then d.run + 1 else 2, used := h.nextId }
    | none => { cluster := cl, link := l, stream := stream, page := page, last := ln, stride := 0, run := 1, used := h.nextId }
  let others := h.dets.filter (fun d => !(same d))
  let mine := others.filter (fun d => d.cluster == cl)
  let others := if mine.length < 32 then others
    else match minBy Det.used mine with
      | some v => others.filter (fun d => !(d.cluster == cl && d.used == v.used))
      | none => others
  let h := { h with dets := others ++ [d'], nextId := h.nextId + 1 }
  if decide (trainCount h cl ≤ d'.run) && strideOk d'.stride then
    forEach (List.range (part h pid).depth) (fun i h =>
      let t : Int := (ln : Int) + d'.stride * ((i : Int) + 1)
      if t / 32 = (page : Int) then issuePrefetch t.toNat pid cls h else h) h
  else h

/-- PF_HINT's lines (R87): clipped at the 4 KiB page, NWT and NWB only. -/
def hintLines (a count pid cls : Nat) (h : Hub) : Hub :=
  forEach (List.range count) (fun i h =>
    let x := a + 128 * i
    if x / 4096 = a / 4096 then
      match rmapFind h x with
      | some (_, e) => if e.typ.cached && e.here h then issuePrefetch (x / 128) pid cls h else countSkip x pid h
      | none => countSkip x pid h
    else countSkip x pid h) h

/-- The slot of a prefetch whose line was dropped counts as lost (R372), and the kill or expiry is counted. -/
def countDrop (e : LadleE) (index : Nat) (h : Hub) : Hub :=
  pmu 0x11 (dieOfCluster e.cluster) 1 { pid := some e.pid, cls := some e.cls, addr := some (e.line * 128) }
    (pageAdd e.pid 9 1 (pageAdd e.pid index 1 h))

/-- Kills the Ladle entry or the prefetch in flight for a line (R90). A prefetch in flight keeps its tracker until it lands. -/
def ladleKill (line : Nat) (h : Hub) : Hub :=
  match ladleFind h line with
  | none => h
  | some e =>
    let h := countDrop e 26 h
    if e.inFlight then { h with ladle := h.ladle.map (fun x => if x.seq == e.seq then { x with killed := true } else x) }
    else { h with ladle := h.ladle.filter (fun x => x.seq != e.seq) }

/-- A demand read takes a Ladle line (R89): it is served and the entry freed; the slot of its prefetch is useful (R372). -/
def ladleTake (e : LadleE) (h : Hub) : Hub :=
  let h := pmu 0x10 (dieOfCluster e.cluster) 1 { pid := some e.pid, cls := some e.cls, addr := some (e.line * 128) } h
  let h := pageAdd e.pid 8 1 (pageAdd e.pid 24 1 h)
  let h := setPart h e.pid (fun p => { p with moved := p.moved + 1 })
  { h with ladle := h.ladle.filter (fun x => x.seq != e.seq) }

end Sys2Proof.Machine
end

