-- ==== Sys2Proof/Machine/Home.lean ====
section
/-! DEFINITION. The home slice's open transactions, first part: requests and their classification, what blocks and gates them
(R112, R123, R137, R139, R144 to R146), responses (R29, R332), and reading a line at its home (R42, R43, R223). -/

namespace Sys2Proof.Machine

/-! ### Requests -/

/-- Cluster of a request's address. -/
def Req.cl (r : Req) : Nat := homeCluster r.addr

/-- Hub line of a request's address. -/
def Req.line (r : Req) : Nat := r.addr / 128

/-- Internal opcodes of transactions that no link message opens: a line cleaned out of host caches (R245), its copies discarded, an
owner's dirty data to be written (R108), a back-invalidation (R128). -/
def opOwn : Nat := 0x61
def opDrop : Nat := 0x62
def opDirty : Nat := 0x63
def opBack : Nat := 0x64

/-- Whether an opcode writes the line. -/
def writesLine (op : Nat) : Bool :=
  op == 0x21 || op == 0x22 || op == 0x23 || op == 0x24 || op == 0x25 || op == 0x26 || op == 0x33 || op == opDirty

/-- Whether an opcode is a write of FENCE's scopes (R163). -/
def fenceWrite (op : Nat) : Bool := writesLine op || op == 0x32

/-- Whether an opcode is a coherent read of Table: Requests at the home. -/
def readsLine (op : Nat) : Bool := op == 0x11 || op == 0x12 || op == 0x13 || op == 0x15 || op == 0x16

/-- Whether an opcode asks for ownership, or removes copies. -/
def ownsLine (op : Nat) : Bool :=
  op == 0x12 || op == 0x15 || op == 0x21 || op == 0x22 || op == 0x24 || op == 0x25 || op == 0x26 || op == opOwn || op == opDrop

/-- The opcode a request is served as: a link without a cache reads as RD_ONCE (R336), and so does every read of a type without a
Sieve lookup (R107). -/
def servedAs (typ : RType) (r : Req) : Nat :=
  if (r.host == 8 || !typ.sieve) && (r.op == 0x11 || r.op == 0x12) then 0x13 else r.op

/-- Whether an opcode is a demand read that may attach to a fill (R48). -/
def demandRead (op : Nat) : Bool := readsLine op || op == 0x14

/-- The region-map entry that serves an address as the map stands. -/
def entryOf (h : Hub) (a : Nat) : REntry := ((rmapFind h a).map Prod.snd).getD {}

/-- Attributes of a request for the PMU (R362). -/
def Req.attr (r : Req) : Attr :=
  { pid := some r.pid, port := some (if r.src == .link then r.link else 8), cls := some r.cls, addr := some r.addr }

/-- Whom a request's accesses are for. -/
def Req.who (r : Req) : Nat := whoOf r.pid r.cls

/-- An event of the PMU for a request, on its home die. -/
def pmuReq (ev : Nat) (r : Req) (h : Hub) : Hub := pmu ev (homeDie r.addr) 1 r.attr h

/-- A slot of a slice arbiter is used by a PID (R371); `lost` where the acceptance is undone. -/
def useSlot (r : Req) (lost : Bool) (h : Hub) : Hub :=
  { h with slotUse := bupd h.slotUse (homeSlice r.addr) [] (· ++ [(r.pid, lost)]) }

/-- Bytes a request's data put in their place in the 128-byte line. -/
def Req.lineData (r : Req) : List Byte := splice zeroLine (r.addr % 128) (r.data.take (128 - r.addr % 128))

/-- Enables of a request's bytes in the 128-byte line. -/
def Req.lineMask (r : Req) : List Bool := splice (List.replicate 128 false) (r.addr % 128) (r.mask.take (128 - r.addr % 128))

/-- The transaction with an identifier. -/
def txnOf (h : Hub) (id : Nat) : Option Txn := h.txns.find? (fun t => t.id == id)

/-- The hub with a transaction changed. -/
def updTxn (id : Nat) (f : Txn → Txn) (h : Hub) : Hub := { h with txns := h.txns.map (fun t => if t.id == id then f t else t) }

/-- Takes a transaction out of the list of those open. -/
def dropTxn (id : Nat) (h : Hub) : Hub := { h with txns := h.txns.filter (fun t => t.id != id) }

/-- Length and first byte of the granules a transaction's request names, the whole line for an ATOMIC (R122); `lo` and `n` may be wider
where a host's line is. -/
def Txn.gn (t : Txn) : Nat := if t.req.op = 0x25 then 128 else max 64 t.req.size
def Txn.glo (t : Txn) : Nat := t.req.addr / t.gn * t.gn

/-! ### Responses -/

/-- Data of a transfer as its slots carry it (R322): shorter than 16 bytes at the offset ADDR[3:0] of one slot. -/
def slotData (a : Nat) (d : List Byte) : List Byte :=
  if d.length < 16 then fitBytes 16 (List.replicate (a % 16) 0#8 ++ d) else d

/-- A message with the tag, stream and channel of a request, for its link (R29, R326). -/
def replyTo (r : Req) (m : Msg) : Msg := { m with vc := r.vc, stream := r.stream, tag := r.tag, addr := r.addr, len := Nat.log2 r.size, pid := r.pid, cls := r.cls }

/-- A message handed to a link with the latency sample that its first flit ends (R375). -/
def sendLat (l : Nat) (m : Msg) (lat : Option (Nat × Nat × Nat)) (h : Hub) : Hub :=
  if linkTrained h l then
    setLink h l (fun k => { k with q := k.q ++ [{ msg := m, slots := 1 + ceilDiv m.data.length 16, lat := lat }] })
  else h

/-- Counts a response with link status DATA_ERROR. -/
def countDataErr (r : Req) (m : Msg) (h : Hub) : Hub :=
  if m.lstat = 1 then pmuReq 0x14 r (pageAdd r.pid 28 1 h) else h

/-- Data bytes that cross the Seam between a request's link and its home (R28, PMU event SEAM_B), counted on the die that sends them. -/
def seamBytes (r : Req) (die n : Nat) (h : Hub) : Hub :=
  if r.src == .link && n != 0 && homeDie r.addr != dieOfLink r.link then pmu 0x1D die n { pid := some r.pid, cls := some r.cls } h else h

/-- Answers a request that no transaction holds. -/
def reply (r : Req) (m : Msg) (h : Hub) : Hub :=
  if r.src == .link then sendMsg r.link (replyTo r m) (seamBytes r (homeDie r.addr) m.data.length (countDataErr r m h)) else h

/-- Answers a transaction's request; its tracker under R44 makes it a latency sample (R375). -/
def respond (t : Txn) (m : Msg) (h : Hub) : Hub :=
  if t.req.src == .link then
    let lat := if t.cnt then some (4 * homeDie t.req.addr + t.req.cls, t.req.at_, t.req.pid) else none
    sendLat t.req.link (replyTo t.req m) lat (seamBytes t.req (homeDie t.req.addr) m.data.length (countDataErr t.req m h))
  else h

/-- Closes a transaction: snoops that waited for its grant are released (R146). -/
def finish (t : Txn) (h : Hub) : Hub := releaseHeld t.id (dropTxn t.id h)

/-- Answers with data, or DATA_ERROR and the grant taken back (R150). -/
def finishRead (t : Txn) (bad : Bool) (d : List Byte) (h : Hub) : Hub :=
  let r := t.req
  if bad then
    let h := if t.grant != 0 && r.host < 8 then setHostSt r.host r.addr 0 h else h
    let h := if r.op == 0x16 then { h with mons := h.mons.filter (fun m => !(m.link == r.link && m.stream == r.stream && decide (m.id < t.id))) } else h
    finish t (respond t { op := 0xA2, lstat := 1 } h)
  else finish t (respond t { op := 0xA2, state := t.grant, data := slotData r.addr d } h)

/-- INTR on a Mover ring's link with its vector (R287). -/
def movIntr (pid : Nat) (h : Hub) : Hub :=
  let c := regGet h 0 (0x5408 + 16 * pid)
  if isTwinLink h (bits c 22 20) then h else sendMsg (bits c 22 20) { op := 0xC2, vc := true, vector := bits c 31 24 } h

/-- What follows when an entry that the hub wrote to a ring is globally visible: `job` m + 1 raises manager m's completion cause (R264), 16 + p
sends the Mover's INTR for partition p (R287). -/
def hubWriteDone (job : Nat) (h : Hub) : Hub :=
  if job = 0 then h else if job ≤ 4 then raiseCause (job - 1) h else if 16 < job ∧ job < 80 then movIntr (job - 16) h else h

/-- Completion of a write or an upgrade. -/
def finishComp (t : Txn) (bad : Bool) (h : Hub) : Hub :=
  let m : Msg :=
    if t.req.op == 0x25 then { op := 0xA2, lstat := b2n bad }
    else if t.req.op == 0x26 then { op := 0xA5, lstat := b2n bad, pass := !bad }
    else { op := 0xA1, lstat := b2n bad, state := t.grant }
  let h := finish t (respond t m h)
  if t.req.src == .hub0 then hubWriteDone t.req.job h else h

/-- What the hub answers to a request for a granule whose result is undefined: nothing, or any response, as a free value has it (R5,
R136, log entry 97). -/
def freeReply (r : Req) (h : Hub) : Hub :=
  let h' := { h with free := h.free + 1 }
  if r.src != .link then h'
  else match Config.freeReply h.free with
    | none => h'
    | some (op, lstat, st, d) => reply r { op := op.toNat, lstat := lstat.toNat, state := st.toNat, data := d } h'

/-- A violation (R136): the 64-byte granules it leaves undefined are listed, and the transactions on them end, their fills and requests
with them; snoops still out are answered in vain. The hub keeps serving every other granule. -/
def violate (lo n : Nat) (h : Hub) : Hub :=
  let gone := h.txns.filter (fun t => overlaps t.lo t.n lo n)
  let out := h.snps.filter (fun s => overlaps s.addr s.size lo n || gone.any (fun t => t.id == s.txn))
  let h := { h with undef := h.undef ++ (List.range (ceilDiv n 64)).map (fun k => lo / 64 * 64 + 64 * k),
                    txns := h.txns.filter (fun t => !(overlaps t.lo t.n lo n)),
                    snps := h.snps.filter (fun s => !(out.any (fun x => x.id == s.id && x.host == s.host))),
                    orphans := h.orphans ++ (out.filter (fun s => !s.held)).map (fun s => (s.host, s.id)) }
  let h := forEach gone (fun t h => match t.slot with
    | some (set, way) => if (sector h t.slice set way).lines.getD (lineIx t.req.addr) .invalid == .filling then
        setSlotLine t.slice set way (lineIx t.req.addr) .invalid h else h
    | none => h) h
  forEach gone (fun t h => releaseHeld t.id (freeReply t.req h)) h

/-- Whether an earlier violation left a granule of a range undefined. -/
def undefinedAt (h : Hub) (lo n : Nat) : Bool := h.undef.any (fun g => overlaps g 64 lo n)

/-! ### What holds a transaction back -/

/-- Whether a transaction is a coherent one of the home's tables. -/
def Txn.coherent (t : Txn) : Bool := t.req.op != 0x39 && t.req.op != 0x14 && t.req.op != 0x23

/-- Whether a transaction obeys the gates: notices and fences do not (R142). -/
def Txn.gated (t : Txn) : Bool := t.coherent && t.req.op != 0x33 && t.req.op != 0x31 && t.req.op != 0x32 && t.req.op != opBack && t.req.op != opDirty

/-- Whether an address maps to the host set of a recovery, or is one of its granules (R131, R338). -/
def Recovery.covers (v : Recovery) (h : Hub) (a : Nat) : Bool :=
  (v.granules.isEmpty && homeDie a == v.die && hostSet h v.host a == v.set)
    || v.granules.any (fun g => overlaps g (granOf h v.host) (a / 64 * 64) 64)

/-- Whether an address maps to a host set under recovery (R131, R338). -/
def underRecovery (h : Hub) (a : Nat) : Bool := h.recov.any (fun v => v.covers h a)

/-- Whether the Tongs still hold a line (R123): TENURE cycles from its first operation, and until every ATOMIC ordered within the hold has run. -/
def tongHolds (h : Hub) (g : Tong) : Bool :=
  g.since == 0 || decide (h.now + 1 < g.since + regField h 0 0x4040 27 16)
    || h.txns.any (fun t => t.req.op == 0x25 && t.req.line == g.line && decide (g.first ≤ t.id))

/-- Holds that have ended are let go; the line of one that an ATOMIC ordered before the hold still awaits is kept for it. -/
def tidyTongs (h : Hub) : Hub :=
  let kept := h.tongs.filter (fun g => (g.since != 0 && tongHolds h g) || h.txns.any (fun t => t.req.op == 0x25 && t.req.line == g.line))
  { h with tongs := kept.map (fun g => if tongHolds h g then g else { g with since := 0, first := 0, data := [] }) }

/-- Whether a transaction is an ATOMIC ordered during its line's hold, which runs in it (R123). -/
def tongRun (t : Txn) (h : Hub) : Bool :=
  t.req.op == 0x25 && h.tongs.any (fun g => g.line == t.req.line && g.since != 0 && decide (g.first ≤ t.id))

/-- Whether a transaction other than an ATOMIC must wait for the Tongs: its line is held, or an ATOMIC ordered before it has not run (R123). -/
def tongBars (t : Txn) (h : Hub) : Bool :=
  t.req.op != 0x25 && h.tongs.any (fun g => overlaps (g.line * 128) 128 t.lo t.n
    && (if g.since == 0 then h.txns.any (fun u => u.req.op == 0x25 && u.req.line == g.line && decide (u.id < t.id)) else tongHolds h g))

/-- Whether an earlier transaction's snoop or forward is outstanding at a host that owns its granule no more, so that it may have to be
re-issued; it keeps its place in home order (R114, log entry 100). -/
def reissueAhead (t : Txn) (h : Hub) : Bool :=
  h.snps.any (fun s => s.owner && !s.done && decide (s.txn < t.id) && overlaps s.addr s.size t.lo t.n && decide (hostSt h s.host s.addr < 3))

/-- Whether every 64 bytes that a transaction shares with an earlier one still have an owner who must answer the earlier one's snoop. -/
def ownerAhead (u t : Txn) (h : Hub) : Bool :=
  (List.range 2).all (fun k =>
    let c := t.lo + 64 * k
    !(decide (c < t.lo + t.n) && overlaps u.lo u.n c 64)
      || h.snps.any (fun s => s.txn == u.id && s.owner && !s.done && !s.wb && overlaps s.addr s.size c 64 && decide (3 ≤ hostSt h s.host s.addr)))

/-- Whether an earlier request's grant awaits answers that no owner's turn puts ahead of a transaction (R111: its grant follows the states after
the snoops; log entry 100). -/
def grantAhead (t : Txn) (h : Hub) : Bool :=
  h.txns.any (fun u => decide (u.id < t.id) && overlaps u.lo u.n t.lo t.n && u.ph == .snoop && u.grant == 0 && decide (u.req.host < 8)
    && (u.req.op == 0x11 || u.req.op == 0x12 || u.req.op == 0x15) && !(ownerAhead u t h))

/-- Whether a transaction that has been ordered must stall (R137, R144, R145). -/
def mustStall (t : Txn) (h : Hub) : Bool :=
  let ovl := fun (u : Txn) => u.id < t.id && overlaps u.lo u.n t.lo t.n
  underRecovery h t.req.addr
    || (!(tongRun t h) && h.txns.any (fun u => ovl u && u.gated && u.ph == .stalled))
    || decide (4 ≤ ownerLoad h t.lo t.n)
    || h.snps.any (fun s => s.wb && s.txn != t.id && overlaps s.addr s.size t.lo t.n)
    || h.txns.any (fun u => ovl u && u.wbGate)
    || tongBars t h
    || h.txns.any (fun u => ovl u && (u.ph == .retryQ || u.ph == .backWait || u.ph == .reissue))
    || reissueAhead t h || grantAhead t h
    || (decide (t.req.host < 8) && h.snps.any (fun s => s.host == t.req.host && !s.done && !s.wb && overlaps s.addr s.size t.lo t.n))

/-- Whether an earlier request of the stream to another granule of the line has not taken effect (R160). -/
def streamAhead (t : Txn) (h : Hub) : Bool :=
  t.req.src == .link && t.req.op != 0x33 && t.req.op != 0x39 && h.txns.any (fun u => decide (u.id < t.id) && u.req.src == .link && u.req.link == t.req.link
    && u.req.stream == t.req.stream && u.req.line == t.req.line && u.req.op != 0x39 && u.req.op != 0x33 && u.req.op != 0x31 && u.req.op != 0x32
    && u.ph != .closing && !(overlaps u.lo u.n t.lo t.n))

/-- Whether what a transaction needs from the home must wait for an earlier one (R20, R139, R160). -/
def blocked (t : Txn) (h : Hub) : Bool :=
  streamAhead t h || h.txns.any (fun u =>
    u.id != t.id && overlaps (u.lo / 128 * 128) 128 (t.lo / 128 * 128) 128
      && overlaps u.lo u.n t.lo t.n
      && !(u.ph == .stalled && tongRun t h)
      && ((u.req.op == opDirty && (decide (u.id < t.id) || (t.req.op != 0x33 && t.req.op != opDirty)))
        || (decide (u.id < t.id) && t.req.op != 0x33 && t.req.op != opDirty
          && ((writesLine u.req.op && u.ph != .closing && u.ph != .perform)
            || u.ph == .stalled || u.ph == .reissue || u.ph == .retryQ || u.ph == .backWait
            || u.ph == .alloc || (demandRead u.req.op && u.ph == .serve && writesLine t.req.op)
            || h.snps.any (fun s => s.txn == u.id && decide (s.kind ≤ 1) && s.owner && !s.done)))))

/-- Whether an earlier DEV access of the same stream is not yet performed, whatever its home (R161). -/
def devOpen (h : Hub) (r : Req) : Bool :=
  let before := fun (q : Req) => q.src == .link && q.link == r.link && q.stream == r.stream && q.ent.typ == .dev && decide (q.uid < r.uid)
  r.src == .link && (h.txns.any (fun u => before u.req) || h.waiting.any (fun w => before w.req) || h.twin.reqs.any (fun q => before q.req))

/-- Whether a DEV transaction waits for an earlier one of its stream. -/
def devBehind (t : Txn) (h : Hub) : Bool := devOpen h t.req

/-- Requests attached to the fill of a line (R48). -/
def attached (h : Hub) (line : Nat) : Nat :=
  (h.txns.filter (fun t => t.req.line == line && !t.trk && (t.ph == .serve || t.ph == .ready))).length

/-- Whether a line is arriving: FILLING, or a prefetch of it in flight. -/
def arriving (h : Hub) (a : Nat) : Bool :=
  lineSt h a == .filling || (match ladleFind h (a / 128) with | some e => e.inFlight | none => false)

/-! ### Internal-path parity (R225) -/

/-- Parity errors that wait on a line's next data message. -/
def pathNote (a n : Nat) (h : Hub) : Hub :=
  if n = 0 then h
  else
    let old := ((h.integ.pathErr.find? (fun p => p.1 == a / 128)).map Prod.snd).getD 0
    { h with integ := { h.integ with pathErr := (h.integ.pathErr.filter (fun p => p.1 != a / 128)) ++ [(a / 128, old + n)] } }

/-- A data message of a line crosses the internal paths: each error waiting on it is counted, and a second one is a repeat
failure. -/
def pathCheck (a : Nat) (h : Hub) : Bool × Hub :=
  match h.integ.pathErr.find? (fun e => e.1 == a / 128) with
  | none => (false, h)
  | some e =>
    let die := homeDie a
    let h := { h with integ := { h.integ with pathErr := h.integ.pathErr.filter (fun x => x.1 != a / 128) } }
    (decide (2 ≤ e.2), regSetField h die 0x41E8 31 16 (satAdd (regField h die 0x41E8 31 16) e.2 16))

/-! ### Reading a line at its home -/

/-- What the home has of a line. -/
inductive HRead where
  | good (h : Hub) (d : List Byte)
  | bad (h : Hub)
  | wait (h : Hub)
  | miss (h : Hub)

/-- Whole lines in the write buffer, put together (outcome 6 of R42). -/
def fromBuffer (h : Hub) (a : Nat) : Option (List Byte) :=
  if wholeInWb h (a / 128) then
    let o := overlay h (a / 128) h.nextId false zeroLine
    if o.1 then none else some o.2
  else none

/-- Moves a line that the Ladle serves into the cache (R89): it is dropped, and counted, where no place is for it (R51); none where the eviction
waits for write-buffer lines (R38). -/
def ladleMove (r : Req) (d : List Byte) (h : Hub) : Option Hub :=
  let old := (findSector h r.addr).isSome
  match placeLine r.addr r.pid r.pid (insAge h (homeSlice r.addr) r.cls) h with
  | .got h set way =>
    let sl := homeSlice r.addr
    let h := writeArrayLine (slotOffset sl set way (lineIx r.addr)) r.addr r.who d (if old then touch r.addr r.pid h else h)
    some (setSlotLine sl set way (lineIx r.addr) .clean h)
  | .no => some (countBypass r.addr r.pid r.cls (if r.src == .link then r.link else 8) h)
  | .wait => none

/-- Counts a hit (outcomes 3, 4 and 6 of R42). -/
def countHit (r : Req) (h : Hub) : Hub := pmuReq 0x02 r (pageAdd r.pid 13 1 h)

/-- The outcome of a read lookup at the home, outcomes 2 to 8 of R42; `att` says that the read has had outcome 2 and is served from what the
fill gave, which is no second outcome. -/
def readHome (e : REntry) (r : Req) (att : Bool) (h : Hub) : HRead :=
  let a := r.addr
  let hit := fun (h : Hub) => if att then h else countHit r h
  match e.typ with
  | .kettle =>
    let g := readKettle e a r.size r.who h
    if g.err then .bad g.h else .good g.h (splice zeroLine (a % 128) g.data)
  | .nnc => .miss h
  | .near => .miss h
  | .shadow => .miss h
  | .dev => .miss h
  | .cfg => .bad h
  | _ =>
    match lineSt h a with
    | .filling => .wait h
    | .invalid =>
      match fromBuffer h a with
      | some d => .good (hit h) d
      | none =>
        match ladleFind h (a / 128) with
        | none => .miss h
        | some le =>
          if le.inFlight then .wait h
          else
            let g := ladleTake le (if att then h else pmuReq 0x05 r h)
            let g := if r.src == .link && (r.op == 0x11 || r.op == 0x13 || r.op == 0x14) then
                trainDetector a r.link r.stream r.pid r.cls g else g
            match ladleMove r le.data g with
            | some g => .good g le.data
            | none => .wait h
    | _ =>
      match readCached a r.who h with
      | .good h d => .good (if att then h else touch a r.pid (countHit r h)) d
      | .bad h => .bad h
      | .miss h => .miss h

/-- A line as it was read, with free bytes in each granule that a violation has left undefined (R136, log entry 97). -/
def freeHalves (a : Nat) (g : Got) : Got :=
  (List.range 2).foldl (fun (g : Got) k =>
    if undefinedAt g.h (a + 64 * k) 64 then
      ⟨{ g.h with free := g.h.free + 1 }, g.err, splice g.data (64 * k) (fitBytes 64 (Config.freeGranule g.h.free))⟩
    else g) g

/-- The home's own copy of a line, read at once for the hub's engines, with what the buffer holds of it. -/
def homeLine (a pid : Nat) (h : Hub) : Got :=
  let e := entryOf h a
  let line := a / 128
  let fromMem := fun (h : Hub) =>
    let g := if e.typ.isMain then readMain e (line * 128) 128 pid h else readNear e a pid h
    let o := overlay g.h line g.h.nextId g.err g.data
    (⟨g.h, o.1, o.2⟩ : Got)
  let cached := fun (h : Hub) => match readCached a pid h with
    | .good h d => (⟨h, false, d⟩ : Got)
    | .bad h => ⟨h, true, zeroLine⟩
    | .miss h => fromMem h
  freeHalves (line * 128) (match e.typ with
    | .kettle => readKettle e (line * 128) 128 pid h
    | .cfg => ⟨h, true, zeroLine⟩
    | .nwt => cached h
    | .nwb => cached h
    | _ => fromMem h)

/-- Bytes that owners returned put over a line. -/
def withPieces (t : Txn) (d : List Byte) : List Byte :=
  t.pieces.foldl (fun d p => splice d (p.1 % 128) p.2) d

/-- Whether owners' data covers every byte a request names. -/
def piecesCover (t : Txn) : Bool :=
  (List.range t.req.size).all (fun i => t.pieces.any (fun p => decide (p.1 ≤ t.req.addr + i) && decide (t.req.addr + i < p.1 + p.2.length)))

/-- Whether a request's outcome needs a tracker, as a lookup now would find (R42, R44): a forward, a memory fill, a snooping
ownership request, an NNC read, a DEV access, or a stall. Writes need none, but an ATOMIC that must snoop or fill is a snooping ownership request or a memory
fill (DEDUCED, log entry 120). -/
def needsTrk (h : Hub) (e : REntry) (r : Req) : Bool :=
  let op := servedAs e.typ r
  let tong := h.tongs.any (fun g => g.line == r.line && g.since != 0)
  if op == 0x25 && e.typ == .dev then true
  else if op == 0x25 && r.src == .link && e.typ.sieve && !tong then
    let probe : Txn := { id := h.nextId, req := r, lo := r.line * 128, n := 128 }
    mustStall probe h || !(holders h probe.lo 128 r.host).isEmpty
      || (match e.typ with
        | .nwt => lineSt h r.addr == .invalid && (fromBuffer h r.addr).isNone
        | .nwb => lineSt h r.addr == .invalid && (fromBuffer h r.addr).isNone
        | _ => true)
  else if writesLine op || op == 0x39 || r.src != .link then false
  else if op == 0x31 || op == 0x32 then false
  else if !e.typ.sieve then
    (match e.typ with | .kettle => false | _ => op != 0x15)
  else if op == 0x15 && r.host == 8 then false
  else
    let probe : Txn := { id := h.nextId, req := r, lo := r.addr / r.size * r.size, n := r.size }
    let os := if op == 0x14 then [] else holders h probe.lo probe.n r.host
    if op != 0x14 && mustStall probe h then true
    else if os.any SEnt.owns then true
    else if ownsLine op && !os.isEmpty then true
    else if op == 0x15 && hostSt h r.host r.addr != 0 then false
    else match e.typ with
      | .nnc => true
      | .near => true
      | _ =>
        match lineSt h r.addr with
        | .filling => false
        | .invalid => (fromBuffer h r.addr).isNone && (ownsLine op || (ladleFind h r.line).isNone)
        | _ => false

end Sys2Proof.Machine
end

