-- ==== Sys2Proof/Machine/Engine.lean ====
section
/-! DEFINITION. The home slice's open transactions, second part: Table: Requests at the home (R140), what each transaction does
when it may go on, the Tongs' operations (R121 to R124), castouts (R61 to R64, R147), and the loop that lets transactions go on in
home order (R137). -/

namespace Sys2Proof.Machine

/-! ### Starting -/

/-- The hub with a transaction moved to another stage. -/
def setPh (id : Nat) (ph : TxnPh) (h : Hub) : Hub := updTxn id (fun t => { t with ph := ph }) h

/-- Starts a transaction's memory read; a way slot it fills is FILLING from here on. -/
def fillStart (t : Txn) (slot : Option (Nat × Nat)) (h : Hub) : Hub :=
  let n := h.nextId
  updTxn t.id (fun x => { x with ph := .fill, slot := slot, seq := n, since := h.now + 1 }) { h with nextId := n + 1 }

/-- Cancels an accepted castout whose CAST_DATA has not come (R147): its line becomes INVALID, and the reads that attached to it are served
from memory reads of their own. -/
def cancelCast (line : Nat) (h : Hub) : Hub :=
  match h.txns.find? (fun c => c.req.line == line && (c.req.op == 0x31 || c.req.op == 0x32) && !c.cancelled && (c.ph == .cast || c.ph == .alloc)) with
  | none => h
  | some c =>
    let h := updTxn c.id (fun x => { x with cancelled := true, slot := none }) h
    if c.slot.isNone then h
    else
      let h := setLineSt (line * 128) .invalid h
      forEach (h.txns.filter (fun u => u.req.line == line && u.ph == .serve && u.counted && demandRead u.req.op))
        (fun u h => fillStart u none h) h

/-- Whether two entries of one granule break R96. -/
def breaksStates (h : Hub) (os : List SEnt) : Bool :=
  os.any (fun e => os.any (fun f => !(e.host == f.host && e.addr == f.addr)
    && overlaps e.addr (granOf h e.host) f.addr (granOf h f.host)
    && (e.st == 3 || e.st == 5 || (e.st == 4 && (f.owns || f.st == 2)) || (e.st == 2 && f.st == 2))))

/-- Invalidates every non-owner holder of a list (R138): its entry becomes I at once. -/
def invalAll (t : Txn) (es : List SEnt) (h : Hub) : Hub :=
  forEach es (fun e h => setHostSt e.host e.addr 0 (issueSnp 2 e false t h)) h

/-- Opens the back-invalidation of a victim for a transaction (R128). -/
def backInval (t : Txn) (v : SEnt) (h : Hub) : Hub :=
  let g := granOf h v.host
  let r : Req := { op := opBack, src := .backInv, job := t.id, pid := t.req.pid, cls := t.req.cls, carried := t.req.carried,
                   addr := v.addr, size := g }
  let b : Txn := { id := h.nextId, req := r, slice := homeSlice v.addr, ph := .snoop, lo := v.addr, n := g }
  let h := { h with txns := h.txns ++ [b], nextId := h.nextId + 1 }
  let h := issueSnp (if 4 ≤ v.st then 1 else 2) v v.owns b h
  setPh t.id .backWait (if v.owns then h else setHostSt v.host v.addr 0 h)

/-- Gives a request its position in the Sieve (R101, R128), or puts it where it must wait for one. -/
def withSpot (t : Txn) (k : Nat → Hub → Hub) (h : Hub) : Hub :=
  match findSpot h t.id t.req.host t.req.addr t.req.hway with
  | .free way => k way (updTxn t.id (fun x => { x with way := way }) h)
  | .retry => setPh t.id .retryQ (if t.ph == .retryQ then h else pmuReq 0x0B t.req h)
  | .victim v => backInval t v h

/-- State that RD_SHARED grants beside other holders that own nothing (Table: RD_SHARED grants, R250). -/
def sharedGrant (h : Hub) (a : Nat) (os : List SEnt) : Nat :=
  if os.isEmpty then (if inSealed h a then 2 else 3) else if os.any (fun e => e.st == 2) then 1 else 2

/-- Records a grant: the requester's entry, the grant in the transaction, and the reservations it loses (R138, R170). A host that has lost its
last link stays in I (R120, R150). -/
def recordGrant (t : Txn) (way st : Nat) (h : Hub) : Hub :=
  let r := t.req
  let h := if (snoopLink h r.host).isSome then putEntry r.host r.addr way st h else setHostSt r.host r.addr 0 h
  let h := if st = 3 ∨ st = 5 then grantLoss t.id t.glo t.gn r.host h else h
  updTxn t.id (fun x => { x with grant := st }) h

/-- What a passing ST_COND's write does at once: other streams' reservations lost, seals broken, its line's Ladle entry killed (R90, R170, R249). -/
def condPasses (t : Txn) (e : REntry) (h : Hub) : Hub :=
  let r := t.req
  let lo := r.addr / r.size * r.size
  let h := breakSeals lo r.size (writeLoss t.id lo r.size (if r.src == .link then r.link else 8) r.stream h)
  if e.typ.cached then cancelCast r.line (ladleKill r.line h) else h

/-- Notes the host granules that an ATOMIC of a line takes back: notices for them may cross its snoops (R127, log entry 102). -/
def askTongs (line : Nat) (l : List (Nat × Nat)) (h : Hub) : Hub :=
  { h with tongs := h.tongs.map (fun g => if g.line == line then { g with asked := g.asked ++ l } else g) }

/-- The way of a transaction's requester in the Sieve, as it was given its position. -/
def wayOf (h : Hub) (t : Txn) : Nat := ((txnOf h t.id).map Txn.way).getD t.way

/-- Evaluates a request against the Sieve as it stands (Table: Requests at the home). An ST_COND whose reservation a request ordered before it
has taken fails (R169, log entry 101). -/
def evalReq (t : Txn) (h : Hub) : Hub :=
  let r := t.req
  let e := r.ent
  let op := servedAs e.typ r
  let h := if op = 0x26 ∧ t.upg = true then condPasses t e h else h
  if op = 0x26 ∧ t.upg = false then finish t (respond t { op := 0xA5, pass := false } h)
  else if op = 0x14 ∨ op = 0x33 ∨ op = opDirty then setPh t.id (if op = 0x14 then .serve else .ready) h
  else if op = 0x23 then setPh t.id .ready h
  else if !e.typ.sieve || (op == 0x15 && r.host == 8) then
    if op = 0x15 then finishComp t false h
    else setPh t.id (if readsLine op then .serve else .ready) h
  else
    let os := if op = 0x25 then (holders h t.glo t.gn 9).filter (fun x => !(x.host == r.host && overlaps x.addr (granOf h x.host) r.addr r.size))
      else holders h t.glo t.gn r.host
    let own := os.filter SEnt.owns
    let shr := os.filter (fun x => !x.owns)
    let mine := h.sieve.filter (fun x => x.live && x.host == r.host && overlaps x.addr (granOf h x.host) (r.addr / r.size * r.size) r.size)
    let q := maxOf (mine.map SEnt.st)
    let one := own.all (fun o => granOf h o.host == granOf h r.host)
    if breaksStates h (os ++ mine) then violate t.lo t.n h
    else if op = 0x11 then
      if 2 ≤ q then violate t.lo t.n h
      else withSpot t (fun way h =>
        match own with
        | [] => setPh t.id .serve (recordGrant t way (sharedGrant h r.addr os) h)
        | o :: _ =>
          let h := putEntry r.host r.addr way 0 h
          let h := if one then issueSnp 3 o true t (pmuReq 0x04 r h)
            else forEach os (fun x h => issueSnp 0 x x.owns t h) h
          setPh t.id .snoop h) h
    else if op = 0x12 ∨ (op = 0x15 ∧ q = 0) then
      if 3 ≤ q then violate t.lo t.n h
      else withSpot t (fun way h =>
        match own with
        | [] => setPh t.id .snoop (recordGrant t way 3 (invalAll t shr h))
        | o :: _ =>
          if one then setPh t.id .snoop (issueSnp 4 o true t (pmuReq 0x04 r (invalAll t shr (putEntry r.host r.addr way 0 h))))
          else
            let h := forEach shr (fun x h => setHostSt x.host x.addr 0 (issueSnp 1 x false t h)) (putEntry r.host r.addr way 0 h)
            setPh t.id .snoop (forEach own (fun x h => issueSnp 1 x true t h) h)) h
    else if op = 0x15 then
      let way := ((mine.head?).map SEnt.way).getD r.hway
      let h := updTxn t.id (fun x => { x with way := way }) h
      if q = 3 ∨ q = 5 then violate t.lo t.n h
      else if q = 4 then
        if !own.isEmpty || shr.any (fun x => x.st == 2) then violate t.lo t.n h
        else setPh t.id .snoop (updTxn t.id (fun x => { x with upg := true }) (recordGrant t way 5 (invalAll t shr h)))
      else match own with
        | [] => setPh t.id .snoop (updTxn t.id (fun x => { x with upg := true }) (recordGrant t way 3 (invalAll t shr h)))
        | o :: _ =>
          if o.st != 4 then violate t.lo t.n h
          else
            let h := putEntry r.host r.addr way 0 h
            setPh t.id .snoop (if one then issueSnp 4 o true t (pmuReq 0x04 r (invalAll t shr h))
              else forEach own (fun x h => issueSnp 1 x true t h) (forEach shr (fun x h => setHostSt x.host x.addr 0 (issueSnp 1 x false t h)) h))
    else if op = 0x13 ∨ op = 0x16 then
      if 3 ≤ q then violate t.lo t.n h
      else if own.isEmpty then setPh t.id .serve h
      else setPh t.id .snoop (forEach own (fun x h => issueSnp 0 x true t h) (pmuReq 0x04 r h))
    else
      let whole := op = 0x21 ∨ op = 0x24 ∨ op = opDrop
      if ¬ whole ∧ 4 ≤ q then violate t.lo t.n h
      else
        let h := if r.host < 8 then dropHost r.host (r.addr / r.size * r.size) r.size h else h
        let h := invalAll t shr h
        let h := if op = 0x25 then askTongs r.line (os.map (fun x => (x.host, x.addr))) h else h
        let kind := fun (x : SEnt) =>
          if whole ∧ t.glo ≤ x.addr ∧ x.addr + granOf h x.host ≤ t.glo + t.gn then 2 else 1
        setPh t.id .snoop (forEach own (fun x h => issueSnp (kind x) x true t h) h)

/-- Sends again, to the owners now shown, what an owner that had passed its granule on did not answer (R114, R148); a request of another kind is
evaluated as the Sieve now stands. -/
def reissueReq (t : Txn) (h : Hub) : Hub :=
  let r := t.req
  let op := servedAs r.ent.typ r
  if op = 0x11 ∨ op = 0x13 ∨ op = 0x16 then
    let own := (holders h t.glo t.gn r.host).filter SEnt.owns
    let fwd := op = 0x11 ∧ own.all (fun o => granOf h o.host == granOf h r.host)
    setPh t.id .snoop (forEach own (fun x h => issueSnp (if fwd then 3 else 0) x true t h) h)
  else evalReq t h

/-- What follows when the last answer of a transaction has been processed (R109, R111, R150). -/
def afterSnoops (t : Txn) (h : Hub) : Hub :=
  let r := t.req
  if r.op = opBack then finish t h
  else if t.fwd then
    let h := reply r { op := 0xA1, state := t.grant } h
    if h.snps.any (fun s => s.txn == t.id) then releaseHeld t.id (setPh t.id .closing h) else finish t h
  else if r.op = 0x31 ∨ r.op = 0x32 then
    if t.pieces.any (fun p => p.1 / 128 == r.line && p.1 / 64 != r.addr / 64) then setPh t.id .ready h else fillStart t t.slot h
  else if readsLine r.op then
    let op := servedAs r.ent.typ r
    let h :=
      if t.grant != 0 then h
      else if op = 0x11 then recordGrant t (wayOf h t) (sharedGrant h r.addr (holders h t.glo t.gn r.host)) h
      else if op = 0x12 ∨ op = 0x15 then recordGrant t (wayOf h t) 3 h
      else h
    setPh t.id .serve h
  else setPh t.id .ready h

/-! ### Serving reads -/

/-- Whether a stream holds a tracker in a cluster (R44). -/
def streamBusy (h : Hub) (r : Req) : Bool :=
  h.txns.any (fun t => t.cnt && t.req.src == .link && t.req.link == r.link && t.req.stream == r.stream && clusterOf t.slice == r.cl)

/-- Takes a tracker for a transaction that must read memory: one it holds, or a free one its class may take (R47); one that counts only where
its stream holds none in the cluster (R44). While PWR_WARN's drain runs no tracker is taken but for accepted writes (R173). -/
def takeTrk (t : Txn) (counts : Bool) (h : Hub) : Option Hub :=
  if t.trk then some h
  else if counts && t.req.src == .link && streamBusy h t.req then none
  else if canTrk h (clusterOf t.slice) t.req.cls && (h.life.phase != .drain || writesLine t.req.op) then
    let h := updTxn t.id (fun x => { x with trk := true, cnt := counts }) h
    some (if counts then pmuReq 0x03 t.req (pageAdd t.req.pid 14 1 h) else h)
  else none

/-- A read whose turn has come takes its data from the home, or starts its memory read (R42, R51). -/
def advServe (t : Txn) (h : Hub) : Option Hub :=
  let r := t.req
  let e := r.ent
  if blocked t h then none
  else if t.upg then some (finishComp t false h)
  else if r.src != .link then some (finish t h)
  else if piecesCover t then
    let p := pathCheck r.addr h
    some (finishRead t p.1 (slice (withPieces t zeroLine) (r.addr % 128) r.size) p.2)
  else if e.typ == .dev then
    if devBehind t h then none
    else if !memReadable h e r.addr then some (finishRead t true [] h)
    else (takeTrk t true h).map (fillStart t none)
  else if e.typ == .near && !h.life.arrayUp then some (finishRead t true [] h)
  else
    match readHome e r t.counted h with
    | .good h d =>
      let p := pathCheck r.addr h
      some (finishRead t p.1 (slice (withPieces t d) (r.addr % 128) r.size) p.2)
    | .bad h => some (finishRead t true [] h)
    | .wait h => if t.counted || !(arriving h r.addr) then none else some (updTxn t.id (fun x => { x with counted := true }) h)
    | .miss g =>
      if memBars g e r.addr then some (finishRead t true [] g)
      else match takeTrk t (!t.counted && !(lineSt h r.addr).present) g with
        | none => none
        | some h =>
          if !e.typ.cached then some (fillStart t none h)
          else
            let h' := if r.op == 0x11 || r.op == 0x13 || r.op == 0x14 then trainDetector r.addr r.link r.stream r.pid r.cls h else h
            match placeLine r.addr r.pid r.pid (insAge h (homeSlice r.addr) r.cls) h' with
            | .wait => none
            | .no => some (fillStart t none (countBypass r.addr r.pid r.cls r.link h'))
            | .got g set way =>
              let g := if (findSector h r.addr).isSome then touch r.addr r.pid g else g
              some (fillStart t (some (set, way)) (setSlotLine (homeSlice r.addr) set way (lineIx r.addr) .filling g))

/-! ### Writes -/

/-- A write whose data cannot be used is written with the poison marking (R225, R227): the words it names in the Kettle or, through the buffer,
in memory; a line of the cache becomes POISONED, and an NWT line's words are marked in memory too, since its eviction writes nothing. -/
def poisonWrite (e : REntry) (a : Nat) (d : List Byte) (m : List Bool) (pid txn : Nat) (h : Hub) : Hub :=
  match e.typ with
  | .kettle => forEach (List.range 16) (fun i h =>
      if (slice m (8 * i) 8).any id then setKetErr (e.off (a / 128 * 128) / 8 + i) poisonWord h else h) h
  | .nwb => if (lineSt h a).present then setLineSt a .poisoned h else bufferWrite e a d m true pid txn h
  | .shadow => h
  | .cfg => h
  | _ =>
    let h := bufferWrite e a d m true pid txn h
    if (lineSt h a).present then setLineSt a .poisoned h else h

/-- Marks a line POISONED whose data is lost (R120): with the poison marking. Where ECC is clear the marking cannot be stored and no data is held, so
that memory stays as it is, with a POISON_DROP record (R224). -/
def poisonHome (a : Nat) (h : Hub) : Hub :=
  let e := entryOf h a
  if e.typ.isMain && !e.ecc then
    let h := if (lineSt h a).present then setLineSt a .poisoned h else h
    record 0x32 2 5 (homeDie a) 0 (a / 128) h
  else poisonWrite e a zeroLine allMask 0 0 h

/-- A transaction's write of its line at the home. -/
def applyLine (t : Txn) (h : Hub) : WRes :=
  let r := t.req
  let e := r.ent
  let port := if r.src == .link then r.link else 8
  let p := pathCheck r.addr h
  let txn := if e.typ == .dev then t.id else 0
  let zero := r.op == 0x24
  if p.1 then .done (poisonWrite e r.addr (if zero then zeroLine else r.lineData) (if zero then allMask else r.lineMask) r.who txn p.2)
  else if zero then zeroHome e r.addr r.pid r.cls port txn p.2
  else writeHome e r.addr r.lineData r.lineMask r.pid r.cls port txn t.counted p.2

/-- Bytes written to a line that the Tongs hold enter the data it holds (R139). -/
def tongMerge (r : Req) (h : Hub) : Hub :=
  { h with tongs := h.tongs.map (fun g => if g.line == r.line && g.since != 0 then { g with data := mergeBytes g.data r.lineData r.lineMask } else g) }

/-- After an owner has given up a granule, the hosts its earlier forwards made sharers are invalidated (R115). -/
def invalSharers (s : Snp) (t : Txn) (h : Hub) : Hub :=
  invalAll t ((holders h s.addr s.size t.req.host).filter (fun e => !e.owns)) h

/-- The data of an applied WRITE_BACK satisfies a snoop or forward answered WB_PENDING (R125, Table: Answers at the home). One whose granule
an earlier of them has given to another owner is re-issued to it (R114, log entry 100). -/
def wbSatisfy (s : Snp) (w : Txn) (h : Hub) : Hub :=
  let h := closeSnp s h
  match txnOf h s.txn with
  | none => h
  | some t =>
    if (holders h s.addr s.size t.req.host).any SEnt.owns then setPh t.id .reissue h
    else
      let d := if s.kind = 2 ∨ w.fwd then [] else [(w.req.addr, w.req.data)]
      let h := updTxn w.id (fun x => { x with fwd := true }) (updTxn t.id (fun x => { x with pieces := x.pieces ++ d }) h)
      if s.kind = 3 then recordGrant t (wayOf h t) (sharedGrant h t.req.addr (holders h t.glo t.gn t.req.host)) h
      else if s.kind = 4 then recordGrant t (wayOf h t) 5 (invalSharers s t h)
      else if s.kind = 0 then h
      else invalSharers s t h

/-- A WRITE_BACK that has been applied waits for its crossed transactions, and serves those that await it (R125, R144). -/
def wbApplied (t : Txn) (h : Hub) : Hub :=
  updTxn t.id (fun x => { x with ph := .closing, trk := false, slot := none }) h

/-- Old value, operands and size of an ATOMIC give its new value (Table: Tongs operations). -/
def atomicValue (code size old a b : Nat) : Nat :=
  let w := 2 ^ (8 * size)
  let neg := fun (x : Nat) => decide (w ≤ 2 * x)
  let less := fun (x y : Nat) => if neg x == neg y then decide (x < y) else neg x
  match code with
  | 0 => (old + a) % w
  | 1 => Nat.land old a
  | 2 => Nat.lor old a
  | 3 => Nat.xor old a
  | 4 => a
  | 5 => if old = a then b else old
  | 6 => if less old a then old else a
  | 7 => if less old a then a else old
  | 8 => min old a
  | _ => max old a

/-- The new bytes of an ATOMIC over its line, and the old ones. -/
def atomicLine (r : Req) (line : List Byte) : List Byte × List Byte :=
  let o := r.addr % 128
  let old := slice line o r.size
  let v := atomicValue r.sub r.size (ofBytes old) (ofBytes (r.data.take r.size)) (ofBytes (slice r.data 16 r.size))
  (old, splice line o (toBytes r.size v))

/-- Whether an ATOMIC writes: a CSWAP that does not compare equal writes nothing. -/
def atomicWrites (r : Req) (old : List Byte) : Bool := !(r.sub == 5 && ofBytes old != ofBytes (r.data.take r.size))

/-- Answers an ATOMIC with the old value (R121). -/
def finishAtomic (t : Txn) (old : List Byte) (h : Hub) : Hub :=
  finish t (respond t { op := 0xA2, data := fitBytes 16 old } (pmuReq 0x12 t.req h))

/-- The Tongs' hold of a line after an operation (R123). -/
def holdLine (line : Nat) (d : List Byte) (h : Hub) : Hub :=
  { h with tongs := h.tongs.map (fun g => if g.line == line then { g with data := d, since := if g.since = 0 then h.now + 1 else g.since, first := if g.since = 0 then h.nextId else g.first } else g) }

/-- An ATOMIC that cannot operate ends with DATA_ERROR; a line held for it alone is let go. -/
def failAtomic (t : Txn) (h : Hub) : Hub :=
  let h := finish t (respond t { op := 0xA2, lstat := 1 } h)
  if h.txns.any (fun u => u.req.op == 0x25 && u.req.line == t.req.line) then h
  else { h with tongs := h.tongs.filter (fun g => !(g.line == t.req.line && g.since == 0)) }

/-- An ATOMIC's operation on its line's data, written by region type (R122). -/
def runAtomic (t : Txn) (e : REntry) (line : List Byte) (h : Hub) : Option Hub :=
  let r := t.req
  let o := atomicLine r line
  let port := if r.src == .link then r.link else 8
  if !(atomicWrites r o.1) then some (finishAtomic t o.1 (holdLine r.line line h))
  else if !t.wb && wbFree h (homeCluster r.addr) = 0 then none
  else
    let fresh := e.typ == .nwb && !(lineSt h r.addr).present
    let m := if fresh then allMask else splice (List.replicate 128 false) (r.addr % 128) (List.replicate r.size true)
    match writeHome e (if fresh then r.line * 128 else r.addr) o.2 m r.pid r.cls port 0 t.counted (updTxn t.id (fun x => { x with wb := false }) h) with
    | .done h => some (finishAtomic t o.1 (holdLine r.line o.2 h))
    | .derr h => some (failAtomic t h)
    | _ => none

/-- An ATOMIC whose turn has come (R121 to R124). -/
def advAtomic (t : Txn) (h : Hub) : Option Hub :=
  let r := t.req
  let e := r.ent
  match e.typ with
  | .kettle =>
    let g := readKettle e r.addr r.size r.who h
    if g.err then some (failAtomic t g.h)
    else
      let o := atomicLine r (splice zeroLine (r.addr % 128) g.data)
      let m := splice (List.replicate 128 false) (r.addr % 128) (List.replicate r.size true)
      some (finishAtomic t o.1 (if atomicWrites r o.1 then writeKettle e (r.line * 128) r.pid o.2 m g.h else g.h))
  | .shadow => some (failAtomic t h)
  | .cfg => some (failAtomic t h)
  | .dev =>
    if devBehind t h then none
    else if !memReadable h e r.addr then some (failAtomic t h)
    else (takeTrk t true h).map (fillStart t none)
  | typ =>
    match h.tongs.find? (fun g => g.line == r.line && g.since != 0) with
    | some g => runAtomic t e g.data h
    | none =>
      if t.err then some (failAtomic t h)
      else if piecesCover { t with req := { r with addr := r.line * 128, size := 128 } } then runAtomic t e (withPieces t zeroLine) h
      else if typ == .near && !h.life.arrayUp then some (failAtomic t h)
      else
        match readHome e { r with op := 0x12 } t.counted h with
        | .good h d => runAtomic t e d h
        | .bad h => some (failAtomic t h)
        | .wait h => if t.counted || !(arriving h r.addr) then none else some (updTxn t.id (fun x => { x with counted := true }) h)
        | .miss g =>
          if memBars g e r.addr then some (failAtomic t g)
          else (takeTrk t (!t.counted && !(lineSt h r.addr).present) g).map (fillStart t none)

/-! ### Castouts that have been accepted (R61, R62) -/

/-- An offer, or castout data on a 1.0 link, is counted (PMU event CAST_OFFER). -/
def countOffer (r : Req) (h : Hub) : Hub := pmuReq 0x0C r (pageAdd r.pid 16 1 h)

/-- An offer declined. -/
def declineCast (r : Req) (reason : Nat) (h : Hub) : Hub :=
  let h := pmu 0x0E (homeDie r.addr) 1 { r.attr with qual := some reason } (pageAdd r.pid (18 + reason) 1 h)
  if r.op = 0x32 then reply r { op := 0xB3, declined := true } h else reply r { op := 0xB2, reason := reason } h

/-- Castout data written into the line (R62): CLEAN, counted, CAST_DONE. -/
def landCast (t : Txn) (d : List Byte) (h : Hub) : Hub :=
  match t.slot with
  | none => finish t (respond t { op := 0xB3 } h)
  | some (set, way) =>
    let a := t.req.addr
    let h := writeArrayLine (slotOffset t.slice set way (lineIx a)) a t.req.who d h
    let h := setSlotLine t.slice set way (lineIx a) .clean h
    let h := pmuReq 0x0D t.req (pageAdd t.req.pid 17 1 h)
    finish t (respond t { op := 0xB3 } h)

/-- Castout data has arrived for an accepted castout: charged, written, or joined with the other half (R62, R184). -/
def castArrived (t : Txn) (d : List Byte) (h : Hub) : Hub :=
  let r := t.req
  if t.cancelled then finish t (respond t { op := 0xB3 } h)
  else
    let h := if r.admitted then charge (homeRg r.addr) r.pid r.cls 128 h else h
    let h := updTxn t.id (fun x => { x with pieces := [(r.addr, d)] }) h
    if 128 ≤ d.length then landCast t d h
    else
      let other := if r.addr % 128 < 64 then r.line * 128 + 64 else r.line * 128
      let own := (holders h other 64 9).filter SEnt.owns
      setPh t.id .snoop (forEach own (fun x h => issueSnp 0 x true t h) h)

/-- An accepted castout that has its place: its data is taken in, or asked for with CAST_ACCEPT; `job` 1 says that its sender was shown I at its
ordering, which cancels it (R147). -/
def castBegin (t : Txn) (h : Hub) : Hub :=
  let r := t.req
  let h := updTxn t.id (fun x => { x with ph := .cast, slot := t.slot }) h
  if r.op = 0x32 then castArrived t r.data h
  else
    let h := reply r { op := 0xB1 } h
    if r.job = 1 then cancelCast r.line h else h

/-- An accepted castout allocates at once, or takes the existing sector (R62); none where the eviction waits for write-buffer lines, while it
keeps its home order and its tracker (R38). -/
def advAlloc (t : Txn) (h : Hub) : Option Hub :=
  let r := t.req
  let st := lineSt h r.addr
  if t.cancelled then some (castBegin { t with slot := none } h)
  else if st.present && st != .poisoned then some (declineCast r 0 (dropTxn t.id h))
  else match placeLine r.addr r.pid r.pid (insAge h t.slice 4) h with
    | .wait => none
    | .no => some (declineCast r 3 (dropTxn t.id h))
    | .got g set way =>
      let g := setSlotLine t.slice set way (lineIx r.addr) .filling g
      let s := sector g t.slice set way
      let g := putSector { s with cast := s.cast ++ [lineIx r.addr + 8 * r.pid] } g
      some (castBegin { t with slot := some (set, way) } g)

/-! ### FENCE (R163, R164) -/

/-- Whether an accepted write of this number is not yet globally visible. -/
def pendingUid (h : Hub) (u : Nat) : Bool :=
  h.links.any (fun k => k.2.inbox.any (fun m => m.uid == u)) || h.txns.any (fun t => t.req.uid == u && t.req.src == .link && fenceWrite t.req.op && t.ph != .closing)
    || h.waiting.any (fun w => w.req.uid == u) || h.recov.any (fun v => v.held.any (fun r => r.uid == u)) || h.twin.reqs.any (fun q => q.req.uid == u)

/-- A write, notice, FENCE or internal clean whose turn has come. -/
def advReady (t : Txn) (h : Hub) : Option Hub :=
  let r := t.req
  if r.op = 0x39 then
    if t.crossed.any (pendingUid h) then none else some (finish t (respond t { op := 0xA4 } h))
  else if r.op = 0x31 ∨ r.op = 0x32 then some (landCast t (withPieces t zeroLine) h)
  else if blocked t h then none
  else if r.op = opOwn ∨ r.op = opDrop then some (finish t h)
  else if r.op = 0x25 then advAtomic t h
  else
    let e := r.ent
    let dev := e.typ == .dev
    if dev && devBehind t h then none
    else if !t.wb && r.op != 0x23 && e.typ != .kettle && wbFree h (homeCluster r.addr) = 0 then none
    else
      match applyLine t (updTxn t.id (fun x => { x with wb := false }) h) with
      | .done h =>
        let h := if r.op = 0x33 ∨ r.op = opDirty then tongMerge r h else h
        if r.op = 0x33 then some (wbApplied t h)
        else if r.op = opDirty then some (finish t h)
        else if dev then some (updTxn t.id (fun x => { x with ph := .perform, since := h.now + 1 }) h)
        else some (finishComp t false h)
      | .derr h =>
        if r.op = 0x33 then some (wbApplied { t with err := true } (updTxn t.id (fun x => { x with err := true }) h))
        else if r.op = opDirty then some (finish t h)
        else some (finishComp t true h)
      | .fetch h set way => (takeTrk t false h).map (fun h => fillStart t (some (set, way)) (updTxn t.id (fun x => { x with counted := true }) h))
      | .wait => if t.counted || lineSt h r.addr != .filling then none else some (updTxn t.id (fun x => { x with counted := true }) h)

/-- A transaction that has sent its completion: a WRITE_BACK satisfies in home order the snoops it crossed, and answers WB_ACK when their transactions have closed (R125), a
forward ends when its DATA has been routed. -/
def advClosing (t : Txn) (h : Hub) : Option Hub :=
  if t.req.op = 0x33 then
    match minBy Snp.txn (h.snps.filter (fun s => s.owner && s.host == t.req.host && !s.done && overlaps s.addr s.size t.lo t.n && t.crossed.contains s.txn)) with
    | some s => if s.wb then some (wbSatisfy s t h) else none
    | none =>
    if t.crossed.any (fun c => h.txns.any (fun u => u.id == c)) then none
    else some (finish t (respond t { op := 0xA3, lstat := b2n t.err } h))
  else if h.snps.any (fun s => s.txn == t.id) then none
  else some (finish t h)

/-! ### The loop (R137) -/

/-- Requests waiting in a die's Sieve retry queue, those to the twin among them (R129, R130). -/
def retryDepth (h : Hub) (die : Nat) : Nat :=
  (h.txns.filter (fun t => t.ph == .retryQ && homeDie t.lo == die)).length
    + (h.twin.reqs.filter (fun q => q.retry && homeDie q.req.addr == die)).length

/-- Whether a request would need a place in the retry queue. -/
def wouldRetry (h : Hub) (e : REntry) (r : Req) : Bool :=
  let op := servedAs e.typ r
  e.typ.sieve && decide (r.host < 8) && (op == 0x11 || op == 0x12 || (op == 0x15 && hostSt h r.host r.addr == 0))
    && (match findSpot h h.nextId r.host r.addr r.hway with | .retry => true | _ => false)

/-- One transaction goes on where it can; none where it must wait. -/
def advance (id : Nat) (h : Hub) : Option Hub :=
  match txnOf h id with
  | none => none
  | some t =>
    match t.ph with
    | .stalled =>
      if (t.gated && t.req.ent.typ.sieve && mustStall t h) || (!t.coherent && tongBars t h) || (t.gated && streamAhead t h) then none
      else if wouldRetry h t.req.ent t.req && decide (16 ≤ retryDepth h (homeDie t.req.addr)) then none
      else some (evalReq t h)
    | .reissue => if reissueAhead t h || grantAhead t h then none else some (reissueReq t h)
    | .retryQ =>
      (match findSpot h t.id t.req.host t.req.addr t.req.hway with
        | .retry => none
        | _ => if t.gated && mustStall t h then none else some (evalReq t h))
    | .backWait =>
      if h.txns.any (fun u => u.req.op == opBack && u.req.job == t.id) || (t.gated && mustStall t h) then none else some (evalReq t h)
    | .snoop => if (txnSnps h t.id).isEmpty then some (afterSnoops t h) else none
    | .serve => advServe t h
    | .ready => advReady t h
    | .closing => advClosing t h
    | .alloc => advAlloc t h
    | .fill => none
    | .cast => none
    | .perform => none

/-- One pass over the transactions in home order. -/
def settlePass : List Nat → Hub → Bool × Hub
  | [], h => (false, h)
  | id :: r, h =>
    match advance id h with
    | some h' => let p := settlePass r h'; (true, p.2)
    | none => settlePass r h

/-- Passes until nothing moves. -/
def settleLoop : Nat → Hub → Hub
  | 0, h => h
  | n + 1, h =>
    let p := settlePass (h.txns.map Txn.id) h
    if p.1 then settleLoop n p.2 else p.2

/-- Evicts the sectors of slots that R234 retired, where the write buffer has room. -/
def settleEvict (h : Hub) : Hub :=
  forEach h.integ.evict (fun s h =>
    match evictSector s.1 s.2.1 s.2.2 h with
    | some h => { h with integ := { h.integ with evict := h.integ.evict.filter (· != s) } }
    | none => h) h

/-- Lets every transaction go on that can, in home order (R137), after Tongs holds that have ended are let go. -/
def settle (h : Hub) : Hub :=
  let h := settleEcho (settleEvict (tidyTongs h))
  settleLoop (8 * (h.txns.length + 4)) h

end Sys2Proof.Machine
end

