-- ==== Sys2Proof/Machine/Answers.lean ====
section
/-! DEFINITION. Answers at the home (R114, R115, R119, R148, R149, Table: Answers at the home) and the closing of snoops when a host is
lost (R120). -/

namespace Sys2Proof.Machine

/-- The snoop or forward outstanding at a host under an identifier. -/
def snpOf (h : Hub) (host id : Nat) : Option Snp := h.snps.find? (fun s => s.host == host && s.id == id && !s.held)

/-- Whether a snoop or forward still awaits its SNP_RSP or FWD_DONE: a second one names an identifier not outstanding (R149). -/
def Snp.awaited (s : Snp) : Bool := !s.done && !s.wb && !s.passed

/-- The hub with an outstanding snoop changed. -/
def updSnp (s : Snp) (f : Snp → Snp) (h : Hub) : Hub :=
  { h with snps := h.snps.map (fun x => if x.id == s.id && x.host == s.host then f x else x) }

/-- COH_CFG.SNP_TIMEOUT in cycles; 0 acts as 100 µs. -/
def snpTimeout (h : Hub) : Nat :=
  let t := regField h 0 0x4040 9 0
  (if t = 0 then 100 else t) * cyclesPerUs

/-- Counts an answer later than R118 or R134 allows, judged from what the hub sees (R119). -/
def lateCheck (s : Snp) (h : Hub) : Hub :=
  let bound := (if s.host = 7 then 1250 else 625) + 125
  let latest := max s.sent s.base
  let die := homeDie s.addr
  if !s.timedOut && s.sent != 0 && decide (latest + bound < h.now + 1) && decide (h.now + 1 ≤ s.sent + snpTimeout h) then
    regSetField h die 0x4078 31 16 (satAdd (regField h die 0x4078 31 16) 1 16)
  else h

/-- An owner's dirty data goes to the line's region (R108), as a write charged to the request that caused the snoop (R184). -/
def dirtyBack (t : Txn) (a : Nat) (d : List Byte) (h : Hub) : Hub :=
  let h := if t.req.admitted then charge (homeRg a) t.req.pid t.req.cls 128 h else h
  let r : Req := { op := opDirty, src := .hub0, pid := t.req.pid, cls := t.req.cls, addr := a, size := d.length, data := d,
                   mask := List.replicate d.length true, ent := entryOf h a }
  let w : Txn := { id := h.nextId, req := r, slice := homeSlice a, ph := .ready, lo := a, n := d.length }
  { h with txns := h.txns ++ [w], nextId := h.nextId + 1 }

/-- Re-issues a forward or a snoop of a transaction (R114, R148). -/
def reissue (s : Snp) (h : Hub) : Hub := setPh s.txn .reissue (closeSnp s h)

/-- An answer WB_PENDING (R125): the entry becomes I, and the WRITE_BACK is awaited where it has not been applied yet (R144). -/
def pendWb (s : Snp) (h : Hub) : Hub :=
  updTxn s.txn (fun t => { t with wbGate := true }) (updSnp s (fun x => { x with wb := true }) (setHostSt s.host s.addr 0 h))

/-- Data that an answer returned: written to the region where it is dirty, and kept for the transaction. -/
def takeData (s : Snp) (t : Txn) (dirty : Bool) (d : List Byte) (h : Hub) : Hub :=
  let h := updTxn t.id (fun x => { x with pieces := x.pieces ++ [(s.addr, d)] }) h
  if dirty then dirtyBack t s.addr d h else h

/-- A SNP_RSP at the home for an outstanding snoop (Table: Answers at the home). DEDUCED: a SNP_INVAL whose host has meanwhile passed
ownership on is sent again to the new owner, since R158 lets no copy stand beside a visible write (log entry 13). -/
def answerSnp (s : Snp) (st : Nat) (dirty wbp : Bool) (d : List Byte) (h : Hub) : Hub :=
  match txnOf h s.txn with
  | none => closeSnp s h
  | some t =>
    let bad := violate s.addr s.size h
    let shown := hostSt h s.host s.addr
    let has := !d.isEmpty
    let shared := st = 1 ∨ st = 2
    let h := lateCheck s h
    if wbp then (if s.owner && st == 0 && !has then pendWb s h else bad)
    else if 3 ≤ s.kind then bad
    else if s.kind = 0 ∧ s.owner then
      if st = 0 ∧ !has then
        if shown < 3 then reissue s h
        else if shown = 3 then updSnp s (fun x => { x with passed := true }) (setHostSt s.host s.addr 0 h)
        else bad
      else if shared ∧ !has then (if shown < 3 then reissue s h else bad)
      else if shared then
        takeData s t dirty d (closeSnp s (if 3 ≤ shown then setHostSt s.host s.addr 1 h else h))
      else bad
    else if s.kind = 0 then
      if st = 0 then
        let h := closeSnp s (setHostSt s.host s.addr 0 h)
        if has then takeData s t dirty d h else h
      else if st = 1 ∧ !has then closeSnp s h
      else if shared ∧ has then
        takeData s t dirty d (closeSnp s (if shown = 0 then h else setHostSt s.host s.addr st h))
      else bad
    else if st ≠ 0 then bad
    else if !s.owner then closeSnp s h
    else if s.kind = 1 then
      if has then invalSharers s t (takeData s t dirty d (closeSnp s (setHostSt s.host s.addr 0 h)))
      else if shown < 3 then reissue s h
      else if shown = 3 then invalSharers s t (closeSnp s (setHostSt s.host s.addr 0 h))
      else bad
    else if shown < 3 ∧ (holders h s.addr s.size t.req.host).any SEnt.owns then reissue s h
    else invalSharers s t (closeSnp s (setHostSt s.host s.addr 0 h))

/-- A FWD_DONE at the home (R114, R115, Table: Answers at the home). -/
def answerFwd (s : Snp) (st : Nat) (dirty passed : Bool) (h : Hub) : Hub :=
  match txnOf h s.txn with
  | none => closeSnp s h
  | some t =>
    let bad := violate s.addr s.size h
    let shown := hostSt h s.host s.addr
    let h := lateCheck s h
    let closed := fun (h : Hub) => if s.dataSeen then closeSnp s h else updSnp s (fun x => { x with done := true }) h
    if s.kind < 3 then bad
    else if passed then
      let h := pmu 0x0A (homeDie s.addr) 1 { pid := some t.req.pid, cls := some t.req.cls, addr := some s.addr } h
      if s.dataSeen then bad
      else if shown < 3 then reissue s h
      else if shown = 3 then updSnp s (fun x => { x with passed := true }) (setHostSt s.host s.addr 0 h)
      else bad
    else if s.kind = 3 then
      if (st = 4 ∧ dirty) ∨ (st = 1 ∧ !dirty) then
        let h := setHostSt s.host s.addr st h
        let h := recordGrant t (wayOf h t) (if dirty then 1 else 2) h
        closed (updTxn t.id (fun x => { x with fwd := true }) h)
      else bad
    else if st = 0 then
      let h := setHostSt s.host s.addr 0 h
      let h := recordGrant t (wayOf h t) (if dirty then 5 else 3) h
      closed (updTxn t.id (fun x => { x with fwd := true }) (invalSharers s t h))
    else bad

/-- DATA for a forward goes through the switch to the requester's link (R29, R109). -/
def routeData (s : Snp) (d : List Byte) (h : Hub) : Hub :=
  match txnOf h s.txn with
  | none => closeSnp s h
  | some t =>
    if s.kind < 3 ∨ s.passed ∨ s.wb ∨ s.dataSeen then violate s.addr s.size h
    else
      let h := respond t { op := 0x93, data := d } h
      if s.done then closeSnp s h else updSnp s (fun x => { x with dataSeen := true }) h

/-- A notice from a host ends the snoops that its own answers had crossed (R126): the home serves their transactions. -/
def noticeCloses (host a n : Nat) (h : Hub) : Hub :=
  forEach (h.snps.filter (fun s => s.passed && s.host == host && overlaps s.addr s.size a n)) reissue h

/-- Closes a snoop as if its host had answered SNP_RSP(I) without data, the host already shown in I (R120). -/
def closeLost (s : Snp) (h : Hub) : Hub :=
  if s.done then closeSnp s h
  else if s.owner && s.kind != 2 then reissue s h
  else closeSnp s h

end Sys2Proof.Machine
end

