-- ==== Sys2Proof/Machine/Order.lean ====
section
/-! DEFINITION. Ordering at the home (R14, R16, R19, R20, R40 to R48): which requests may be accepted by their slice, what their
ordering does at once (R90, R168 to R170, R249), notices (R142), castouts (R61 to R64), and the return of requests that waited. -/

namespace Sys2Proof.Machine

/-! ### What a request waits for -/

/-- Whether a stream has an earlier request that has not been ordered: one undone in the cluster, one to the same hub line, or for a DEV access
another DEV access (R20, R45, R161). -/
def streamHeld (h : Hub) (r : Req) : Bool :=
  r.src == .link && h.waiting.any (fun w => w.req.src == .link && w.req.link == r.link && w.req.stream == r.stream && decide (w.req.uid < r.uid)
    && ((w.req.cl == r.cl && (w.why == .undone || w.why == .stream || w.req.line == r.line)) || (r.ent.typ == .dev && w.req.ent.typ == .dev)))

/-- Whether a set of the address's slice is held for a rebuild (R41). -/
def setHeld (h : Hub) (a : Nat) : Bool :=
  h.cache.cst != .off && h.cache.sectors.any (fun s => (s.tagPar || s.statePar) && s.slice == homeSlice a && s.set == setIndex h a)

/-- Whether a request takes a write-buffer line at its ordering: every write but one to the Kettle, an ATOMIC where the Tongs writes (R47, R122, R124). -/
def takesWb (e : REntry) (r : Req) : Bool :=
  writesLine r.op && e.typ != .kettle && (r.op != 0x25 || (e.typ.sieve && r.src == .link))

/-- Whether a request would be a ninth attached to the fill of its line (R48), or, a demand read, to its prefetch in flight (R89). -/
def fullFill (h : Hub) (op : Nat) (r : Req) : Bool :=
  ((demandRead op && arriving h r.addr) || (writesLine op && lineSt h r.addr == .filling)) && decide (8 ≤ attached h r.line)

/-- Why a request cannot be ordered now; none where it can. -/
def waitReason (h : Hub) (e : REntry) (r : Req) : Option WaitWhy :=
  let trk := needsTrk h e r
  let op := servedAs e.typ r
  if (bfind h.life.warm (homeDie r.addr)).isSome then some .seam
  else if streamHeld h r then some .stream
  else if e.typ.cached && setHeld h r.addr then some .recovery
  else if e.typ.cached && fullFill h op r then some .undone
  else if trk && streamBusy h r then some .undone
  else if trk && (!canTrk h r.cl r.cls || h.life.phase == .drain) then some .resource
  else if r.op == 0x25 && e.typ.sieve && !(h.tongs.any (fun g => g.line == r.line))
      && decide (8 ≤ (h.tongs.filter (fun g => g.cluster == r.cl)).length) then some .resource
  else if takesWb e r && !canWb h r.cl r.cls then some .resource
  else if wouldRetry h e r && decide (16 ≤ retryDepth h (homeDie r.addr)) then some .retryFull
  else none

/-! ### The steward's ghost tags (R194) -/

/-- A demand lookup touches the partition's ghost tags in a sampled set, and counts its depth. -/
def ghostTouch (r : Req) (h : Hub) : Hub :=
  let set := setIndex h r.addr
  if r.pid = 0 ∨ h.cache.cst ≠ .on ∨ set % 64 ≠ 0 ∨ bitOf (regGet h 0 0x4000) 8 then h
  else
    let key := (homeSlice r.addr * 64 + set / 64) * 64 + r.pid
    let tag := r.addr / 1024
    let st := bget h.fs.ghosts key []
    let h := match st.findIdx? (· == tag) with
      | some k => { h with fs := { h.fs with hist := bupd h.fs.hist (r.pid * 16 + k) 0 (· + 1) } }
      | none => h
    { h with fs := { h.fs with ghosts := bset h.fs.ghosts key ((tag :: st.filter (· != tag)).take 16) } }

/-- An engine's lookup of a line for a partition touches its ghost tags like any demand request's (R194). -/
def ghostLine (a pid : Nat) (h : Hub) : Hub :=
  if (entryOf h a).typ.cached then ghostTouch { op := 0x13, src := .mover, pid := pid, addr := a } h else h

/-- Whether any line of a range lies in a set held for a rebuild, so that an engine must wait (R41). -/
def rangeHeld (h : Hub) (a n : Nat) : Bool :=
  (List.range (ceilDiv (a % 128 + n) 128)).any (fun i => (entryOf h (a + 128 * i)).typ.cached && setHeld h (a + 128 * i))

/-! ### Ordering -/

/-- What a request's ordering does at once: reservations lost and set, seals broken, Ladle entries killed (R90, R168 to R170,
R249). An ST_COND's wait until it is judged. -/
def orderEffects (e : REntry) (r : Req) (h : Hub) : Hub :=
  let op := servedAs e.typ r
  let lo := r.addr / r.size * r.size
  let wr := writesLine op && op != opDirty && op != 0x26
  let own := op == 0x12 || op == 0x15
  let h := if wr && op != 0x33 then writeLoss h.nextId lo r.size (if r.src == .link then r.link else 8) r.stream h else h
  let h := if wr || own then breakSeals lo r.size h else h
  let h := if (wr || own || op == 0x32) && e.typ.cached then ladleKill r.line h else h
  if r.op == 0x16 && r.src == .link && (e.typ.sieve || e.typ == .kettle) then setResv r.addr r.link r.stream r.pid h else h

/-- Puts a request in home order as a transaction, with what it holds (R14, R37, R137). -/
def openTxn (e : REntry) (r : Req) (h : Hub) : Hub :=
  let trk := needsTrk h e r
  let wb := takesWb e r
  let lo := r.addr / r.size * r.size
  let wide := (e.typ.sieve && r.op == 0x25) || e.typ.sieve && h.sieve.any (fun s => s.live && overlaps s.addr (granOf h s.host) lo r.size && granOf h s.host == 128)
  let lo' := if wide then lo / 128 * 128 else lo / 64 * 64
  let n := if wide then 128 else max 64 r.size
  let t : Txn := { id := h.nextId, req := { r with ent := e }, slice := homeSlice r.addr, lo := lo', n := n, trk := trk, cnt := trk, wb := wb, upg := r.op == 0x26 }
  let h := { h with txns := h.txns ++ [t], nextId := h.nextId + 1 }
  let h := if trk then pmuReq 0x03 r (pageAdd r.pid 14 1 h) else h
  let h := if e.typ.cached && ownsLine (servedAs e.typ r) && r.op != 0x26 then cancelCast r.line h else h
  if r.op == 0x25 && e.typ.sieve && !(h.tongs.any (fun g => g.line == r.line)) then
    { h with tongs := h.tongs ++ [{ cluster := r.cl, line := r.line, since := 0 }] }
  else h

/-- A request that its slice turns away for now; those that wait stay in the order of their arrival. -/
def putWaiting (why : WaitWhy) (r : Req) (h : Hub) : Hub :=
  let h := if why == .undone then pmuReq 0x07 r (useSlot r true h) else h
  let w : Waiting := { req := r, slice := homeSlice r.addr, why := why }
  let later := fun (x : Waiting) => r.uid != 0 && decide (r.uid < x.req.uid)
  { h with waiting := h.waiting.takeWhile (fun x => !(later x)) ++ w :: h.waiting.dropWhile (fun x => !(later x)) }

/-- Whether RD_NOSNP or WR_NOSNP meets a line that a host holds or a coherent transaction has open (R143). -/
def nosnpViolates (h : Hub) (r : Req) : Bool :=
  !(holders h (r.addr / r.size * r.size) r.size 9).isEmpty
    || h.txns.any (fun t => t.coherent && overlaps t.lo t.n (r.addr / r.size * r.size) r.size)

/-- A failing ST_COND is answered at once (R141, R169). -/
def failCond (r : Req) (h : Hub) : Hub := reply r { op := 0xA5, pass := false } (releaseResv r.link r.stream h)

/-- A request with the region-map entry it is checked against: the one its acceptance found, for one of the hub's own that of now (R27). -/
def Req.mapped (r : Req) (h : Hub) : Req := if r.ent.valid then r else { r with ent := entryOf h r.addr }

/-- Presents a request to its home slice: it is ordered, or it waits. -/
def orderReq (r : Req) (h : Hub) : Hub :=
  let r := r.mapped h
  let e := r.ent
  if undefinedAt h r.addr r.size then freeReply r h else
  let h := if e.typ.sieve then detectSieve r.addr h else h
  if r.op = 0x26 ∧ !(e.typ.sieve || e.typ == .kettle) then failCond r h
  else
    match waitReason h e r with
    | some why => putWaiting why r h
    | none =>
      let h := pmuReq 0x01 r (useSlot r false h)
      let h := if e.typ.cached && (r.src == .link || r.src == .warm) then ghostTouch r h else h
      if (r.op = 0x14 ∨ r.op = 0x23) ∧ e.typ.sieve ∧ nosnpViolates h r then violate (r.addr / 64 * 64) (max 64 r.size) h
      else if r.op = 0x26 ∧ !(holdsResv h r.addr r.link r.stream) then failCond r h
      else
        let h := if r.op = 0x26 then releaseResv r.link r.stream h else h
        openTxn e r (orderEffects e r h)

/-- Orders a request and lets everything go on that can. -/
def present (r : Req) (h : Hub) : Hub := settle (orderReq r (tidyTongs h))

/-- Presents requests that had waited again, in their order, then lets everything go on. -/
def presentAll (rs : List Req) (h : Hub) : Hub := settle (forEach rs orderReq h)

/-! ### Castouts (R61 to R64) -/

/-- Reuse fraction below which an offer of a partition is cold, judged on one slice (R63): answers the verdict and the hub with the
slice's count of cold offers. -/
def castCold (r : Req) (h : Hub) : Bool × Hub :=
  let die := homeDie r.addr
  let c := regGet h die 0x400C
  let pol := if bitOf (regGet h 0 0x4000) 8 then bits c 1 0 else 0
  let p := part h r.pid
  if pol = 1 then (false, h)
  else if pol = 2 then (true, h)
  else if bits c 7 2 * p.castDen ≤ p.castFrac * 64 then (false, h)
  else
    let key := homeSlice r.addr * 64 + r.pid
    let n := bget h.cache.coldCnt key 0 + 1
    if n ≥ 2 ^ bits c 11 8 then (false, { h with cache := { h.cache with coldCnt := bset h.cache.coldCnt key 0 } })
    else (true, { h with cache := { h.cache with coldCnt := bset h.cache.coldCnt key n } })

/-- R61's decision on an offer: the first reason that holds, and the hub after it. -/
def castReason (e : REntry) (r : Req) (h : Hub) : Option Nat × Hub :=
  let sl := homeSlice r.addr
  let set := setIndex h r.addr
  let st := lineSt h r.addr
  let mask := wayMask h r.pid
  let live := fun (w : Nat) => mask.testBit w && !h.cache.retired.contains (sl, set, w) && wayPowered h w
  if !e.typ.cached || (st.present && st != .poisoned) then (some 0, h)
  else if spent h (homeRg r.addr) r.pid r.cls then (some 2, h)
  else if mask = 0 || !((List.range 16).any live) then (some 1, h)
  else match findSector h r.addr with
    | some s =>
      if !(mask.testBit s.way) then (some 1, h)
      else let c := castCold r h; (if c.1 then some 4 else none, c.2)
    | none =>
      if (eligible h sl set r.pid).isEmpty then (some 3, h)
      else let c := castCold r h; (if c.1 then some 4 else none, c.2)

/-- An offer, or castout data on a 1.0 link, that has passed Table: Notices (R61, R62, R64). `gone` says that its sender was shown I. -/
def castIn (gone : Bool) (r : Req) (h : Hub) : Hub :=
  let c := castReason r.ent r h
  match c.1 with
  | some reason => declineCast r reason c.2
  | none =>
    if r.op = 0x32 ∧ gone then reply r { op := 0xB3 } c.2
    else if !canTrk h r.cl r.cls || h.life.phase == .drain then putWaiting .resource { r with job := if gone then 1 else 3 } h
    else
      let h := c.2
      let t : Txn := { id := h.nextId, req := { r with job := b2n gone }, slice := homeSlice r.addr, ph := .alloc, lo := r.addr / r.size * r.size,
                       n := r.size, trk := true }
      let h := { h with txns := h.txns ++ [t], nextId := h.nextId + 1 }
      (advAlloc t h).getD h

/-! ### Notices (R142) -/

/-- Whether a notice of a host breaks a gate of R144: the grantee of data in flight, the offerer of an accepted castout, a
WB_PENDING host's EVICT_NOTE or CAST_OFFER, or a line the Tongs hold, of which its sender holds nothing and nothing was asked back (log
entry 102). -/
def noticeBreaks (h : Hub) (r : Req) : Bool :=
  let lo := r.addr / r.size * r.size
  h.txns.any (fun t => t.req.host == r.host && t.grant != 0 && t.ph != .closing && t.req.op != 0x33 && overlaps t.lo t.n lo r.size)
    || (r.op != 0x32 && h.txns.any (fun t => (t.req.op == 0x31 || t.req.op == 0x32) && t.req.host == r.host && !t.cancelled && overlaps t.lo t.n lo r.size))
    || (r.op != 0x33 && h.snps.any (fun s => s.wb && s.host == r.host && overlaps s.addr s.size lo r.size))
    || (hostSt h r.host r.addr == 0
      && h.tongs.any (fun g => g.since != 0 && tongHolds h g && overlaps (g.line * 128) 128 lo r.size && !(g.asked.contains (r.host, lo))))

/-- A WRITE_BACK at its home (R57, R125, R142). -/
def orderWriteBack (r : Req) (h : Hub) : Hub :=
  let e := r.ent
  let lo := r.addr / r.size * r.size
  let st := hostSt h r.host r.addr
  if st = 1 ∨ st = 2 ∨ noticeBreaks h r then violate lo r.size h
  else if streamHeld h r then putWaiting .stream r h
  else if e.typ.cached && setHeld h r.addr then putWaiting .recovery r h
  else if e.typ.cached && fullFill h r.op r then putWaiting .undone r h
  else if !canWb h r.cl r.cls then putWaiting .resource r h
  else
    let crossed := (h.snps.filter (fun s => s.host == r.host && !s.done && overlaps s.addr s.size lo r.size)).map Snp.txn
    let gates := (h.txns.filter (fun t => t.wbGate && overlaps t.lo t.n lo r.size)).map Txn.id
    let h := pmuReq 0x01 r (useSlot r false h)
    let h := if e.typ.cached then ghostTouch r h else h
    let h := orderEffects e r (setHostSt r.host r.addr 0 h)
    let t : Txn := { id := h.nextId, req := r, slice := homeSlice r.addr, ph := .ready, lo := lo, n := r.size, wb := true,
                     crossed := crossed ++ gates }
    { h with txns := h.txns ++ [t], nextId := h.nextId + 1 }

/-- An EVICT_NOTE at its home (R102, R126, R142). -/
def orderEvict (r : Req) (h : Hub) : Hub :=
  let lo := r.addr / r.size * r.size
  if 4 ≤ hostSt h r.host r.addr ∨ noticeBreaks h r then violate lo r.size h
  else if streamHeld h r then putWaiting .stream r h
  else noticeCloses r.host lo r.size (setHostSt r.host r.addr 0 (pmuReq 0x01 r (useSlot r false h)))

/-- A CAST_OFFER, or castout data on a 1.0 link, at its home (R61, R64, R126, R142). -/
def orderCast (r : Req) (h : Hub) : Hub :=
  let lo := r.addr / r.size * r.size
  let st := hostSt h r.host r.addr
  if 4 ≤ st ∨ noticeBreaks h r then violate lo r.size h
  else if streamHeld h r then putWaiting .stream r h
  else if setHeld h r.addr then putWaiting .recovery r h
  else
    let h := countOffer r (pmuReq 0x01 r (useSlot r false h))
    let h := noticeCloses r.host lo r.size (setHostSt r.host r.addr 0 h)
    let h := if r.op = 0x32 then ladleKill r.line h else h
    if !r.admitted then declineCast r 1 h else castIn (st == 0) r h

/-- A notice at its home: held while its host's set is under recovery (R131, R142, Table: Gates). -/
def orderNotice (r : Req) (h : Hub) : Hub :=
  let r := r.mapped h
  let h := detectSieve r.addr h
  if undefinedAt h r.addr r.size then freeReply r h
  else if (bfind h.life.warm (homeDie r.addr)).isSome then putWaiting .seam r h
  else if underRecovery h r.addr then
    { h with recov := updFirst (fun v => v.covers h r.addr) (fun v => { v with held := v.held ++ [r] }) h.recov }
  else if r.op = 0x33 then orderWriteBack r h
  else if r.op = 0x34 then orderEvict r h
  else if r.job = 1 ∨ r.job = 3 then castIn (r.job == 1) { r with job := 0 } h
  else orderCast r h

/-- CAST_DATA on a 1.1 link (R62, R147): it belongs to the castout its tag names; otherwise its sender has violated. -/
def castDataIn (r : Req) (h : Hub) : Hub :=
  if (bfind h.life.warm (homeDie r.addr)).isSome then putWaiting .seam r h
  else if undefinedAt h r.addr r.size then freeReply r h else
  match h.txns.find? (fun t => t.req.op == 0x31 && t.ph == .cast && t.req.host == r.host && t.req.line == r.line && t.req.tag == r.tag) with
  | some t => castArrived t r.data (ladleKill r.line h)
  | none => violate (r.addr / r.size * r.size) r.size h

/-- A request of any kind that had waited is presented again; a castout's `job` says how far it had come (1: past Table: Notices, its sender
shown I; 3: past it, its sender a holder; else not past it). -/
def again (r : Req) (h : Hub) : Hub :=
  if r.op = 0x32 ∧ (link h r.link).rev11 = true then castDataIn r h
  else if r.op = 0x31 ∨ r.op = 0x32 ∨ r.op = 0x33 ∨ r.op = 0x34 then orderNotice r h
  else orderReq r h

/-! ### The weighted turn (R16, R181, R370) -/

/-- Weight of a class at the slice arbiter (R181). -/
def classWeight (c : Nat) : Nat := if c = 0 then 8 else if c = 1 then 4 else if c = 2 then 2 else 1

/-- A new round's turns, given the requests that wait, oldest first: PID 0 and the ACTIVE partitions, ascending, each by its weight, 1 where
nothing of it waits (R370). -/
def roundOf (h : Hub) (rs : List Req) : List Nat :=
  let ps := 0 :: (List.range 64).filter (fun p => p != 0 && (part h p).st == .active)
  ps.flatMap (fun p => List.replicate (match rs.find? (fun r => r.pid == p) with
    | some r => if p = 0 then 1 else classWeight r.cls
    | none => 1) p)

/-- The round of partition turns in progress at a slice, or where it has ended the next one (R16). -/
def turnRound (h : Hub) (round : List Nat) (rs : List Req) : List Nat :=
  match round with
  | [] => roundOf h rs
  | l => l

/-- Whom a turn of partition `own` presents: its oldest waiting request, or where it has none the oldest of the highest class (R16). -/
def turnPick (own : Nat) (rs : List Req) : Option Req :=
  match rs.find? (fun r => r.pid == own) with
  | some r => some r
  | none => rs.find? (fun r => classWeight r.cls == maxOf (rs.map (fun r => classWeight r.cls)))

/-- The order in which the arbiter takes waiting requests (R16, R371): in each turn its owner's oldest, or the oldest request of the highest weight
where the owner has none; the round in progress goes on first. -/
def turnOrder (h : Hub) : Nat → List Nat → List Req → List Req
  | 0, _, rs => rs
  | n + 1, round, rs =>
    match turnRound h round rs with
    | [] => rs
    | own :: rest =>
      match turnPick own rs with
      | none => rs
      | some r => r :: turnOrder h n rest (delFirst (fun x => x == r) rs)

/-- Waiting requests are presented again one after the other, each taken out of those that wait first. -/
def presentWaiting (rs : List Req) (h : Hub) : Hub :=
  settle (forEach rs (fun r h => again r { h with waiting := delFirst (fun w => w.req == r) h.waiting }) h)

/-- The slice presents its waiting requests again, in the arbiter's turns (R16, R19, R129, R131). Those undone by the stream rule wait for their stream, and so do those behind
them; those at the Seam for their die. -/
def retrySlice (sl : Nat) (h : Hub) : Hub :=
  let mine := (h.waiting.filter (fun w => w.slice == sl && w.why != .undone && w.why != .seam)).map Waiting.req
  presentWaiting (turnOrder h mine.length (bget h.rounds sl []) mine) h

/-- A stream's requests that were undone, and those behind them, are presented again in a cluster, once its miss there has
completed (R45, R48). -/
def retryStream (l stream cl : Nat) (h : Hub) : Hub :=
  let own := fun (w : Waiting) => w.req.src == .link && w.req.link == l && w.req.stream == stream && w.req.cl == cl && w.why != .seam
  if h.txns.any (fun t => t.cnt && t.req.src == .link && t.req.link == l && t.req.stream == stream && clusterOf t.slice == cl) then h
  else presentWaiting ((h.waiting.filter own).map Waiting.req) h

end Sys2Proof.Machine
end

