-- ==== Sys2Proof/Machine/Land.lean ====
section
/-! DEFINITION. What the memories give back: data that lands for a transaction or a prefetch (R37, R43, R48, R89, R150, R222, R223),
and writes that reach memory (R37, R59, R161, R438). -/

namespace Sys2Proof.Machine

/-- What the devices did to the stored bits of a line since it was last read (log entry 14). -/
def disturb (e : REntry) (a : Nat) (x : Disturb) (h : Hub) : Hub :=
  let off := e.off (a / 128 * 128)
  if e.typ.isMain then
    forEach x.words (fun p h =>
      if p.1 < 16 then xorMainErr false (off / 8 + p.1) p.2.toNat h else h) h
  else
    let h := forEach x.beats (fun p (h : Hub) =>
      if p.1 < 16 then { h with mem := { h.mem with beatErr := bset h.mem.beatErr (off / 8 + p.1) (BitVec.ofNat 128 (beatErrOf h off p.1) ^^^ p.2) } }
      else h) h
    if x.crc = 0#32 then h
    else { h with mem := { h.mem with crcErr := bset h.mem.crcErr (off / 128) (bget h.mem.crcErr (off / 128) 0#32 ^^^ x.crc) } }

/-- The source address of a SHADOW entry's line (R215). -/
def shadowSrc (e : REntry) (a : Nat) : Nat := e.src * unit2M + (a / 128 * 128 - e.base * unit2M)

/-- A SHADOW line (R217, R222, R223): served from the array, or from its source where the array is out of service or the line is
uncorrectable. `fromSrc` says that the source was needed. -/
def readShadow (e : REntry) (a pid : Nat) (h : Hub) : Bool × Got :=
  let src := shadowSrc e a
  if !h.life.arrayUp || h.shadows.any (fun s => s.1 == 0 && s.2.2 == e) then (true, homeLine src pid h)
  else
    let off := e.off (a / 128 * 128)
    let loc := locRow (homeRg a) (laneRow off)
    let r := readArrayLine off a pid loc h
    match r.out with
    | .poison => (false, ⟨r.h, true, r.data⟩)
    | .bad =>
      let h := arrayUe a pid r.inj r.h
      let h := if chipKill h then h else corrNote (homeDie a) loc 15 h
      let g := homeLine src 0 h
      if g.err then (true, ⟨poisonLine off a g.h, true, g.data⟩) else (true, ⟨writeArrayLine off a pid g.data g.h, false, g.data⟩)
    | _ => (false, ⟨r.h, false, r.data⟩)

/-- Whether buffered bytes older than a read cover every byte of a range. -/
def bufferCovers (h : Hub) (line before o n : Nat) : Bool :=
  let ms := (wbLines h line before).map WbLine.mask
  (List.range n).all (fun i => ms.any (fun m => m.getD (o + i) false))

/-- Data of a line that lands without a place in the cache: only the bytes the request needs decide DATA_ERROR (R223). -/
def landLoose (t : Txn) (e : REntry) (h : Hub) : Got :=
  let r := t.req
  let a := r.addr
  let g : Got := match e.typ with
    | .near => readNear e a r.who h
    | .shadow => (readShadow e a r.who h).2
    | _ => let k := readMain e a r.size r.who h; ⟨k.h, k.err, splice zeroLine (a % 128) k.data⟩
  let o := overlay g.h r.line t.seq false g.data
  ⟨g.h, (g.err && !(bufferCovers g.h r.line t.seq (a % 128) r.size)) || o.1, withPieces t o.2⟩

/-- A line that lands in its place in the cache (R37): CLEAN, or POISONED where any of its words cannot be used. -/
def landSlot (t : Txn) (e : REntry) (set way : Nat) (h : Hub) : Got :=
  let r := t.req
  let a := r.line * 128
  let sl := t.slice
  if !memReadable h e a then ⟨setSlotLine sl set way (lineIx a) .invalid h, true, zeroLine⟩
  else
    let g := readMain e a 128 r.who h
    let o := overlay g.h r.line t.seq g.err g.data
    if o.1 then ⟨setSlotLine sl set way (lineIx a) .poisoned g.h, true, o.2⟩
    else
      let h := writeArrayLine (slotOffset sl set way (lineIx a)) a r.who o.2 g.h
      ⟨setSlotLine sl set way (lineIx a) .clean h, false, o.2⟩

/-- The missing half of a castout line lands (R62). -/
def landHalf (t : Txn) (e : REntry) (h : Hub) : Hub :=
  match t.slot, t.cancelled with
  | some (set, way), false =>
    let o := if t.req.addr % 128 < 64 then t.req.line * 128 + 64 else t.req.line * 128
    if memBars h e o then finish t (respond t { op := 0xB3 } (setSlotLine t.slice set way (lineIx o) .invalid h))
    else
    let g := readMain e o 64 t.req.who h
    let w := overlay g.h t.req.line t.seq false (splice zeroLine (o % 128) g.data)
    if g.err || w.1 then
      let h := setSlotLine t.slice set way (lineIx o) .poisoned g.h
      finish t (respond t { op := 0xB3 } h)
    else landCast t (withPieces t w.2) g.h
  | _, _ => finish t (respond t { op := 0xB3 } h)

/-- A SHADOW line that must come from its source is fetched first from a host that owns that, by a PID 0 coherent read (R216, R222). -/
def shadowOwned (e : REntry) (a pid : Nat) (h : Hub) : Option Hub :=
  let src := shadowSrc e a
  if e.typ == .shadow && (readShadow e a pid h).1 && (holders h src 128 9).any SEnt.owns then
    if h.txns.any (fun u => u.req.src == .hub0 && u.req.op == 0x13 && u.req.line == src / 128) then some h
    else
      let r : Req := { op := 0x13, src := .hub0, addr := src, size := 128, ent := entryOf h src }
      some (settle (openTxn (entryOf h src) r h))
  else none

/-- The start of a warm reset: the die's reservations are lost and its Movers stop at the end of their chunks. -/
def startWarm (die cause : Nat) (h : Hub) : Hub :=
  if (bfind h.life.warm die).isSome then h
  else
    let h := { h with life := { h.life with warm := bset h.life.warm die cause } }
    let h := loseMons (fun m => m.die == die) 7 h
    { h with movs := h.movs.map (fun r => if (part h r.pid).movDie == die then { r with stop := true } else r) }

/-- A repeat parity failure in a header byte on a die (R225): both failures are counted, a record, an interrupt and a warm reset of the die. -/
def headerFails (die : Nat) (h : Hub) : Hub :=
  let h := regSetField h die 0x41E8 31 16 (satAdd (regField h die 0x41E8 31 16) 2 16)
  let v := (Config.freePath h.free).toNat + 2 ^ 12
  startWarm die 3 (raiseEvt die (record 0x39 3 6 die 0 v { h with free := h.free + 1 }))

/-- A mirrored line that one channel has taken stays in the buffer for the channel that is not trained (R208, R217). -/
def keepHalf (w : WbLine) (h : Hub) : Hub :=
  let rg := homeRg (w.line * 128)
  if w.tgt != 0 || !w.mirror || (chanTrained h (2 * rg) && chanTrained h (2 * rg + 1)) then h
  else
    { h with wbs := h.wbs.filter (fun x => decide (x.id < w.id))
        ++ { w with half := some (chanTrained h (2 * rg)), txn := 0 } :: h.wbs.filter (fun x => decide (w.id < x.id)) }

/-- The write of a DEV ATOMIC at its channel (R121, R208). -/
def writeAtomic (r : Req) (e : REntry) (d : List Byte) (m : List Bool) (h : Hub) : Hub :=
  keepHalf { id := h.nextId, cluster := homeCluster r.addr, line := r.line, tgt := 0, off := e.off (r.line * 128), mirror := e.mirror, ecc := e.ecc,
             data := d, mask := m, poison := false, pid := r.who, dev := true }
    (writeMain e (r.line * 128) r.who d m { h with nextId := h.nextId + 1 })

/-- Data lands for a transaction that waits for it (R150). -/
def landFill (t : Txn) (x : Disturb) (h : Hub) : Hub :=
  let r := t.req
  let e := r.ent
  match shadowOwned e r.addr r.who h with
  | some h => h
  | none =>
    let h := pathNote r.addr x.path.toNat (disturb e r.addr x h)
    let h := updTxn t.id (fun u => { u with since := 0 }) h
    if r.op = 0x31 ∨ r.op = 0x32 then settle (landHalf t e h)
    else if r.op = 0x25 then
      if e.typ == .dev then
        let g := readMain e r.addr r.size r.who h
        if g.err then settle (failAtomic t g.h)
        else
          let o := atomicLine r (splice zeroLine (r.addr % 128) g.data)
          let m := splice (List.replicate 128 false) (r.addr % 128) (List.replicate r.size true)
          let h := if atomicWrites r o.1 then writeAtomic r e o.2 m g.h else g.h
          settle (finishAtomic t o.1 h)
      else
        let t' : Txn := { t with req := { r with addr := r.line * 128, size := 128 } }
        let g := landLoose t' e h
        settle (updTxn t.id (fun u => { u with ph := .ready, err := g.err, pieces := [(r.line * 128, g.data)] }) g.h)
    else
      match t.slot with
      | some (set, way) =>
        let g := landSlot t e set way h
        if writesLine r.op then settle (updTxn t.id (fun u => { u with ph := .ready, slot := none }) g.h)
        else
          let p := pathCheck r.addr g.h
          settle (finishRead t (g.err || p.1) (slice (withPieces t g.data) (r.addr % 128) r.size) p.2)
      | none =>
        let g := landLoose t e h
        let p := pathCheck r.addr g.h
        settle (finishRead t (g.err || p.1) (slice g.data (r.addr % 128) r.size) p.2)

/-- The channel or lane at which a transaction waits. -/
def Txn.port (t : Txn) : Nat := if t.req.ent.typ.isMain then homeChannel t.req.addr else 8 + homeRg t.req.addr

/-- The class at which a transaction is served by its channel or lane (R181). -/
def Txn.memClass (t : Txn) : Nat := if t.promoted then 2 else t.req.cls

/-- Whether a channel or lane serves another transaction first: one that waits there longer at no lower a class (R181). -/
def memAhead (t : Txn) (h : Hub) : Bool :=
  t.since != 0 && h.txns.any (fun u => (u.ph == .fill || (u.ph == .perform && memReadable h u.req.ent u.req.addr)) && u.since != 0
    && u.port == t.port && u.req.line != t.req.line
    && ((decide (u.since < t.since) && decide (u.memClass ≤ t.memClass)) || (u.since == t.since && decide (u.memClass < t.memClass))))

/-- FILL_DATA_LANDS: a fill lands in the order in which its channel or lane serves (R181); one whose message cannot be delivered does not (R225). -/
def effFillDataLands (id : Nat) (x : Disturb) (h : Hub) : Hub :=
  match txnOf h id with
  | some t =>
    if t.ph != .fill || memAhead t h then h else if x.path = 3#2 then headerFails (homeDie t.req.addr) h else landFill t x h
  | none => h

/-- Data lands for a prefetch (R88 to R90): an entry of the Ladle, or nothing where it was killed or is in error. The first demand that attached
takes the entry, whose line moves into the cache; the others are served from the data that landed. -/
def effPrefetchLands (cluster line : Nat) (x : Disturb) (h : Hub) : Hub :=
  match h.ladle.find? (fun e => e.inFlight && e.cluster == cluster && e.line == line) with
  | none => h
  | some le =>
    let a := line * 128
    let e := entryOf h a
    if x.path = 3#2 then headerFails (homeDie a) h else
    let h := pathNote a x.path.toNat (disturb e a x h)
    let rest := h.ladle.filter (fun y => y.seq != le.seq)
    if le.killed then settle { h with ladle := rest }
    else
      let p := pathCheck a h
      let g := readMain e a 128 (whoOf le.pid le.cls) p.2
      let att := g.h.txns.filter (fun t => t.req.line == line && t.ph == .serve && t.counted && demandRead t.req.op)
      if g.err || p.1 then settle (forEach att (fun t h => finishRead t true [] h) { g.h with ladle := rest })
      else
        let le' : LadleE := { le with inFlight := false, data := g.data, frame := h.fs.frame }
        let h := setPart { g.h with ladle := rest ++ [le'] } le.pid (fun p => { p with landed := p.landed + 1 })
        settle (forEach (att.drop 1) (fun t h => updTxn t.id (fun x => { x with pieces := (a, g.data) :: x.pieces }) h) h)

/-! ### Writes that reach memory -/

/-- An echo line is written with its entries merged (R92); one that is uncorrectable stays so. -/
def writeEcho (w : WbLine) (h : Hub) : Hub :=
  let a := sliceAddr (w.line % 32)
  let r := readArrayLine w.off a 0 (locRow (homeRg a) (laneRow w.off)) h
  match r.out with
  | .clean => writeArrayLine w.off a 0 (mergeBytes r.data w.data w.mask) r.h
  | .corrected => writeArrayLine w.off a 0 (mergeBytes r.data w.data w.mask) r.h
  | _ => { r.h with mem := { r.h.mem with array := memWriteN r.h.mem.array w.off (mergeBytes (memReadN r.h.mem.array w.off 128) w.data w.mask) } }

/-- A buffered line is written to its target. -/
def writeTarget (w : WbLine) (h : Hub) : Hub :=
  let e := w.entry
  let a := w.line * 128
  let n := (w.mask.filter id).length
  if w.tgt = 0 then
    let chs := if w.mirror then [2 * homeRg a, 2 * homeRg a + 1].filter (chanTrained h) else [homeChannel a]
    let h := forEach chs (fun c h => pmu 0x19 (homeDie a) (if w.poison then 128 else n) { pid := some (whoPid w.pid), cls := whoCls w.pid, addr := some a, qual := some c } h) h
    if w.poison then poisonMain e a w.pid w.data w.mask h else writeMain e a w.pid w.data w.mask h
  else if w.tgt = 2 then writeEcho w h
  else if w.poison then poisonLine w.off a h
  else writeNear e a w.pid w.data w.mask h

/-- A FLUSHING line whose array line was found bad is written again from memory when its write completes (R222); it counts as one correction in the
CRC line population. -/
def flushRepair (a : Nat) (h : Hub) : Hub :=
  if !(h.integ.flushBad.contains (a / 128)) then h
  else
    let h := { h with integ := { h.integ with flushBad := h.integ.flushBad.filter (· != a / 128) } }
    match findSector h a with
    | none => h
    | some s =>
      match s.lines.getD (lineIx a) .invalid with
      | .flushing false false =>
        let g := readMain (entryOf h a) (a / 128 * 128) 128 0 h
        if g.err then setLineSt a .poisoned g.h
        else
          let h := writeArrayLine (lineOffset s a) a 0 g.data g.h
          if chipKill h then h else corrNote (homeDie a) (locSlot s.slice s.set s.way) 15 h
      | _ => h

/-- The line's transition when its last buffered write completes (R37). -/
def flushDone (a : Nat) (h : Hub) : Hub :=
  if h.wbs.any (fun w => w.line == a / 128 && w.other.isNone) then h
  else
    let h := flushRepair a h
    match lineSt h a with
    | .flushing z i => setLineSt a (if i then .invalid else if z then .zero else .clean) h
    | _ => h

/-- Whether a buffered write may reach memory now: no older write or read of the line is before it in its channel's order (R43, R59),
and the channel or lane is there. -/
def canWriteNow (w : WbLine) (h : Hub) : Bool :=
  !(h.wbs.any (fun x => x.line == w.line && decide (x.id < w.id) && !(x.rests h)))
    && !(h.txns.any (fun t => t.ph == .fill && t.req.line == w.line && decide (t.seq ≤ w.id)))
    && (if w.other.isSome then !(w.rests h) else if w.tgt = 0 then memReadable h w.entry (w.line * 128) else h.life.arrayUp)

/-- The other channel has taken a mirrored line: its copy is as written. -/
def takeOther (w : WbLine) (h : Hub) : Hub :=
  match w.other with
  | none => h
  | some p =>
    let a := w.line * 128
    let h := pmu 0x19 (homeDie a) (if w.poison then 128 else (w.mask.filter id).length)
      { pid := some (whoPid w.pid), cls := whoCls w.pid, addr := some a, qual := some (2 * homeRg a + b2n p) } h
    goodCopy p w h

/-- A DEV write at its channel: one that covers only a part of a poisoned or uncorrectable word writes nothing and fails (R156, R224); answers
whether it failed. -/
def writeDev (w : WbLine) (h : Hub) : Bool × Hub :=
  let p := if w.poison then (false, h) else partialBad w.entry (w.line * 128) w.pid w.mask { h with wbs := [] }
  if p.1 then (true, { p.2 with wbs := h.wbs }) else (false, writeTarget w h)

/-- A corrected write-back reaches its channel or lane (R232): the word or line is good again, unless a write ordered after the read that found the
error is still on its way there; the correction table notes the lap (R233). -/
def backDone (b : WBack) (h : Hub) : Hub :=
  let die := homeDie (b.line * 128)
  let there := if b.kind = 2 then h.life.arrayUp else chanTrained h (b.loc % 2 ^ 40 / 2 ^ 24)
  if !there then h
  else
    let h := { h with integ := { h.integ with
      backs := h.integ.backs.filter (fun x => x.id != b.id),
      corr := bset h.integ.corr die ((bget h.integ.corr die []).map (fun e => if e.loc == b.loc then { e with lap := lapOf h b.loc } else e)) } }
    let later := h.wbs.any (fun w => w.line == b.line && decide (b.id < w.id)
      && (if b.kind = 2 then w.tgt != 0 else w.tgt == 0 && (slice w.mask (8 * (b.key % 16)) 8).any id))
    if later then h
    else if b.kind = 2 then
      clearLineErr (b.key * 128) (pmu 0x1B die 128 { pid := some 0, addr := some (b.line * 128), qual := some (homeRg (b.line * 128)) } h)
    else setMainErr (b.kind == 1) b.key 0 (pmu 0x19 die 8 { pid := some 0, addr := some (b.line * 128), qual := some (b.loc % 2 ^ 40 / 2 ^ 24) } h)

/-- MEMORY_WRITE_COMPLETE (R438): the bytes are in memory, the line's FLUSHING ends, a DEV write is performed (R161). -/
def effMemoryWriteComplete (id : Nat) (h : Hub) : Hub :=
  match h.wbs.find? (fun w => w.id == id) with
  | none => (match h.integ.backs.find? (fun b => b.id == id) with | some b => backDone b h | none => h)
  | some w =>
    if !(canWriteNow w h) || (match txnOf h w.txn with | some t => t.ph == .perform && memAhead t h | none => false) then h
    else
      let h := { h with wbs := h.wbs.filter (fun x => x.id != id) }
      if w.other.isSome then settle (takeOther w h) else
      let (bad, h) := if w.dev then writeDev w h else (false, writeTarget w h)
      let h := flushDone (w.line * 128) (if bad then h else keepHalf w h)
      let h := { h with walks := h.walks.map (fun k =>
        if k.waits.contains id then { k with waits := k.waits.filter (· != id), lastAt := h.now } else k) }
      let h := match txnOf h w.txn with
        | some t => if t.ph == .perform then finishComp t bad h else h
        | none => h
      settle h

/-- CLASS_B_PROMOTE (R181): a class B request that has waited 4,096 cycles at its channel or lane is served as class G from then on. -/
def effClassBPromote (id : Nat) (h : Hub) : Hub :=
  updTxn id (fun t =>
    if t.req.cls == 3 && (t.ph == .fill || t.ph == .perform) && t.since != 0 && decide (t.since + 4096 ≤ h.now + 1) then { t with promoted := true } else t) h

/-- TRACKER_FREED_RETRY: the waiting requests of a slice are presented again (R19). -/
def effTrackerFreedRetry (sl : Nat) (h : Hub) : Hub := retrySlice sl h

/-- STREAM_MISS_RETRY: the requests of a stream that R45 turned away are presented again in a cluster. -/
def effStreamMissRetry (l stream cl : Nat) (h : Hub) : Hub := retryStream l stream cl h

/-- TONGS_HOLD_END (R123): a hold ends when its cycles have passed and every ATOMIC ordered within it has run, this line's among them. -/
def effTongsHoldEnd (_line : Nat) (h : Hub) : Hub := settle h

/-- SNOOP_TIMEOUT (R119): record, interrupt and count, once the snoop has been unanswered for its timeout. -/
def effSnoopTimeout (l snpid : Nat) (h : Hub) : Hub :=
  match h.snps.find? (fun s => s.link == l && s.id == snpid && s.awaited && !s.timedOut && s.sent != 0 && decide (s.sent + snpTimeout h ≤ h.now + 1)) with
  | none => h
  | some s =>
    let die := homeDie s.addr
    let h := updSnp s (fun x => { x with timedOut := true }) h
    let h := regSetField h die 0x4078 7 0 (satAdd (regField h die 0x4078 7 0) 1 8)
    raiseEvt die (record 0x10 3 1 die 0 (s.link + 8 * (s.addr / 64)) h)

/-- LADLE_EXPIRY (R88): an entry is dropped at the second tick after its data landed. -/
def effLadleExpiry (cluster line : Nat) (h : Hub) : Hub :=
  match h.ladle.find? (fun e => e.cluster == cluster && e.line == line && !e.inFlight && decide (2 ≤ (h.fs.frame + 2 ^ 32 - e.frame) % 2 ^ 32)) with
  | none => h
  | some e => { countDrop e 25 h with ladle := h.ladle.filter (fun x => x.seq != e.seq) }

/-- RESV_EXPIRY (R170): a reservation 12,500 cycles old is lost. -/
def effResvExpiry (die id : Nat) (h : Hub) : Hub :=
  match h.mons.find? (fun m => m.id == id && m.die == die && decide (m.at_ + 12500 ≤ h.now)) with
  | none => h
  | some m => loseMon m 7 h

/-- RESV_CLEAR (R170): the stream's reservation, or with ALL every one of its link's, is lost. -/
def clearResv (l stream : Nat) (all : Bool) (h : Hub) : Hub :=
  loseMons (fun m => m.link == l && (all || m.stream == stream)) 23 h

end Sys2Proof.Machine
end

