-- ==== Sys2Proof/Machine/Walker.lean ====
section
/-! DEFINITION. The tag walker (R67 to R71): range operations, drains and way cleans (R73, R80, R83), locks (R75 to R77), the walks of
PART_FREEZE and PART_SAVE (R303, R304), and the rebuild of a set whose tags fail their parity (R93, R94). -/

namespace Sys2Proof.Machine

/-! ### What a walk has to process -/

/-- 32 KiB blocks that meet a walk's range: each holds one sector of every slice (R9). -/
def Walk.blocks (w : Walk) : Nat := (w.base + w.len + 32767) / 32768 - w.base / 32768

/-- Sets or blocks of a walk on each slice (R69). -/
def Walk.total (w : Walk) (h : Hub) : Nat := if w.setMode then setsInUse h else w.blocks

/-- The sector of a slice in block number `k` of a walk's range. -/
def Walk.sectorIn (w : Walk) (sl k : Nat) : Option Nat :=
  let b := (w.base / 32768 + k) * 32768
  ((List.range 32).map (fun i => b + 1024 * i)).find? (fun a => homeSlice a == sl && overlaps a 1024 w.base w.len)

/-- Whether a walk has processed everything. -/
def Walk.ended (w : Walk) (h : Hub) : Bool :=
  (List.range 32).all (fun sl => decide (w.total h ≤ bget w.next sl 0) && (bget w.again sl []).isEmpty)

/-- The walk that runs: the first that has not ended (R67). -/
def runningWalk (h : Hub) : Option Walk := h.walks.find? (fun w => !w.ended h)

/-- The hub with a walk changed. -/
def updWalk (job kind : Nat) (f : Walk → Walk) (h : Hub) : Hub :=
  { h with walks := updFirst (fun w => w.job == job && w.kind == kind) f h.walks }

/-- A new walk takes its place behind those accepted before it. -/
def pushWalk (w : Walk) (h : Hub) : Hub := { h with walks := h.walks ++ [{ w with lastAt := h.now }] }

/-- Probe mode or set mode for a range of L bytes (R69). -/
def probes (h : Hub) (len : Nat) : Bool := decide (len * 16 ≤ setsInUse h * 32 * 16 * 1024)

/-! ### Lines -/

/-- Whether a walk acts on a line of a way slot: its range and types (R72), its ways (R83), or its partition's lines (R303). -/
def Walk.takes (w : Walk) (h : Hub) (s : Sector) (ix : Nat) : Bool :=
  let a := s.addr + 128 * ix
  let st := s.lines.getD ix .invalid
  match w.kind with
  | 1 => decide (w.base ≤ a) && decide (a < w.base + w.len)
      && (match rmapFind h a with | some (_, e) => e.typ.cached && e.here h | none => false)
  | 2 => true
  | 3 => w.mask.toNat.testBit s.way
  | 6 => w.op == 0 && s.pid == w.pid && (st == .dirty || (st == .zero && isNwb h a))
  | _ => false

/-- Ids of a hub line's lines in the buffer. -/
def wbIds (h : Hub) (line : Nat) : List Nat := (h.wbs.filter (fun x => x.line == line && x.other.isNone)).map WbLine.id

/-- A locked line removed by a range invalidate is counted (R77). -/
def countLocked (s : Sector) (ix : Nat) (h : Hub) : Hub :=
  if isLocked h s.slice s.set s.way then
    let die := dieOfSlice s.slice
    let h := regSetField h die 0x4018 31 16 (satAdd (regField h die 0x4018 31 16) 1 16)
    pmu 0x24 die 1 { pid := some s.pid, addr := some (s.addr + 128 * ix) } h
  else h

/-- One line of a way slot under a walk (Table: Range operation by line state). -/
def walkLine (w : Walk) (sl set way ix : Nat) (p : Walk × Hub) : Walk × Hub :=
  let s := sector p.2 sl set way
  let a := s.addr + 128 * ix
  let st := s.lines.getD ix .invalid
  if !(w.takes p.2 s ix) then p
  else
    let inval := w.op != 0
    let wait := fun (k : Walk) (h : Hub) => if w.op = 1 then k else { k with waits := k.waits ++ (wbIds h (a / 128)).filter (fun i => !k.waits.contains i) }
    let drop := fun (h : Hub) => setSlotLine sl set way ix .invalid (if w.kind = 1 then countLocked s ix h else h)
    match st with
    | .invalid => p
    | .filling => p
    | .clean => if inval then (p.1, drop p.2) else p
    | .dirty =>
      let m := moveOut s ix .dirty p.2
      let k := wait { p.1 with count := p.1.count + 1, bad := p.1.bad + b2n m.1 } m.2
      if m.1 then (k, if inval then drop m.2 else setSlotLine sl set way ix .poisoned m.2)
      else (k, setSlotLine sl set way ix (.flushing false inval) (if inval && w.kind == 1 then countLocked s ix m.2 else m.2))
    | .zero =>
      if isNwb p.2 a then
        let m := moveOut s ix .zero p.2
        (wait { p.1 with count := p.1.count + 1 } m.2, if inval then drop m.2 else m.2)
      else if inval then (p.1, drop p.2) else p
    | .flushing z i =>
      (wait p.1 p.2, if inval then setSlotLine sl set way ix (.flushing z true) (if w.kind = 1 ∧ !i then countLocked s ix p.2 else p.2) else p.2)
    | .poisoned =>
      if !inval then p
      else if isNwb p.2 a then
        let m := moveOut s ix .poisoned p.2
        (wait p.1 m.2, drop m.2)
      else (p.1, drop p.2)

/-- The lines of one way slot under a walk; none where too few write-buffer lines are free. -/
def walkSlot (w : Walk) (sl set way : Nat) (p : Walk × Hub) : Option (Walk × Hub) :=
  let s := sector p.2 sl set way
  let need := (List.range 8).filter (fun i =>
    let st := s.lines.getD i .invalid
    w.takes p.2 s i && mustMove (isNwb p.2 s.addr) st && (w.op != 0 || st != .poisoned))
  if wbFree p.2 (clusterOf sl) < need.length then none
  else some ((List.range 8).foldl (fun p i => walkLine w sl set way i p) p)

/-- Whether a way slot holds a FILLING line that the walk takes (R70). -/
def slotFilling (w : Walk) (h : Hub) (s : Sector) : Bool :=
  (List.range 8).any (fun i => s.lines.getD i .invalid == .filling && w.takes h s i)

/-! ### Locks (R75, R76) -/

/-- Locked slots of a set. -/
def locksIn (h : Hub) (sl set : Nat) : Nat := (h.cache.locks.filter (fun k => k.1 == sl && k.2.1 == set)).length

/-- CACHE_WALK_CTL.MAX_PER_SET in force on a slice's die. -/
def maxPerSet (h : Hub) (sl : Nat) : Nat :=
  let n := regField h (dieOfSlice sl) 0x4010 11 8
  if n = 0 then 4 else n

/-- Sets a slot's lock bit and its PID. -/
def lockSlot (sl set way pid : Nat) (h : Hub) : Hub :=
  let h := putSector { sector h sl set way with pid := pid } h
  if isLocked h sl set way then h else { h with cache := { h.cache with locks := h.cache.locks ++ [(sl, set, way)] } }

/-- Fills one line of a new locked sector from memory as a PID 0 read (R75). -/
def lockFill (sl set way : Nat) (ix : Nat) (h : Hub) : Hub :=
  let a := (sector h sl set way).addr + 128 * ix
  let e := entryOf h a
  let g := readMain e a 128 0 (hkBytes a 128 h)
  let o := overlay g.h (a / 128) g.h.nextId g.err g.data
  if !(memReadable h e a) then g.h
  else if o.1 then setSlotLine sl set way ix .poisoned g.h
  else setSlotLine sl set way ix .clean (writeArrayLine (slotOffset sl set way ix) a 0 o.2 g.h)

/-- Locks the sector at an address for the walk's partition (R75); none where its eviction waits for write-buffer lines. -/
def lockSector (a : Nat) (p : Walk × Hub) : Option (Walk × Hub) :=
  let w := p.1
  let h := p.2
  let sl := homeSlice a
  let set := setIndex h a
  let full := decide (maxPerSet h sl ≤ locksIn h sl set)
  let got := { w with count := w.count + 1 }
  let no := { w with missed := w.missed + 1 }
  match findSector h a with
  | some s =>
    if !((wayMask h w.pid).testBit s.way) then some (no, h)
    else if isLocked h sl s.set s.way then some (got, lockSlot sl s.set s.way w.pid h)
    else if full then some (no, h)
    else some (got, lockSlot sl s.set s.way w.pid h)
  | none =>
    match chooseVictim h sl set w.pid with
    | none => some (no, h)
    | some (way, h1) =>
      if full && !(isLocked h sl set way) then some (no, h)
      else
        match evictSector sl set way h1 with
        | none => none
        | some h2 =>
          let fresh : Sector := { sector h2 sl set way with addr := a / 1024 * 1024, pid := w.pid, age := 0, lines := List.replicate 8 .invalid }
          let h3 := forEach (List.range 8) (fun i h => lockFill sl set way i h) (putSector fresh h2)
          some (got, lockSlot sl set way w.pid h3)

/-- Clears the lock bits of a set's slots that a walk names (R76). -/
def unlockSet (w : Walk) (sl set : Nat) (h : Hub) : Walk × Hub :=
  let hit := fun (k : Nat × Nat × Nat) =>
    let s := sector h k.1 k.2.1 k.2.2
    k.1 == sl && k.2.1 == set && s.pid == w.pid && (w.op == 2 || (s.valid && overlaps s.addr 1024 w.base w.len))
  ({ w with count := w.count + (h.cache.locks.filter hit).length },
    { h with cache := { h.cache with locks := h.cache.locks.filter (fun k => !hit k) } })

/-- Sectors of a walk's range in one set of a slice. -/
def Walk.sectorsOf (w : Walk) (h : Hub) (sl set : Nat) : List Nat :=
  let n := max 1 (setsInUse h)
  let b0 := w.base / 32768
  let first := (set + n - b0 % n) % n
  ((List.range ((w.blocks + n - 1) / n + 1)).map (fun i => first + i * n)).filterMap (fun k => if k < w.blocks then w.sectorIn sl k else none)

/-- Applies a step that can fail to each element. -/
def eachOpt {α β : Type} (f : α → β → Option β) : List α → β → Option β
  | [], b => some b
  | x :: r, b => match f x b with
    | some b' => eachOpt f r b'
    | none => none

/-! ### A turn (R68, R70) -/

/-- One set of a slice. -/
def walkSet (w : Walk) (sl set : Nat) (h : Hub) : Option (Walk × Hub) :=
  if w.kind = 4 then
    if w.op = 0 then eachOpt lockSector (w.sectorsOf h sl set) (w, h) else some (unlockSet w sl set h)
  else if w.kind = 6 ∧ w.op = 1 then
    let ss := (List.range 16).map (fun i => sector h sl set i)
    let new := (ss.filter (fun s => s.valid && s.pid == w.pid && decide (s.age ≤ 1))).map Sector.addr
    some ({ w with hot := (w.hot ++ new).take 4096 }, h)
  else eachOpt (fun way p => walkSlot w sl set way p) (List.range 16) (w, h)

/-- One sector of a slice in probe mode. -/
def walkProbe (w : Walk) (sl a : Nat) (h : Hub) : Option (Walk × Hub) :=
  if w.kind = 4 ∧ w.op = 0 then lockSector a (w, h)
  else match findSector h a with
    | none => some (w, h)
    | some s => if w.kind = 4 then some (unlockSet w sl s.set h) else walkSlot w sl s.set s.way (w, h)

/-- Whether the set or sector that a turn processed must be processed again. -/
def mustAgain (w : Walk) (sl i : Nat) (h : Hub) : Bool :=
  if w.setMode then (List.range 16).any (fun way => slotFilling w h (sector h sl i way))
  else match w.sectorIn sl i with
    | none => false
    | some a => match findSector h a with
      | none => false
      | some s => slotFilling w h s

/-- Processes item `i` of a slice. -/
def walkItem (w : Walk) (sl i : Nat) (h : Hub) : Option (Walk × Hub) :=
  if w.setMode then walkSet w sl i h
  else match w.sectorIn sl i with
    | none => some (w, h)
    | some a => walkProbe w sl a h

/-- WALKER_TURN (R68): one set or sector of a slice, or nothing where the walk must wait. The turn is a PID 0 slot. -/
def effWalkerTurn (sl : Nat) (h : Hub) : Hub :=
  match runningWalk h with
  | none => h
  | some w =>
    if h.life.phase == .drain || (bfind h.life.warm (dieOfSlice sl)).isSome then h
    else
      let n := bget w.next sl 0
      let slot := fun (h : Hub) => { h with slotUse := bupd h.slotUse sl [] (· ++ [(0, false)]) }
      let put := fun (w' : Walk) (h : Hub) => updWalk w.job w.kind (fun _ => { w' with lastAt := h.now }) (slot h)
      if n < w.total h then
        let skip := !w.setMode && (w.sectorIn sl n).isNone
        match walkItem w sl n h with
        | none => h
        | some (w', h') =>
          let ag := if mustAgain w sl n h then bupd w'.again sl [] (· ++ [n]) else w'.again
          settle (put { w' with next := bset w'.next sl (n + 1), again := ag, done := w'.done + (if skip then 0 else 1) } h')
      else match bget w.again sl [] with
        | [] => h
        | i :: r =>
          if mustAgain w sl i h then h
          else match walkItem w sl i h with
            | none => h
            | some (w', h') => settle (put { w' with again := bset w'.again sl r } h')

/-! ### Set rebuild (R93, R94) -/

/-- PID of the tracker or the buffered write that owns a line in transit. -/
def ownerPid (h : Hub) (line : Nat) : Option Nat :=
  match h.txns.find? (fun t => t.slot.isSome && t.req.line == line) with
  | some t => some t.req.pid
  | none => (h.wbs.find? (fun w => w.line == line && whoPid w.pid != 0)).map (fun w => whoPid w.pid)

/-- The lines in transit of a way slot, which a tracker or a write-buffer line of the cluster owns. -/
def ownedLines (s : Sector) : List Nat := (List.range 8).filter (fun i => (s.lines.getD i .invalid).moving)

/-- A way of a set that is rebuilt (Table: Set rebuild); `lost` says that the echo line could not be used. The owner of a line in transit is a
tracker or a buffered write, whose PID the entry takes. -/
def rebuildWay (sl set way : Nat) (lost : Bool) (h : Hub) : Hub :=
  let s := sector h sl set way
  let own := ownedLines s
  let v := if lost || !chipKill h then 0 else echoOf h sl set way
  let lineOf := fun (i : Nat) =>
    if own.contains i then s.lines.getD i .invalid
    else if !echoV v then .invalid
    else if (echoD v).testBit i then .dirty
    else if (echoZ v).testBit i then .zero
    else .invalid
  let lines := (List.range 8).map lineOf
  let known := !own.isEmpty || echoV v || !s.tagPar
  let ownPid := (own.filterMap (fun i => ownerPid h (s.addr / 128 + i))).head?
  let addr := if own.isEmpty && echoV v then echoSector sl set v else s.addr
  let pid := match ownPid with
    | some p => p
    | none => if own.isEmpty && echoV v then echoPid v else if own.isEmpty && s.tagPar then 0 else s.pid
  let s' : Sector := { s with addr := addr, pid := pid, lines := lines, age := if lines.any LineSt.present then 3 else s.age,
                              echo := echoV v, tagPar := false, statePar := false, cast := s.cast.filter (fun c => own.contains (c % 8)) }
  let gone := (List.range 8).filter (fun i => (s.lines.getD i .invalid).present && !(lines.getD i .invalid).present)
  let h := forEach gone (fun i h => castGone s i h) h
  let h := if (h.cache.sectors.any (fun x => x.slice == sl && x.set == set && x.way == way)) then putSector s' h else h
  if isLocked h sl set way && !known then
    let die := dieOfSlice sl
    let h := { h with cache := { h.cache with locks := h.cache.locks.filter (· != (sl, set, way)) } }
    let h := regSetField h die 0x4018 15 8 (satAdd (regField h die 0x4018 15 8) 1 8)
    record 0x03 2 0 die 0 (sl + 32 * set + 2 ^ 17 * way) h
  else h

/-- What R94 does where a set's echo line is uncorrectable: its entries are lost, and the loss is reported. -/
def echoLost (sl set : Nat) (h : Hub) : Hub :=
  let die := dieOfSlice sl
  let h := { h with wbs := h.wbs.filter (fun w => w.line != echoKey sl set),
                    cache := { h.cache with echoDue := h.cache.echoDue.filter (fun w => w.line != echoKey sl set) } }
  let h := writeArrayLine (echoOffset h sl set) (sliceAddr sl) 0 zeroLine h
  let h := regSetField h die 0x4020 15 8 (satAdd (regField h die 0x4020 15 8) 1 8)
  raiseEvt die (record 0x02 3 0 die 0 (sl + 32 * set) h)

/-- TAG_SET_REBUILD: a set whose tag or state parity fails is rebuilt from its echo line, read through the write buffer, and the requests it held
are looked up again (R93, R94). -/
def effTagSetRebuild (sl set : Nat) (h : Hub) : Hub :=
  if !(h.cache.sectors.any (fun s => s.slice == sl && s.set == set && (s.tagPar || s.statePar))) then h
  else
    let die := dieOfSlice sl
    let r := readArrayLine (echoOffset h sl set) (sliceAddr sl) 0 (locRow (sl / 8) (laneRow (echoOffset h sl set))) h
    let lost := chipKill h && (r.out == .bad || r.out == .poison)
    let h := if chipKill h then r.h else h
    let h := forEach (List.range 16) (fun w h => rebuildWay sl set w lost h) h
    let h := regSetField h die 0x4020 31 16 (satAdd (regField h die 0x4020 31 16) 1 16)
    let h := record 0x01 2 0 die 0 (sl + 32 * set) h
    retrySlice sl (if lost then echoLost sl set h else h)

end Sys2Proof.Machine
end

