-- ==== Sys2Proof/Machine/Rings.lean ====
section
/-! DEFINITION. Command and completion rings (R258 to R268), doorbells (R260 to R262), the command catalogue's checks (R269 to R277), and
the Colander's drain (R355). -/

namespace Sys2Proof.Machine

/-! ### The hub's own ring writes (R258) -/

/-- A PID 0 coherent write of the hub to a ring, charged to housekeeping; nothing where the address is not mapped here. -/
def hubWrite (a : Nat) (d : List Byte) (job : Nat) (h : Hub) : Hub :=
  match rmapFind h a with
  | none => h
  | some (_, e) =>
    if !(e.here h) then h
    else present { op := 0x22, src := .hub0, addr := a, size := d.length, data := d, mask := List.replicate d.length true, at_ := h.now, job := job }
      (hkBytes a 128 h)

/-! ### Managers -/

/-- A manager's rings. -/
def mgr (h : Hub) (m : Nat) : Mgr := bget h.mgrs m {}

/-- The hub with a manager's rings changed. -/
def setMgr (h : Hub) (m : Nat) (f : Mgr → Mgr) : Hub := { h with mgrs := bupd h.mgrs m {} f }

/-- Entries of a ring from a LOG field: values outside 4 to 12 act as 4. -/
def ringSize (log : Nat) : Nat := if 4 ≤ log ∧ log ≤ 12 then 2 ^ log else 16

/-- Completion ring entries. -/
def cplSize (h : Hub) (m : Nat) : Nat := ringSize (regField h 0 (0x4414 + 0x20 * m) 11 8)

/-- Command ring entries. -/
def cmdSize (h : Hub) (m : Nat) : Nat := ringSize (regField h 0 (0x4414 + 0x20 * m) 3 0)

/-- Completion ring base. -/
def cplBase (h : Hub) (m : Nat) : Nat :=
  regField h 0 (0x440C + 0x20 * m) 31 4 * 16 + regField h 0 (0x4410 + 0x20 * m) 15 0 * 2 ^ 32

/-- Distance of two free-running 16-bit indices. -/
def ringDist (tail head : Nat) : Nat := (tail + 65536 - head) % 65536

/-- Free completion slots. -/
def cplFree (h : Hub) (m : Nat) : Nat := cplSize h m - ringDist (mgr h m).cplTail (mgr h m).cplHead

/-- A completion entry (Table: Completion entry), FRAME and PHASE still 0. -/
def cplEntry (tag status op result info : Nat) (final : Bool) : List Byte :=
  toBytes 16 (tag % 65536 + status % 256 * 2 ^ 16 + op % 256 * 2 ^ 24 + result % 2 ^ 48 * 2 ^ 64 + info % 256 * 2 ^ 112 + b2n final * 2 ^ 120)

/-- Writes an entry into the next completion slot, in one write (R266). -/
def writeCpl (m : Nat) (ent : List Byte) (irq : Bool) (h : Hub) : Hub :=
  let r := mgr h m
  let n := cplSize h m
  let ent := splice ent 4 (toBytes 4 h.fs.frame)
  let ent := splice ent 15 [(ent.getD 15 0#8) ||| (if r.phase then 0x80#8 else 0#8)]
  let a := cplBase h m + 16 * (r.cplTail % n)
  let h := setMgr h m (fun r => { r with cplTail := (r.cplTail + 1) % 65536, phase := if r.cplTail % n + 1 = n then !r.phase else r.phase })
  hubWrite a ent (if irq then m + 1 else 0) h

/-- A final completion: written, or held where the ring is full (R261). -/
def postFinal (m tag status op result info : Nat) (irq : Bool) (h : Hub) : Hub :=
  let ent := cplEntry tag status op result info true
  if 0 < cplFree h m ∧ (mgr h m).held = [] then writeCpl m ent irq h
  else setMgr h m (fun r => { r with held := r.held ++ [{ entry := ent, irq := irq }] })

/-- A progress entry: dropped where it finds no free slot (R261, R268). -/
def postProgress (v : Heavy) (units : Nat) (h : Hub) : Hub :=
  if 0 < cplFree h v.mgr then writeCpl v.mgr (cplEntry v.tag 0 v.opcode units 0 false) false h else h

/-- Held completions go out where slots are free. -/
def flushHeld (m : Nat) (h : Hub) : Hub :=
  forEach (mgr h m).held (fun c h =>
    if 0 < cplFree h m then
      writeCpl m c.entry c.irq (setMgr h m (fun r => { r with held := r.held.drop 1 }))
    else h) h

/-- Ends a heavy command with its final completion. -/
def finishHeavy (job status result : Nat) (h : Hub) : Hub :=
  match h.heavy.find? (fun v => v.job == job) with
  | none => h
  | some v => postFinal v.mgr v.tag status v.opcode result 0 v.irq { h with heavy := h.heavy.filter (fun x => x.job != job) }

/-- Heavy commands of a ring that run. -/
def heavyOf (h : Hub) (m : Nat) : Nat := (h.heavy.filter (fun v => v.mgr == m)).length

/-- Whether the hub may take a command of a ring (R259, R261, R263, R268, R402, R406, R408, R415). DEDUCED: none is taken in DRAIN, where no
new miss is started. -/
def canTake (h : Hub) (m : Nat) : Bool :=
  let r := mgr h m
  bitOf (mgrCtl h m) 31 && !r.fetchStop && r.head != r.tail && r.held.isEmpty && decide (0 < cplFree h m)
    && decide (heavyOf h m < 8) && h.life.phase == .run && !h.life.waking && !h.life.handRun

/-! ### Catalogue (R270) -/

/-- What the catalogue says of an opcode: whether manager 0 alone may send it, whether PID is an argument, and the named bits of ARG0 to
ARG4. -/
structure CmdSpec where
  mgr0 : Bool
  pid : Bool
  args : List Nat

/-- Bits [n-1:0]. -/
def low (n : Nat) : Nat := 2 ^ n - 1

/-- Table: Command catalogue, with PART_ commands' arguments as R294, R297, R304 and R306 lay them out. -/
def cmdSpec : Nat → Option CmdSpec
  | 0x00 => some ⟨false, false, []⟩
  | 0x01 => some ⟨false, false, [low 2]⟩
  | 0x02 => some ⟨false, false, []⟩
  | 0x03 => some ⟨false, false, [low 2, low 48, low 49]⟩
  | 0x04 => some ⟨false, false, [low 17]⟩
  | 0x05 => some ⟨false, true, [low 2, low 48, low 49]⟩
  | 0x06 => some ⟨false, false, [low 6, low 52, low 43]⟩
  | 0x07 => some ⟨true, false, [low 2]⟩
  | 0x10 => some ⟨false, true, [low 39, low 49, low 60, low 60]⟩
  | 0x11 => some ⟨false, true, [low 5, low 49, low 60, low 60]⟩
  | 0x12 => some ⟨false, true, []⟩
  | 0x13 => some ⟨false, true, []⟩
  | 0x14 => some ⟨false, true, []⟩
  | 0x15 => some ⟨false, true, []⟩
  | 0x16 => some ⟨false, true, [low 5, low 48, low 32]⟩
  | 0x17 => some ⟨false, true, [low 15, low 48]⟩
  | 0x18 => some ⟨false, true, []⟩
  | 0x20 => some ⟨false, true, [0x1FFFF0F, low 48, low 23]⟩
  | 0x21 => some ⟨false, false, [low 4]⟩
  | 0x28 => some ⟨false, false, [0x107]⟩
  | 0x30 => some ⟨true, false, [low 2, low 64, low 64, low 64]⟩
  | 0x31 => some ⟨false, false, [0, low 64, low 64, low 64]⟩
  | 0x38 => some ⟨true, false, [low 1, low 48, low 24]⟩
  | 0x39 => some ⟨true, false, [low 1]⟩
  | 0x3A => some ⟨false, false, [0x1FF0F, low 48, low 8]⟩
  | 0x3B => some ⟨true, false, [low 5]⟩
  | _ => none

/-- The five argument words. -/
def cmdArgs (c : CmdWord) : List Nat := [c.arg0.toNat, c.arg1.toNat, c.arg2.toNat, c.arg3.toNat, c.arg4.toNat]

/-- Whether a descriptor has a reserved bit set (R265). DEDUCED: a PID in a command that takes none counts as one (log entry 15). -/
def reservedSet (k : CmdSpec) (c : CmdWord) : Bool :=
  c.rsvdA != 0#6 || c.rsvdB != 0#26 || (!k.pid && c.pid != 0#6)
    || (List.range 5).any (fun i => Nat.land ((cmdArgs c).getD i 0) (low 64 - k.args.getD i 0) != 0)

/-- A budget of PART_SET's ARG2 or bound of ARG3. -/
def budArg (w : BitVec 64) (c : Nat) : Nat := bits w.toNat (20 * c + 19) (20 * c)

/-- Whether a command is critical (R270, R271, R277). -/
def isCritical (op m : Nat) (c : CmdWord) (h : Hub) : Bool :=
  if op = 0 then false
  else if op = 0x03 then bits c.arg0.toNat 1 0 == 1 || bits c.arg0.toNat 1 0 == 2
  else if op = 0x11 then
    !(c.arg0.toNat == 2 && (List.range 3).all (fun k => decide (budArg c.arg2 k ≤ (part h c.pid.toNat).bmax.getD k 0)))
  else if op = 0x30 then !(m == 0 && bits c.arg0.toNat 1 0 == 0 && (bfind h.led.keys 0).isNone && !(h.led.bad.contains 0x10))
  else true

/-! ### Authentication (R272 to R274) -/

/-- Descriptor bytes 0 to 55. -/
def cmdBytes (op : Nat) (c : CmdWord) : List Byte :=
  toBytes 8 (op + b2n c.auth * 2 ^ 8 + b2n c.irq * 2 ^ 9 + c.rsvdA.toNat * 2 ^ 10 + c.tag.toNat * 2 ^ 16 + c.pid.toNat * 2 ^ 32
    + c.rsvdB.toNat * 2 ^ 38) ++ toBytes 8 c.counter.toNat ++ (cmdArgs c).flatMap (toBytes 8)

/-- The message that a MAC covers: prefix and descriptor (R272). -/
def macMessage (h : Hub) (m op : Nat) (c : CmdWord) : List Nat :=
  (toBytes 1 m ++ toBytes 1 (b2n h.life.hubId) ++ List.replicate 6 0#8 ++ cmdBytes op c).map BitVec.toNat

/-- Bytes of a key. -/
def keyBytes (k : BitVec 128) : List Nat := (toBytes 16 k.toNat).map BitVec.toNat

/-- Whether a key slot counts as loaded: it holds a key, or both its copies are unreadable (R400). -/
def keyLoaded (h : Hub) (m : Nat) : Bool := (bfind h.led.keys m).isSome || h.led.bad.contains (0x10 + m)

/-- Whether a descriptor's MAC is good. -/
def macGood (h : Hub) (m op : Nat) (c : CmdWord) : Bool :=
  match bfind h.led.keys m with
  | none => false
  | some k => !(h.led.bad.contains (0x10 + m)) && cmac64 (keyBytes k) (macMessage h m op c) == (toBytes 8 c.mac.toNat).map BitVec.toNat

/-- Consumes a counter: the Ledger's floor first where it has moved 4,096 (R274). Answers whether the write was verified. -/
def consumeCounter (m c : Nat) (h : Hub) : Bool × Hub :=
  let h := setMgr h m (fun r => { r with lastCtr := c })
  if bget h.led.floor m 0 + 4096 ≤ c then
    let (ok, h) := ledgerWrite m h
    (ok, if ok then { h with led := { h.led with floor := bset h.led.floor m c } } else h)
  else (true, h)

/-- The status, RESULT and MGR_INFO of a command that has ended. -/
structure Ans where
  status : Nat
  result : Nat := 0
  info : Nat := 0

/-- What a command's own checks and effect give: its end, or none for a heavy command that runs. -/
abbrev CmdBody := Nat → CmdWord → Hub → Hub × Option Ans

/-- A command that ended. -/
def ended (h : Hub) (status : Nat) (result : Nat := 0) (info : Nat := 0) : Hub × Option Ans :=
  (h, some { status := status, result := result, info := info })

/-- The statuses of Table: Completion statuses. -/
def stOk : Nat := 0
def stWrong : Nat := 1
def stBadArg : Nat := 2
def stAuth : Nat := 3
def stReplay : Nat := 4
def stNoRes : Nat := 5
def stCancelled : Nat := 6
def stPartial : Nat := 7
def stDataErr : Nat := 8

/-- Checks 2 to 6 of R273: none where they pass. -/
def authCheck (m op : Nat) (c : CmdWord) (h : Hub) : Hub × Option Ans :=
  let crit := isCritical op m c h
  if !c.auth && !crit then (h, none)
  else if !c.auth then ended h stAuth 0 2
  else if !(keyLoaded h m) then ended h stAuth 0 5
  else if !(macGood h m op c) then ended h stAuth 0 1
  else if c.counter.toNat ≤ (mgr h m).lastCtr then ended h stReplay
  else
    let (ok, h) := consumeCounter m c.counter.toNat h
    if ok then (h, none) else ended h stNoRes

/-- A command's checks in the order of R273, and its own part. -/
def checkCmd (m op : Nat) (c : CmdWord) (body : CmdBody) (h : Hub) : Hub × Option Ans :=
  match cmdSpec op with
  | none => ended h stBadArg
  | some k =>
    match authCheck m op c h with
    | (h, some a) => (h, some a)
    | (h, none) =>
      if k.mgr0 && m != 0 then ended h stAuth 0 3
      else if reservedSet k c then ended h stBadArg
      else body m c h

/-- The hub takes a command of manager m's ring (R267) and completes it where it is light. Nothing happens where R259 to R268 let it take
none. -/
def takeCmd (m op : Nat) (c : CmdWord) (body : CmdBody) (h : Hub) : Hub :=
  if !(canTake h m) then h
  else
    let h := setMgr h m (fun r => { r with head := (r.head + 1) % 65536 })
    match checkCmd m op c body h with
    | (h, some a) => postFinal m c.tag.toNat a.status op a.result a.info c.irq h
    | (h, none) => h

/-- Registers a heavy command; its job number ties what it started to it. -/
def startHeavy (m op : Nat) (c : CmdWord) (h : Hub) : Nat × Hub :=
  (h.nextId, { h with nextId := h.nextId + 1,
                      heavy := h.heavy ++ [{ job := h.nextId, mgr := m, opcode := op, tag := c.tag.toNat, irq := c.irq, pid := c.pid.toNat }] })

/-- Counts of the partition's trackers, Tongs operations and retry-queue entries (R301). -/
def pidOpen (h : Hub) (pid : Nat) : Nat := (h.txns.filter (fun t => t.req.pid == pid && t.req.src == .link && t.ph != .closing)).length

/-- Units of a heavy command's progress entry (Table: Command catalogue). -/
def progressUnits (h : Hub) (v : Heavy) : Nat :=
  if v.opcode = 0x12 then (h.txns.filter (fun t => t.req.pid == v.pid && t.trk)).length
  else match h.walks.find? (fun w => w.job == v.job) with
    | some w => if v.opcode = 0x05 ∨ v.opcode = 0x15 then w.count else if v.opcode = 0x16 then v.units else w.done
    | none => v.units

/-- Progress entries at a tick (R268). -/
def progressAll (h : Hub) : Hub := forEach h.heavy (fun v h => postProgress v (progressUnits h v) h) h

/-! ### Commands of the rings themselves -/

/-- NOP (R270): opcode 0; any opcode that the catalogue does not list completes BAD_ARG. -/
def effNop (m : Nat) (opcode : Nat) (c : CmdWord) (h : Hub) : Hub :=
  let op := if opcode = 0 ∨ (cmdSpec opcode).isNone then opcode else 0
  takeCmd m op c (fun _ _ h => ended h stOk) h

/-- Stores a key (R276): written to the Ledger before the completion. -/
def storeKey (t : Nat) (k : List Nat) (h : Hub) : Hub × Option Ans :=
  let (ok, h) := ledgerWrite (0x10 + t) h
  if ok then ended { h with led := { h.led with keys := bset h.led.keys t (BitVec.ofNat 128 (ofBytes (k.map (BitVec.ofNat 8)))),
                                                bad := h.led.bad.filter (· != 0x10 + t) } } stOk
  else ended h stNoRes

/-- The wrapped key of ARG1 to ARG3, in output order. -/
def wrappedKey (c : CmdWord) : List Nat := ((toBytes 8 c.arg1.toNat ++ toBytes 8 c.arg2.toNat ++ toBytes 8 c.arg3.toNat)).map BitVec.toNat

/-- A wrapped key unwrapped under manager m's key and stored for manager t. -/
def unwrapStore (m t : Nat) (c : CmdWord) (h : Hub) : Hub × Option Ans :=
  match bfind h.led.keys m with
  | none => ended h stAuth 0 5
  | some k => match keyUnwrap (keyBytes k) (wrappedKey c) with
    | none => ended h stAuth 0 4
    | some key => storeKey t key h

/-- KEY_LOAD (R276, R277). -/
def bodyKeyLoad : CmdBody := fun m c h =>
  let t := bits c.arg0.toNat 1 0
  if !c.auth then
    if c.arg3 != 0#64 then ended h stBadArg
    else storeKey 0 ((toBytes 8 c.arg1.toNat ++ toBytes 8 c.arg2.toNat).map BitVec.toNat) h
  else if t = 0 then ended h stBadArg
  else unwrapStore m t c h

def effKeyLoad (m : Nat) (c : CmdWord) (h : Hub) : Hub := takeCmd m 0x30 c bodyKeyLoad h

/-- KEY_ROTATE (R276). -/
def effKeyRotate (m : Nat) (c : CmdWord) (h : Hub) : Hub := takeCmd m 0x31 c (fun m c h => unwrapStore m m c h) h

/-- RING_FETCH_ERR (R263): the ring stops; a command ring counts FETCH_ERR in MGR_m_STAT, a Mover ring in MOV_RING_p_STAT. -/
def effRingFetchErr (mover : Bool) (i : Nat) (h : Hub) : Hub :=
  let h := if mover then setPart (regSetField h 0 (0x540C + 16 * i) 2 2 1) i (fun p => { p with movStop := true })
    else setMgr (regSetField h 0 (0x4418 + 0x20 * (i % 4)) 3 3 1) (i % 4) (fun r => { r with fetchStop := true })
  raiseEvt 0 (record 0x50 2 8 0 (if mover then i else 0) (b2n mover + 2 * i) h)

/-! ### Doorbells (R260 to R262); each answers whether the write was accepted -/

/-- Whether a manager-page doorbell write is accepted (R260). -/
def mgrDoorOk (h : Hub) (m l pid : Nat) : Bool := bitOf (mgrCtl h m) (8 + l) && bits (mgrCtl h m) 5 0 == pid

/-- CMD_DB. -/
def doorCmd (m v : Nat) (h : Hub) : Hub :=
  let r := mgr h m
  if cmdSize h m < ringDist (v % 65536) r.head then regSetField h 0 (0x4418 + 0x20 * m) 2 2 1
  else setMgr h m (fun r => { r with tail := v % 65536 })

/-- CPL_DB: slots return to the hub, and completions held for want of one go out (R261). -/
def doorCpl (m v : Nat) (h : Hub) : Hub :=
  let r := mgr h m
  if ringDist r.cplTail r.cplHead < ringDist (v % 65536) r.cplHead then regSetField h 0 (0x4418 + 0x20 * m) 2 2 1
  else flushHeld m (setMgr h m (fun r => { r with cplHead := v % 65536 }))

/-- Entries of a die's event ring. -/
def evtSize (h : Hub) (die : Nat) : Nat :=
  let g := regField h die 0x4494 19 16
  if 4 ≤ g then 2 ^ g else 256

/-- EVT_DB: the event ring's head on one die. -/
def doorEvt (die v : Nat) (h : Hub) : Hub :=
  let c := col h die
  if ringDist c.tail c.head < ringDist (v % 65536) c.head then regSetField h 0 0x4418 2 2 1
  else { h with col := bset h.col die { c with head := v % 65536 } }

/-- Index of the next descriptor of a partition's Mover ring to start (MOV_RING_p_STAT.HEAD): one past the descriptor that runs. -/
def movNext (h : Hub) (p : Nat) : Nat := ((part h p).movHead + b2n (h.movs.any (fun r => r.pid == p))) % 65536

/-- MOV_DB: a partition's Mover ring tail. -/
def doorMov (p v : Nat) (h : Hub) : Hub :=
  let k := part h p
  if (if k.movLog = 0 then 0 else 2 ^ k.movLog) < ringDist (v % 65536) (movNext h p) then regSetField h 0 (0x540C + 16 * p) 1 1 1
  else setPart h p (fun k => { k with movTail := v % 65536 })

/-! ### The Colander's drain (R355, R262) -/

/-- Whether the event ring of a die is enabled and has a free slot. -/
def evtFree (h : Hub) (die : Nat) : Bool :=
  bitOf (regGet h die 0x4490) 0 && decide (ringDist (col h die).tail (col h die).head < evtSize h die)

/-- Writes the head record of a die's chain to its event ring. -/
def drainOne (die : Nat) (h : Hub) : Hub :=
  let c := col h die
  match c.stages with
  | [] => h
  | r :: rest =>
    let a := regField h die 0x4490 31 4 * 16 + regField h die 0x4494 15 0 * 2 ^ 32 + 16 * (c.tail % evtSize h die)
    let h := { h with col := bset h.col die { c with stages := rest, tail := (c.tail + 1) % 65536, lastDrain := h.now + 1 } }
    hubWrite a (toBytes 16 r.toNat) 0 h

/-- COLANDER_DRAIN (R355): the head record drains where the ring is enabled, has a slot, and 8 cycles have passed. -/
def effColanderDrain (die : Nat) (h : Hub) : Hub :=
  let c := col h die
  if evtFree h die && (c.lastDrain = 0 || decide (c.lastDrain + 8 ≤ h.now + 1)) then drainOne die h else h

/-! ### MGR_m_CTL.ENABLE (R259) -/

/-- What an ENABLE that goes from 0 to 1 sets. -/
def enableMgr (m : Nat) (h : Hub) : Hub :=
  setMgr h m (fun r => { r with head := 0, cplTail := 0, phase := true, fetchStop := false })

end Sys2Proof.Machine
end

