-- ==== Sys2Proof/Machine/Witness.lean ====
section
/-! DEFINITION. The fetch witness (R240 to R257): arming, sealing, the reader tap and evaluation at the tick. -/

namespace Sys2Proof.Machine

/-- Whether a range meets the placement of Table: WITNESS_ARM outcomes. -/
def witPlaced (h : Hub) (a n : Nat) : Bool :=
  match rmapRange h a n with
  | none => false
  | some (_, e) => e.here h &&
    (match e.typ with
      | .near => chipKill h
      | .nwt => e.ecc && e.mirror
      | .nwb => e.ecc && e.mirror
      | .nnc => e.ecc && e.mirror
      | _ => false)

/-- Armed windows of a partition. -/
def witsOf (h : Hub) (pid : Nat) : Nat := (h.wins.filter (fun e => e.2.armed && e.2.pid == pid)).length

/-- Whether any armed window with a FAIL drives WITNESS_FAULT_N (R254, R256). -/
def pinWanted (h : Hub) : Bool :=
  h.wins.any (fun e => e.2.armed && e.2.failed &&
    (e.2.pinEn || (e.2.group != 0 && h.wins.any (fun f => f.2.armed && f.2.group == e.2.group && f.2.pinEn))))

/-- WIT_CTL.STICKY. -/
def witSticky (h : Hub) : Bool := bitOf (regGet h 0 0x4300) 0

/-- The pin after windows have been disarmed: released when no armed window wants it, unless it is sticky (R256). -/
def pinAfterDisarm (h : Hub) : Hub :=
  if witSticky h then h else { h with life := { h.life with witFaultN := h.life.witFaultN && pinWanted h } }

/-- Abandons a seal in progress: its requests that have sent no snoop end; the others end with their answers, whose data is written (R108, R242). -/
def abandonSeal (n : Nat) (h : Hub) : Hub :=
  let mine := fun (r : Req) => r.src == .wseal && r.job == n + 1
  let idle := h.txns.filter (fun t => mine t.req && (t.ph == .stalled || t.ph == .ready))
  let h := { h with waiting := h.waiting.filter (fun w => !(mine w.req)) }
  if idle.isEmpty then h else settle (forEach idle finish h)

/-- Disarms a window (R242). -/
def disarmWin (n : Nat) (h : Hub) : Hub :=
  pinAfterDisarm (setWin (abandonSeal n h) n
    (fun w => { w with st := .disarmed, failed := false, sealTicks := none, restoreSig := none, lost := none }))

/-- Disarms every window of a partition. -/
def disarmAll (pid : Nat) (h : Hub) : Hub :=
  forEach ((h.wins.filter (fun e => e.2.armed && e.2.pid == pid)).map Prod.fst) disarmWin h

/-- WITNESS_ARM's arguments as a window. -/
def armArgs (pid a0 a1 a2 : Nat) : Win :=
  { st := .opened, pid := pid, base := a1, lines := a2 / 128, writers := BitVec.ofNat 8 (bits a0 15 8), reader := bits a0 18 16,
    static := bitOf a0 19, group := bits a0 23 20, pinEn := bitOf a0 24 }

/-- The argument checks of Table: WITNESS_ARM outcomes. -/
def armArgsBad (h : Hub) (w : Win) (len : Nat) : Bool :=
  w.base % 128 != 0 || len % 128 != 0 || len == 0 || decide (2 ^ 22 < len) || (w.reader == 7 && isTwinLink h 7)
    || (w.group != 0 && h.wins.any (fun e => e.2.armed && e.2.group == w.group && e.2.reader != w.reader))

/-- WITNESS_ARM (R241). -/
def bodyWitnessArm : CmdBody := fun _ c h =>
  let n := bits c.arg0.toNat 3 0
  let pid := c.pid.toNat
  let w := armArgs pid c.arg0.toNat c.arg1.toNat c.arg2.toNat
  if armArgsBad h w c.arg2.toNat || !(witPlaced h w.base c.arg2.toNat) then ended h stBadArg
  else if (win h n).armed || shownSt (part h pid) == .free || (part h pid).st == .frozen then ended h stWrong
  else if (part h pid).witCnt ≤ witsOf h pid then ended h stNoRes
  else ended { h with wins := bset h.wins n w } stOk

def effWitnessArm (m : Nat) (c : CmdWord) (h : Hub) : Hub := takeCmd m 0x20 c bodyWitnessArm h

/-- WITNESS_DISARM (R242). -/
def effWitnessDisarm (m : Nat) (c : CmdWord) (h : Hub) : Hub :=
  takeCmd m 0x21 c (fun _ c h =>
    let n := bits c.arg0.toNat 3 0
    if (win h n).armed then ended (disarmWin n h) stOk else ended h stWrong) h

/-! ### Sealing (R244 to R248) -/

/-- Lines of a window. -/
def Win.lineAddrs (w : Win) : List Nat := (List.range w.lines).map (fun i => w.base + 128 * i)

/-- Starts a seal (R245): each line is charged to the window's PID in class S, and demoted where its allowance is spent (R185, R247); an ownership
request of the hub cleans each out of every host cache, after the requests already open on it. -/
def startSeal (n : Nat) (h : Hub) : Hub :=
  let w := win h n
  let h := setWin h n (fun w => { w.loseSeal h.now with st := .sealing, broken := false, sealErr := 0, sealTicks := none })
  if !(witPlaced h w.base (w.lines * 128)) then sealError n 3 h
  else
    let c := w.lineAddrs.foldl (fun (p : List (Nat × Nat) × Hub) a => let k := chargeRequest a w.pid 0 128 8 p.2; ((a, k.1) :: p.1, k.2)) ([], h)
    let h := c.2
    let held := c.1.reverse.filter (fun a => !(holders h a.1 128 9).isEmpty || h.txns.any (fun t => overlaps t.lo t.n a.1 128))
    presentAll (held.map (fun a => { op := opOwn, src := .wseal, pid := w.pid, cls := a.2, carried := 0, addr := a.1, job := n + 1, at_ := h.now })) h

/-- Reads a window's lines at their homes: whether one could not be used, and the sum of their hashes. -/
def sealSum (pid : Nat) : List Nat → Hub → Bool × BitVec 64 × Hub
  | [], h => (false, 0#64, h)
  | a :: r, h =>
    let g := homeLine a (whoOf pid 0) (ghostLine a pid h)
    if g.err then (true, 0#64, g.h)
    else
      let k := sealSum pid r g.h
      (k.1, lineHash a g.data + k.2.1, k.2.2)

/-- SEAL_COMPLETE (R245, R246, R257): every line has been cleaned out of the hosts' caches, is read at its home and hashed. -/
def effSealComplete (n : Nat) (h : Hub) : Hub :=
  let w := win h n
  if w.st != .sealing || h.txns.any (fun t => t.req.src == .wseal && t.req.job == n + 1)
      || h.waiting.any (fun x => x.req.src == .wseal && x.req.job == n + 1) || rangeHeld h w.base (w.lines * 128) then h
  else if !(witPlaced h w.base (w.lines * 128)) then sealError n 3 h
  else
    match sealSum w.pid w.lineAddrs h with
    | (true, _, h) => sealError n 2 h
    | (false, s, h) =>
      let good : Win → Win := fun w => { w with st := .sealed, wsig := s, sealFrame := h.fs.frame, sealTicks := some 0, sealAt := h.now, restoreSig := none }
      match w.restoreSig with
      | some r => if r = s then setWin h n good else setWin h n (fun w => { w with st := .opened, wsig := s, sealErr := 5, sealTicks := none, restoreSig := none })
      | none => setWin h n good

/-- A write to WIT_SEAL (R244): whether it is accepted, and its effect. -/
def writeSeal (n l pid v : Nat) (h : Hub) : Bool × Hub :=
  let w := win h n
  if !(v.testBit 0) then (true, h)
  else if !(w.armed && w.pid == pid && w.writers.toNat.testBit l) then (false, h)
  else if w.st == .sealing then (true, setWin h n (fun w => { w with sealErr := 4 }))
  else (true, startSeal n h)

/-! ### The reader tap (R251, R252) -/

/-- A whole line leaves a link: its first transfer in the frame enters RSIG and the coverage of each window read there. -/
def witTap (l a : Nat) (d : List Byte) (h : Hub) : Hub :=
  if d.length < 128 then h
  else forEach ((h.wins.filter (fun e => e.2.armed && e.2.reader == l && e.2.meets a 1)).map Prod.fst) (fun n h =>
    let ix := (a - (win h n).base) / 128
    if (win h n).cov.contains ix then h
    else setWin h n (fun w => { w with rsig := w.rsig + lineHash a d, cov := ix :: w.cov })) h

/-- A read of a window's bytes is answered DATA_ERROR on its reader link. -/
def witDerr (l a n : Nat) (h : Hub) : Hub :=
  forEach ((h.wins.filter (fun e => e.2.armed && e.2.reader == l && decide (e.2.base ≤ a) && decide (a + n ≤ e.2.base + e.2.lines * 128))).map Prod.fst)
    (fun k h => setWin h k (fun w => { w with derr := satAdd w.derr 1 16 })) h

/-! ### Evaluation (R253 to R256) -/

/-- The WSIG of the seal in force for the frame that a tick at cycle `t` ends: a loss in that cycle or later counts in the next frame (R248,
R249). -/
def Win.sigAt (t : Nat) (w : Win) : Option (BitVec 64) :=
  match w.lost with
  | some (at_, sig) => if t ≤ at_ then some sig else if w.inForce then some w.wsig else none
  | none => if w.inForce then some w.wsig else none

/-- A window's own judgement at a tick: 0 PASS, or its first FAIL reason. -/
def Win.judge (t : Nat) (w : Win) : Nat :=
  match w.sigAt t with
  | none => 1
  | some sig => if w.cov.length < w.lines then 2 else if w.rsig != sig then 3 else 0

/-- Whether a window is evaluated at this tick (R241, R253, R300). -/
def judged (h : Hub) (w : Win) : Bool :=
  w.armed && (part h w.pid).st == .active && decide (1 ≤ w.armTicks) && decide (1 ≤ (part h w.pid).resumeTicks)

/-- Records a window's result: `last` 1 PASS, 2 FAIL, 3 not judged. -/
def setResult (n last reason : Nat) (h : Hub) : Hub :=
  let h := setWin h n (fun w => { w with last := last, reason := if last = 2 then reason else w.reason, failed := last == 2,
                                         covLat := w.cov.length, derrLat := w.derr })
  if last = 2 then
    let w := win h n
    raiseEvt 0 (record 0x42 3 7 0 w.pid (n + 2 ^ 4 * reason + 2 ^ 6 * (h.fs.frame % 2 ^ 32) + 2 ^ 38 * (w.cov.length % 2 ^ 16)) h)
  else h

/-- One failed evaluation counts once. -/
def countFail (h : Hub) : Hub := regSetField h 0 0x4308 31 16 (satAdd (regField h 0 0x4308 31 16) 1 16)

/-- The windows of one group, judged as one unit (R254). -/
def evalGroup (ns : List Nat) (h : Hub) : Hub :=
  let js := ns.map (fun n => (n, (win h n).judge h.fs.tickAt))
  if js.any (fun j => j.2 == 0) then forEach js (fun j h => setResult j.1 (if j.2 = 0 then 1 else 3) 0 h) h
  else if js.all (fun j => j.2 == 1) then countFail (forEach js (fun j h => setResult j.1 2 1 h) h)
  else countFail (forEach js (fun j h => if j.2 = 1 then setResult j.1 3 0 h else setResult j.1 2 j.2 h) h)

/-- Witness evaluation at the tick that ends a frame, the pin, and the taps' new frame (R252 to R256). -/
def evalWitness (h : Hub) : Hub :=
  let ns := (h.wins.filter (fun e => judged h e.2)).map Prod.fst
  let lone := ns.filter (fun n => (win h n).group == 0)
  let groups := (List.range 16).filter (fun g => g != 0 && ns.any (fun n => (win h n).group == g))
  let forced := ns.filter (fun n => (win h n).inForce && !(win h n).static)
  let h := forEach lone (fun n h => evalGroup [n] h) h
  let h := forEach groups (fun g h => evalGroup (ns.filter (fun n => (win h n).group == g)) h) h
  let h := forEach forced (fun n h => setWin h n (fun w => { w with st := .opened, sealTicks := none })) h
  let pin := if witSticky h then h.life.witFaultN || (!ns.isEmpty && pinWanted { h with wins := h.wins.map (fun e =>
      (e.1, if ns.contains e.1 then e.2 else { e.2 with failed := false })) }) else pinWanted h
  let h := { h with life := { h.life with witFaultN := pin } }
  { h with wins := h.wins.map (fun e =>
      if e.2.armed then
        (e.1, { e.2 with
          rsigLat := e.2.rsig, rsig := 0#64, cov := [], derr := 0, armTicks := e.2.armTicks + 1, lost := none,
          sealTicks := if e.2.sealAt < h.fs.tickAt then e.2.sealTicks.map (· + 1) else e.2.sealTicks })
      else e) }

/-- A change of a region-map entry breaks the seals of the windows in its range (R257). -/
def breakEntry (e : REntry) (h : Hub) : Hub :=
  if e.valid then
    forEach ((h.wins.filter (fun w => w.2.sealed && overlaps w.2.base (w.2.lines * 128) (e.base * unit2M) (e.size * unit2M))).map Prod.fst)
      (fun n h => breakSeal n (win h n).base h) h
  else h

end Sys2Proof.Machine
end

