-- ==== Sys2Proof/Machine/Caches.lean ====
section
/-! DEFINITION. The commands of the hub cache: enable and disable (R78 to R81), range operations (R72 to R74), way power (R82 to
R84) and locks (R75, R76). -/

namespace Sys2Proof.Machine

/-- Whether a NEAR or SHADOW entry of this hub covers array capacity of the cache area of a size (R78). -/
def cacheClash (h : Hub) (size : Nat) : Bool :=
  h.rmap.any (fun e => e.2.valid && e.2.here h && (e.2.typ == .near || e.2.typ == .shadow) && decide (e.2.tbase < cacheArea h size))

/-- Slots that the Ledger's retire list names at a size (R234). -/
def retiredSlots (h : Hub) (size : Nat) : List (Nat × Nat × Nat) :=
  (h.led.retire.filter (fun o => decide (o < size * unit2M))).map (fun o =>
    let k := o / 1024
    (k % 32, k / 512, k / 32 % 16))

/-- The echo table zeroed, stored check and all (R78). -/
def zeroEcho (h : Hub) : Hub :=
  let lo := echoOffset h 0 0
  let hi := lo + setsInUse h * 32 * 128
  let inside := fun (x : Nat) => decide (lo ≤ x) && decide (x < hi)
  { h with wbs := h.wbs.filter (fun w => w.tgt != 2), cache := { h.cache with echoDue := [] },
           mem := { h.mem with array := h.mem.array.filter (fun c => !(inside c.1)), beatErr := h.mem.beatErr.filter (fun e => !(inside (e.1 * 8))),
                               crcErr := h.mem.crcErr.filter (fun e => !(inside (e.1 * 128))),
                               encLine := h.mem.encLine.filter (fun e => !(inside (e.1 * 128))) } }

/-- The cache as CACHE_ENABLE leaves it (R63, R78): every entry of every set in use in its initial state, the echo table zero. -/
def enableCache (size : Nat) (h : Hub) : Hub :=
  let h := { h with cache := { h.cache with
      cst := .on, size := size, sectors := [], locks := [], powered := 0xFFFF#16, pending := 0#16, coldCnt := [],
      retired := retiredSlots h (256 * 2 ^ (size - 1)) } }
  if chipKill h then zeroEcho h else h

/-- CACHE_ENABLE (R78). -/
def bodyCacheEnable : CmdBody := fun _ c h =>
  let size := bits c.arg0.toNat 1 0
  if size = 0 then ended h stBadArg
  else if h.cache.cst != .off || !h.life.arrayUp then ended h stWrong
  else if cacheClash h size then ended h stNoRes
  else ended (enableCache size h) stOk

def effCacheEnable (m : Nat) (c : CmdWord) (h : Hub) : Hub := takeCmd m 0x01 c bodyCacheEnable h

/-- CACHE_DISABLE (R80, R81). -/
def effCacheDisable (m : Nat) (c : CmdWord) (h : Hub) : Hub :=
  takeCmd m 0x02 c (fun m c h =>
    if h.cache.cst != .on then ended h stWrong
    else
      let (job, h) := startHeavy m 0x02 c h
      (startDrain job h, none)) h

/-- The first walk of a kind that has ended and waits for no write (R74). -/
def doneWalk (h : Hub) (kind : Nat) : Option Walk :=
  h.walks.find? (fun w => w.kind == kind && w.ended h && (w.waits.isEmpty || w.op == 1 && kind == 1))

/-- The hub without a walk. -/
def dropWalk (w : Walk) (h : Hub) : Hub := { h with walks := delFirst (fun x => x.job == w.job && x.kind == w.kind) h.walks }

/-- The cache becomes OFF (R80). -/
def cacheOff (h : Hub) : Hub :=
  { h with cache := { h.cache with cst := .off, size := 0, sectors := [], locks := [], echoDue := [], powered := 0#16, pending := 0#16 } }

/-- CACHE_DISABLE_DRAIN_DONE (R80, R238): the drain's last write-back has completed. -/
def effCacheDisableDrainDone (h : Hub) : Hub :=
  if h.cache.cst != .draining then h
  else match doneWalk h 2 with
    | none => h
    | some w =>
      let h := cacheOff (dropWalk w h)
      let h := if h.integ.degraded then { h with life := { h.life with arrayUp := false } } else h
      settle (finishHeavy w.job stOk w.done h)

/-- Whether a range is not one of multiples of `unit`, of at least one, below 2^48 (R72, R75). -/
def rangeBad (unit base len : Nat) : Bool :=
  base % unit != 0 || len % unit != 0 || decide (len < unit) || decide (2 ^ 48 < base + len)

/-- INVAL and CLEAN_INVAL kill every Ladle entry and every prefetch in flight of the range (R73). -/
def killLadleRange (base len : Nat) (h : Hub) : Hub :=
  forEach ((h.ladle.filter (fun e => decide (base ≤ e.line * 128) && decide (e.line * 128 < base + len))).map LadleE.line)
    ladleKill h

/-- CACHE_RANGE (R72 to R74, R81). -/
def bodyCacheRange : CmdBody := fun m c h =>
  let op := bits c.arg0.toNat 1 0
  let base := c.arg1.toNat
  let len := c.arg2.toNat
  if op = 3 || rangeBad 128 base len then ended h stBadArg
  else if h.cache.cst != .on then ended h stWrong
  else
    let waits := if op = 1 then []
      else (h.wbs.filter (fun w => w.other.isNone && decide (base ≤ w.line * 128) && decide (w.line * 128 < base + len))).map WbLine.id
    let (job, h) := startHeavy m 0x03 c h
    let h := if op = 0 then h else killLadleRange base len h
    (pushWalk { job := job, kind := 1, op := op, setMode := !(probes h len), base := base, len := len, waits := waits } h, none)

def effCacheRange (m : Nat) (c : CmdWord) (h : Hub) : Hub := takeCmd m 0x03 c bodyCacheRange h

/-- CACHE_RANGE_DONE (R74): the first range operation that has all it waits for completes. -/
def effCacheRangeDone (h : Hub) : Hub :=
  match doneWalk h 1 with
  | none => h
  | some w =>
    let h := dropWalk w h
    if w.bad = 0 then finishHeavy w.job stOk w.done h else finishHeavy w.job stDataErr w.bad h

/-- Whether powering ways off leaves an ACTIVE partition with a class S budget too few (R82). -/
def starves (h : Hub) (mask : BitVec 16) : Bool :=
  let left := h.cache.powered &&& ~~~h.cache.pending &&& ~~~mask
  h.parts.any (fun e => e.2.st == .active && decide (0 < e.2.bud.getD 0 0)
    && decide (popcount (e.2.wayMask &&& left).toNat 16 < e.2.wayMin))

/-- WAY_POWER on (R84). DEDUCED: a way that already has power keeps its entries, since the hub never discards write data (log entry
16). -/
def powerOn (mask : BitVec 16) (h : Hub) : Hub :=
  let new := mask &&& ~~~h.cache.powered
  { h with cache := { h.cache with powered := h.cache.powered ||| mask,
                                   sectors := h.cache.sectors.filter (fun s => !(new.toNat.testBit s.way)) } }

/-- WAY_POWER (R81 to R84). -/
def bodyWayPower : CmdBody := fun m c h =>
  let mask := BitVec.ofNat 16 (bits c.arg0.toNat 15 0)
  if h.cache.cst != .on then ended h stWrong
  else if bitOf c.arg0.toNat 16 then
    if mask &&& h.cache.pending != 0#16 then ended h stWrong else ended (powerOn mask h) stOk
  else
    let off := mask &&& h.cache.powered
    if h.cache.locks.any (fun k => off.toNat.testBit k.2.2) || starves h off then ended h stWrong
    else
      let (job, h) := startHeavy m 0x04 c h
      let h := { h with cache := { h.cache with pending := h.cache.pending ||| off } }
      (pushWalk { job := job, kind := 3, op := 2, setMode := true, mask := off } h, none)

def effWayPower (m : Nat) (c : CmdWord) (h : Hub) : Hub := takeCmd m 0x04 c bodyWayPower h

/-- WAY_POWER_OFF_DONE (R83): 2,500 cycles after the last write-back of the clean the ways lose power. -/
def effWayPowerOffDone (h : Hub) : Hub :=
  match doneWalk h 3 with
  | none => h
  | some w =>
    if h.now < w.lastAt + 2500 then h
    else
      let h := dropWalk w h
      let other := (h.walks.filter (fun x => x.kind == 3)).foldl (fun m x => m ||| x.mask) 0#16
      let c : Cache := { h.cache with powered := h.cache.powered &&& ~~~w.mask, pending := (h.cache.pending &&& ~~~w.mask) ||| (h.cache.pending &&& other) }
      finishHeavy w.job stOk w.done { h with cache := c }

/-- Whether a whole range lies in NWT or NWB regions homed here, resolved by R211, from `a` on with at most `n` entries left to cross. -/
def inCached (h : Hub) : Nat → Nat → Nat → Bool
  | 0, _, _ => false
  | n + 1, a, last =>
    match rmapFind h a with
    | none => false
    | some (i, e) =>
      if !(e.typ.cached && e.here h) then false
      else
        let top := (e.base + e.size) * unit2M
        let lows := (h.rmap.filter (fun f => decide (f.1 < i) && f.2.valid && decide (a < f.2.base * unit2M))).map (fun f => f.2.base * unit2M)
        let stop := lows.foldl min top
        if last ≤ stop then true else inCached h n stop last

/-- WAY_LOCK (R75, R76, R81). -/
def bodyWayLock : CmdBody := fun m c h =>
  let lock := bitOf c.arg0.toNat 0
  let all := bitOf c.arg0.toNat 1
  let p := c.pid.toNat
  let base := c.arg1.toNat
  let len := c.arg2.toNat
  let st := shownSt (part h p)
  if lock then
    if rangeBad 1024 base len || !(inCached h 192 base (base + len)) then ended h stBadArg
    else if h.cache.cst != .on || st != .active then ended h stWrong
    else
      let (job, h) := startHeavy m 0x05 c h
      (pushWalk { job := job, kind := 4, op := 0, setMode := !(probes h len), base := base, len := len, pid := p } h, none)
  else if p = 0 || (!all && rangeBad 1024 base len) then ended h stBadArg
  else if h.cache.cst != .on || st == .free then ended h stWrong
  else
    let (job, h) := startHeavy m 0x05 c h
    (pushWalk { job := job, kind := 4, op := if all then 2 else 1, setMode := all || !(probes h len), base := base, len := len, pid := p } h, none)

def effWayLock (m : Nat) (c : CmdWord) (h : Hub) : Hub := takeCmd m 0x05 c bodyWayLock h

/-- WAY_LOCK_DONE (R75, R76): OK with the sectors locked or unlocked, or PARTIAL. -/
def effWayLockDone (h : Hub) : Hub :=
  match doneWalk h 4 with
  | none => h
  | some w => finishHeavy w.job (if w.missed = 0 then stOk else stPartial) w.count (dropWalk w h)

end Sys2Proof.Machine
end

