-- ==== Sys2Proof/Machine/RegionCmds.lean ====
section
/-! DEFINITION. Commands over the region map and the array (R209 to R216), expert control (Table: Expert functions), error
injection (R278, R279) and Ledger erase (R280); and the hub's own coherent reads and writes of a range. -/

namespace Sys2Proof.Machine

/-! ### Coherent accesses of the hub's engines

An engine that reads or writes a range coherently first presents requests of its own for what hosts own there; the lines are
then read or written at their homes. -/

/-- Lines of a range of which an owner holds bytes. -/
def ownedIn (h : Hub) (a n : Nat) : List Nat :=
  ((h.sieve.filter (fun s => s.live && s.owns && overlaps s.addr (granOf h s.host) a n)).map (fun s => s.addr / 128 * 128)).eraseDups

/-- Lines of a range of which some host holds bytes. -/
def heldIn (h : Hub) (a n : Nat) : List Nat :=
  ((h.sieve.filter (fun s => s.live && overlaps s.addr (granOf h s.host) a n)).map (fun s => s.addr / 128 * 128)).eraseDups

/-- Whether requests of an engine's job are open or wait. -/
def jobOpen (h : Hub) (src : Src) (job : Nat) : Bool :=
  h.txns.any (fun t => t.req.src == src && t.req.job == job) || h.waiting.any (fun w => w.req.src == src && w.req.job == job)

/-- Whether dirty data from an owner is on its way to a line of a range. -/
def dirtyComing (h : Hub) (a n : Nat) : Bool := h.txns.any (fun t => t.req.op == opDirty && overlaps t.lo t.n a n)

/-- Presents an engine's requests for lines. -/
def engineReqs (op : Nat) (src : Src) (pid job : Nat) (lines : List Nat) (h : Hub) : Hub :=
  presentAll (lines.map (fun a => { op := op, src := src, pid := pid, addr := a, job := job, at_ := h.now })) h

/-! ### REGION_SET (R213, R215, R216) -/

/-- The entry that REGION_SET's arguments spell; none where TYPE is reserved. -/
def regionArgs (a1 a2 : Nat) : Option REntry :=
  match RType.ofCode (bits a1 46 43) with
  | none => none
  | some t => some { base := bits a1 26 0, size := bits a1 42 27, typ := t, cls := bits a1 48 47, ecc := bitOf a1 49, mirror := bitOf a1 50,
                     hub := bitOf a1 51, tbase := bits a2 15 0, src := if t = .shadow then bits a2 42 16 else 0 }

/-- Target space of a type: 0 main memory, 1 array, 2 Kettle, 3 none (Table: Footprints). -/
def RType.space (t : RType) : Nat :=
  match t with
  | .near => 1
  | .shadow => 1
  | .kettle => 2
  | .cfg => 3
  | _ => 0

/-- Size of a target space in 2 MiB units; footprints above the remap reserve's start are its order 3 check. -/
def spaceUnits (h : Hub) (sp : Nat) : Nat := if sp = 0 then h.life.mainUnits else if sp = 1 then arrayUnits h else 2

/-- Whether an entry runs past its target space: for one homed on the twin, whose memories this hub does not know, the Kettle's 4 MiB only (log
entry 17). -/
def beyondSpace (h : Hub) (e : REntry) : Bool :=
  (e.here h || e.typ.space == 2) && e.typ.space != 3 && popHolds (popOf h) e.typ && decide (spaceUnits h e.typ.space < e.tbase + e.foot)

/-- The entry of a SHADOW's source (R215). -/
def shadowSource (h : Hub) (e : REntry) : Option (Nat × REntry) := rmapRange h (e.src * unit2M) (e.size * unit2M)

/-- Whether a SHADOW's source is where R215 asks for it, on the hub that holds the shadow. -/
def shadowSrcOk (h : Hub) (e : REntry) : Bool :=
  match shadowSource h e with
  | none => false
  | some (_, s) => s.hub == e.hub && (s.typ == .nwt || s.typ == .nwb || s.typ == .nnc || s.typ == .kettle)

/-- Order 1 of Table: REGION_SET outcomes, with R215. -/
def regionBad (h : Hub) (e : REntry) : Bool :=
  ((e.ecc || e.mirror) && !e.typ.isMain) || (e.typ.isMain && e.cls == 0 && !e.ecc) || (e.typ == .cfg && e.size != 1)
    || beyondSpace h e || (e.typ == .shadow && !shadowSrcOk h e)

/-- Whether entry `i` is the source of a valid SHADOW entry that a new value of it, if any, would move or retype. -/
def breaksShadow (h : Hub) (i : Nat) (new : Option REntry) : Bool :=
  h.rmap.any (fun f => f.2.valid && f.2.typ == .shadow &&
    (match shadowSource h f.2 with
      | some (k, s) => k == i &&
        (match new with
          | none => true
          | some e => e.base != s.base || e.tbase != s.tbase || e.typ != s.typ || e.hub != s.hub
              || !(e.holds (f.2.src * unit2M + f.2.size * unit2M - 1)))
      | none => false))

/-- Order 3: overlap with another footprint, the cache area or the remap reserve. Footprints of different hubs do not meet (DEDUCED,
log entry 17). -/
def regionClash (h : Hub) (i : Nat) (e : REntry) : Bool :=
  e.typ.space != 3 &&
  (h.rmap.any (fun f => f.1 != i && f.2.valid && f.2.hub == e.hub && f.2.typ.space == e.typ.space
      && decide (f.2.tbase < e.tbase + e.foot) && decide (e.tbase < f.2.tbase + f.2.foot))
    || (e.here h && e.typ.space == 1 && (decide (e.tbase < cacheTop h) || decide (mapTop h < e.tbase + e.foot))))

/-- Puts an entry in force on both dies (R27), and breaks the seals it concerns (R257). -/
def applyRegion (i : Nat) (e : REntry) (h : Hub) : Hub :=
  let old := bget h.rmap i {}
  breakEntry e (breakEntry old { h with rmap := if e.valid then bset h.rmap i e else bdel h.rmap i })

/-- REGION_SET (R213). -/
def bodyRegionSet : CmdBody := fun m c h =>
  let i := bits c.arg0.toNat 5 0
  let loading := !h.shadows.isEmpty
  if bits c.arg1.toNat 42 27 = 0 then
    if !((bget h.rmap i {}).valid) then ended h stOk
    else if breaksShadow h i none || loading then ended h stWrong
    else ended (applyRegion i {} h) stOk
  else
    match regionArgs c.arg1.toNat c.arg2.toNat with
    | none => ended h stBadArg
    | some e =>
      if regionBad h e then ended h stBadArg
      else if (e.typ == .nwb && !(bitOf (regGet h 0 0x4000) 8)) || breaksShadow h i (some e) || loading then ended h stWrong
      else if !(popHolds (popOf h) e.typ) || regionClash h i e then ended h stNoRes
      else if e.typ != .shadow || !(e.here h) then ended (applyRegion i e h) stOk
      else
        let (job, h) := startHeavy m 0x06 c h
        let h := { h with shadows := h.shadows ++ [(job, i, e)] }
        (engineReqs 0x13 .hub0 0 job (ownedIn h (e.src * unit2M) (e.size * unit2M)) h, none)

def effRegionSet (m : Nat) (c : CmdWord) (h : Hub) : Hub := takeCmd m 0x06 c bodyRegionSet h

/-- Copies lines of a SHADOW's source into its footprint; answers how many could not be used (R216). -/
def loadLines (e : REntry) : List Nat → Nat → Hub → Nat × Hub
  | [], bad, h => (bad, h)
  | i :: r, bad, h =>
    let a := e.src * unit2M + 128 * i
    let g := homeLine a 0 (hkBytes a 128 h)
    let off := e.tbase * unit2M + 128 * i
    if g.err then loadLines e r (bad + 1) (poisonLine off (e.base * unit2M + 128 * i) g.h)
    else loadLines e r bad (writeArrayLine off (e.base * unit2M + 128 * i) 0 g.data g.h)

/-- CB_BOOT.FULL: every trained resource is in service and every load has ended (R404). -/
def checkFull (h : Hub) : Hub :=
  { h with life := { h.life with fullUp := h.life.fullUp || (h.shadows.isEmpty && !h.life.zeroing && h.life.kettleUp
      && (h.life.arrayUp || !h.life.lanes.trained) && (List.range 8).any (chanTrained h)) } }

/-- SHADOW_LOAD_DONE (R216): the first load whose coherent reads have all been answered puts its last line in the array. -/
def effShadowLoadDone (h : Hub) : Hub :=
  match h.shadows with
  | [] => h
  | (job, i, e) :: rest =>
    let a := e.src * unit2M
    let n := e.size * unit2M
    if jobOpen h .hub0 job || dirtyComing h a n then h
    else
      let own := ownedIn h a n
      if !own.isEmpty then engineReqs 0x13 .hub0 0 job own h
      else
        let (bad, h) := loadLines e (List.range (n / 128)) 0 h
        let h := checkFull { h with shadows := rest }
        let h := if job = 0 then h else applyRegion i e h
        if bad = 0 then finishHeavy job stOk (n / 128) h else finishHeavy job stDataErr bad h

/-! ### ARRAY_POP_SET (R214) -/

/-- ARRAY_POP_SET: the strap's code is recorded, and the array comes into service (R404). It completes when the array is in service, at
once where there is none. -/
def bodyArrayPopSet : CmdBody := fun m c h =>
  let p := bits c.arg0.toNat 1 0
  if p ≠ h.life.arrayPop then ended h stBadArg
  else if h.cache.cst != .off || h.rmap.any (fun e => e.2.valid && !(popHolds p e.2.typ)) then ended h stWrong
  else
    match ledgerWrite 0x20 h with
    | (false, h) => ended h stNoRes
    | (true, h) =>
      let h := { h with led := { h.led with pop := some p, bad := h.led.bad.filter (· != 0x20) }, life := { h.life with mismatch := false } }
      if p = 0 || h.life.arrayUp then ended h stOk
      else
        let h := { h with life := { h.life with zeroing := h.life.lanes.trained } }
        ((startHeavy m 0x07 c h).2, none)

def effArrayPopSet (m : Nat) (c : CmdWord) (h : Hub) : Hub := takeCmd m 0x07 c bodyArrayPopSet h

/-! ### EXPERT_SET -/

/-- Register and bit of a function's EXPERT bit (Table: Expert functions), and whether each die has its own. -/
def expertBit : Nat → Option (Nat × Nat)
  | 0 => some (0x4000, 8)
  | 1 => some (0x4024, 31)
  | 2 => some (0x4040, 31)
  | 3 => some (0x4100, 31)
  | 4 => some (0x41C8, 31)
  | 5 => some (0x4484, 31)
  | _ => none

/-- WHISK_FLOOR.MAIN and .ARR. -/
def whiskFloor (h : Hub) : Nat × Nat := (regField h 0 0x41C0 31 16, regField h 0 0x41C0 15 0)

/-- What refuses the end of a function's expert control (R135, R198). -/
def expertHeld (h : Hub) (f : Nat) : Bool :=
  if f = 0 then h.rmap.any (fun e => e.2.valid && e.2.typ == .nwb)
  else if f = 2 then (List.range 7).any (fun n => bits (geomWord h n) 20 16 != 0)
  else if f = 3 then !(hkHolds h (whiskFloor h).1 (whiskFloor h).2 h.fs.period 3)
  else false

/-- Writes a function's EXPERT bit on both dies. -/
def putExpert (off bit v : Nat) (h : Hub) : Hub := regSetField (regSetField h 0 off bit bit v) 1 off bit bit v

/-- EXPERT_SET (Table: Expert functions); the fields it governs go back to basic values at the next tick (R65, R95, R198, R239). -/
def bodyExpertSet : CmdBody := fun _ c h =>
  let f := bits c.arg0.toNat 2 0
  match expertBit f with
  | none => ended h stBadArg
  | some (off, bit) =>
    let on := bitOf c.arg0.toNat 8
    if bitOf (regGet h 0 off) bit = on then ended h stOk
    else if !on && expertHeld h f then ended h stWrong
    else
      let h := putExpert off bit (b2n on) h
      ended { h with fs := { h.fs with fallback := if on then h.fs.fallback else h.fs.fallback.filter (· != f) ++ [f] } } stOk

def effExpertSet (m : Nat) (c : CmdWord) (h : Hub) : Hub := takeCmd m 0x28 c bodyExpertSet h

/-! ### ERR_INJECT (R278, R279) -/

/-- Whether DETAIL is in the range of Table: Error injection kinds. -/
def detailOk (kind d : Nat) : Bool :=
  if kind = 0 then decide (d < 10)
  else if kind = 1 then decide (d % 16 < 10) && decide (d / 16 < 10) && d % 16 != d / 16
  else if kind = 2 then decide (d < 72)
  else if kind = 3 then decide (d < 71)
  else if kind = 4 then true
  else if kind = 5 then decide (d < 16)
  else if kind = 6 then decide (d < 7)
  else if kind = 7 then decide (d < 128)
  else false

/-- Whether a kind applies to an entry's type. -/
def kindFits (kind : Nat) (e : REntry) : Bool :=
  if kind = 0 ∨ kind = 1 ∨ kind = 4 then e.typ == .nwt || e.typ == .nwb || e.typ == .near || e.typ == .shadow
  else if kind = 2 ∨ kind = 3 then e.typ.isMain && e.ecc
  else if kind = 5 then e.typ.cached
  else if kind = 6 then e.typ.sieve
  else e.typ != .cfg

/-- Order 1 of Table: ERR_INJECT outcomes; answers the entry where it passes. -/
def injectEntry (h : Hub) (kind d count a : Nat) (copy : Bool) : Option REntry :=
  let n := if kind = 2 ∨ kind = 3 then (a / 8 * 8, 8 * count) else (a / 128 * 128, 128 * count)
  if count = 0 || !detailOk kind d then none
  else match rmapRange h n.1 n.2 with
    | none => none
    | some (_, e) =>
      if !(e.here h) || !kindFits kind e || (copy && !((kind == 2 || kind == 3) && e.mirror))
          || ((kind == 0 || kind == 1) && !chipKill h) || (kind == 4 && popOf h != 1) then none
      else some e

/-- Array offset where kinds 0, 1 and 4 alter a line; none where the array does not hold it. -/
def arrayPlace (h : Hub) (e : REntry) (a : Nat) : Option Nat :=
  if e.typ.cached then
    match findSector h a with
    | none => none
    | some s => match s.lines.getD (lineIx a) .invalid with
      | .clean => some (lineOffset s a)
      | .dirty => some (lineOffset s a)
      | .flushing _ _ => some (lineOffset s a)
      | _ => none
  else some (e.off (a / 128 * 128))

/-- Marks errors as injected. -/
def markInjected (ks : List Nat) (h : Hub) : Hub := { h with mem := { h.mem with injected := h.mem.injected ++ ks.filter (fun k => !h.mem.injected.contains k) } }

/-- XORs an error into a beat. -/
def beatXor (off b x : Nat) (h : Hub) : Hub :=
  markInjected [injKey 3 (off / 8 + b)]
    { h with mem := { h.mem with beatErr := bset h.mem.beatErr (off / 8 + b) (BitVec.ofNat 128 (Nat.xor (beatErrOf h off b) x)) } }

/-- The non-zero value of kinds 0 and 1, a free value (log entry 4). -/
def errSymbol (h : Hub) : Nat := max 1 ((Config.freeSymbol h.free).toNat % 256)

/-- The CRC mask of kind 4, neither 0 nor all ones, a free value (log entry 4). -/
def errCrc (h : Hub) : Word32 :=
  let v := Config.freeSymbol h.free
  if v = 0#32 ∨ v = 0xFFFFFFFF#32 then 1#32 else v

/-- Places one error (R279); none where the kind finds no storage to alter. DESIGN CHOICE: kind 1 takes beat 0 and kind 5 the sector in way
DETAIL (log entry 18). -/
def placeErr (kind d a : Nat) (copy : Bool) (e : REntry) (h : Hub) : Option Hub :=
  let v := errSymbol h
  if kind = 0 then (arrayPlace h e a).map (fun off => forEach (List.range 16) (fun b h => beatXor off b (v * 2 ^ (8 * d)) h) h)
  else if kind = 1 then (arrayPlace h e a).map (fun off => beatXor off 0 (v * 2 ^ (8 * (d % 16)) + v * 2 ^ (8 * (d / 16))) h)
  else if kind = 4 then (arrayPlace h e a).map (fun off =>
    markInjected [injKey 4 (off / 128)] { h with mem := { h.mem with crcErr := bset h.mem.crcErr (off / 128) (bget h.mem.crcErr (off / 128) 0#32 ^^^ errCrc h) } })
  else if kind = 2 ∨ kind = 3 then
    let w := e.off a / 8
    let x := if kind = 2 then 2 ^ d else 2 ^ d + 2 ^ (d + 1)
    some (markInjected [injKey (b2n copy) w] (xorMainErr copy w x h))
  else if kind = 5 then
    match findSector h a with
    | none => none
    | some s => if s.way = d then some (putSector { s with tagPar := !s.tagPar } h) else none
  else if kind = 6 then
    match h.sieve.find? (fun s => s.host == d && s.live && overlaps s.addr (granOf h s.host) (a / 128 * 128) 128) with
    | none => none
    | some s => some { h with sieve := h.sieve.map (fun x => if x == s then { x with par := !x.par } else x) }
  else
    some (pathNote a 1 h)

/-- Places errors at addresses in turn; answers how many were placed. -/
def placeErrs (kind d : Nat) (copy : Bool) (e : REntry) : List Nat → Nat × Hub → Nat × Hub
  | [], p => p
  | a :: r, p =>
    match placeErr kind d a copy e p.2 with
    | none => placeErrs kind d copy e r p
    | some h => placeErrs kind d copy e r (p.1 + 1, h)

/-- ERR_INJECT (R279). -/
def bodyErrInject : CmdBody := fun _ c h =>
  let kind := bits c.arg0.toNat 3 0
  let d := bits c.arg0.toNat 15 8
  let copy := bitOf c.arg0.toNat 16
  let a := c.arg1.toNat
  let n := c.arg2.toNat
  match injectEntry h kind d n a copy with
  | none => ended h stBadArg
  | some e =>
    if (kind = 0 ∨ kind = 1 ∨ kind = 4) ∧ !h.life.arrayUp then ended h stWrong
    else
      let step := if kind = 2 ∨ kind = 3 then 8 else 128
      let p := placeErrs kind d copy e ((List.range n).map (fun i => a / step * step + step * i)) (0, { h with free := h.free + 1 })
      ended p.2 (if p.1 = n then stOk else stPartial) p.1

def effErrInject (m : Nat) (c : CmdWord) (h : Hub) : Hub := takeCmd m 0x3A c bodyErrInject h

/-! ### LEDGER_ERASE (R280) -/

/-- Record number of a MASK bit (Table: Ledger records). -/
def eraseRec (b : Nat) : Nat := if b = 0 then 0x40 else if b = 1 then 0x50 else if b = 2 then 0x60 else if b = 3 then 0x90 else 0x70

/-- One record erased. -/
def eraseBit (b : Nat) (h : Hub) : Hub :=
  if b = 0 then { h with led := { h.led with retire := [] } }
  else if b = 1 then { h with led := { h.led with remap := [] } }
  else if b = 2 then
    { h with led := { h.led with failed := 0#11, rowSpread := [], posD10 := 15 },
             integ := { h.integ with failed := 0#11, posD10 := 15, degraded := false, rebuild := false } }
  else if b = 3 then { h with led := { h.led with typeCnt := [], sev3 := [], power := [] } }
  else { h with led := { h.led with training := [] } }

/-- Writes each record that a mask names; answers whether all were verified. -/
def eraseAll : List Nat → Hub → Bool × Hub
  | [], h => (true, h)
  | b :: r, h =>
    match ledgerWrite (eraseRec b) h with
    | (false, h) => (false, (eraseAll r h).2)
    | (true, h) => eraseAll r (eraseBit b h)

/-- LEDGER_ERASE (R280). -/
def bodyLedgerErase : CmdBody := fun _ c h =>
  let mask := bits c.arg0.toNat 4 0
  if mask = 0 then ended h stBadArg
  else if mask % 8 ≠ 0 ∧ (h.cache.cst != .off || h.life.arrayUp) then ended h stWrong
  else
    let (ok, h) := eraseAll (bitList mask 5) h
    ended h (if ok then stOk else stNoRes)

def effLedgerErase (m : Nat) (c : CmdWord) (h : Hub) : Hub := takeCmd m 0x3B c bodyLedgerErase h

end Sys2Proof.Machine
end

