-- ==== Sys2Proof/Machine/Twin.lean ====
section
/-! DEFINITION. The twin link's coherence (R31, R132 to R134, R340 to R343): requests of local hosts for twin-homed addresses, snoops and
forwards from the twin, the proxy's own notices, and what the twin answers. -/

namespace Sys2Proof.Machine

/-- Whether LL7 is a trained twin link. -/
def twinUp (h : Hub) : Bool := isTwinLink h 7 && linkTrained h 7

/-! ### The proxy (R130, R132) -/

/-- Granule of the proxy. -/
def proxyGran (h : Hub) : Nat := wordLine (twinGeom h)

/-- Proxy set of an address. -/
def proxySet (h : Hub) (a : Nat) : Nat := a / proxyGran h % wordSets (twinGeom h)

/-- First byte of the proxy granule of an address. -/
def proxyLo (h : Hub) (a : Nat) : Nat := a / proxyGran h * proxyGran h

/-- The proxy's entry for an address. -/
def proxyEnt (h : Hub) (a : Nat) : Option SEnt := h.twin.proxy.find? (fun e => e.addr == proxyLo h a)

/-- The state the twin shows the proxy in. -/
def proxySt (h : Hub) (a : Nat) : Nat := ((proxyEnt h a).map SEnt.st).getD 0

/-- The hub with the proxy's state for an address set; I removes the entry. -/
def setProxy (a way st : Nat) (h : Hub) : Hub :=
  let rest := h.twin.proxy.filter (fun e => e.addr != proxyLo h a)
  if st = 0 then { h with twin := { h.twin with proxy := rest } }
  else { h with twin := { h.twin with proxy := rest ++ [{ host := 7, set := proxySet h a, way := way, addr := proxyLo h a, st := st, seq := h.nextId }] },
                nextId := h.nextId + 1 }

/-- Local holders of a range, other than host `ex`. -/
def localHolders (h : Hub) (lo n ex : Nat) : List SEnt := (holders h lo n ex).filter (fun e => decide (e.host < 7))

/-! ### Messages -/

/-- Response opcode of a request (Table: Responses per request); none where it is never answered. -/
def respOp (op : Nat) : Option Nat :=
  if op = 0x11 ∨ op = 0x12 ∨ op = 0x13 ∨ op = 0x14 ∨ op = 0x16 ∨ op = 0x25 then some 0xA2
  else if op = 0x15 ∨ op = 0x21 ∨ op = 0x22 ∨ op = 0x23 ∨ op = 0x24 then some 0xA1
  else if op = 0x26 then some 0xA5
  else if op = 0x31 then some 0xB2
  else if op = 0x32 then some 0xB3
  else if op = 0x33 then some 0xA3
  else if op = 0x39 then some 0xA4
  else none

/-- Answers a request that is not performed, with a link status (R331). -/
def refuse (r : Req) (lstat : Nat) (h : Hub) : Hub :=
  match respOp r.op with
  | none => h
  | some op => reply r { op := op, lstat := lstat } h

/-- A tag that no request sent on LL7 holds, searched from a free value (log entry 3). -/
def twinTag (h : Hub) : Nat :=
  let used := (h.twin.reqs.filter (fun q => q.ph == 1)).map TwinReq.ownTag
  let b := (Config.freeTag h.free).toNat
  ((List.range 4096).map (fun i => (b + i) % 4096)).find? (fun i => !used.contains i) |>.getD b

/-- Stream of a request on LL7 (R340, R342). -/
def twinStream (r : Req) : Nat := if r.src == .link then 128 * r.link + r.stream % 128 else 896 + r.stream

/-- Opcode on LL7: a host without a cache reads once (R336), and a line write of another granule than the proxy's is a partial one. -/
def twinOp (h : Hub) (q : TwinReq) : Nat :=
  let op := q.req.op
  if q.req.host == 8 && (op == 0x11 || op == 0x12) then 0x13
  else if op == 0x21 && q.size != proxyGran h then 0x22
  else op

/-- Data slots of a request on LL7: the byte enables of a large partial write come first (R331). -/
def twinData (op : Nat) (r : Req) : List Byte :=
  if r.data.isEmpty then []
  else if (op = 0x22 ∨ op = 0x23) ∧ 64 ≤ r.size then
    fitBytes 16 (toBytes 16 (sumOf ((List.range r.mask.length).map (fun i => b2n (r.mask.getD i false) * 2 ^ i)))) ++ r.data
  else if op = 0x25 ∨ op = 0x26 then r.data
  else slotData r.addr r.data

/-- A request handed to LL7 (R133, R340). -/
def sendTwin (q : TwinReq) (h : Hub) : Hub :=
  let tag := twinTag h
  let op := twinOp h q
  let vc := q.req.carried == 0
  let h := { h with free := h.free + 1, twin := { h.twin with reqs := h.twin.reqs.map (fun x => if x.key == q.key then { x with ph := 1, ownTag := tag, retry := false } else x) } }
  sendMsg 7 { op := op, vc := vc, cls := q.req.carried, pid := q.req.pid, stream := twinStream q.req, tag := tag, addr := q.addr,
              len := Nat.log2 q.size, hway := q.way.getD 0, sub := q.req.sub, data := twinData op q.req } h

/-! ### Taking copies back -/

/-- The transaction in whose name a group sends its snoops. -/
def TwinSnp.asks (t : TwinSnp) : Txn := { id := t.key, req := { op := 0, carried := if t.vc then 0 else 3, addr := t.addr } }

/-- Takes copies back: SNP_UNIQUE to an owner, SNP_INVAL to the others; of a victim, an owner in E is sent SNP_INVAL (R128). -/
def takeCopies (t : TwinSnp) (victim : Bool) (es : List SEnt) (h : Hub) : Hub :=
  forEach es (fun e h => issueSnp (if (if victim then 4 else 3) ≤ e.st then 1 else 2) e e.owns t.asks h) h

/-- A group of local copies being asked for, and the snoops it sends. -/
def startTake (t : TwinSnp) (victim : Bool) (es : List SEnt) (h : Hub) : Hub :=
  takeCopies t victim es { h with twin := { h.twin with snps := h.twin.snps ++ [t] } }

/-- A fresh key. -/
def takeKey (h : Hub) : Nat × Hub := (h.nextId, { h with nextId := h.nextId + 1 })

/-- Takes a granule back from local hosts for a request (R133). -/
def takeBack (kind forReq lo n : Nat) (vc victim : Bool) (es : List SEnt) (h : Hub) : Hub :=
  let (k, h) := takeKey h
  startTake { key := k, kind := kind, addr := lo, size := n, vc := vc, forReq := forReq } victim es h

/-- A WRITE_BACK of the proxy's own. -/
def ownBack (key a : Nat) (d : List Byte) : TwinReq :=
  { key := key, req := { op := 0x33, src := .backInv, addr := a, size := d.length, data := d, mask := List.replicate d.length true },
    addr := a, size := d.length }

/-- The proxy's own notice for a granule that has left the local hosts (R102, R133): WRITE_BACK with dirty data, EVICT_NOTE for E or F. -/
def proxyNotice (lo : Nat) (n : Nat) (dirty : Bool) (pieces : List (Nat × List Byte)) (h : Hub) : Hub :=
  let p := proxySt h lo
  let h := setProxy lo 0 0 h
  if !(twinUp h) then h
  else if dirty && 3 ≤ p then
    forEach pieces (fun d h =>
      let q := ownBack h.nextId d.1 d.2
      sendTwin q { h with nextId := h.nextId + 1, twin := { h.twin with reqs := h.twin.reqs ++ [q] } }) h
  else if p = 2 ∨ p = 3 then
    sendMsg 7 { op := 0x34, cls := 3, stream := 896, addr := lo, len := Nat.log2 n } h
  else h

/-! ### Requests of local hosts -/

/-- Whether a type is kept coherent across the link. -/
def sievedAt (h : Hub) (a : Nat) : Bool := (entryOf h a).typ.sieve

/-- Whether a request asks for a state. -/
def wantsState (r : Req) : Bool := decide (r.host < 8) && (r.op == 0x11 || r.op == 0x12 || r.op == 0x15)

/-- Whether a request goes on behind an earlier one for its granule, or behind one of its stream for its line that has not been sent (R160). -/
def twinBehind (h : Hub) (q : TwinReq) : Bool :=
  let lo := proxyLo h q.addr
  (h.twin.reqs.takeWhile (fun x => x.key != q.key)).any (fun x => x.ph != 3
      && (overlaps (proxyLo h x.addr) (proxyGran h) lo (proxyGran h)
        || (x.ph == 0 && x.req.link == q.req.link && x.req.stream == q.req.stream && x.req.line == q.req.line)))
    || h.twin.reqs.any (fun x => x.req.op == 0x33 && x.ph != 3 && overlaps x.addr x.size lo (proxyGran h))
    || h.twin.snps.any (fun s => s.kind != 6 && s.kind != 7 && overlaps s.addr s.size lo (proxyGran h))

/-- Local copies of a request's proxy granule but the one of the requester's own granule. -/
def otherCopies (h : Hub) (q : TwinReq) : List SEnt :=
  (localHolders h (proxyLo h q.addr) (proxyGran h) 9).filter (fun e =>
    !(e.host == q.req.host && overlaps e.addr (granOf h e.host) q.req.addr q.req.size))

/-- Whether the local copies must go before a request can be sent, since the twin would see it as the proxy's violation (Table: Requests at the
home), or since a write leaves none beside it. -/
def mustTake (h : Hub) (q : TwinReq) (others : List SEnt) : Bool :=
  let op := q.req.op
  let p := proxySt h q.addr
  if op = 0x11 then decide (2 ≤ p)
  else if op = 0x15 ∧ p = 4 ∧ hostSt h q.req.host q.req.addr = 4 then false
  else if op = 0x12 ∨ op = 0x15 ∨ op = 0x13 ∨ op = 0x16 then decide (3 ≤ p)
  else if writesLine op && op != 0x33 then !others.isEmpty
  else false

/-- The proxy way of a request (R128, R130): its granule's, a free one, or a victim that is taken back first. -/
def pickWay (q : TwinReq) (h : Hub) : Option Nat × Hub :=
  match proxyEnt h q.addr with
  | some e => (some e.way, h)
  | none =>
    let set := proxySet h q.addr
    let mine := h.twin.proxy.filter (fun e => e.set == set)
    let taken := (h.twin.reqs.filter (fun x => x.key != q.key && x.ph != 3 && proxySet h x.addr == set)).filterMap TwinReq.way
    match (List.range (wordWays (twinGeom h))).find? (fun w => !mine.any (fun e => e.way == w) && !taken.contains w) with
    | some w => (some w, h)
    | none =>
      let openE := fun (e : SEnt) => h.twin.reqs.any (fun x => x.ph != 3 && x.req.op != 0x39 && proxyLo h x.addr == e.addr)
        || h.twin.snps.any (fun s => overlaps s.addr s.size e.addr (proxyGran h))
      match minBy SEnt.seq (mine.filter (fun e => !openE e && !taken.contains e.way)) with
      | none => (none, h)
      | some v => (some v.way, takeBack 5 q.key v.addr (proxyGran h) (q.req.carried == 0) true (localHolders h v.addr (proxyGran h) 9) h)

/-- Changes a request on its way to the twin. -/
def updTwin (key : Nat) (f : TwinReq → TwinReq) (h : Hub) : Hub :=
  { h with twin := { h.twin with reqs := h.twin.reqs.map (fun x => if x.key == key then f x else x) } }

/-- A granule's local copies are taken back for a request; where there is none, the proxy's notice goes at once. -/
def goTake (q : TwinReq) (h : Hub) : Hub :=
  let lo := proxyLo h q.addr
  let es := localHolders h lo (proxyGran h) 9
  if es.isEmpty then proxyNotice lo (proxyGran h) false [] h
  else takeBack 5 q.key lo (proxyGran h) (q.req.carried == 0) false es h

/-- The requester's own copy goes with a write it sends (R141). -/
def dropOwn (q : TwinReq) (h : Hub) : Hub :=
  if writesLine q.req.op && q.req.op != 0x33 then
    let lo := q.req.addr / q.req.size * q.req.size
    setProxy q.addr 0 0 (if q.req.host < 8 then dropHost q.req.host lo q.req.size h else h)
  else h

/-- A request takes a place in the Sieve retry queue of its die, where one of the 16 is free (R129, R130); none where it has one already, or where it
must wait for a place (R19). -/
def twinRetry (q : TwinReq) (h : Hub) : Option Hub :=
  if q.retry || decide (16 ≤ retryDepth h (homeDie q.req.addr)) then none
  else some (updTwin q.key (fun x => { x with retry := true }) (pmuReq 0x0B q.req h))

/-- What the position that a grant will take in the local Sieve asks for (R101, R128). -/
inductive TwinSpot where
  /-- It is the requester's. -/
  | ready
  /-- The request waits in the retry queue. -/
  | retry
  /-- Something has begun that the request waits for. -/
  | moved (h : Hub)

/-- The position a grant will take in the local Sieve: it is taken now, or its victim is asked back. -/
def localSpot (q : TwinReq) (h : Hub) : TwinSpot :=
  if !(wantsState q.req) || h.sieve.any (fun e => e.host == q.req.host && e.addr == q.req.addr / granOf h e.host * granOf h e.host
      && (e.way == q.req.hway || compressed h e.host || (q.req.op == 0x15 && e.live))) then .ready
  else match findSpot h q.key q.req.host q.req.addr q.req.hway with
    | .free w => .moved (putEntry q.req.host q.req.addr w (hostSt h q.req.host q.req.addr) h)
    | .retry => .retry
    | .victim v =>
      if (entryOf h v.addr).here h then .moved (backInval { id := q.key, req := q.req } v h)
      else
        let es := if v.owns then localHolders h (proxyLo h v.addr) (proxyGran h) 9 else [v]
        .moved (takeBack 5 q.key (proxyLo h v.addr) (proxyGran h) false true es h)

/-- A WRITE_BACK or castout of a local host goes on LL7 once no local host holds its proxy granule, since the twin then shows the proxy in I. -/
def noticeGo (q : TwinReq) (h : Hub) : Option Hub :=
  let lo := proxyLo h q.addr
  let es := localHolders h lo (proxyGran h) 9
  if h.twin.snps.any (fun s => s.forReq == q.key) then none
  else if es.isEmpty then some (sendTwin q (setProxy lo 0 0 h))
  else some (takeBack 9 q.key lo (proxyGran h) (q.req.carried == 0) false es h)

/-- Lets a request that waits go on; none where it must wait. A DEV access waits for its stream's earlier ones, whatever their home (R161). -/
def twinGo (q : TwinReq) (h : Hub) : Option Hub :=
  if q.ph != 0 then none
  else if q.req.op == 0x33 || q.req.op == 0x31 || q.req.op == 0x32 then noticeGo q h
  else if !q.req.ent.typ.sieve then (if devOpen h q.req then none else some (sendTwin q h))
  else if twinBehind h q || h.twin.snps.any (fun s => s.forReq == q.key)
      || h.txns.any (fun t => t.req.op == opBack && t.req.job == q.key) then none
  else if mustTake h q (otherCopies h q) then some (goTake q h)
  else
    match localSpot q h with
    | .retry => twinRetry q h
    | .moved h => some h
    | .ready =>
      if !(wantsState q.req) then some (sendTwin q (dropOwn q h))
      else match q.way with
        | some _ => some (sendTwin q h)
        | none =>
          match pickWay q h with
          | (none, _) => twinRetry q h
          | (some w, h) => some (updTwin q.key (fun x => { x with way := some w, retry := false }) h)

/-! ### Answers from the twin -/

/-- Whether a request's answer is complete: a read needs COMP_DATA, or DATA and COMP; an upgrade's COMP suffices while the proxy still
holds the granule (R106, R332). -/
def twinComplete (h : Hub) (q : TwinReq) (m : Msg) : Bool :=
  m.lstat != 0 || m.op == 0xA2 || (q.data && q.comp)
    || (q.comp && !(q.req.op == 0x11 || q.req.op == 0x12 || (q.req.op == 0x15 && proxySt h q.addr == 0)))

/-- The answer passed on to the local host, with its state recorded in the local Sieve (R133). -/
def deliverTwin (q : TwinReq) (h : Hub) : Hub :=
  let r := q.req
  let m : Msg := q.resp.getD { op := 0 }
  let drop := fun (h : Hub) => { h with twin := { h.twin with reqs := h.twin.reqs.filter (fun x => x.key != q.key) } }
  if r.src == .hub0 then updTwin q.key (fun x => { x with ph := 3 }) h
  else
    let d := slice m.data (r.addr - q.addr) (if r.op = 0x25 then 16 else if r.size < 16 then 16 else r.size)
    let mine := h.sieve.find? (fun e => e.host == r.host && e.addr == r.addr / granOf h r.host * granOf h r.host)
    let h :=
      if !(wantsState r) then h
      else if m.lstat == 0 && m.state != 0 then
        if (snoopLink h r.host).isSome then putEntry r.host r.addr ((mine.map SEnt.way).getD r.hway) m.state h
        else
          let h := setHostSt r.host r.addr 0 h
          if (localHolders h (proxyLo h q.addr) (proxyGran h) 9).isEmpty then proxyNotice (proxyLo h q.addr) (proxyGran h) (m.state == 5) [(q.addr, m.data)] h else h
      else if m.lstat == 1 || hostSt h r.host r.addr == 0 then setHostSt r.host r.addr 0 h
      else h
    let op := if m.op = 0x93 then 0xA2 else if q.data then 0xA2 else m.op
    drop (reply r { op := op, lstat := m.lstat, state := if wantsState r then m.state else 0, reason := m.reason, declined := m.declined, pass := m.pass, data := d } h)

/-- The proxy takes the state that an answer grants, and the local sharers beside an exclusive grant are removed before it is passed on. An answer
DATA_ERROR leaves the granule in I, without the data already received (R153). -/
def settleGrant (q : TwinReq) (m : Msg) (h : Hub) : Hub :=
  let lost := m.lstat == 1
  let m := if lost then { m with data := [], state := 0 } else m
  let asks := wantsState q.req
  let h := if asks && (lost || m.lstat == 0) then setProxy q.addr (q.way.getD 0) m.state h else h
  let h := updTwin q.key (fun x => { x with ph := 2, resp := some m }) h
  let others := otherCopies h q
  if asks && (lost || (m.lstat == 0 && (m.state == 3 || m.state == 5))) && !others.isEmpty then
    takeBack 6 q.key (proxyLo h q.addr) (proxyGran h) (q.req.carried == 0) false others h
  else h

/-- The data of a group put together; none where it does not cover the granule. -/
def TwinSnp.whole (t : TwinSnp) : Option (List Byte) :=
  if (List.range t.size).all (fun i => t.pieces.any (fun p => decide (p.1 ≤ t.addr + i) && decide (t.addr + i < p.1 + p.2.length))) then
    some (t.pieces.foldl (fun d p => splice d (p.1 - t.addr) p.2) (List.replicate t.size 0#8))
  else none

/-- Whether the proxy's WRITE_BACK for a granule awaits its WB_ACK (R125). -/
def wbAway (h : Hub) (lo n : Nat) : Bool := h.twin.reqs.any (fun q => q.req.op == 0x33 && q.ph != 3 && overlaps q.addr q.size lo n)

/-- The proxy's answer to SNP_SHARED (Table: Host answers by state): an owner goes to S with its data; F keeps F while a local holder returned F's data,
and answers S without data where only sharers are left; where none is left, its notice goes before the answer I (R126). -/
def endShared (t : TwinSnp) (ans : Msg) (h : Hub) : Hub :=
  let p := proxySt h t.addr
  let d := t.whole.getD []
  if (localHolders h t.addr t.size 9).isEmpty then
    if d.isEmpty then sendMsg 7 ans (proxyNotice t.addr t.size false [] h)
    else sendMsg 7 { ans with dirty := t.dirty, data := d } (setProxy t.addr 0 0 h)
  else if 3 ≤ p then
    sendMsg 7 { ans with state := 1, dirty := t.dirty, data := d } (setProxy t.addr (((proxyEnt h t.addr).map SEnt.way).getD 0) 1 h)
  else sendMsg 7 { ans with state := if p = 2 ∧ !d.isEmpty then 2 else min p 1, data := d } h

/-- Ends a group whose local answers are all in. -/
def endTake (t : TwinSnp) (h : Hub) : Hub :=
  let h := { h with twin := { h.twin with snps := h.twin.snps.filter (fun s => s.key != t.key) } }
  let ans : Msg := { op := 0x91, vc := t.vc, snpid := t.snpid, addr := t.addr }
  if t.kind ≤ 2 then
    if t.wbp then sendMsg 7 { ans with wbPending := true } (setProxy t.addr 0 0 h)
    else if t.dirty && t.whole.isNone then
      sendMsg 7 { ans with wbPending := true } (proxyNotice t.addr t.size true t.pieces h)
    else if t.kind = 0 then endShared t ans h
    else sendMsg 7 { ans with dirty := t.dirty, data := if t.kind = 2 then [] else t.whole.getD [] } (setProxy t.addr 0 0 h)
  else if t.kind ≤ 4 then
    if t.wbp then sendMsg 7 { ans with wbPending := true } (setProxy t.addr 0 0 h)
    else
      let way := ((proxyEnt h t.addr).map SEnt.way).getD 0
      if t.passed then sendMsg 7 { ans with op := 0x92, passed := true } h
      else
        let h := sendMsg 7 { op := 0x93, vc := t.vc, snpid := t.snpid, addr := t.addr, kind := 1, data := t.whole.getD [] } (setProxy t.addr way t.st h)
        sendMsg 7 { ans with op := 0x92, state := t.st, dirty := t.dirty } h
  else if t.kind = 5 then proxyNotice t.addr t.size t.dirty t.pieces h
  else if t.kind = 9 then (if t.dirty then proxyNotice t.addr t.size true t.pieces h else h)
  else if t.kind = 8 then
    let h := proxyNotice t.addr t.size t.dirty t.pieces h
    if wbAway h t.addr t.size then sendMsg 7 { ans with wbPending := true } h
    else if t.shared then sendMsg 7 ans h
    else sendMsg 7 { ans with op := 0x92, passed := true } h
  else h

/-! ### Snoops from the twin (R134) -/

/-- Starts a snoop or forward from the twin at the local holders: SNP_SHARED asks an owner, or for a proxy in F the holder of F's data; where a
local granule is narrower than the proxy's, an answer with its data cannot be put together, and the copies are taken back (log entry 35). -/
def startTwinSnp (t : TwinSnp) (h : Hub) : Hub :=
  let hs := localHolders h t.addr t.size 9
  let own := hs.filter SEnt.owns
  let put := fun (t : TwinSnp) (h : Hub) => { h with twin := { h.twin with snps := (h.twin.snps.filter (fun s => s.key != t.key)) ++ [{ t with held := false }] } }
  let narrow := fun (es : List SEnt) => es.any (fun e => granOf h e.host != t.size) || decide (2 ≤ es.length)
  let giveUp := fun (shared : Bool) (h : Hub) => takeCopies t false hs (put { t with kind := 8, shared := shared } h)
  if wbAway h t.addr t.size then
    sendMsg 7 { op := 0x91, vc := t.vc, snpid := t.snpid, addr := t.addr, wbPending := true } { h with twin := { h.twin with snps := h.twin.snps.filter (fun s => s.key != t.key) } }
  else if t.kind = 0 then
    let es := hs.filter (fun e => decide (2 ≤ e.st))
    if narrow es then giveUp true h else forEach es (fun e h => issueSnp 0 e e.owns t.asks h) (put t h)
  else if t.kind = 1 then takeCopies t false hs (put t h)
  else if t.kind = 2 then forEach hs (fun e h => issueSnp 2 e e.owns t.asks h) (put t h)
  else if own.isEmpty then put { t with passed := true } h
  else if narrow own then giveUp false h
  else
    let rest := if t.kind = 4 then hs.filter (fun e => !e.owns) else []
    forEach rest (fun e h => issueSnp 2 e false t.asks h) (forEach own (fun o h => issueSnp t.kind o true t.asks h) (put t h))

/-- Whether a snoop or forward from the twin is held: a response for its granule has come in part (R116, R151), or has not been passed on (R146), or
copies of it are being taken back. -/
def twinHolds (h : Hub) (t : TwinSnp) : Bool :=
  h.twin.reqs.any (fun q => (q.ph == 2 || (q.ph == 1 && q.req.op != 0x33 && (q.data || q.comp))) && overlaps (proxyLo h q.addr) (proxyGran h) t.addr t.size)
    || h.twin.snps.any (fun s => !s.held && (s.kind == 5 || 8 ≤ s.kind) && overlaps s.addr s.size t.addr t.size)

/-! ### Going on -/

/-- One thing at the twin that can go on: a group that is complete, a held snoop, an answer to pass on, a request to send. -/
def twinStep (h : Hub) : Option Hub :=
  match h.twin.snps.find? (fun t => !t.held && !(h.snps.any (fun s => s.txn == t.key))) with
  | some t => some (endTake t h)
  | none =>
    match h.twin.snps.find? (fun t => t.held && !(twinHolds h t)) with
    | some t => some (startTwinSnp t h)
    | none =>
      match h.twin.reqs.find? (fun q => q.ph == 2 && !(h.twin.snps.any (fun t => t.kind == 6 && t.forReq == q.key))
          && !(q.req.op == 0x33 && h.snps.any (fun s => s.host == q.req.host && overlaps s.addr s.size q.addr q.size))) with
      | some q => some (deliverTwin q h)
      | none => h.twin.reqs.findSome? (fun q => twinGo q h)

/-- Lets everything at the twin go on that can. -/
def twinLoop : Nat → Hub → Hub
  | 0, h => h
  | n + 1, h => match twinStep h with | some h => twinLoop n h | none => h

/-- As many turns as requests and groups can need. -/
def twinSettle (h : Hub) : Hub := twinLoop (16 * (h.twin.reqs.length + h.twin.snps.length + 2)) h

/-- What a request asks for on LL7: reads of a state and lines cover the proxy's granule. -/
def twinReqOf (key : Nat) (r : Req) (h : Hub) : TwinReq :=
  let r := r.mapped h
  let wide := r.ent.typ.sieve && (r.op == 0x11 || r.op == 0x12 || r.op == 0x15 || r.op == 0x16) && decide (r.size < proxyGran h)
  if wide then { key := key, req := r, addr := proxyLo h r.addr, size := proxyGran h } else { key := key, req := r, addr := r.addr, size := r.size }

/-- A notice of a local host for a twin-homed granule (R102, R133): the local entry goes, and an EVICT_NOTE of the proxy's follows where no local
host holds its granule; a WRITE_BACK or a castout always goes, and satisfies the local snoops answered WB_PENDING. -/
def twinNotice (r : Req) (h : Hub) : Hub :=
  let lo := r.addr / r.size * r.size
  let h := noticeCloses r.host lo r.size (setHostSt r.host r.addr 0 h)
  if r.op = 0x34 then
    let p := proxySt h r.addr
    if p = 0 || !(localHolders h (proxyLo h r.addr) (proxyGran h) 9).isEmpty then h
    else
      sendMsg 7 { op := 0x34, vc := r.vc, cls := r.carried, pid := r.pid, stream := twinStream r, addr := proxyLo h r.addr, len := Nat.log2 (proxyGran h) }
        (setProxy r.addr 0 0 h)
  else
    { h with nextId := h.nextId + 1, twin := { h.twin with reqs := h.twin.reqs ++ [twinReqOf h.nextId r h] },
             snps := h.snps.filter (fun s => !(s.wb && s.host == r.host && overlaps s.addr s.size lo r.size)) }

/-- What a lost host held in M or O (R120, R338): a line homed here is marked POISONED. Data of a twin-homed one is lost, and LL7 has no message that
marks it: the proxy gives its granule up with a WRITE_BACK of unknown bytes, a free value (DESIGN CHOICE, log entry 70). -/
def loseLine (a n : Nat) (h : Hub) : Hub :=
  if (entryOf h a).here h then poisonHome a h
  else if !(sievedAt h a) || !(twinUp h) || wbAway h a n then h
  else { h with free := h.free + 1, nextId := h.nextId + 1,
                twin := { h.twin with reqs := h.twin.reqs ++ [ownBack h.nextId a (fitBytes n (Config.freeGranule h.free))] } }

/-- What the proxy gives up with the clean copies of a lost host: its notice, where no local host holds the granule (R102). -/
def loseClean (a : Nat) (h : Hub) : Hub :=
  let lo := proxyLo h a
  if (entryOf h a).here h || !((localHolders h lo (proxyGran h) 9).isEmpty) || wbAway h lo (proxyGran h) then h
  else proxyNotice lo (proxyGran h) false [] h

/-- Whether a local host's request for a granule breaks the tables as its own state stands. -/
def twinBreaks (h : Hub) (r : Req) : Bool :=
  let q := if r.host < 8 then hostSt h r.host r.addr else 0
  if r.op = 0x11 then decide (2 ≤ q)
  else if r.op = 0x12 ∨ r.op = 0x13 ∨ r.op = 0x16 then decide (3 ≤ q)
  else if r.op = 0x15 then q == 3 || q == 5
  else if r.op = 0x21 ∨ r.op = 0x24 then false
  else if r.op = 0x33 then q == 1 || q == 2
  else if r.op = 0x34 ∨ r.op = 0x31 ∨ r.op = 0x32 then decide (4 ≤ q)
  else writesLine r.op && decide (4 ≤ q)

/-- An accepted request whose address is homed on the twin (R133, R340, R343). A RD_RESV or ST_COND releases the stream's reservation on this hub, since
a stream holds at most one (R167 to R169; DEDUCED, log entry 121). -/
def toTwin (r : Req) (h : Hub) : Hub :=
  let r := r.mapped h
  let notice := r.op == 0x33 || r.op == 0x34 || r.op == 0x31 || r.op == 0x32
  if undefinedAt h r.addr r.size then
    if r.src == .hub0 then
      let q : TwinReq := { key := h.nextId, req := r, addr := r.addr, size := r.size, ph := 3, resp := some { op := 0xA2, data := Config.freeGranule h.free } }
      { h with nextId := h.nextId + 1, free := h.free + 1, twin := { h.twin with reqs := h.twin.reqs ++ [q] } }
    else freeReply r h
  else if !(twinUp h) then refuse r 1 (if notice then setHostSt r.host r.addr 0 h else h)
  else if r.ent.typ.sieve && twinBreaks h r then violate (r.addr / 64 * 64) (max 64 r.size) h
  else if notice then twinSettle (twinNotice r h)
  else
    let h := if r.op = 0x26 ∨ (r.op = 0x16 ∧ (r.ent.typ.sieve || r.ent.typ == .kettle)) then releaseResv r.link r.stream h else h
    let (k, h) := takeKey h
    twinSettle { h with twin := { h.twin with reqs := h.twin.reqs ++ [twinReqOf k r h] } }

/-- Data of a castout that the twin accepted goes on with its offer's tag (R62). -/
def toTwinCast (r : Req) (h : Hub) : Option Hub :=
  match h.twin.reqs.find? (fun q => q.req.op == 0x31 && q.ph == 1 && q.req.link == r.link && q.req.tag == r.tag && q.req.addr == r.addr) with
  | none => none
  | some q => some (sendMsg 7 { op := 0x32, vc := r.vc, cls := r.carried, pid := r.pid, stream := twinStream q.req, tag := q.ownTag,
                                addr := q.addr, len := Nat.log2 q.size, data := r.data } h)

/-- The request that an answer's tag names. -/
def twinOf (h : Hub) (stream tag : Nat) : Option TwinReq :=
  h.twin.reqs.find? (fun q => q.ph == 1 && q.ownTag == tag && twinStream q.req == stream)

/-- An answer from the twin for a request sent on LL7 (R133, R332); one that names none is discarded. -/
def twinAnswer (stream tag : Nat) (m : Msg) (h : Hub) : Hub :=
  match twinOf h stream tag with
  | none => h
  | some q =>
    if m.op = 0xB1 then reply q.req { op := 0xB1 } h
    else
      let old : Msg := q.resp.getD { op := m.op }
      let q' : TwinReq := { q with data := q.data || m.op == 0x93, comp := q.comp || m.op == 0xA1 || (m.op != 0x93 && m.op != 0xA2),
                                   resp := some { m with data := if m.data.isEmpty then old.data else m.data,
                                                         state := if m.op = 0x93 then old.state else m.state,
                                                         op := if m.op = 0x93 then old.op else m.op } }
      let h := updTwin q.key (fun _ => q') h
      let r := q'.resp.getD m
      if twinComplete h q' r then settle (twinSettle (settleGrant q' r h)) else h

/-- A snoop or forward that arrives on LL7 (R134). It waits behind a grant that is not yet passed on (R146). -/
def twinSnoop (kind snpid a n : Nat) (vc : Bool) (h : Hub) : Hub :=
  let (k, h) := takeKey h
  twinSettle { h with twin := { h.twin with snps := h.twin.snps ++ [{ key := k, kind := kind, snpid := snpid, addr := a, size := n, vc := vc, held := true }] } }

/-- The group that a local snoop belongs to. -/
def groupOf (h : Hub) (s : Snp) : Option TwinSnp := h.twin.snps.find? (fun t => t.key == s.txn)

/-- Changes a group. -/
def updGroup (key : Nat) (f : TwinSnp → TwinSnp) (h : Hub) : Hub :=
  { h with twin := { h.twin with snps := h.twin.snps.map (fun t => if t.key == key then f t else t) } }

/-- Whether Table: Answers at the home allows a SNP_RSP of a local host, shown in `shown`, for a group's snoop. -/
def groupFits (s : Snp) (shown st : Nat) (wbp has : Bool) : Bool :=
  if wbp then s.owner && st == 0 && !has
  else if 3 ≤ s.kind then false
  else if s.kind = 0 ∧ s.owner then
    if st = 0 then !has && decide (shown ≤ 3) else decide (st ≤ 2) && (has || decide (shown < 3))
  else if s.kind = 0 then st == 0 || st == 1 || (st == 2 && has)
  else st == 0 && (s.kind == 2 || !s.owner || has || decide (shown ≤ 3))

/-- A local host's SNP_RSP for a group; one answered WB_PENDING for copies taken back waits until the WRITE_BACK has come (R125). -/
def groupRsp (s : Snp) (st : Nat) (dirty wbp : Bool) (d : List Byte) (h : Hub) : Hub :=
  let takes := match groupOf h s with | some t => decide (5 ≤ t.kind) | none => false
  let h := lateCheck s h
  if !(groupFits s (hostSt h s.host s.addr) st wbp (!d.isEmpty)) then twinSettle (violate s.addr s.size h)
  else
    let h := setHostSt s.host s.addr (if s.kind = 0 ∧ !wbp then st else 0) h
    if wbp && takes && !(wbAway h s.addr s.size) then updSnp s (fun x => { x with wb := true }) h
    else
      twinSettle (updGroup s.txn (fun t => { t with
        dirty := t.dirty || (dirty && !d.isEmpty), wbp := t.wbp || wbp, pieces := if d.isEmpty then t.pieces else t.pieces ++ [(s.addr, d)] }) (closeSnp s h))

/-- A local host's FWD_DONE for a group. -/
def groupFwd (s : Snp) (st : Nat) (dirty passed : Bool) (h : Hub) : Hub :=
  let h := lateCheck s h
  let fits := if passed then !s.dataSeen && decide (hostSt h s.host s.addr ≤ 3)
    else if s.kind = 3 then (st == 4 && dirty) || (st == 1 && !dirty) else st == 0
  if s.kind < 3 || !fits then twinSettle (violate s.addr s.size h)
  else
    let h := updGroup s.txn (fun t => { t with st := st, dirty := dirty, passed := t.passed || passed }) h
    twinSettle (if passed then closeSnp s h
      else setHostSt s.host s.addr st (if s.dataSeen then closeSnp s h else updSnp s (fun x => { x with done := true }) h))

/-- DATA of a local owner for a forward from the twin: it goes on to LL7 with its FWD_DONE. -/
def groupData (s : Snp) (d : List Byte) (h : Hub) : Hub :=
  if s.kind < 3 || s.dataSeen then twinSettle (violate s.addr s.size h)
  else
    let h := updGroup s.txn (fun t => { t with pieces := t.pieces ++ [(s.addr, d)] }) h
    twinSettle (if s.done then closeSnp s h else updSnp s (fun x => { x with dataSeen := true }) h)

/-- Closes a group's snoop whose host is lost (R120): the twin is told to wait for the proxy's WRITE_BACK where one is on its way, and a forward is
answered PASSED else. -/
def closeGroup (s : Snp) (h : Hub) : Hub :=
  let wb := s.owner && wbAway h s.addr s.size
  updGroup s.txn (fun t => { t with wbp := t.wbp || wb, passed := t.passed || (decide (3 ≤ s.kind) && !wb) }) (closeSnp s h)

/-- A SNP_RSP, FWD_DONE or DATA whose identifier names a snoop of a group. -/
def isGroup (h : Hub) (s : Snp) : Bool := (txnOf h s.txn).isNone && (groupOf h s).isSome

/-! ### LL7 down (R343), SET_QUERY from the twin (R154) -/

/-- What LL7's loss does to the requests sent on it and to the copies its proxy mirrors. -/
def twinDown (h : Hub) : Hub :=
  let reqs := h.twin.reqs
  let proxied := h.twin.proxy
  let h : Hub := { h with twin := { h.twin with
      reqs := (reqs.filter (fun q => q.req.src == .hub0)).map (fun q => if q.ph == 3 then q else { q with ph := 3, resp := some { op := 0xA2, lstat := 1 } }),
      proxy := [], snps := h.twin.snps.map (fun t => { t with kind := 7, held := false }) } }
  let h := forEach (reqs.filter (fun q => q.req.src == .link)) (fun q h =>
    refuse q.req 1 (if wantsState q.req && hostSt h q.req.host q.req.addr == 0 then setHostSt q.req.host q.req.addr 0 h else h)) h
  let h := forEach proxied (fun e h =>
    let (k, h) := takeKey h
    let fake : Txn := { id := k, req := { op := 0, addr := e.addr } }
    let hs := localHolders h e.addr (proxyGran h) 9
    let h := { h with twin := { h.twin with snps := h.twin.snps ++ [{ key := k, kind := 7, addr := e.addr, size := proxyGran h }] } }
    forEach hs (fun x h => setHostSt x.host x.addr 0 (issueSnp 2 x x.owns fake h)) h) h
  settle (twinSettle h)

/-- One way of a SET_REPORT: address bits [47:6] and the state (R330). -/
def wayWord (e : Option SEnt) : List Byte :=
  match e with
  | none => toBytes 8 0
  | some x => toBytes 8 (x.addr / 64 % 2 ^ 42 + x.st * 2 ^ 42)

/-- LINK_CTL(SET_QUERY) from the twin: answered at once from the proxy (R154). -/
def setQuery (qid hset : Nat) (h : Hub) : Hub :=
  let ws := wordWays (twinGeom h)
  let d := (List.range ws).flatMap (fun w => wayWord (h.twin.proxy.find? (fun e => e.set == hset && e.way == w)))
  sendMsg 7 { op := 0xC3, vc := true, kind := 1, qid := qid, hset := hset, data := fitBytes (ceilDiv ws 2 * 16) d } h

end Sys2Proof.Machine
end

