-- ==== Sys2Proof/Machine/Recover.lean ====
section
/-! DEFINITION. Set recovery: a host's SET_REPORT after a Sieve parity error (R131, R154) or a lost link (R338). -/

namespace Sys2Proof.Machine

/-- One way of a SET_REPORT (R330): the granule's address and its state. -/
def reportWay (d : List Byte) (w : Nat) : Nat × Nat :=
  let v := ofBytes (slice d (8 * w) 8)
  (bits v 41 0 * 64, bits v 44 42)

/-- Entries that a report gives for one die of a host set. -/
def reportEntries (h : Hub) (v : Recovery) (d : List Byte) : List SEnt :=
  (List.range (d.length / 8)).filterMap (fun w =>
    let r := reportWay d w
    if r.2 = 0 ∨ homeDie r.1 ≠ v.die then none
    else some { host := v.host, set := v.set, way := w, addr := r.1, st := r.2, seq := h.nextId + w })

/-- Rewrites a set from a report: in compressed mode each line keeps the mirror way it had or takes a free one, and lines that do not
fit are answered apart. -/
def rewriteSet (v : Recovery) (es : List SEnt) (h : Hub) : List SEnt × Hub :=
  let old := h.sieve.filter (fun e => e.host == v.host && e.set == v.set && homeDie e.addr == v.die)
  let rest := h.sieve.filter (fun e => !(e.host == v.host && e.set == v.set && homeDie e.addr == v.die))
  let h := { h with nextId := h.nextId + 32 }
  if compressed h v.host then
    let ways := mirrorWays h (geomWord h v.host)
    let kept := es.filterMap (fun e => (old.find? (fun o => o.addr == e.addr)).map (fun o => { e with way := o.way }))
    let new := es.filter (fun e => !old.any (fun o => o.addr == e.addr))
    let free := (List.range ways).filter (fun w => !kept.any (fun e => e.way == w))
    let fit := List.zipWith (fun (e : SEnt) w => { e with way := w }) new free
    (new.drop free.length, { h with sieve := rest ++ kept ++ fit })
  else ([], { h with sieve := rest ++ es })

/-- Lines of a report that do not fit a mirror are taken back (R131). -/
def takeExtra (es : List SEnt) (h : Hub) : Hub :=
  forEach es (fun e h => backInval { id := 0, req := { op := 0, addr := e.addr } } e h) h

/-! ### A lost link (R338) -/

/-- Whether a message grants or completes something for a granule on a link. -/
def isResponse (m : Msg) : Bool := m.op == 0xA1 || m.op == 0xA2 || m.op == 0x93

/-- Responses for a granule that a lost link had not had acknowledged. -/
def unacked (h : Hub) (l g n : Nat) : List Msg :=
  let k := link h l
  ((k.replay.flatMap SentFlit.ends) ++ k.q.map Out.msg).filter (fun m => isResponse m && overlaps m.addr 1 g n)

/-- Sends a snoop or forward again on another link of its host, with a new identifier (R338). -/
def relaunch (s : Snp) (l : Nat) (h : Hub) : Hub :=
  let s' : Snp := { s with id := freshSnpId h s.host, link := l, sent := 0, timedOut := false }
  launchSnp s' { h with free := h.free + 1, snps := h.snps.map (fun x => if x.id == s.id && x.host == s.host then s' else x) }

/-- Settles one snoop or forward that a lost link carried, for a granule shown in `old` before the report and `now` after it. -/
def settleSnp (host g n old now : Nat) (s : Snp) (h : Hub) : Hub :=
  let group := groupOf h s
  let closed := fun (h : Hub) => if group.isSome then closeGroup s h else closeLost s h
  if 4 ≤ old ∧ now ≤ 3 then
    let h := loseLine g n h
    let h := if group.isSome then closeGroup s h else closeSnp s h
    let asks : Option Txn := match group with | some t => some t.asks | none => txnOf h s.txn
    match asks, now with
    | _, 0 => h
    | none, _ => setHostSt host g 0 h
    | some t, _ => setHostSt host g 0 (issueSnp 2 { host := host, set := 0, way := 0, addr := g, st := now, seq := 0 } false t h)
  else if now = old then
    match snoopLink h host with
    | none => closed h
    | some l => relaunch s l h
  else closed h

/-- Settles one granule after the report (Table: Settling a lost link). `old` is what the Sieve showed before it. -/
def settleGranule (host lost g old : Nat) (h : Hub) : Hub :=
  let n := granOf h host
  let now := hostSt h host g
  let h := forEach (h.snps.filter (fun s => s.host == host && s.link == lost && !s.done && overlaps s.addr s.size g n)) (settleSnp host g n old now) h
  let sent := unacked h lost g n
  let data := sent.find? (fun m => !m.data.isEmpty)
  if now != 0 || !(sent.any (fun m => m.state != 0)) then h
  else match sent.any (fun m => m.state == 5), data with
    | true, some d =>
      if (entryOf h g).here h then dirtyBack { id := 0, req := { op := 0, admitted := false }, slice := homeSlice g } g d.data h
      else { h with nextId := h.nextId + 1, twin := { h.twin with reqs := h.twin.reqs ++ [ownBack h.nextId g d.data] } }
    | _, _ => loseClean g h

/-- The report of a recovery arrives: the set is rewritten, what waited is released in home order (R131, R154, R338). -/
def effLinkCtlSetReport (l qid hset : Nat) (d : List Byte) (h : Hub) : Hub :=
  match h.recov.find? (fun v => v.qid == qid && v.link == l && v.set == hset) with
  | none => h
  | some v =>
    let olds := v.granules.map (fun g => (g, hostSt h v.host g))
    let (extra, h) := rewriteSet v (reportEntries h v d) { h with recov := h.recov.filter (fun x => x.qid != v.qid) }
    let h := takeExtra extra h
    let h :=
      if v.granules.isEmpty then
        let h := regSetField h v.die 0x4078 15 8 (satAdd (regField h v.die 0x4078 15 8) 1 8)
        record 0x11 2 1 v.die 0 (v.host + 8 * v.set) h
      else forEach olds (fun o h => settleGranule v.host v.lost o.1 o.2 h) h
    twinSettle (settle (forEach v.held again h))

/-- LINK_CTL(SET_QUERY) (R154): answered from the proxy where the twin sends it; no host sends one. -/
def effLinkCtlSetQuery (l qid hset : Nat) (h : Hub) : Hub := if isTwinLink h l then setQuery qid hset h else h

end Sys2Proof.Machine
end

