-- ==== Sys2Proof/Machine/Bulk.lean ====
section
/-! DEFINITION. Ranges that the hub's own engines read and write: the Mover's chunks (R285), freeze images (R304, R307) and staged firmware
(R414), on this hub and over LL7 (R342). -/

namespace Sys2Proof.Machine

/-- A hub line read at its home for an engine; a SHADOW line comes from its source where the array cannot give it (R217). A partition's line
touches its ghost tags (R194). -/
def engineLine (a pid cls : Nat) (h : Hub) : Got :=
  let p := pathCheck a (ghostLine a pid h)
  let g := match (entryOf p.2 a).typ with
    | .shadow => (readShadow (entryOf p.2 a) a (whoOf pid cls) p.2).2
    | _ => homeLine a (whoOf pid cls) p.2
  ⟨g.h, g.err || p.1, g.data⟩

/-- The lines that an engine put into the write buffer go on to memory as far as their order lets them. -/
def drainFrom (id0 : Nat) (h : Hub) : Hub :=
  forEach ((h.wbs.filter (fun w => decide (id0 ≤ w.id))).map WbLine.id) effMemoryWriteComplete h

/-- Enabled bytes of one hub line written by an engine: whether they met data that cannot be used, and the hub; none where the write must
wait. A partial write that finds its NWB line absent fetches and merges it (R56). -/
def engineWrite (a : Nat) (d : List Byte) (m : List Bool) (zero : Bool) (pid cls : Nat) (h : Hub) : Option (Bool × Hub) :=
  let e := entryOf h a
  let p := pathCheck a (ghostLine a pid h)
  let h := p.2
  if p.1 then some (false, drainFrom h.nextId (poisonWrite e a d m (whoOf pid cls) 0 h)) else
  let r := if e.typ.cached && setHeld h a then .wait else if zero then zeroHome e a pid cls 8 0 h else writeHome e a d m pid cls 8 0 false h
  let whole := fun (g : Got) =>
    if g.err then some (true, g.h)
    else match writeHome e a (mergeBytes g.data d m) allMask pid cls 8 0 false g.h with
      | .done h' => some (false, drainFrom h.nextId h')
      | .derr h' => some (true, h')
      | _ => none
  match r with
  | .done h' => some (false, drainFrom h.nextId h')
  | .derr h' => some (true, h')
  | .fetch _ _ _ => whole (homeLine a (whoOf pid cls) h)
  | .wait => none

/-- What an engine's write does at its ordering (R90, R170, R249). -/
def engineOrder (a n : Nat) (h : Hub) : Hub :=
  let h := breakSeals a n (writeLoss h.nextId a n 8 0 h)
  if (entryOf h a).typ.cached then ladleKill (a / 128) h else h

/-- Lines of a range, each with the part of it that the range covers: address, first byte, length. -/
def rangeLines (a n : Nat) : List (Nat × Nat × Nat) :=
  (List.range (ceilDiv (a % 128 + n) 128)).map (fun i =>
    let line := (a / 128 + i) * 128
    let lo := max a line
    (line, lo - line, min (a + n) (line + 128) - lo))

/-- 64-byte pieces of a range. -/
def rangePieces (a n : Nat) : List Nat := (List.range (ceilDiv n 64)).map (fun i => a + 64 * i)

/-- Whether an address is mapped to this hub, and to the twin. -/
def mappedHere (h : Hub) (a : Nat) : Bool := match rmapFind h a with | some (_, e) => e.here h && e.typ != .cfg | none => false
def mappedTwin (h : Hub) (a : Nat) : Bool := match rmapFind h a with | some (_, e) => !(e.here h) | none => false

/-- The hub's request on LL7 for a piece of a job's range. -/
def twinPiece (h : Hub) (job a : Nat) : Option TwinReq :=
  h.twin.reqs.find? (fun q => q.req.src == .hub0 && q.req.job == job && q.req.addr == a)

/-- Sends a job's requests for pieces homed on the twin, on manager m's stream (R342). -/
def askTwin (m job : Nat) (rs : List Req) (h : Hub) : Hub :=
  twinSettle (forEach rs (fun r h => toTwin { r with src := .hub0, job := job, stream := m, at_ := h.now, size := 64, host := 8 } h) h)

/-- Drops a job's answered requests. -/
def dropTwinJob (job : Nat) (h : Hub) : Hub :=
  { h with twin := { h.twin with reqs := h.twin.reqs.filter (fun q => !(q.req.src == .hub0 && q.req.job == job)) } }

/-- What reading a range has come to: it waits for answers, or it has its bytes and the offset of the first piece that answered with an error,
if any. -/
inductive Fetch where
  | wait (h : Hub)
  | got (bad : Option Nat) (d : List Byte) (h : Hub)

/-- One piece's bytes, with whether it could not be read. -/
def readPiece (job a : Nat) (h : Hub) : Got :=
  if mappedHere h a then
    let g := engineLine a 0 3 (hkBytes a 64 h)
    ⟨g.h, g.err, slice g.data (a % 128) 64⟩
  else match twinPiece h job a with
    | some q =>
      let m : Msg := q.resp.getD { op := 0, lstat := 1 }
      ⟨h, m.lstat != 0, fitBytes 64 m.data⟩
    | none => ⟨h, true, List.replicate 64 0#8⟩

/-- Pieces in order, up to and with the first that cannot be read. -/
def readPieces (job : Nat) : List Nat → Nat → Hub → Option Nat × List Byte × Hub
  | [], _, h => (none, [], h)
  | a :: r, off, h =>
    let g := readPiece job a h
    if g.err then (some off, g.data, g.h)
    else
      let k := readPieces job r (off + 64) g.h
      (k.1, g.data ++ k.2.1, k.2.2)

/-- A range read coherently by the hub as PID 0 for a job: what owners hold comes back first, and pieces homed on the twin are asked for on
LL7. -/
def fetchRange (m job a n : Nat) (h : Hub) : Fetch :=
  let ps := rangePieces a n
  let far := ps.filter (mappedTwin h)
  let ask := if twinUp h then far.filter (fun p => (twinPiece h job p).isNone) else []
  let own := (ownedIn h a n).filter (mappedHere h)
  if jobOpen h .hub0 job || dirtyComing h a n || (own ++ ps.filter (mappedHere h)).any (fun p => rangeHeld h p 64) then .wait h
  else if !ask.isEmpty || !own.isEmpty then
    .wait (engineReqs 0x13 .hub0 0 job own (askTwin m job (ask.map (fun p => { op := 0x13, addr := p })) h))
  else if far.any (fun p => match twinPiece h job p with | some q => q.ph != 3 | none => false) then .wait h
  else
    let k := readPieces job ps 0 h
    .got k.1 (k.2.1.take n) (dropTwinJob job k.2.2)

/-- Writes a range's lines on this hub in order; none where a write must wait. The Nat counts lines that refused. -/
def storeLines (pid cls : Nat) : List (Nat × Nat × Nat) → List Byte → Hub → Option (Nat × Hub)
  | [], _, h => some (0, h)
  | (line, o, n) :: r, d, h =>
    let w := splice zeroLine o (d.take n)
    let m := splice (List.replicate 128 false) o (List.replicate n true)
    match engineWrite line w m false pid cls (hkBytes line 128 (engineOrder (line + o) n h)) with
    | none => none
    | some (bad, h) =>
      match storeLines pid cls r (d.drop n) h with
      | none => none
      | some (k, h) => some (k + b2n bad, h)

/-- What writing a range has come to: it waits, or it is done with the number of writes that were refused. -/
inductive Stored where
  | wait (h : Hub)
  | done (bad : Nat) (h : Hub)

/-- A range written coherently by the hub as PID 0 for a job. A range lies in one entry, on this hub or on the twin. -/
def storeRange (m job a : Nat) (d : List Byte) (h : Hub) : Stored :=
  let n := d.length
  if mappedTwin h a then
    let ps := rangePieces a n
    let ask := if twinUp h then ps.filter (fun p => (twinPiece h job p).isNone) else []
    if !ask.isEmpty then
      .wait (askTwin m job (ask.map (fun p =>
        let b := slice d (p - a) 64
        { op := if b.length = 64 then 0x21 else 0x22, addr := p, data := fitBytes 64 b, mask := fitMask 64 (b.map (fun _ => true)) })) h)
    else if ps.any (fun p => match twinPiece h job p with | some q => q.ph != 3 | none => false) then .wait h
    else
      let bad := (ps.filter (fun p => match twinPiece h job p with | some q => (q.resp.getD { op := 0, lstat := 1 }).lstat != 0 | none => true)).length
      .done bad (dropTwinJob job h)
  else if jobOpen h .hub0 job || dirtyComing h a n then .wait h
  else
    let held := heldIn h a n
    if !held.isEmpty then .wait (engineReqs opOwn .hub0 0 job held h)
    else match storeLines 0 3 (rangeLines a n) d h with
      | none => .wait h
      | some (bad, h) => .done bad h

end Sys2Proof.Machine
end

