-- ==== Sys2Proof/Machine/Mover.lean ====
section
/-! DEFINITION. The Mover (R281 to R287, R227): descriptors start from their ring, run in 4 KiB chunks, and end in a completed slot. -/

namespace Sys2Proof.Machine

/-- Base of a partition's Mover ring. -/
def movBase (h : Hub) (p : Nat) : Nat := regField h 0 (0x5400 + 16 * p) 31 5 * 32 + regField h 0 (0x5404 + 16 * p) 15 0 * 2 ^ 32

/-- Address of a slot. -/
def movSlot (h : Hub) (p i : Nat) : Nat := movBase h p + 32 * (i % 2 ^ (part h p).movLog)

/-- Bits [63:0] of a descriptor as posted. -/
def MovDesc.low (d : MovDesc) : Nat :=
  d.op.toNat + d.cls.toNat * 2 ^ 4 + b2n d.irq * 2 ^ 6 + b2n d.done * 2 ^ 7 + d.len.toNat * 2 ^ 8 + d.rsvdA.toNat * 2 ^ 33

/-- The completed slot (Table: Mover descriptor as completed). -/
def movDone (h : Hub) (low status bytes value : Nat) : List Byte :=
  toBytes 8 (setBit low 7 true) ++ toBytes 8 (status + bytes * 2 ^ 8) ++ toBytes 8 value ++ toBytes 8 (h.fs.frame % 2 ^ 32)

/-- Writes a completed slot in one write; INTR follows it where the descriptor asks for it (R283, R287). -/
def writeSlot (p i low status bytes value : Nat) (h : Hub) : Hub :=
  hubWrite (movSlot h p i) (movDone h low status bytes value) (if low.testBit 6 then 16 + p else 0) h

/-- Which ranges a descriptor reads and writes. -/
def movReads (d : MovDesc) : List Nat :=
  if d.op = 0#4 ∨ d.op = 3#4 then [d.src.toNat] else if d.op = 4#4 then [d.src.toNat, d.dst.toNat] else []
def movWrites (d : MovDesc) : List Nat := if d.op.toNat ≤ 2 then [d.dst.toNat] else []

/-- Whether a range may be read, and written, by a partition's descriptor (R284, R296). -/
def movRangeOk (h : Hub) (p a n : Nat) (write : Bool) : Bool :=
  match rmapRange h a n with
  | none => false
  | some (_, e) => e.here h &&
    (match e.typ with
      | .nwt => true
      | .nwb => true
      | .nnc => true
      | .near => true
      | .shadow => !write
      | .kettle =>
        let k := part h p
        !write || (decide (k.kbase * 65536 ≤ e.off a) && decide (e.off a + n ≤ (k.kbase + k.kcount) * 65536))
      | _ => false)

/-- R284's checks of ranges. -/
def movRangesOk (h : Hub) (p : Nat) (d : MovDesc) : Bool :=
  (movReads d).all (fun a => movRangeOk h p a d.len.toNat false) && (movWrites d).all (fun a => movRangeOk h p a d.len.toNat true)

/-- Whether a descriptor completes BAD_ARG at its start (R284). -/
def movBad (h : Hub) (own p : Nat) (d : MovDesc) : Bool :=
  let n := d.len.toNat
  d.op.toNat != own || d.rsvdA != 0#31 || d.rsvdB != 0#16 || d.rsvdC != 0#16 || decide (n < 8) || decide (2 ^ 24 < n) || n % 8 != 0
    || (movReads d ++ movWrites d).any (fun a => a % 8 != 0 || decide (2 ^ 48 < a + n))
    || !(movRangesOk h p d) || (own == 0 && overlaps d.src.toNat n d.dst.toNat n)

/-- Ends the running descriptor of a partition with its slot. -/
def endMov (r : MovRun) (status bytes value : Nat) (h : Hub) : Hub :=
  let h := writeSlot r.pid (part h r.pid).movHead (MovDesc.low r.d) status bytes value h
  setPart { h with movs := h.movs.filter (fun x => x.job != r.job) } r.pid (fun k => { k with movHead := (k.movHead + 1) % 65536 })

/-- Bytes of the chunk that begins at an offset. -/
def chunkLen (r : MovRun) : Nat := min 4096 (r.d.len.toNat - r.doneBytes)

/-- Charges a chunk's bytes line by line (R285); answers, with those before, the lines that R185 demotes, coded for a read (0) or a write (1). -/
def chargeChunk (pid cls wr a n : Nat) (p : List Nat × Hub) : List Nat × Hub :=
  (rangeLines a n).foldl (fun p l =>
    let c := chargeRequest l.1 pid cls l.2.2 8 p.2
    (if c.1 = cls then p.1 else (l.1 / 128 * 2 + wr) :: p.1, c.2)) (p.1, pageAdd pid 27 n p.2)

/-- The class at which a line of a chunk is read (0) or written (1). -/
def MovRun.classOf (r : MovRun) (wr a : Nat) : Nat := if r.demoted.contains (a / 128 * 2 + wr) then 3 else r.d.cls.toNat

/-- The hub with a running descriptor's progress. -/
def putMov (r : MovRun) (h : Hub) : Hub := { h with movs := h.movs.map (fun x => if x.job == r.job then r else x) }

/-- Sends for what hosts hold of a chunk. -/
def askChunk (r : MovRun) (h : Hub) : Hub :=
  let n := chunkLen r
  let rd := (movReads r.d).flatMap (fun a => ownedIn h (a + r.doneBytes) n)
  let wr := (movWrites r.d).flatMap (fun a => heldIn h (a + r.doneBytes) n)
  let req := fun (op wr a : Nat) =>
    ({ op := op, src := .mover, pid := r.pid, cls := r.classOf wr a, carried := r.d.cls.toNat, addr := a, job := r.job, at_ := h.now } : Req)
  presentAll (rd.eraseDups.map (req 0x13 0) ++ wr.eraseDups.map (req opOwn 1)) h

/-- Issues the next chunk: the ranges are checked again, the chunk is charged and its requests go out (R285, R286). -/
def issueChunk (r : MovRun) (h : Hub) : Hub :=
  if !(movRangesOk h r.pid r.d) then endMov r stBadArg r.doneBytes 0 h
  else
    let n := chunkLen r
    let each := fun (wr : Nat) (as : List Nat) (p : List Nat × Hub) => as.foldl (fun p a => chargeChunk r.pid r.d.cls.toNat wr (a + r.doneBytes) n p) p
    let c := each 1 (movWrites r.d) (each 0 (movReads r.d) ([], h))
    let r := { r with demoted := c.1 }
    askChunk r (putMov r c.2)

/-- Rings whose descriptors run on a die: its four engines serve one ring each (R287). -/
def enginesBusy (h : Hub) (die : Nat) : Nat := (h.movs.filter (fun r => (part h r.pid).movDie == die)).length

/-- Whether a partition's ring may start its next descriptor. -/
def movReady (h : Hub) (p : Nat) : Bool :=
  let k := part h p
  k.st == .active && k.movLog != 0 && k.movHead != k.movTail && !k.movStop && !(h.movs.any (fun r => r.pid == p))
    && decide (enginesBusy h k.movDie < 4) && h.life.phase == .run && !h.life.waking && (bfind h.life.warm k.movDie).isNone

/-- A descriptor starts (R284 to R287): the row names the operation `own`. -/
def effMover (own p : Nat) (d : MovDesc) (h : Hub) : Hub :=
  if !(movReady h p) then h
  else
    let r : MovRun := { pid := p, d := d, doneBytes := 0, crc := 0#64, firstDiff := none, stop := false, job := h.nextId }
    let h := { h with nextId := h.nextId + 1, movs := h.movs ++ [r] }
    if movBad h own p d then endMov r stBadArg 0 0 h else issueChunk r h

/-- What a chunk's reads gave: its bytes, lines (by index) that could not be used, and the address of the first of them. -/
def readChunk (m : MovRun) : List (Nat × Nat × Nat) → Hub → List (Nat × List Byte × Bool) × Hub
  | [], h => ([], h)
  | (line, o, n) :: r, h =>
    let g := engineLine line m.pid (m.classOf 0 line) h
    let k := readChunk m r g.h
    ((line + o, slice g.data o n, g.err) :: k.1, k.2)

/-- Bytes of a chunk's reads in order. -/
def chunkBytes (ls : List (Nat × List Byte × Bool)) : List Byte := ls.flatMap (fun x => x.2.1)

/-- First line that could not be used. -/
def firstBad (ls : List (Nat × List Byte × Bool)) : Option Nat := (ls.find? (fun x => x.2.2)).map (fun x => x.1 / 128 * 128)

/-- Whether any byte of a source range came from a line that could not be used. -/
def badBytes (src : Nat) (ls : List (Nat × List Byte × Bool)) (i n : Nat) : Bool :=
  ls.any (fun x => x.2.2 && overlaps x.1 x.2.1.length (src + i) n)

/-- Writes a chunk's destination lines in order; a line whose source was bad takes the poison marking, and whether a write met a target that
refuses it is answered (R224, R227). None where a write must wait. -/
def writeChunk (r : MovRun) (bad : Nat → Nat → Bool) (data : Nat → Nat → List Byte) (base : Nat) : List (Nat × Nat × Nat) → Hub → Option (Bool × Hub)
  | [], h => some (false, h)
  | (line, o, n) :: rest, h =>
    let i := line + o - base
    let h := engineOrder (line + o) n h
    let m := splice (List.replicate 128 false) o (List.replicate n true)
    if bad i n then
      let id0 := h.nextId
      writeChunk r bad data base rest (drainFrom id0 (poisonWrite (entryOf h line) line zeroLine allMask (whoOf r.pid (r.classOf 1 line)) 0 h))
    else
      match engineWrite line (splice zeroLine o (data i n)) m (r.d.op == 2#4 && n == 128) r.pid (r.classOf 1 line) h with
      | none => none
      | some (x, h) => (writeChunk r bad data base rest h).map (fun k => (x || k.1, k.2))

/-- First byte in which two lists differ. -/
def firstDiffAt (a b : List Byte) : Option Nat := (List.range a.length).find? (fun i => a.getD i 0#8 != b.getD i 0#8)

/-- The FILL pattern's bytes from an offset. -/
def patternAt (p : BitVec 64) (off n : Nat) : List Byte := (List.range n).map (fun i => (toBytes 8 p.toNat).getD ((off + i) % 8) 0#8)

/-- Goes on after a chunk, or ends the descriptor (R286). -/
def afterChunk (r : MovRun) (h : Hub) : Hub :=
  if r.doneBytes = r.d.len.toNat then
    let v := if r.d.op = 3#4 then r.crc.toNat else if r.d.op = 4#4 then r.firstDiff.getD (2 ^ 64 - 1) else 0
    endMov r stOk r.doneBytes v h
  else if r.stop then endMov r stPartial r.doneBytes 0 h
  else issueChunk r (putMov r h)

/-- A chunk whose lines hosts no longer hold is read and written at its homes. A refused write ends the descriptor with DATA_ERROR too; VALUE is then
0, since no source line was bad (DEDUCED, log entry 122). -/
def runChunk (r : MovRun) (h : Hub) : Hub :=
  let n := chunkLen r
  let src := r.d.src.toNat + r.doneBytes
  let dst := r.d.dst.toNat + r.doneBytes
  let r' := { r with doneBytes := r.doneBytes + n }
  if r.d.op = 3#4 then
    let k := readChunk r (rangeLines src n) h
    match firstBad k.1 with
    | some b => endMov r' stDataErr r'.doneBytes b k.2
    | none => afterChunk { r' with crc := BitVec.ofNat 64 (crc64From r.crc.toNat (chunkBytes k.1)) } k.2
  else if r.d.op = 4#4 then
    let k := readChunk r (rangeLines src n) h
    let j := readChunk r (rangeLines dst n) k.2
    match firstBad (k.1 ++ j.1) with
    | some b => endMov r' stDataErr r'.doneBytes b j.2
    | none =>
      let f := match r.firstDiff with
        | some x => some x
        | none => (firstDiffAt (chunkBytes k.1) (chunkBytes j.1)).map (· + r.doneBytes)
      afterChunk { r' with firstDiff := f } j.2
  else
    let k := if r.d.op = 0#4 then readChunk r (rangeLines src n) h else ([], h)
    let bs := chunkBytes k.1
    let data := fun (i m : Nat) =>
      if r.d.op = 0#4 then slice bs i m else if r.d.op = 1#4 then patternAt r.d.pattern (r.doneBytes + i) m else List.replicate m 0#8
    match writeChunk r (fun i m => badBytes src k.1 i m) data dst (rangeLines dst n) k.2 with
    | none => h
    | some (refused, h') =>
      match firstBad k.1 with
      | some b => endMov r' stDataErr r'.doneBytes b h'
      | none => if refused then endMov r' stDataErr r'.doneBytes 0 h' else afterChunk r' h'

/-- MOVER_CHUNK_DONE (R285, R286): the chunk of a partition's running descriptor ends once hosts have given up what they held of it. -/
def effMoverChunkDone (p : Nat) (h : Hub) : Hub :=
  match h.movs.find? (fun r => r.pid == p) with
  | none => h
  | some r =>
    let n := chunkLen r
    let all := movReads r.d ++ movWrites r.d
    if jobOpen h .mover r.job || all.any (fun a => dirtyComing h (a + r.doneBytes) n || rangeHeld h (a + r.doneBytes) n) then h
    else if !(movRangesOk h p r.d) then endMov r stBadArg r.doneBytes 0 h
    else if (movReads r.d).any (fun a => !(ownedIn h (a + r.doneBytes) n).isEmpty)
        || (movWrites r.d).any (fun a => !(heldIn h (a + r.doneBytes) n).isEmpty) then askChunk r h
    else runChunk r h

end Sys2Proof.Machine
end

