-- ==== Sys2Proof/Machine/Partitions.lean ====
section
/-! DEFINITION. Partition commands (R292 to R313): grants and settings, quiesce, reset, freeze, the freeze image, restore and cache warming. -/

namespace Sys2Proof.Machine

/-! ### Grants, settings and pools (R294 to R298) -/

/-- The grants of PART_CREATE's ARG0 in a new partition. -/
def grantsOf (a : Nat) : Part :=
  { st := .created, links := BitVec.ofNat 8 (bits a 7 0), kbase := bits a 13 8, kcount := bits a 20 14, monq := bits a 27 21, movLog := bits a 31 28,
    movDie := bits a 32 32, witCnt := bits a 37 33, cntGrant := bitOf a 38 }

/-- Whether grants lie in the ranges of Table: PART_CREATE ARG0. -/
def grantsOk (k : Part) : Bool :=
  k.links != 0#8 && decide (k.kcount ≤ 64) && decide (k.kbase + k.kcount ≤ 64) && decide (k.monq ≤ 64)
    && (k.movLog == 0 || (decide (4 ≤ k.movLog) && decide (k.movLog ≤ 12))) && decide (k.witCnt ≤ 16)

/-- The three 20-bit values of ARG2 or ARG3. -/
def threeOf (w : Nat) : List Nat := (List.range 3).map (fun c => bits w (20 * c + 19) (20 * c))

/-- A partition with the selected groups of settings changed (Table: PART_SET arguments). -/
def putSettings (sel a1 a2 a3 : Nat) (k : Part) : Part :=
  let k := if sel.testBit 0 then { k with wayMask := BitVec.ofNat 16 (bits a1 15 0), wayMin := bits a1 20 16, wayMax := bits a1 25 21 } else k
  let k := if sel.testBit 1 then { k with bud := threeOf a2 } else k
  let k := if sel.testBit 2 then { k with bmax := threeOf a3 } else k
  let k := if sel.testBit 3 then { k with share := bits a1 33 26 } else k
  if sel.testBit 4 then { k with depth := bits a1 38 34, depthMin := bits a1 43 39, depthMax := bits a1 48 44 } else k

/-- CACHE_CFG.EXPERT and LADLE_CTL.EXPERT. -/
def cacheExpert (h : Hub) : Bool := bitOf (regGet h 0 0x4000) 8
def ladleExpert (h : Hub) : Bool := bitOf (regGet h 0 0x4024) 31

/-- R297's BAD_ARG cases for the selected groups of a partition as it would be. -/
def settingsBad (h : Hub) (sel : Nat) (k : Part) : Bool :=
  let ways := popcount k.wayMask.toNat 16
  (sel.testBit 0 && (decide (16 < k.wayMin) || decide (16 < k.wayMax) || decide (k.wayMax < k.wayMin)
      || (!(cacheExpert h) && (decide (ways < k.wayMin) || decide (k.wayMax < ways)))))
  || (sel.testBit 3 && decide (128 < k.share))
  || (sel.testBit 4 && (decide (16 < k.depth) || decide (16 < k.depthMin) || decide (16 < k.depthMax) || decide (k.depthMax < k.depthMin)
      || (!(ladleExpert h) && (decide (k.depth < k.depthMin) || decide (k.depthMax < k.depth)))))
  || ((sel.testBit 1 || sel.testBit 2) && (List.range 3).any (fun c => decide (k.bmax.getD c 0 < k.bud.getD c 0)))

/-- Partitions not FREE other than one. -/
def otherParts (h : Hub) (p : Nat) : List Part := (h.parts.filter (fun e => e.1 != p && e.2.st != .free)).map Prod.snd

/-- Admission with a partition as it would be, at the period that will be in force (R188). -/
def admitsWith (h : Hub) (p : Nat) (k : Part) : Bool :=
  admits h (sumOf ((k :: otherParts h p).map (fun x => x.bud.getD 0 0 + x.bud.getD 1 0))) (regField h 0 0x4108 15 0)

/-- Ladle shares with a partition as it would be. -/
def sharesFit (h : Hub) (p : Nat) (k : Part) : Bool := decide (sumOf ((k :: otherParts h p).map Part.share) ≤ 128)

/-- Free resources of the pools (PART_POOL, PART_MOV_POOL). -/
def monFree (h : Hub) (p : Nat) : Nat := 64 - sumOf ((otherParts h p).map Part.monq)
def movFree (h : Hub) (p die : Nat) : Nat :=
  4096 - sumOf (((otherParts h p).filter (fun x => x.movDie == die && x.movLog != 0)).map (fun x => 2 ^ x.movLog))
def witFree (h : Hub) (p : Nat) : Nat := 16 - sumOf ((otherParts h p).map Part.witCnt)
def ketFree (h : Hub) (p : Nat) : Nat := 64 - sumOf ((otherParts h p).map Part.kcount)

/-- The pool checks of Table: PART_CREATE outcomes. -/
def poolsOk (h : Hub) (p : Nat) (k : Part) : Bool :=
  !(k.kcount != 0 && (otherParts h p).any (fun x => x.kcount != 0 && decide (x.kbase < k.kbase + k.kcount) && decide (k.kbase < x.kbase + x.kcount)))
    && decide (k.monq ≤ monFree h p) && (k.movLog == 0 || decide (2 ^ k.movLog ≤ movFree h p k.movDie)) && decide (k.witCnt ≤ witFree h p)
    && sharesFit h p k && admitsWith h p k

/-- A partition's cold-offer counts return to 0 (R63). -/
def resetCold (p : Nat) (h : Hub) : Hub :=
  { h with cache := { h.cache with coldCnt := h.cache.coldCnt.filter (fun e => e.1 % 64 != p) } }

/-- Puts a partition into the table. -/
def putPart (p : Nat) (k : Part) (h : Hub) : Hub := { h with parts := bset h.parts p k }

/-- PART_CREATE (R294, R295). -/
def bodyPartCreate : CmdBody := fun _ c h =>
  let p := c.pid.toNat
  let k := putSettings 31 c.arg1.toNat c.arg2.toNat c.arg3.toNat (grantsOf c.arg0.toNat)
  if p = 0 || !(grantsOk k) || settingsBad h 31 k then ended h stBadArg
  else if (part h p).st != .free then ended h stWrong
  else if !(poolsOk h p k) then ended h stNoRes
  else ended (regPut (regPut (resetCold p (putPart p k h)) 0 (0x5400 + 16 * p) 0) 0 (0x5404 + 16 * p) 0) stOk

def effPartCreate (m : Nat) (c : CmdWord) (h : Hub) : Hub := takeCmd m 0x10 c bodyPartCreate h

/-! ### PART_SET (R297 to R299) -/

/-- Drops a partition's oldest Ladle entries of one cluster above its share. -/
def trimLadle (p share cl : Nat) (h : Hub) : Hub :=
  let mine := h.ladle.filter (fun e => e.cluster == cl && e.pid == p && !e.killed)
  let old := (mine.take (mine.length - share)).map LadleE.line
  forEach old ladleKill h

/-- Whether PART_SET finds its partition in a state or busy with a command that refuses it (R293). -/
def setRefused (h : Hub) (p : Nat) : Bool :=
  let k := part h p
  k.st == .free || (k.busy && !(h.heavy.any (fun v => v.pid == p && (v.opcode == 0x12 || v.opcode == 0x15))))

/-- Whether new ways leave an ACTIVE partition with a class S budget fewer powered ways than WAY_MIN (R298). -/
def waysShort (h : Hub) (k : Part) : Bool :=
  !(cacheExpert h) && k.st == .active && decide (0 < k.bud.getD 0 0) && decide (popcount (k.wayMask &&& h.cache.powered).toNat 16 < k.wayMin)

/-- PART_SET. -/
def bodyPartSet : CmdBody := fun _ c h =>
  let p := c.pid.toNat
  let sel := bits c.arg0.toNat 4 0
  let k := putSettings sel c.arg1.toNat c.arg2.toNat c.arg3.toNat (part h p)
  if sel = 0 || settingsBad h sel k then ended h stBadArg
  else if setRefused h p then ended h stWrong
  else if (sel.testBit 1 && !(admitsWith h p k)) || (sel.testBit 3 && !(sharesFit h p k)) || waysShort h k then ended h stNoRes
  else
    let h := putPart p k h
    let h := if sel.testBit 1 then checkOvercommit h else h
    ended (if sel.testBit 3 then forEach (List.range 8) (trimLadle p k.share) h else h) stOk

def effPartSet (m : Nat) (c : CmdWord) (h : Hub) : Hub := takeCmd m 0x11 c bodyPartSet h

/-! ### Quiesce (R301) and resume (R300) -/

/-- Marks a partition busy with a heavy command. -/
def setBusy (p : Nat) (b : Bool) (h : Hub) : Hub := setPart h p (fun k => { k with busy := b })

/-- Cache warming stops (R308). -/
def stopWarm (p : Nat) (h : Hub) : Hub := setPart { h with warm := bdel h.warm p } p (fun k => { k with warming := false })

/-- Ladle entries of a partition dropped and its prefetches killed (R301). -/
def dropLadle (p : Nat) (h : Hub) : Hub :=
  forEach ((h.ladle.filter (fun e => e.pid == p && !e.killed)).map LadleE.line) ladleKill h

/-- PART_QUIESCE: QUIESCING from its taking on. -/
def bodyPartQuiesce : CmdBody := fun m c h =>
  let p := c.pid.toNat
  let k := part h p
  if k.st != .active || k.busy then ended h stWrong
  else
    let (job, h) := startHeavy m 0x12 c h
    let h := stopWarm p (setPart h p (fun k => { k with st := .quiescing, busy := true }))
    let h := dropLadle p { h with movs := h.movs.map (fun r => if r.pid == p then { r with stop := true } else r) }
    (engineReqs 0x13 .hub0 0 job (if k.movLog = 0 then [] else ownedIn h (movBase h p) (32 * 2 ^ k.movLog)) h, none)

def effPartQuiesce (m : Nat) (c : CmdWord) (h : Hub) : Hub := takeCmd m 0x12 c bodyPartQuiesce h

/-- Descriptors posted and not started complete CANCELLED, in ring order; their slots are read as posted. -/
def cancelSlots (p : Nat) (h : Hub) : Hub :=
  let k := part h p
  let h := forEach (List.range (ringDist k.movTail k.movHead)) (fun i h =>
    let a := movSlot h p (k.movHead + i)
    let g := engineLine a 0 3 h
    writeSlot p (k.movHead + i) (ofBytes (slice g.data (a % 128) 8)) stCancelled 0 0 g.h) h
  setPart h p (fun k => { k with movHead := k.movTail })

/-- Whether requests, prefetches or seals of a partition are still open (R301's steps 1, 3, 4 and 5). -/
def quiesceWaits (h : Hub) (p : Nat) : Bool :=
  pidOpen h p != 0 || h.links.any (fun k => k.2.inbox.any (fun m => m.adm && m.pid == p)) || h.txns.any (fun t => t.req.pid == p && t.trk) || h.waiting.any (fun w => w.req.pid == p && w.req.src == .link)
    || h.tongs.any (fun g => h.txns.any (fun t => t.req.pid == p && t.req.line == g.line && t.req.op == 0x25))
    || h.twin.reqs.any (fun q => q.req.pid == p && q.req.src == .link) || h.movs.any (fun r => r.pid == p)
    || h.ladle.any (fun e => e.pid == p) || h.wins.any (fun e => e.2.pid == p && e.2.st == .sealing)

/-- Heavy command of a partition with an opcode. -/
def heavyFor (h : Hub) (p op : Nat) : Option Heavy := h.heavy.find? (fun v => v.pid == p && v.opcode == op)

/-- PART_QUIESCE_DONE: the last step is done and the partition is QUIESCED. -/
def effPartQuiesceDone (p : Nat) (h : Hub) : Hub :=
  match heavyFor h p 0x12 with
  | none => h
  | some v =>
    let k := part h p
    let n := 32 * 2 ^ k.movLog
    if quiesceWaits h p || jobOpen h .hub0 v.job then h
    else if k.movLog != 0 && k.movHead != k.movTail && !(ownedIn h (movBase h p) n).isEmpty then
      engineReqs 0x13 .hub0 0 v.job (ownedIn h (movBase h p) n) h
    else
      let h := if k.movLog = 0 then h else cancelSlots p h
      if h.txns.any (fun t => t.req.src == .hub0 && t.req.op == 0x22 && k.movLog != 0 && overlaps t.req.addr t.req.size (movBase h p) n) then h
      else finishHeavy v.job stOk 0 (setPart h p (fun k => { k with st := .quiesced, busy := false }))

/-- PART_RESUME (R300): the ring goes on from its head, and windows are evaluated from the second tick on. -/
def bodyPartResume : CmdBody := fun _ c h =>
  let p := c.pid.toNat
  let k := part h p
  if k.busy || !(k.st == .created || k.st == .quiesced) then ended h stWrong
  else ended (setPart h p (fun k => { k with st := .active, movStop := false, resumeTicks := 0 })) stOk

def effPartResume (m : Nat) (c : CmdWord) (h : Hub) : Hub := takeCmd m 0x13 c bodyPartResume h

/-! ### Reset, freeze, destroy (R302, R303, R305) -/

/-- Clears every lock of a partition (R76). -/
def clearLocks (p : Nat) (h : Hub) : Hub :=
  { h with cache := { h.cache with locks := h.cache.locks.filter (fun k => (sector h k.1 k.2.1 k.2.2).pid != p) } }

/-- The steward's ghost tags of a partition, at zero (R302). -/
def clearGhosts (p : Nat) (h : Hub) : Hub :=
  { h with fs := { h.fs with ghosts := h.fs.ghosts.filter (fun e => e.1 % 64 != p) } }

/-- PART_RESET. -/
def bodyPartReset : CmdBody := fun _ c h =>
  let p := c.pid.toNat
  let k := part h p
  if k.st != .quiesced || k.busy then ended h stWrong
  else
    let h := resetCold p (clearGhosts p (disarmAll p (clearLocks p (stopWarm p h))))
    let h := { h with mons := h.mons.filter (fun m => m.pid != p) }
    ended (setPart h p (fun k => { k with st := .created, page := [], run := [], movHead := 0, movTail := 0 })) stOk

def effPartReset (m : Nat) (c : CmdWord) (h : Hub) : Hub := takeCmd m 0x14 c bodyPartReset h

/-- PART_FREEZE: one set-mode walk over the partition's sectors; none with the cache OFF. -/
def bodyPartFreeze : CmdBody := fun m c h =>
  let p := c.pid.toNat
  let k := part h p
  if k.st != .quiesced || k.busy then ended h stWrong
  else
    let (job, h) := startHeavy m 0x15 c h
    let h := setBusy p true h
    (if h.cache.cst == .off then h else pushWalk { job := job, kind := 6, op := 0, setMode := true, pid := p } h, none)

def effPartFreeze (m : Nat) (c : CmdWord) (h : Hub) : Hub := takeCmd m 0x15 c bodyPartFreeze h

/-- The walk of a job, if any. -/
def walkOf (h : Hub) (job : Nat) : Option Walk := h.walks.find? (fun w => w.job == job && w.kind == 6)

/-- PART_FREEZE_DONE: FROZEN, its reservations lost; RESULT gives the lines written, or those that could not be used (R74, R303). -/
def effPartFreezeDone (p : Nat) (h : Hub) : Hub :=
  match heavyFor h p 0x15 with
  | none => h
  | some v =>
    let frozen := fun (h : Hub) => loseMons (fun m => m.pid == p) 7 (setPart (stopWarm p h) p (fun k => { k with st := .frozen, busy := false }))
    match walkOf h v.job with
    | none => finishHeavy v.job stOk 0 (frozen h)
    | some w =>
      if !(w.ended h) || !w.waits.isEmpty then h
      else finishHeavy v.job (if w.bad = 0 then stOk else stDataErr) (if w.bad = 0 then w.count else w.bad) (frozen (dropWalk w h))

/-- Kettle blocks written to zero by the hub. -/
def zeroKettle (base count : Nat) (h : Hub) : Hub :=
  let lo := base * 65536
  let hi := lo + count * 65536
  let h := loseMons (fun m => match rmapFind h m.granule with
    | some (_, e) => e.typ == .kettle && e.here h && decide (lo ≤ e.off m.granule) && decide (e.off m.granule < hi)
    | none => false) 31 h
  { h with mem := { h.mem with kettle := h.mem.kettle.filter (fun c => !(decide (lo ≤ c.1) && decide (c.1 < hi))),
                               ketErr := h.mem.ketErr.filter (fun c => !(decide (lo ≤ c.1 * 8) && decide (c.1 * 8 < hi))) } }

/-- A partition becomes FREE (R305). -/
def freePart (p : Nat) (h : Hub) : Hub :=
  let k := part h p
  let h := zeroKettle k.kbase k.kcount (clearLocks p (disarmAll p (stopWarm p h)))
  checkOvercommit { h with parts := bdel h.parts p }

/-- PART_DESTROY. -/
def bodyPartDestroy : CmdBody := fun _ c h =>
  let p := c.pid.toNat
  let k := part h p
  if k.st != .frozen || k.busy then ended h stWrong else ended (freePart p h) stOk

def effPartDestroy (m : Nat) (c : CmdWord) (h : Hub) : Hub := takeCmd m 0x18 c bodyPartDestroy h

/-! ### The freeze image (R309 to R312) -/

/-- A section: header with the CRC of its body, body, and padding to 16 bytes (R310). -/
def imgSection (typ count : Nat) (body : List Byte) : List Byte :=
  toBytes 8 (typ + count * 2 ^ 16 + body.length * 2 ^ 32) ++ toBytes 8 (crc64 body) ++ fitBytes (ceilDiv body.length 16 * 16) body

/-- ARG0 of a PART_CREATE that recreates the grants. -/
def createArg0 (k : Part) : Nat :=
  k.links.toNat + k.kbase * 2 ^ 8 + k.kcount * 2 ^ 14 + k.monq * 2 ^ 21 + k.movLog * 2 ^ 28 + k.movDie * 2 ^ 32 + k.witCnt * 2 ^ 33
    + b2n k.cntGrant * 2 ^ 38

/-- ARG1 of a PART_CREATE that recreates the settings. -/
def createArg1 (k : Part) : Nat :=
  k.wayMask.toNat + k.wayMin * 2 ^ 16 + k.wayMax * 2 ^ 21 + k.share * 2 ^ 26 + k.depth * 2 ^ 34 + k.depthMin * 2 ^ 39 + k.depthMax * 2 ^ 44

/-- Three 20-bit values as ARG2 or ARG3. -/
def packThree (l : List Nat) : Nat := sumOf ((List.range 3).map (fun c => l.getD c 0 * 2 ^ (20 * c)))

/-- Body of the CONFIG section. -/
def configBody (k : Part) (level : Nat) : List Byte :=
  toBytes 8 (createArg0 k) ++ toBytes 8 (createArg1 k) ++ toBytes 8 (packThree k.bud) ++ toBytes 8 (if level < 3 then 0 else packThree k.bmax)
    ++ List.replicate 32 0#8

/-- WIT_STAT.STATE. -/
def winCode : WinSt → Nat
  | .disarmed => 0
  | .opened => 1
  | .sealing => 2
  | .sealed => 3

/-- A window's 64 bytes of the WITNESS section. -/
def winEntry (n : Nat) (w : Win) : List Byte :=
  toBytes 8 (n + w.writers.toNat * 2 ^ 8 + w.reader * 2 ^ 16 + b2n w.static * 2 ^ 19 + w.group * 2 ^ 20 + b2n w.pinEn * 2 ^ 24)
    ++ toBytes 8 w.base ++ toBytes 8 (w.lines * 128) ++ toBytes 8 (winCode w.st) ++ toBytes 8 w.wsig.toNat ++ toBytes 4 w.sealFrame
    ++ List.replicate 20 0#8

/-- Armed windows of a partition, by number. -/
def armedWins (h : Hub) (p : Nat) : List (Nat × Win) := h.wins.filter (fun e => e.2.armed && e.2.pid == p)

/-- Kettle words of a partition's blocks: the bytes as read, and the word indices that read uncorrectable. -/
def readBlocks (p : Nat) : List Nat → Hub → List Byte × List Nat × Hub
  | [], h => ([], [], h)
  | w :: r, h =>
    let g := readKettleWord (8 * w) 0 p h
    let k := readBlocks p r g.h
    (g.data ++ k.1, if g.err then w :: k.2.1 else k.2.1, k.2.2)

/-- Length of the image of a partition; a hot-sector list counts as `hot` entries. -/
def imgLength (h : Hub) (p : Nat) (hot : Option Nat) : Nat :=
  let k := part h p
  let w := (armedWins h p).length
  64 + 80 + 1040 + (if w = 0 then 0 else 16 + 64 * w) + (if k.kcount = 0 then 0 else 16 + k.kcount * 65536)
    + (match hot with | some n => 16 + ceilDiv (8 * n) 16 * 16 | none => 0) + 16

/-- The image, with the places in it of Kettle words that read uncorrectable. -/
def buildImage (p level : Nat) (hot : Option (List Nat)) (h : Hub) : List Byte × List Nat × Hub :=
  let k := part h p
  let ws := armedWins h p
  let ket := readBlocks 0 ((List.range (k.kcount * 8192)).map (fun i => k.kbase * 8192 + i)) h
  let cfg := imgSection 1 1 (configBody k level)
  let mid := imgSection 2 128 ((List.range 128).flatMap (fun i => toBytes 8 (bget k.page i 0)))
    ++ (if ws.isEmpty then [] else imgSection 3 ws.length (ws.flatMap (fun e => winEntry e.1 e.2)))
  let kat := 64 + cfg.length + mid.length + 16
  let tail := (if k.kcount = 0 then [] else imgSection 4 k.kcount ket.1)
    ++ (match hot with | some l => imgSection 5 l.length (l.flatMap (toBytes 8)) | none => []) ++ imgSection 0 0 []
  let len := 64 + cfg.length + mid.length + tail.length
  let sections := 3 + b2n (!ws.isEmpty) + b2n (k.kcount != 0) + b2n hot.isSome
  let mask := sumOf (ws.map (fun e => 2 ^ e.1))
  let hdr := toBytes 8 (0x4B465A49 + level * 2 ^ 32 + b2n h.life.hubId * 2 ^ 40 + p * 2 ^ 41 + h.life.fwMinor * 2 ^ 48 + h.life.fwMajor * 2 ^ 56)
    ++ toBytes 8 (h.fs.frame % 2 ^ 32 + len * 2 ^ 32) ++ toBytes 4 mask ++ toBytes 4 sections ++ List.replicate 32 0#8
  let crc := crc64 (hdr ++ List.replicate 8 0#8 ++ cfg)
  (hdr ++ toBytes 8 crc ++ cfg ++ mid ++ tail, ket.2.1.map (fun w => kat + 8 * (w - k.kbase * 8192)), ket.2.2)

/-- Puts the poison marking on a word of the image in memory (R224): the whole line where the image lies in NEAR. -/
def poisonWordAt (a : Nat) (h : Hub) : Hub :=
  match rmapFind h a with
  | none => h
  | some (_, e) =>
    if !(e.here h) then h
    else if e.typ == .near then poisonLine (e.off (a / 128 * 128)) a h
    else if !e.ecc then record 0x32 2 5 (homeDie a) 0 (a / 128) h
    else
      let h := if e.typ.cached && (lineSt h a).present then setLineSt a .invalid h else h
      poisonCopies e a (e.off a / 8) h

/-! ### PART_SAVE (R304) -/

/-- The image job of a partition. -/
def imageOf (h : Hub) (p : Nat) : Option ImgJob := h.images.find? (fun j => j.pid == p)

/-- The hub with an image job changed, and with it gone. -/
def updImage (job : Nat) (f : ImgJob → ImgJob) (h : Hub) : Hub := { h with images := h.images.map (fun j => if j.job == job then f j else j) }
def dropImage (job : Nat) (h : Hub) : Hub := { h with images := h.images.filter (fun j => j.job != job) }

/-- Order 1 of PART_SAVE's outcomes. -/
def saveBad (h : Hub) (p level a cap : Nat) : Bool :=
  a % 64 != 0
    || (match rmapRange h a (max 1 cap) with
        | some (_, e) => !(e.typ == .nwt || e.typ == .nnc || e.typ == .near)
        | none => true)
    || decide (h.life.wrMax < level) || decide (level < h.life.rdMin) || level == 0
    || (decide (level < 2) && (armedWins h p).any (fun e => e.2.group != 0))

/-- PART_SAVE. -/
def bodyPartSave : CmdBody := fun m c h =>
  let p := c.pid.toNat
  let level := if bits c.arg0.toNat 3 0 = 0 then h.life.wrMax else bits c.arg0.toNat 3 0
  let hot := bitOf c.arg0.toNat 4 && decide (2 ≤ level)
  let k := part h p
  if saveBad h p level c.arg1.toNat c.arg2.toNat then ended h stBadArg
  else if k.st != .frozen || k.busy then ended h stWrong
  else if c.arg2.toNat < imgLength h p (if hot then some 4096 else none) then ended h stNoRes
  else
    let (job, h) := startHeavy m 0x16 c h
    let j : ImgJob := { job := job, pid := p, save := true, addr := c.arg1.toNat, level := level, hot := hot, image := [], arg0 := c.arg0 }
    let h := setBusy p true { h with images := h.images ++ [j] }
    (if hot && h.cache.cst != .off then pushWalk { job := job, kind := 6, op := 1, setMode := true, pid := p } h else h, none)

def effPartSave (m : Nat) (c : CmdWord) (h : Hub) : Hub := takeCmd m 0x16 c bodyPartSave h

/-- The image of a save, built once its walk has ended, and the places of the words in it that take the poison marking. -/
def imageReady (j : ImgJob) (h : Hub) : Option (List Byte × List Nat × Hub) :=
  if !j.image.isEmpty then some (j.image, j.marks, h)
  else match walkOf h j.job with
  | some w => if w.ended h then some (buildImage j.pid j.level (if j.hot then some w.hot else none) h) else none
  | none => some (buildImage j.pid j.level (if j.hot then some [] else none) h)

/-- PART_SAVE_DONE: every write of the image is globally visible. The partition becomes FREE where no Kettle word read uncorrectable and no
write was refused; otherwise it stays FROZEN with DATA_ERROR. -/
def effPartSaveDone (p : Nat) (h : Hub) : Hub :=
  match heavyFor h p 0x16, imageOf h p with
  | some v, some j =>
    match imageReady j h with
    | none => h
    | some (img, bad, h') =>
      match storeRange v.mgr j.job j.addr img h' with
      | .wait h'' => updImage j.job (fun x => { x with image := img, marks := bad }) h''
      | .done refused h'' =>
        let h := forEach bad (fun o h => poisonWordAt (j.addr + o) h) h''
        let h := dropImage j.job { h with walks := h.walks.filter (fun w => !(w.job == j.job && w.kind == 6)) }
        if bad.isEmpty && refused == 0 then finishHeavy v.job stOk img.length (freePart p h)
        else finishHeavy v.job stDataErr (bad.length + refused) (setBusy p false h)
  | _, _ => h

/-! ### PART_RESTORE (R306, R307) -/

/-- A little-endian field of an image's bytes. -/
def fieldOf (d : List Byte) (o n : Nat) : Nat := ofBytes (slice d o n)

/-- The partition that a CONFIG body and PART_RESTORE's ARG0 recreate (R306, R312). -/
def restoredPart (d : List Byte) (level arg0 : Nat) : Part :=
  let a0 := fieldOf d 80 8
  let a0 := putBits (putBits (putBits a0 7 0 (bits arg0 7 0)) 13 8 (bits arg0 13 8)) 32 32 (bits arg0 14 14)
  let a2 := fieldOf d 96 8
  putSettings 31 (fieldOf d 88 8) a2 (if level < 3 then a2 else fieldOf d 104 8) (grantsOf a0)

/-- Reserved bits of CONFIG's words. -/
def configReserved (d : List Byte) : Bool :=
  fieldOf d 80 8 / 2 ^ 39 != 0 || fieldOf d 88 8 / 2 ^ 49 != 0 || fieldOf d 96 8 / 2 ^ 60 != 0 || fieldOf d 104 8 / 2 ^ 60 != 0

/-- Reason codes 1 to 4 of Table: PART_RESTORE outcomes, over the header and CONFIG section; 0 where they pass. -/
def headerCode (h : Hub) (p a : Nat) (d : List Byte) (k : Part) : Nat :=
  let level := bits (fieldOf d 4 1) 3 0
  if fieldOf d 0 4 ≠ 0x4B465A49 then 1
  else if fieldOf d 56 8 ≠ crc64 (d.take 56 ++ List.replicate 8 0#8 ++ slice d 64 80) then 2
  else if level < h.life.rdMin ∨ h.life.rdMax < level ∨ level = 0 then 3
  else if p = 0 || a % 64 != 0 || fieldOf d 64 1 != 1 || fieldOf d 68 4 != 64 || fieldOf d 72 8 != crc64 (slice d 80 64)
      || configReserved d || !(grantsOk k) || settingsBad h 31 k || decide (fieldOf d 12 4 < 160) then 4
  else 0

/-- Ends a restore before its load. -/
def failRestore (job p status result : Nat) (own : Bool) (h : Hub) : Hub :=
  let h := dropImage job h
  finishHeavy job status result (if own then checkOvercommit { h with parts := bdel h.parts p } else h)

/-- The checks of Table: PART_RESTORE outcomes once the header and CONFIG have been read, and the start of the load. `own` says that the
command already marks its FREE partition as being loaded. -/
def checkHeader (j : ImgJob) (own : Bool) (bad : Bool) (d : List Byte) (h : Hub) : Hub :=
  let p := j.pid
  let level := bits (fieldOf d 4 1) 3 0
  let k := restoredPart d level j.arg0.toNat
  let code := if bad then 5 else headerCode h p j.addr d k
  let mask := fieldOf d 16 2
  if code ≠ 0 then failRestore j.job p stBadArg code own h
  else if !own then failRestore j.job p stWrong 0 own h
  else if !(poolsOk h p k) || (List.range 16).any (fun n => mask.testBit n && (win h n).armed) then failRestore j.job p stNoRes 0 own h
  else updImage j.job (fun j => { j with level := level, image := d }) (putPart p { k with busy := true } h)

/-- PART_RESTORE: the header and CONFIG are read at once where no host owns their lines and they lie on this hub. -/
def bodyPartRestore : CmdBody := fun m c h =>
  let p := c.pid.toNat
  let own := p != 0 && (part h p).st == .free
  let (job, h) := startHeavy m 0x17 c h
  let j : ImgJob := { job := job, pid := p, save := false, addr := c.arg1.toNat, level := 0, hot := own, image := [], arg0 := c.arg0 }
  let h := { h with images := h.images ++ [j] }
  let h := if own then putPart p { st := .created, busy := true } h else h
  match fetchRange m job j.addr 144 h with
  | .wait h => (h, none)
  | .got bad d h => (checkHeader j own bad.isSome d h, none)

def effPartRestore (m : Nat) (c : CmdWord) (h : Hub) : Hub := takeCmd m 0x17 c bodyPartRestore h

/-- A section found in an image: its type, count and body. -/
structure ImgSec where
  typ : Nat
  count : Nat
  body : List Byte

/-- Sections from an offset on, with at most `fuel` of them: those whose CRC is good, then the offset at which the load fails, if it does, and
whether a KETTLE section had been reached. -/
def parseSections (d : List Byte) : Nat → Nat → Nat → List ImgSec × Option Nat × Bool
  | 0, o, _ => ([], some o, false)
  | fuel + 1, o, last =>
    let typ := fieldOf d o 1
    let len := fieldOf d (o + 4) 4
    let body := slice d (o + 16) len
    let next := o + 16 + ceilDiv len 16 * 16
    if d.length < o + 16 then ([], some d.length, false)
    else if typ = 0 then ([], none, false)
    else if typ ≤ last ∨ 5 < typ ∨ d.length < o + 16 + len then ([], some (min d.length (o + 16)), false)
    else if fieldOf d (o + 8) 8 ≠ crc64 body then ([], some (o + 16 + len), typ == 4)
    else
      let k := parseSections d fuel next typ
      ({ typ := typ, count := fieldOf d (o + 2) 2, body := body } :: k.1, k.2.1, k.2.2 || typ == 4)

/-- Puts a partition's Kettle blocks in place. -/
def loadKettle (k : Part) (body : List Byte) (h : Hub) : Hub :=
  let h := zeroKettle k.kbase k.kcount h
  { h with mem := { h.mem with kettle := memWriteN h.mem.kettle (k.kbase * 65536) (body.take (k.kcount * 65536)) } }

/-- Arms and re-seals a window of the WITNESS section (R257); one that fails its placement is left DISARMED. -/
def loadWin (p level : Nat) (b : List Byte) (h : Hub) : Hub :=
  let a0 := fieldOf b 0 8
  let n := bits a0 3 0
  let w := armArgs p (if level < 2 then putBits a0 23 20 0 else a0) (fieldOf b 8 8) (fieldOf b 16 8)
  if armArgsBad h w (fieldOf b 16 8) || !(witPlaced h w.base (fieldOf b 16 8)) || (win h n).armed then
    record 0x43 2 7 0 p n h
  else
    let h := { h with wins := bset h.wins n { w with wsig := BitVec.ofNat 64 (fieldOf b 32 8), sealFrame := fieldOf b 40 4 } }
    if fieldOf b 24 1 = 3 then
      startSeal n (setWin h n (fun w => { w with restoreSig := some (BitVec.ofNat 64 (fieldOf b 32 8)) }))
    else h

/-- One section's load. -/
def loadSection (p level : Nat) (s : ImgSec) (h : Hub) : Hub :=
  if s.typ = 2 then
    setPart h p (fun k => { k with page := (List.range 128).map (fun i => (i, if i = 0 then setBit (setBit (setBit (fieldOf s.body 0 8) 34 true) 33 false) 32 k.cntGrant else fieldOf s.body (8 * i) 8)) })
  else if s.typ = 3 then forEach (List.range s.count) (fun i h => loadWin p level (slice s.body (64 * i) 64) h) h
  else if s.typ = 4 then loadKettle (part h p) s.body h
  else if s.typ = 5 then
    { h with warm := bset h.warm p ((List.range s.count).map (fun i => fieldOf s.body (8 * i) 8 / 1024 * 1024)) }
  else h

/-- The load of a whole image (R307). -/
def loadImage (j : ImgJob) (bad : Option Nat) (d : List Byte) (h : Hub) : Hub :=
  let p := j.pid
  let d := match bad with | some o => d.take o | none => d
  let k := parseSections d 8 64 0
  let fail := match bad, k.2.1 with
    | some o, some _ => some o
    | _, f => f
  match fail with
  | some o =>
    let h := if k.2.2 || k.1.any (fun s => s.typ == 4) then zeroKettle (part h p).kbase (part h p).kcount h else h
    failRestore j.job p stDataErr o true h
  | none =>
    let h := setPart (resetCold p h) p (fun x => { x with st := .quiesced, busy := false, level := j.level })
    let h := forEach k.1 (fun s h => loadSection p j.level s h) h
    let h := setPart h p (fun x => { x with warming := !(bget h.warm p []).isEmpty })
    finishHeavy j.job stOk d.length (dropImage j.job h)

/-- PART_RESTORE_LOAD_DONE: the header is checked where it had to be waited for; then the sections are in. -/
def effPartRestoreLoadDone (p : Nat) (h : Hub) : Hub :=
  match heavyFor h p 0x17, imageOf h p with
  | some v, some j =>
    if j.save then h
    else if j.image.isEmpty then
      match fetchRange v.mgr j.job j.addr 144 h with
      | .wait h' => h'
      | .got bad d h' => checkHeader j j.hot bad.isSome d h'
    else
      match fetchRange v.mgr j.job j.addr (fieldOf j.image 12 4) h with
      | .wait h' => h'
      | .got bad d h' => loadImage j bad d h'
  | _, _ => h

/-! ### Cache warming (R308) -/

/-- Whether reads of a partition's cache warming are still open. -/
def warmOpen (h : Hub) (p : Nat) : Bool :=
  h.txns.any (fun t => t.req.src == .warm && t.req.pid == p) || h.waiting.any (fun w => w.req.src == .warm && w.req.pid == p)

/-- CACHE_WARM_SECTOR: the reads of one listed sector, at most one every 64 cycles; a sector not homed here is passed over. -/
def effCacheWarmSector (p : Nat) (h : Hub) : Hub :=
  let k := part h p
  if !(k.st == .quiesced || k.st == .active) then stopWarm p h
  else match bget h.warm p [] with
    | [] => stopWarm p h
    | a :: rest =>
      if h.warmAt != 0 && decide (h.now + 1 < h.warmAt + 64) then h
      else
        let h := { h with warm := bset h.warm p rest }
        let h := if rest.isEmpty then stopWarm p h else h
        if !(mappedHere h a) then h
        else
          let lines := (List.range 8).map (fun i => a + 128 * i)
          let h := forEach lines (fun x h => (chargeRequest x p 3 128 8 h).2) { h with warmAt := h.now + 1 }
          presentAll (lines.map (fun x => { op := 0x13, src := .warm, pid := p, cls := 3, carried := 3, addr := x, at_ := h.now })) h

end Sys2Proof.Machine
end

