-- ==== Sys2Proof/Machine/Integrity.lean ====
section
/-! DEFINITION. The Whisk (R228 to R231), the spare rebuild (R237), row remaps (R235), the background test (R352 to R354), the history summary
(R351) and the overruns of their floors (R192). -/

namespace Sys2Proof.Machine

/-! ### What a lap covers (R228) -/

/-- The first address of an entry's region, from `a` on, in a 4 KiB page that passes a test. The homes of the pages of a 32 KiB block differ (R8), so
that two blocks suffice, from `a` and from the end of each range that lower-numbered entries take from it (`starts`). -/
def firstPage (e : REntry) (a : Nat) (starts : List Nat) (p : Nat → Bool) : Option Nat :=
  let lo := max a (e.base * unit2M)
  let hi := (e.base + e.size) * unit2M
  let from_ := fun (b : Nat) => ((List.range 17).map (fun i => max b ((b / 4096 + i) * 4096))).find? (fun x => decide (x < hi) && p x)
  minBy id ((lo :: starts.filter (fun b => decide (lo < b))).filterMap from_)

/-- Ends of the ranges of valid entries numbered below `i`. -/
def lowerEnds (h : Hub) (i : Nat) : List Nat :=
  (h.rmap.filter (fun x => decide (x.1 < i) && x.2.valid)).map (fun x => (x.2.base + x.2.size) * unit2M)

/-- Whether a line of a valid entry of this hub lies on main-memory channel `c`: a mirrored region's lines lie on both of their region's. -/
def onChannel (e : REntry) (c a : Nat) : Bool := if e.mirror then homeRg a == c / 2 else homeChannel a == c

/-- Whether an entry resolves an address (R211). -/
def resolves (h : Hub) (i a : Nat) : Bool := match rmapFind h a with | some (k, _) => k == i | none => false

/-- What a scrubbed line is. -/
inductive Scrub where
  | main (e : REntry) (a : Nat)
  | near (e : REntry) (a : Nat)
  | slot (sl set way ix : Nat)
  | echo (sl set : Nat)
  deriving DecidableEq, Repr

/-- Lines of footprints that a Whisk reads next from line number `n` on: host lines of a channel, array lines of a lane. -/
def footNext (h : Hub) (r n : Nat) : List (Nat × Scrub) :=
  h.rmap.filterMap (fun x =>
    let e := x.2
    if !(e.valid && e.here h) then none
    else if 4 ≤ r then
      if e.typ.isMain && e.typ != .dev then
        (firstPage e (n * 128) (lowerEnds h x.1) (fun a => onChannel e (r - 4) a && resolves h x.1 a)).map (fun a => (a / 128, Scrub.main e a))
      else none
    else if e.typ == .near || e.typ == .shadow then
      let from_ := e.base * unit2M + (n * 128 - e.tbase * unit2M)
      (firstPage e from_ (lowerEnds h x.1) (fun a => homeRg a == r && resolves h x.1 a)).map (fun a => (e.off a / 128, Scrub.near e a))
    else none)

/-- Cache lines that a lane's Whisk reads, from array line `n` on. -/
def slotNext (h : Hub) (r n : Nat) : List (Nat × Scrub) :=
  h.cache.sectors.flatMap (fun s => (List.range 8).filterMap (fun i =>
    let st := s.lines.getD i .invalid
    let k := slotOffset s.slice s.set s.way i / 128
    if s.slice / 8 == r && (st == .clean || st == .dirty) && decide (n ≤ k) then some (k, Scrub.slot s.slice s.set s.way i) else none))

/-- Echo lines of a lane, from array line `n` on. -/
def echoNext (h : Hub) (r n : Nat) : List (Nat × Scrub) :=
  if h.cache.cst == .off || !(chipKill h) then []
  else
    let b := echoOffset h 0 0 / 128
    let k := n - b
    match ((List.range 33).map (fun i => k + i)).find? (fun k => (k % 32) / 8 == r && decide (k < 32 * setsInUse h)) with
    | some k => [(b + k, .echo (k % 32) (k / 32))]
    | none => []

/-- Host address of an array line of a NEAR or SHADOW footprint. -/
def offAddr (h : Hub) (off : Nat) : Option (REntry × Nat) :=
  (h.rmap.find? (fun x => x.2.valid && x.2.here h && (x.2.typ == .near || x.2.typ == .shadow)
    && decide (x.2.tbase * unit2M ≤ off) && decide (off < (x.2.tbase + x.2.size) * unit2M)
    && resolves h x.1 (x.2.base * unit2M + (off - x.2.tbase * unit2M)))).map
    (fun x => (x.2, x.2.base * unit2M + (off - x.2.tbase * unit2M)))

/-- The lines of footprints that lie in a lane row. -/
def rowLines (h : Hub) (lane row : Nat) : List (REntry × Nat) :=
  ((List.range 512).filterMap (fun i => offAddr h (row * 65536 + 128 * i))).filter (fun x => homeRg x.2 == lane)

/-- Lines of the spare rows in use on a lane, from array line `n` on. DESIGN CHOICE: spare row s of lane r stands at row 4 × s + r of the remap reserve
(log entry 10). -/
def spareNext (h : Hub) (r n : Nat) : List (Nat × Scrub) :=
  (h.led.remap.filter (fun m => m.lane == r && m.copied)).filterMap (fun m =>
    let b := mapTop h * 16384 + (m.spare * 4 + r) * 128
    let ls := rowLines h r m.row
    ((List.range ls.length).find? (fun i => decide (n ≤ b + i))).bind (fun i => ls[i]?.map (fun x => (b + i, Scrub.near x.1 x.2))))

/-- The next line of a Whisk from line number `n` on; none at the end of its lap. -/
def scrubNext (h : Hub) (r n : Nat) : Option (Nat × Scrub) :=
  minBy Prod.fst (footNext h r n ++ (if r < 4 then slotNext h r n ++ echoNext h r n ++ spareNext h r n else []))

/-! ### Rates (R229) -/

/-- The walk of a Whisk. -/
def whisk (h : Hub) (r : Nat) : WhiskPos := bget h.integ.whisk r {}

/-- The hub with a Whisk's walk changed. -/
def setWhisk (r : Nat) (f : WhiskPos → WhiskPos) (h : Hub) : Hub := { h with integ := { h.integ with whisk := bupd h.integ.whisk r {} f } }

/-- Whether a Whisk's lane or channel is trained. -/
def whiskThere (h : Hub) (r : Nat) : Bool := if r < 4 then h.life.lanes.trained && h.life.arrayUp else chanTrained h (r - 4)

/-- Trained lanes or channels that share a floor. -/
def whiskShares (h : Hub) (r : Nat) : Nat := if r < 4 then lanesTrained h else ((List.range 8).filter (chanTrained h)).length

/-- Lines per frame of a rate in MB/s for the package, as one share, rounded up. -/
def linesOf (h : Hub) (mb r : Nat) : Nat := ceilDiv (mb * h.fs.period) (128 * max 1 (whiskShares h r))

/-- A Whisk's share of its floor, and of its ceiling, in lines per frame. -/
def floorLines (h : Hub) (r : Nat) : Nat := linesOf h (if r < 4 then regField h 0 0x41C0 31 16 else regField h 0 0x41C0 15 0) r
def ceilLines (h : Hub) (r : Nat) : Nat := linesOf h (if r < 4 then regField h 0 0x41C4 31 16 else regField h 0 0x41C4 15 0) r

/-- WHISK_RATE.EXPERT. -/
def whiskExpert (h : Hub) : Bool := bitOf (regGet h 0 0x41C8) 31

/-- The pace in force: the manager's under expert control and to the end of the frame in which that ends, the steward's under basic control, between
floor and ceiling (R229, R239). -/
def whiskRate (h : Hub) (r : Nat) : Nat :=
  let want := if whiskExpert h || h.fs.fallback.contains 4 then 256 * (if r < 4 then regField h 0 0x41C8 30 16 else regField h 0 0x41C8 14 0) else (whisk h r).rate
  max (floorLines h r) (min (ceilLines h r) want)

/-! ### A line (R230) -/

/-- One copy of a main-memory word under the Whisk. -/
def whiskWord (e : REntry) (p : Bool) (a : Nat) (h : Hub) : Hub :=
  let off := e.off a / 8 * 8
  let w := off / 8
  match secded (mainErrOf h p w) with
  | (.corrected, _) => mainCe e a 0 p h
  | (.bad, _) =>
    let h := mainUe a 0 (h.mem.injected.contains (injKey (b2n p) w)) h
    let twin := if e.mirror && chanTrained h (2 * homeRg a + b2n (!p)) then (secded (mainErrOf h (!p) w)).1 else .bad
    if twin == .clean || twin == .corrected then
      let die := homeDie a
      regSetField (setMainErr p w 0 h) die 0x41E8 15 0 (satAdd (regField h die 0x41E8 15 0) 1 16)
    else
      poisonCopies e a w h
  | _ => h

/-- A main-memory line on channel `c`. -/
def whiskMain (e : REntry) (c a : Nat) (h : Hub) : Hub :=
  let h := pmu 0x18 (homeDie a) 128 { pid := some 0, addr := some a, qual := some c } h
  if e.ecc then forEach (List.range 16) (fun i h => whiskWord e (e.mirror && c % 2 == 1) (a / 128 * 128 + 8 * i) h) h else h

/-- A cache line: an uncorrectable CLEAN line is invalidated, a DIRTY one becomes POISONED. -/
def whiskSlot (sl set way ix : Nat) (h : Hub) : Hub :=
  let s := sector h sl set way
  let a := s.addr + 128 * ix
  let r := readArrayLine (slotOffset sl set way ix) a 0 (locSlot sl set way) h
  match r.out with
  | .bad =>
    let h := arrayUe a 0 r.inj r.h
    if s.lines.getD ix .invalid == .dirty then setSlotLine sl set way ix .poisoned h else setSlotLine sl set way ix .invalid h
  | _ => r.h

/-- Errors that the devices made in a line, by what it is (log entry 14). -/
def whiskDisturb (r : Nat) (k : Scrub) (x : Disturb) (h : Hub) : Hub :=
  match k with
  | .main e a =>
    if e.mirror && r % 2 == 1 then
      forEach x.words (fun p h =>
        if p.1 < 16 then xorMainErr true (e.off (a / 128 * 128) / 8 + p.1) p.2.toNat h else h) h
    else disturb e a x h
  | .near e a => disturb e a x h
  | .slot sl set way ix =>
    let off := slotOffset sl set way ix
    disturb { base := 0, size := off / unit2M + 1, typ := .near, tbase := 0 } off x h
  | .echo sl set =>
    let off := echoOffset h sl set
    disturb { base := 0, size := off / unit2M + 1, typ := .near, tbase := 0 } off x h

/-- Whether a line that the Whisk reads is poisoned: some part of it is marked, and none is worse (R219, R230). -/
def whiskPoison (r : Nat) (k : Scrub) (h : Hub) : Bool :=
  match k with
  | .main e a =>
    let os := (List.range 16).map (fun i => (secded (mainErrOf h (e.mirror && r % 2 == 1) (e.off (a / 128 * 128) / 8 + i))).1)
    e.ecc && os.any (· == .poison) && !(os.any (· == .bad))
  | .near e a => (readArrayLine (e.off (a / 128 * 128)) a 0 0 h).out == .poison
  | .slot sl set way ix => (readArrayLine (slotOffset sl set way ix) ((sector h sl set way).addr + 128 * ix) 0 0 h).out == .poison
  | .echo sl set => (readArrayLine (echoOffset h sl set) (sliceAddr sl) 0 0 h).out == .poison

/-- One line's read and its outcome. -/
def whiskLine (r : Nat) (k : Scrub) (h : Hub) : Hub :=
  match k with
  | .main e a => whiskMain e (r - 4) a (hkBytes a 128 h)
  | .near e a =>
    let h := hkBytes a 128 h
    if e.typ == .shadow then (readShadow e a 0 h).2.h else (readNear e a 0 h).h
  | .slot sl set way ix => whiskSlot sl set way ix (hkBytes ((sector h sl set way).addr + 128 * ix) 128 h)
  | .echo sl set =>
    let a := sliceAddr sl
    let q := readArrayLine (echoOffset h sl set) a 0 (locRow r (laneRow (echoOffset h sl set))) (hkBytes a 128 h)
    match q.out with
    | .bad => echoLost sl set (forEach (List.range 16) (fun w h => rebuildWay sl set w true h) (arrayUe a 0 q.inj q.h))
    | _ => q.h

/-- Whether the hub's own maintenance may run now: in RUN, with no PWR_WARN and no warm reset of the die. -/
def maintains (h : Hub) (die : Nat) : Bool := h.life.phase == .run && (bfind h.life.warm die).isNone

/-- WHISK_LINE_READ: the next line of the walk, up to the ceiling's lines in a frame. A SHADOW line whose source a host owns waits for the owner's
data (R222). -/
def effWhiskLineRead (r line : Nat) (x : Disturb) (h : Hub) : Hub :=
  let p := whisk h r
  let die := if r < 4 then r / 2 else (r - 4) / 4
  if 11 < r || !(whiskThere h r) || !(maintains h die) || (r < 4 && h.integ.rebuild) || decide (ceilLines h r ≤ p.lines) then h
  else match scrubNext h r p.next with
    | none => h
    | some (n, k) =>
      if n ≠ line then h
      else
        let h := setWhisk r (fun p => if p.begun then p else { p with begun := true, lapFrame := h.fs.frame, lapAt := h.now }) (whiskDisturb r k x h)
        match (match k with | .near e a => shadowOwned e a 0 h | _ => none) with
        | some h => h
        | none =>
          setWhisk r (fun p => { p with next := n + 1, lines := p.lines + 1, poison := p.poison + b2n (whiskPoison r k h) }) (settle (whiskLine r k h))

/-- Whether a correction-table entry lies on a Whisk's lane or channel. -/
def entryOn (r : Nat) (e : CorrEnt) : Bool :=
  let q := e.loc % 2 ^ 40
  r == (if e.loc / 2 ^ 40 = 0 then q / 65536 / 8 else if e.loc / 2 ^ 40 = 1 then q / 2 ^ 24 else 4 + q / 2 ^ 24)

/-- WHISK_LAP_END (R231, R233): nothing is left of the lap. DEDUCED (log entry 21): an entry is freed at the end of the first lap that began
after its write-back. -/
def effWhiskLapEnd (r : Nat) (h : Hub) : Hub :=
  let p := whisk h r
  let die := if r < 4 then r / 2 else (r - 4) / 4
  if 11 < r || !(whiskThere h r) || !(maintains h die) || (scrubNext h r p.next).isSome then h
  else
    let t : List CorrEnt := (bget h.integ.corr die []).filter (fun e => !(entryOn r e && decide (e.lap < p.lap) && !(h.integ.backs.any (fun b => b.loc == e.loc))))
    let h := { h with integ := { h.integ with corr := bset h.integ.corr die t } }
    setWhisk r (fun p =>
      let q := { p with begun := true, next := 0, lapFrame := h.fs.frame, lapAt := h.now }
      if p.begun then { q with lap := p.lap + 1, lapFrames := (h.fs.frame + 2 ^ 32 - p.lapFrame) % 2 ^ 32, lapMs := (h.now - p.lapAt) / 1250000 } else q) h

/-! ### Spare rebuild (R237) -/

/-- Whether a rebuild is due: eleven devices, one failed device whose position D10 has not taken, no degraded array. -/
def rebuildWanted (h : Hub) : Bool :=
  popOf h == 3 && h.integ.failed.toNat % 1024 != 0 && !h.integ.failed.toNat.testBit 10 && h.integ.posD10 == 15 && !h.integ.rebuild && !h.integ.degraded

/-- REBUILD_START: at the first tick after the declaration. -/
def effRebuildStart (h : Hub) : Hub :=
  if h.integ.rebuildDue && rebuildWanted h then { h with integ := { h.integ with rebuild := true, rebuildPtr := 0, rebuildDue := false } } else h

/-- Array lines with an error in some beat. -/
def errLines (h : Hub) : List Nat := (h.mem.beatErr.map (fun (e : Nat × BitVec 128) => e.1 / 16 * 128)).eraseDups

/-- One line rebuilt: read in erasure mode, the failed position's symbol written to D10; what is uncorrectable stays poisoned. -/
def rebuildLine (pos off : Nat) (h : Hub) : Hub :=
  let er := erasedPos h off
  let out := (List.range 16).foldl (fun o b => o.worse (beatCheck er (beatErrOf h off b)).1) EccOut.clean
  match out with
  | .bad => poisonLine off (((encAddr h off).getD 0) * 128) h
  | .poison => poisonLine off (((encAddr h off).getD 0) * 128) h
  | _ => forEach (List.range 16) (fun b (h : Hub) =>
      let e := beatErrOf h off b
      let e' := e - symOf e pos * 2 ^ (8 * pos)
      { h with mem := { h.mem with beatErr := if e' = 0 then bdel h.mem.beatErr (off / 8 + b) else bset h.mem.beatErr (off / 8 + b) (BitVec.ofNat 128 e') } }) h

/-- Lines of array offsets from `lo` up to `hi` (in 2 MiB units) that a die's lanes walk in a rebuild (R228, R237). -/
def listedLines (h : Hub) (die lo hi : Nat) : Nat :=
  let inside := fun (off : Nat) => decide (lo * unit2M ≤ off) && decide (off < hi * unit2M)
  let foot := h.rmap.map (fun x => if x.2.valid && x.2.here h && (x.2.typ == .near || x.2.typ == .shadow)
    then (min hi (x.2.tbase + x.2.size) - max lo x.2.tbase) * 8192 else 0)
  let slots := (h.cache.sectors.filter (fun s => dieOfSlice s.slice == die)).map (fun s => ((List.range 8).filter (fun i =>
    let st := s.lines.getD i .invalid
    (st == .clean || st == .dirty) && inside (slotOffset s.slice s.set s.way i))).length)
  let echo := if h.cache.cst == .off then 0
    else (min (hi * unit2M) (echoOffset h 0 0 + setsInUse h * 4096) - max (lo * unit2M) (echoOffset h 0 0)) / 256
  sumOf foot + sumOf slots + echo

/-- The rebuild comes as far as array offset `p` × 2 MiB (R237): each line below is read in erasure mode and its symbol written to D10, charged to the
housekeeping reserve. -/
def rebuildTo (p : Nat) (h : Hub) : Hub :=
  match (List.range 10).find? (fun k => h.integ.failed.toNat.testBit k) with
  | none => h
  | some k =>
    let lo := h.integ.rebuildPtr
    let mine := (errLines h).filter (fun off => decide (lo ≤ off / unit2M) && decide (off / unit2M < p))
    let h := forEach mine (rebuildLine (posOfDev k)) h
    let h := forEach [0, 1] (fun die h => pmu 0x1C die (256 * listedLines h die lo p) {} h) h
    { h with integ := { h.integ with rebuildPtr := p } }

/-- A frame's progress of a rebuild: how far it comes is a free value (log entry 59). -/
def rebuildTick (h : Hub) : Hub :=
  if !h.integ.rebuild then h
  else rebuildTo (max h.integ.rebuildPtr (min (arrayUnits h) (Config.freeProgress h.free))) { h with free := h.free + 1 }

/-- REBUILD_DONE: D10 holds the position, erasure mode ends and the Ledger says so. -/
def effRebuildDone (h : Hub) : Hub :=
  if !h.integ.rebuild then h
  else match (List.range 10).find? (fun k => h.integ.failed.toNat.testBit k) with
    | none => h
    | some k =>
      let pos := posOfDev k
      let h := rebuildTo (max h.integ.rebuildPtr (arrayUnits h)) h
      let h := { h with integ := { h.integ with rebuild := false, rebuildPtr := 0, posD10 := pos, consec := [] } }
      record 0x37 1 4 0 0 pos (ledgerPut 0x60 (fun l => { l with posD10 := pos }) h)

/-! ### Row remaps (R235) -/

/-- REMAP_COPY_DONE: the row's lines are in the spare row, corrected where the code allows, and marked where it does not; the copy is charged to the
housekeeping reserve. A SHADOW line whose source a host owns waits for the owner's data (R222). -/
def effRemapCopyDone (lane row : Nat) (h : Hub) : Hub :=
  match h.led.remap.find? (fun r => r.lane == lane && r.row == row && !r.copied) with
  | none => h
  | some _ =>
    let lines := rowLines h lane row
    match (lines.filterMap (fun x => shadowOwned x.1 x.2 0 h)).head? with
    | some h => h
    | none =>
      let bad := ((errLines h) ++ h.mem.crcErr.map (fun (e : Nat × Word32) => e.1 * 128)).eraseDups
      let h := forEach (lines.filter (fun x => bad.contains (x.1.off (x.2 / 128 * 128)))) (fun x h =>
        if x.1.typ == .shadow then (readShadow x.1 x.2 0 h).2.h else (readNear x.1 x.2 0 h).h) h
      let h := forEach lines (fun x h => hkBytes x.2 256 h) h
      { h with led := { h.led with remap := h.led.remap.map (fun r => if r.lane == lane && r.row == row then { r with copied := true } else r) } }

/-! ### Overruns (R192) -/

/-- FRAME_OVERRUN with its cause (0 main scrub, 1 array scrub, 2 test, 3 steward), unfinished amount and whether some was dropped. -/
def overrun (cause units : Nat) (dropped : Bool) (h : Hub) : Hub :=
  let h := regSetField h 0 0x4120 0 0 1
  let h := regSetField h 0 0x4120 15 8 (satAdd (regField h 0 0x4120 15 8) 1 8)
  let lo := 24 - 8 * cause
  let h := regSetField h 0 0x4124 (lo + 7) lo (satAdd (regField h 0 0x4124 (lo + 7) lo) 1 8)
  raiseEvt 0 (record 0x22 (if dropped then 3 else 2) 2 0 0 (cause + 4 * min units (2 ^ 20 - 1)) h)

/-- FS_CFG.CARRY_MAX in force: 0 acts as 4. -/
def carryMax (h : Hub) : Nat := let c := regField h 0 0x4100 11 8; if c = 0 then 4 else c

/-- Lines of a Whisk's floor left unread in the frame that ends; none where it has nothing to read or its floor is suspended. -/
def scrubLeft (h : Hub) (r : Nat) : Nat :=
  let p := whisk h r
  if !(whiskThere h r) || (r < 4 && h.integ.rebuild) || (scrubNext h r 0).isNone then 0 else floorLines h r + p.carry - p.lines

/-- The scrub floors of some Whisks at a tick: overrun and carry. -/
def scrubTick (cause : Nat) (rs : List Nat) (h : Hub) : Hub :=
  let left := rs.map (fun r => (r, scrubLeft h r))
  let lines := sumOf (left.map Prod.snd)
  let dropped := left.any (fun x => decide (carryMax h * floorLines h x.1 < x.2))
  let h := if lines = 0 then h else overrun cause (ceilDiv (lines * 128) 65536) dropped h
  forEach left (fun x h => setWhisk x.1 (fun p => { p with lines := 0, carry := min x.2 (carryMax h * floorLines h x.1) }) h) h

/-! ### Background test (R352 to R354) -/

/-- Number of a tested structure. -/
def btCode : BtStruct → Nat
  | .tags => 0
  | .sieve => 1
  | .kettle => 2
  | .buffers => 3

/-- Regions of a structure on one die: the tag SRAM's powered part, 3,072, 2,048 and 160. -/
def btRegions (h : Hub) (s : Nat) : Nat :=
  if s = 0 then (if h.cache.cst == .off then 0 else 1024 * 2 ^ h.cache.size * popcount h.cache.powered.toNat 16 / 16)
  else if s = 1 then 3072 else if s = 2 then 2048 else 160

/-- BT_CTL.MAX_STEPS in force: 0 acts as 8. -/
def btMax (h : Hub) : Nat := let n := regField h 0 0x4808 3 0; if n = 0 then 8 else n

/-- Offset of a 1 KiB Kettle region of a die: of each two 8 KiB blocks, one is homed on it (R7, R12). -/
def kettleRegion (h : Hub) (die region : Nat) : Nat :=
  let o := region / 8 * 16384 + region % 8 * 1024
  if homeDie (kettleAddr h o) = die then o else o + 8192

/-- What a region's copy finds: a Kettle word is handled by R345, a Sieve entry of bad parity starts its set's recovery. A tag set of bad parity is
held for its rebuild as it is (R93). Which words lie in a region is internal (log entry 10). -/
def btCopy (die s region : Nat) (h : Hub) : Hub :=
  if s = 2 then forEach (List.range 128) (fun i h => (readKettleWord (kettleRegion h die region + 8 * i) die 0 h).h) h
  else if s = 1 then
    forEach (h.sieve.filter (fun e => homeDie e.addr == die && (e.set + 439 * e.host) % 3072 == region && parityBad h e)) recoverEntry h
  else h

/-- A region that fails its march is restored into a spare, where one is left (R353). -/
def btFail (die s region : Nat) (h : Hub) : Hub :=
  let used := (h.led.spares.filter (fun x => x.1 == die && x.2.1 == s)).length
  let h := regSetField h die 0x480C 31 24 (satAdd (regField h die 0x480C 31 24) 1 8)
  let h := if used < 4 then ledgerPut 0x80 (fun l => { l with spares := l.spares ++ [(die, s, region)] }) h else h
  raiseEvt die (record 0x72 3 12 die 0 (s + 4 * region + 2 ^ 15 * b2n (decide (4 ≤ used))) h)

/-- BT_STEP: one region of a structure, in order, up to the frame's limit. -/
def effBtStep (die : Nat) (st : BtStruct) (fails : Bool) (h : Hub) : Hub :=
  let s := btCode st
  let k := die * 4 + s
  let p := bget h.bt k {}
  let n := btRegions h s
  if !(maintains h die) || n = 0 || decide (btMax h ≤ p.steps) then h
  else
    let reg := p.region % n
    let h := btCopy die s reg h
    let h := if fails then btFail die s reg h else h
    let p := if p.begun then p else { p with begun := true, lapFrame := (h.fs.frame + 2 ^ 32 - 1) % 2 ^ 32 }
    let p' : BtPos := if reg + 1 = n then
        { p with region := 0, steps := p.steps + 1, lapFrames := (h.fs.frame + 2 ^ 32 - p.lapFrame) % 2 ^ 32, lapFrame := h.fs.frame }
      else { p with region := reg + 1, steps := p.steps + 1 }
    let h := { h with bt := bset h.bt k p' }
    if reg + 1 = n then regSetField h die (0x4810 + 4 * s) 15 0 (min p'.lapFrames 65535) else h

/-- Background test steps at a tick: each structure takes at least one step in a frame. -/
def btTick (h : Hub) : Hub :=
  let ks := (List.range 8).filter (fun k => btRegions h (k % 4) != 0)
  let left := ks.map (fun k => (k, 1 + (bget h.bt k {}).carry - (bget h.bt k {}).steps))
  let n := sumOf (left.map Prod.snd)
  let h := if n = 0 then h else overrun 2 n (left.any (fun x => decide (carryMax h < x.2))) h
  let h := forEach left (fun x h => { h with bt := bupd h.bt x.1 {} (fun p => { p with carry := min x.2 (carryMax h) }) }) h
  { h with bt := h.bt.map (fun e => (e.1, { e.2 with steps := 0 })) }

/-! ### Error history (R351) -/

/-- Folds the counts of record types into the history summary. -/
def foldHistory (h : Hub) : Hub :=
  ledgerPut 0x90 (fun l => { l with typeCnt := l.typeNew.foldl (fun (b : Bank Nat) (e : Nat × Nat) => bupd b e.1 0 (fun n => satAdd n e.2 32)) l.typeCnt, typeNew := [] }) h

/-- HISTORY_FOLD: every 1,024 frames. -/
def effHistoryFold (h : Hub) : Hub := if h.fs.frame % 1024 = 0 && h.fs.started then foldHistory h else h

/-- Adds a power event to the history (0 cold boot, 1 wake, 2 PWR_WARN), keeping the last 64. -/
def powerEvent (kind : Nat) (h : Hub) : Hub :=
  ledgerPut 0x90 (fun l => { l with power := (l.power ++ [(kind, h.fs.frame)]).drop ((l.power.length + 1) - 64) }) h

/-- KETTLE_PARKED_SCRUB (R346): while parked, one Kettle word is read and its outcome handled by R345. `x` is what its stored bits have
suffered. -/
def effKettleParkedScrub (word : Nat) (x : BitVec 72) (h : Hub) : Hub :=
  if h.life.phase != .parked then h
  else
    let h := setKetErr word (Nat.xor (bget h.mem.ketErr word 0#72).toNat x.toNat) h
    (readKettleWord (8 * word) (homeDie (kettleAddr h (8 * word))) 0 h).h

end Sys2Proof.Machine
end

