-- ==== Sys2Proof/Machine/FrameSeq.lean ====
section
/-! DEFINITION. The Frame Sequencer (R174 to R180, R437), the frame's end (R182, R183, R192, R366), monitoring windows (R365, R374 to R376), and
the steward (R195 to R197). -/

namespace Sys2Proof.Machine

/-! ### Ticks -/

/-- The guard G in cycles (R175). -/
def guardCycles (h : Hub) : Nat := max 4000 (h.fs.period / 2) * cyclesPerUs

/-- The hub with its Frame Sequencer changed. -/
def setFs (f : FrameSeq → FrameSeq) (h : Hub) : Hub := { h with fs := f h.fs }

/-- TICK_FAILOVER: after FAILOVER synthetic ticks in a row the source becomes ALT_SRC (R177). -/
def effTickFailover (h : Hub) : Hub :=
  let n := bits h.fs.tickCtl.toNat 11 8
  let alt := bits h.fs.tickCtl.toNat 3 2
  if n = 0 || decide (h.fs.synthRun < n) || h.fs.srcNow == alt then h
  else
    let old := h.fs.srcNow
    let h := regSetField h 0 0x4120 2 2 1
    raiseEvt 0 (record 0x20 2 2 0 0 (old + 4 * alt) (setFs (fun f => { f with srcNow := alt, synthRun := 0 }) h))

/-! ### What a tick latches -/

/-- HEADER of a counter page for the frame that ends (R366). -/
def pageHeader (h : Hub) (k : Part) : Nat := h.fs.frame % 2 ^ 32 + b2n k.cntGrant * 2 ^ 32 + 2 ^ 33

/-- Counter pages latched and restarted (R366), reuse fractions (R63) and Ladle counts (R196) taken. -/
def latchPart (h : Hub) (k : Part) : Part :=
  match shownSt k with
  | .free => k
  | _ =>
    let n := k.castHit + k.castGone
    { k with page := bset k.run 0 (pageHeader h k), run := [], castFrac := if n = 0 then k.castFrac else k.castHit,
             castDen := if n = 0 then k.castDen else n, castHit := 0, castGone := 0, landedDone := k.landed, movedDone := k.moved, landed := 0, moved := 0,
             budNow := k.bud, resumeTicks := k.resumeTicks + (match k.st with | .active => 1 | _ => 0) }

/-- A die's PMU window ends: counters are copied and cleared (R365). -/
def pmuWindow (die : Nat) (h : Hub) : Hub :=
  let p := pmuOf h die
  { h with pmu := bset h.pmu die { p with lat := (List.range 8).map (fun n => (n, bget p.cnt n 0)), cnt := [] } }

/-- PMU_CTL.WINDOW in force: 0 free running, 17 to 31 act as 0. -/
def pmuWidth (h : Hub) (die : Nat) : Nat := let w := regField h die 0x4900 20 16; if 16 < w then 0 else w

/-- PMU_WINDOW_END: the windows that end at this tick. -/
def effPmuWindowEnd (h : Hub) : Hub :=
  forEach [0, 1] (fun die h =>
    if (pmuOf h die).winLeft = some 0 then
      let h := pmuWindow die h
      { h with pmu := bupd h.pmu die {} (fun p => { p with winLeft := if pmuWidth h die = 0 then none else some (pmuWidth h die) }) }
    else h) h

/-- BW_CTL.WINDOW in force: 0 and 17 to 31 act as 1. -/
def bwWidth (h : Hub) : Nat := let w := regField h 0 0x4960 4 0; if w = 0 ∨ 16 < w then 1 else w

/-- BW_WINDOW_END: every link's byte counts are latched and restarted (R374). `bwLeft` is 0 before a window begins, then 1 more than the ticks
left. -/
def effBwWindowEnd (h : Hub) : Hub :=
  if h.bwLeft != 1 then h
  else
    { h with bwLeft := bwWidth h + 1, bwLat := (List.range 8).map (fun l => (l, ((link h l).rxBytes % 2 ^ 48, (link h l).txBytes % 2 ^ 48))),
             links := h.links.map (fun e => (e.1, { e.2 with rxBytes := 0, txBytes := 0 })) }

/-- Windows that a tick begins or brings nearer to their end. -/
def windowTick (h : Hub) : Hub :=
  let h := effBwWindowEnd (effPmuWindowEnd h)
  let h := forEach [0, 1] (fun die h =>
    let w := pmuWidth h die
    { h with pmu := bupd h.pmu die {} (fun p => { p with winLeft :=
        (match p.winLeft with
          | some k => if w = 0 then none else some (k - 1)
          | none => if w = 0 then none else some w) }) }) h
  { h with bwLeft := if h.bwLeft = 0 then bwWidth h + 1 else h.bwLeft - 1 }

/-- Fields that return to their reset values after expert control (R65, R95, R198); the steward's Whisk paces go on from the manager's (R239). -/
def fallback (f : Nat) (h : Hub) : Hub :=
  let both := fun (off : Nat) (h : Hub) => regPut (regPut h 0 off (((findRow off).map RegRow.reset).getD 0)) 1 off (((findRow off).map RegRow.reset).getD 0)
  if f = 0 then both 0x400C (both 0x4004 h)
  else if f = 1 then forEach [0, 1] (fun die h => regSetField (regSetField h die 0x4024 11 8 8) die 0x4024 2 0 3) h
  else if f = 3 then regPut (regSetField (regSetField h 0 0x4100 11 8 4) 0 0x4100 3 0 3) 0 0x4128 (((findRow 0x4128).map RegRow.reset).getD 0)
  else if f = 4 then
    forEach (List.range 12) (fun r h => setWhisk r (fun p => { p with
      rate := 256 * (if r < 4 then regField h 0 0x41C8 30 16 else regField h 0 0x41C8 14 0) }) h) h
  else h

/-! ### The steward (R195 to R197) -/

/-- Partitions the steward considers: the ACTIVE ones (R299), by PID. -/
def stewParts (h : Hub) : List (Nat × Part) := h.parts.filter (fun e => e.2.st == .active)

/-- Powered ways of a mask. -/
def poweredIn (h : Hub) (m : BitVec 16) : Nat := popcount (m &&& h.cache.powered &&& ~~~h.cache.pending).toNat 16

/-- Ways in no partition's mask, powered and retired in no set. -/
def freeWays (h : Hub) (ms : Bank (BitVec 16)) : List Nat :=
  (List.range 16).filter (fun w => wayPowered h w && !(ms.any (fun e => e.2.toNat.testBit w)) && !(h.cache.retired.any (fun r => r.2.2 == w)))

/-- The highest way of a partition's mask that is in no other. -/
def topExclusive (ms : Bank (BitVec 16)) (p : Nat) : Option Nat :=
  ((List.range 16).map (fun i => 15 - i)).find? (fun w =>
    (bget ms p 0#16).toNat.testBit w && !(ms.any (fun e => e.1 != p && e.2.toNat.testBit w)))

/-- Histogram value of a partition at a depth in the frame just ended. -/
def ghostHits (h : Hub) (p k : Nat) : Nat := bget h.fs.histDone (p * 16 + k) 0

/-- A candidate with the largest gain, ties to the lowest PID. -/
def bestGain : List (Nat × Nat) → Option (Nat × Nat)
  | [] => none
  | x :: r => match bestGain r with
    | none => some x
    | some y => if x.2 < y.2 then some y else some x

/-- A candidate with the smallest loss, ties to the highest PID. -/
def leastLoss : List (Nat × Nat) → Option (Nat × Nat)
  | [] => none
  | x :: r => match leastLoss r with
    | none => some x
    | some y => if y.2 ≤ x.2 then some y else some x

/-- Way moves by the procedure of R195, with at most `fuel` of them. `moved` lists partitions that have moved. -/
def wayMoves (hyst : Nat) (ps : List (Nat × Part)) (h : Hub) : Nat → Bank (BitVec 16) → List Nat → Nat → List Decision
  | 0, _, _, _ => []
  | fuel + 1, ms, moved, pick =>
    let open_ := ps.filter (fun e => !(moved.contains e.1))
    let n := fun (p : Nat) => poweredIn h (bget ms p 0#16)
    let gains := (open_.filter (fun e => decide (n e.1 < e.2.wayMax))).map (fun e => (e.1, ghostHits h e.1 (n e.1)))
    match bestGain gains with
    | none => []
    | some (r, g) =>
      if g ≤ hyst then []
      else match freeWays h ms with
        | w0 :: ws =>
          let w := (w0 :: ws).getD (Config.freePick pick % (ws.length + 1)) w0
          let b := BitVec.ofNat 16 (2 ^ w)
          { kind := 0, pid := r, newV := 1, mask := b, basis := g } :: wayMoves hyst ps h fuel (bset ms r (bget ms r 0#16 ||| b)) (r :: moved) (pick + 1)
        | [] =>
          let ds := (open_.filter (fun e => e.1 != r && decide (e.2.wayMin < n e.1) && (topExclusive ms e.1).isSome)).map
            (fun e => (e.1, ghostHits h e.1 (n e.1 - 1)))
          match leastLoss ds with
          | none => []
          | some (d, l) =>
            if g ≤ l + hyst then []
            else match topExclusive ms d with
              | none => []
              | some w =>
                let b := BitVec.ofNat 16 (2 ^ w)
                let ms := bset (bset ms r (bget ms r 0#16 ||| b)) d (bget ms d 0#16 &&& ~~~b)
                { kind := 0, pid := r, newV := 1, mask := b, basis := g } :: { kind := 0, pid := d, newV := 0, mask := b, basis := l }
                  :: wayMoves hyst ps h fuel ms (r :: d :: moved) pick

/-- Depth decisions (R196): `newV` 1 raises, 0 lowers; the basis is u in 1/64. -/
def depthMoves (h : Hub) : List Decision :=
  let hi := regField h 0 0x4128 15 8
  let lo := regField h 0 0x4128 7 0
  if ladleExpert h then []
  else (stewParts h).filterMap (fun e =>
    let k := e.2
    if k.landedDone < 64 then none
    else if hi * k.landedDone ≤ 64 * k.movedDone then
      some { kind := 1, pid := e.1, newV := 1, mask := 0#16, basis := 64 * k.movedDone / k.landedDone }
    else if 64 * k.movedDone < lo * k.landedDone then
      some { kind := 1, pid := e.1, newV := 0, mask := 0#16, basis := 64 * k.movedDone / k.landedDone }
    else none)

/-- Scrub paces for the next frame: the floor and half the idle data cycles, within the ceiling (R196); `pid` names the Whisk. -/
def paceMoves (h : Hub) (frame : Nat) : List Decision :=
  if whiskExpert h then []
  else ((List.range 12).filter (whiskThere h)).map (fun r =>
    { kind := 2, pid := r, newV := max (floorLines h r) (min (ceilLines h r) (floorLines h r + Config.freeIdle (12 * frame + r) / 2)), mask := 0#16, basis := 0 })

/-- STEWARD_PASS: the computation over the frame just ended is done before boundary 8; its decisions wait for the next boundary (R197). -/
def effStewardPass (h : Hub) : Hub :=
  match h.fs.passFrame with
  | none => h
  | some f =>
    if 8 ≤ h.fs.step || h.life.phase != .run then h
    else
      let ms := h.parts.map (fun e => (e.1, e.2.wayMask))
      let ways := if cacheExpert h || h.cache.cst != .on then [] else wayMoves (regField h 0 0x4128 23 16) (stewParts h) h 64 ms [] h.free
      { h with free := h.free + 64, fs := { h.fs with passFrame := none, decisions := h.fs.decisions ++ ways ++ depthMoves h ++ paceMoves h f } }

/-- The STEWARD record of a decision (R197). -/
def stewardRecord (kind pid old new basis : Nat) (h : Hub) : Hub :=
  record 0x23 0 3 0 pid (kind + 4 * (old % 2 ^ 16) + 2 ^ 18 * (new % 2 ^ 16) + 2 ^ 34 * min basis (2 ^ 20 - 1)) h

/-- A decision takes effect, and is recorded where it changes a setting (R197), within the manager's bounds as they now stand (R195, R196, R299). -/
def applyDecision (d : Decision) (h : Hub) : Hub :=
  let k := part h d.pid
  if d.kind = 0 then
    let m := if d.newV = 1 then k.wayMask ||| d.mask else k.wayMask &&& ~~~d.mask
    let n := poweredIn h m
    if k.st != .active || cacheExpert h || (d.newV == 1 && decide (k.wayMax < n)) || (d.newV == 0 && decide (n < k.wayMin)) then h
    else if m = k.wayMask then h
    else stewardRecord 0 d.pid k.wayMask.toNat m.toNat d.basis (setPart h d.pid (fun k => { k with wayMask := m }))
  else if d.kind = 1 then
    let n := if d.newV = 1 then min k.depthMax (k.depth + 1) else max k.depthMin (k.depth - 1)
    if k.st != .active || ladleExpert h || (d.newV == 1 && decide (n < k.depth)) || (d.newV == 0 && decide (k.depth < n)) then h
    else if n = k.depth then h
    else stewardRecord 1 d.pid k.depth n d.basis (setPart h d.pid (fun k => { k with depth := n }))
  else
    let old := (whisk h d.pid).rate
    if whiskExpert h || h.fs.fallback.contains 4 || old == d.newV then h
    else stewardRecord 2 0 (old / 256) (d.newV / 256) d.basis (setWhisk d.pid (fun p => { p with rate := d.newV }) h)

/-- STEWARD_PASS_DISCARD: a pass not finished by boundary 8 is discarded with FRAME_OVERRUN (R197). -/
def effStewardPassDiscard (h : Hub) : Hub :=
  if h.fs.passFrame.isSome && decide (8 ≤ h.fs.step) then overrun 3 0 false (setFs (fun f => { f with passFrame := none }) h) else h

/-! ### Frames and steps -/

/-- Budgets, allowances and counts as a frame's step 0 has them (R182, R183). -/
def beginFrame (h : Hub) : Hub :=
  releaseStep 0 { h with fs := { h.fs with step := 0, charged := [], allow := [], regionCnt := [] } }

/-- The period, the tick options and the source that the registers hold come into force (R177, R179). -/
def adoptTick (h : Hub) : Hub :=
  let c := regGet h 0 0x4104
  setFs (fun f => { f with period := regField h 0 0x4108 15 0, tickCtl := BitVec.ofNat 32 c, srcNow := if f.srcWritten then bits c 1 0 else f.srcNow,
                           srcWritten := false }) h

/-- Whether the hub forwards its ticks to the twin (R178). -/
def forwardsTick (h : Hub) : Bool :=
  let c := h.fs.tickCtl.toNat
  bitOf c 15 && !(h.fs.srcNow == 2 && bits c 14 12 == 7)

/-- The Frame Sequencer starts (R437): a frame begins and none ends. -/
def startFrames (frame : Nat) (h : Hub) : Hub :=
  let c := regGet h 0 0x4104
  let h := setFs (fun f => { f with started := true, fresh := true, frame := frame % 2 ^ 32, tickAt := h.now, synth := false, tickPend := 0, synthRun := 0,
                                    period := regField h 0 0x4108 15 0, tickCtl := BitVec.ofNat 32 c, srcNow := bits c 1 0, srcWritten := false }) h
  beginFrame { h with parts := h.parts.map (fun (e : Nat × Part) => (e.1, { e.2 with budNow := e.2.bud })) }

/-- FRAME_TICK: an accepted tick ends one frame and begins the next (R180, R182, R192, R253, R268, R366, R375, R376). -/
def effFrameTick (h : Hub) : Hub :=
  if h.fs.tickPend = 0 then h
  else
    let h := evalWitness h
    let h := btTick (scrubTick 1 [0, 1, 2, 3] (scrubTick 0 ((List.range 8).map (· + 4)) h))
    let h := { h with parts := h.parts.map (fun (e : Nat × Part) => (e.1, latchPart h e.2)) }
    let h := { h with latDone := h.lat, lat := [], occDone := (List.range 8).map (fun k => (k, (h.fs.frame, bget h.occ k []))), occ := [] }
    let h := windowTick (progressAll (rebuildTick h))
    let h := forEach h.fs.fallback fallback h
    let ended := h.fs.frame
    let h := adoptTick (setFs (fun f => { f with frame := (f.frame + 1) % 2 ^ 32, synth := f.tickPend == 2, tickPend := 0, fallback := [],
                                                 histDone := f.hist, hist := [], passFrame := if f.skipPass then none else some ended, skipPass := false,
                                                 decisions := [] }) h)
    let h := checkOvercommit (beginFrame h)
    let h := if forwardsTick h && twinUp h then sendMsg 7 { op := 0xC1, vc := true, frame := h.fs.frame } h else h
    { h with integ := { h.integ with rebuildDue := rebuildWanted h } }

/-! ### The sources of ticks -/

/-- A tick of the source in use at a cycle: accepted, or discarded and counted where it comes too early (R175, R437). One that was accepted before
it has its FRAME_TICK first. -/
def realTick (at_ : Nat) (h : Hub) : Hub :=
  if !h.fs.started then h
  else if !h.fs.fresh && decide (at_ < h.fs.tickAt + guardCycles h) then
    regSetField h 0 0x4120 23 16 (satAdd (regField h 0 0x4120 23 16) 1 8)
  else setFs (fun f => { f with tickPend := 1, fresh := false, tickAt := at_, synthRun := 0 }) (effFrameTick h)

/-- FTICK_EDGE: an edge of the selected ball, of the selected direction (R174). -/
def effFtickEdge (ball falling : Bool) (h : Hub) : Hub :=
  if h.fs.srcNow = b2n ball ∧ bitOf h.fs.tickCtl.toNat 6 = falling then realTick h.now h else h

/-- TICK: a TICK message accepted on the selected link; the tick is at its acceptance (R174). -/
def effTick (l at_ : Nat) (h : Hub) : Hub :=
  if h.fs.srcNow = 2 ∧ bits h.fs.tickCtl.toNat 14 12 = l then realTick at_ h else h

/-- INTERNAL_TIMER_TICK: every FS_PERIOD µs while SRC is 0b11 (R174). -/
def effInternalTimerTick (h : Hub) : Hub :=
  if h.fs.srcNow = 3 ∧ h.fs.tickAt + h.fs.period * cyclesPerUs ≤ h.now then realTick h.now h else h

/-- SYNTHETIC_TICK: floor(1.25 × P) µs after the previous tick (R176); with SRC = 0b11 every tick is real. -/
def effSyntheticTick (h : Hub) : Hub :=
  if h.fs.started && h.fs.srcNow != 3 && decide (h.fs.tickAt + h.fs.period * 5 / 4 * cyclesPerUs ≤ h.now) then
    let h := regSetField h 0 0x4120 31 24 (satAdd (regField h 0 0x4120 31 24) 1 8)
    setFs (fun f => { f with tickPend := 2, tickAt := h.now, synthRun := f.synthRun + 1 }) (effFrameTick h)
  else h

/-- SUBFRAME_STEP: the next step's boundary, at the tick plus floor(k × P / 16) µs (R180, R183). A tick in the same cycle wins (R179). -/
def effSubframeStep (h : Hub) : Hub :=
  let k := h.fs.step + 1
  if !h.fs.started || h.fs.tickPend != 0 || decide (15 < k) || decide (h.now < h.fs.tickAt + k * h.fs.period / 16 * cyclesPerUs) then h
  else
    let ds := h.fs.decisions
    let h := setFs (fun f => { f with step := k, decisions := [] }) (reportRegions h)
    releaseStep k (forEach ds applyDecision h)

end Sys2Proof.Machine
end

