-- ==== Sys2Proof/Machine/Monitor.lean ====
section
/-! DEFINITION. What every cycle counts (R359, R361, R370, R371, R373, R376), latency samples (R375) and the clearing of counters (R364). -/

namespace Sys2Proof.Machine

/-! ### Latency samples (R375) -/

/-- Bucket of a latency in cycles (Table: Latency buckets). -/
def latBucket (x : Nat) : Nat :=
  if x < 80 then 0 else if 2500000 ≤ x then 15 else if 655360 ≤ x then 14 else 1 + Nat.log2 (x / 80)

/-- One sample: `key` is 4 × die + class. -/
def latSample (key x pid : Nat) (h : Hub) : Hub :=
  let h := { h with lat := bupd h.lat key {} (fun r =>
    { r with min := min r.min (min x 0xFFFFFFFF), max := max r.max (min x 0xFFFFFFFF), buckets := bupd r.buckets (latBucket x) 0 (fun n => satAdd n 1 32) }) }
  if key % 4 < 2 then pageMax pid (30 + key % 4) x h else h

/-! ### Counters (R359, R363, R364) -/

/-- PMU_CYC of a die over one cycle. -/
def cycleCount (die : Nat) (h : Hub) : Hub :=
  if pmuHeld h die then h
  else
    let c := (pmuOf h die).cyc + 1
    let h := { h with pmu := bupd h.pmu die {} (fun p => { p with cyc := c % 2 ^ 48 }) }
    if c ≥ 2 ^ 48 then pmuOverflow die 8 h else h

/-- PMU_CLR.CYC: the cycle counter of a die is cleared. -/
def clearCyc (die : Nat) (h : Hub) : Hub := { h with pmu := bupd h.pmu die {} (fun p => { p with cyc := 0 }) }

/-- PMU_CLR.CNT: the named programmable counters of a die are cleared; what occurs in the rest of the cycle is not counted (R364). -/
def clearCnt (die mask : Nat) (h : Hub) : Hub :=
  { h with pmu := bupd h.pmu die {} (fun p => { p with cnt := p.cnt.filter (fun e => !(mask.testBit e.1)),
                                                         clrAt := (bitList mask 8).foldl (fun b n => bset b n (h.now + 1)) p.clrAt }) }

/-! ### Slots (R370 to R373) -/

/-- Why a PID's oldest request queued at a slice is held, by the page's cause index; none where it has no request queued there. -/
def heldCause (h : Hub) (sl pid : Nat) : Option Nat :=
  match h.waiting.find? (fun w => w.slice == sl && w.req.pid == pid) with
  | some w => some (match w.why with
    | .resource => 32
    | .stream => 33
    | .undone => 33
    | .retryFull => 35
    | _ => 34)
  | none =>
    match h.txns.find? (fun t => t.slice == sl && t.req.pid == pid && (t.ph == .stalled || t.ph == .retryQ)) with
    | some t => some (if t.ph == .retryQ then 35 else 34)
    | none => none

/-- A new round's turns on a slice (R370). -/
def newRound (h : Hub) (sl : Nat) : List Nat := roundOf h ((h.waiting.filter (fun w => w.slice == sl)).map Waiting.req)

/-- Adds one to a slot category: 0 useful, 1 lost, 2 held, 3 idle, on the page of a PID or in PID 0's own counts. -/
def slotCount (sl pid cat : Nat) (h : Hub) : Hub :=
  if pid = 0 then
    { h with pmu := bupd h.pmu (dieOfSlice sl) {} (fun p =>
        { p with slotHk := (List.range 4).map (fun i => p.slotHk.getD i 0 + b2n (i == cat)) }) }
  else pageAdd pid (if cat = 0 then 8 else if cat = 1 then 9 else if cat = 2 then 11 else 10) 1 h

/-- A slot whose owner does not use it: held, with its cause, or idle. -/
def slotUnused (sl pid : Nat) (h : Hub) : Hub :=
  match heldCause h sl pid with
  | some i => slotCount sl pid 2 (pageAdd pid i 1 h)
  | none => slotCount sl pid 3 h

/-- One slot of a slice. -/
def slotCycle (sl : Nat) (h : Hub) : Hub :=
  let round := match bget h.rounds sl [] with | [] => newRound h sl | r => r
  match round with
  | [] => h
  | own :: rest =>
    let h := { h with rounds := bset h.rounds sl rest }
    match bget h.slotUse sl [] with
    | [] => slotUnused sl own h
    | (p, lost) :: more =>
      let h := { h with slotUse := if more.isEmpty then bdel h.slotUse sl else bset h.slotUse sl more }
      if p = own then slotCount sl own (b2n lost) h
      else if p = 64 + own then h
      else pageAdd (p % 64) 12 1 (slotUnused sl own h)

/-! ### A cycle -/

/-- Write-buffer lines in use on a die. -/
def wbOnDie (h : Hub) (die : Nat) : Nat := sumOf ((List.range 4).map (fun k => wbUsed h (4 * die + k)))

/-- Trackers in use on a die. -/
def trkOnDie (h : Hub) (die : Nat) : Nat := sumOf ((List.range 4).map (fun k => trkUsed h (4 * die + k)))

/-- Occupancy histogram of a cluster (R376). -/
def occCycle (cl : Nat) (h : Hub) : Hub :=
  let b := min 15 (trkUsed h cl / 8)
  let l := bget h.occ cl []
  { h with occ := bset h.occ cl ((List.range 16).map (fun i => if i = b then satAdd (l.getD i 0) 1 32 else l.getD i 0)) }

/-- What one die does and counts in a cycle: a pending GAP enters its Colander first (R356). -/
def dieCycle (die : Nat) (h : Hub) : Hub :=
  let h := cycleCount die (colGap die h)
  let h := if trkOnDie h die = 0 then h else pmu 0x21 die (trkOnDie h die) {} h
  let h := if wbOnDie h die = 0 then h else pmu 0x22 die (wbOnDie h die) {} h
  let h := forEach (h.txns.filter (fun t => t.ph == .stalled && dieOfSlice t.slice == die)) (fun t h => pmuReq 0x08 t.req h) h
  let h := forEach ((List.range 4).map (fun k => 4 * die + k)) occCycle h
  forEach ((List.range 16).map (fun k => 16 * die + k)) slotCycle h

/-- One HCLK cycle passes with no command (log entry 2): time goes on, and what counts cycles counts. While the package is parked or held in
reset only time passes. -/
def cycle (h : Hub) : Hub :=
  let h := { h with now := h.now + 1 }
  if h.life.phase == .parked || h.life.resetLow then h
  else forEach ([0, 1].filter (fun d => (bfind h.life.warm d).isNone)) dieCycle h

end Sys2Proof.Machine
end

