-- ==== Sys2Proof/Machine/Link.lean ====
section
/-! DEFINITION. The Linlek link (R314 to R339): headers, flits, credits, replay, recovery, training, and the loss of a link. -/

namespace Sys2Proof.Machine

/-! ### Headers (R330) -/

/-- Data slots of a message. -/
def Msg.dslots (m : Msg) : Nat := ceilDiv m.data.length 16

/-- Whether a message carries the answer header: SNP_RSP, FWD_DONE, and DATA sent as an answer. -/
def Msg.isAnswer (m : Msg) : Bool := m.op == 0x91 || m.op == 0x92 || (m.op == 0x93 && m.kind == 1)

/-- The header slot of a message as a number (Tables: Request, Snoop, Answer, Response and Management header). -/
def Msg.header (m : Msg) : Nat :=
  m.op % 256 + fieldAt (m.dslots % 32) 8 + fieldAt (b2n m.vc) 13 +
  (match chanOf m.op with
    | 0 => fieldAt (m.cls % 4) 14 + fieldAt (m.pid % 64) 16 + fieldAt (m.stream % 1024) 22 + fieldAt (m.tag % 4096) 32
        + fieldAt (m.addr % 2 ^ 48) 44 + fieldAt (m.len % 8) 92 + fieldAt (m.hway % 32) 95 + fieldAt (m.sub % 64) 100
    | 1 => fieldAt (m.snpid % 4096) 16 + fieldAt (m.addr % 2 ^ 48) 28 + fieldAt (b2n m.size128) 76
    | 2 =>
      if m.isAnswer then
        fieldAt (m.snpid % 4096) 16 + fieldAt (m.state % 8) 28 + fieldAt (b2n m.dirty) 31 + fieldAt (b2n m.wbPending) 32 + fieldAt (b2n m.passed) 33
      else
        fieldAt (m.lstat % 4) 14 + fieldAt (m.stream % 1024) 16 + fieldAt (m.tag % 4096) 26 + fieldAt (m.state % 8) 38
          + fieldAt (m.reason % 8) 41 + fieldAt (b2n m.declined) 44 + fieldAt (b2n m.pass) 45
    | _ =>
      if m.op = 0xC1 then fieldAt (m.frame % 2 ^ 32) 16
      else if m.op = 0xC2 then fieldAt (m.vector % 256) 16
      else fieldAt (m.kind % 16) 16 + fieldAt (m.qid % 256) 20 + fieldAt (m.hset % 65536) 28)

/-- The slots of a message: its header and its data (R322). -/
def Msg.slotBytes (m : Msg) : List Byte := toBytes 16 m.header ++ fitBytes (16 * m.dslots) m.data

/-- A message from its header slot and data. A DATA message fills the fields of both its layouts (R331). -/
def readHeader (v : Nat) (d : List Byte) : Msg :=
  let op := bits v 7 0
  let m : Msg := { op := op, vc := bitOf v 13, data := d }
  match chanOf op with
  | 0 => { m with cls := bits v 15 14, pid := bits v 21 16, stream := bits v 31 22, tag := bits v 43 32, addr := bits v 91 44,
                  len := bits v 94 92, hway := bits v 99 95, sub := bits v 105 100 }
  | 1 => { m with snpid := bits v 27 16, addr := bits v 75 28, size128 := bitOf v 76 }
  | 2 =>
    let ans : Msg := { m with snpid := bits v 27 16, state := bits v 30 28, dirty := bitOf v 31, wbPending := bitOf v 32, passed := bitOf v 33 }
    let rsp : Msg := { m with lstat := bits v 15 14, stream := bits v 25 16, tag := bits v 37 26, state := bits v 40 38,
                              reason := bits v 43 41, declined := bitOf v 44, pass := bitOf v 45 }
    if op = 0x91 ∨ op = 0x92 then ans else if op = 0x93 then { rsp with snpid := ans.snpid } else rsp
  | _ =>
    if op = 0xC1 then { m with frame := bits v 47 16 }
    else if op = 0xC2 then { m with vector := bits v 23 16 }
    else { m with kind := bits v 19 16, qid := bits v 27 20, hset := bits v 43 28 }

/-! ### Credits (R327, R328) -/

/-- Credit pool of a message: 4 × VC + channel. -/
def Msg.pool (m : Msg) : Nat := 4 * b2n m.vc + chanOf m.op

/-- Slots of credit a transmitter holds in a pool; both totals count modulo 256. -/
def creditOf (k : Link) (p : Nat) : Nat := (k.credits.getD p 0 + k.crIn.getD p 0 + 256 - k.used.getD p 0 % 256) % 256

/-- Slots taken in, whose credit goes back by CR_TOT. -/
def oweCredit (l uid pool slots : Nat) (h : Hub) : Hub := setLink h l (fun k => { k with crHeld := k.crHeld ++ [(uid, pool, slots)] })

/-- Credit that is due: none while PWR_WARN is asserted (R173) or the link's die is in warm reset (R413), and none for a request that waits for a tracker or write-buffer line (R19). -/
def returnCredits (l : Nat) (h : Hub) : Hub :=
  if h.life.phase == .drain || (bfind h.life.warm (dieOfLink l)).isSome then h
  else
    let stays := fun (c : Nat × Nat × Nat) => c.1 != 0 && h.waiting.any (fun w => w.req.uid == c.1 && w.why == .resource)
    setLink h l (fun k => { k with
      crOut := (List.range 8).map (fun p => (k.crOut.getD p 0 + sumOf ((k.crHeld.filter (fun c => c.2.1 == p && !stays c)).map (fun c => c.2.2))) % 256),
      crHeld := k.crHeld.filter stays })

/-! ### The transmitter (R322, R327, R329, R333) -/

/-- Messages whose order for one granule R333 keeps. -/
def ordersGranule (m : Msg) : Bool := chanOf m.op == 1 || chanOf m.op == 2

/-- Whether two messages concern bytes of one line. -/
def sameLine (a b : Msg) : Bool := ordersGranule a && ordersGranule b && a.addr / 128 == b.addr / 128

/-- Whether a snoop must wait for a response that left, or is to leave, by another link of its host (R333). -/
def waitsOther (h : Hub) (l : Nat) (m : Msg) : Bool :=
  chanOf m.op == 1 && decide (hostOfLink h l < 7) && ((List.range 8).filter (fun k => k != l && hostOfLink h k == hostOfLink h l)).any (fun k =>
    (((link h k).replay.flatMap SentFlit.ends) ++ (link h k).q.map Out.msg).any (fun x => isResponse x && sameLine x m))

/-- Messages that may begin now, in the order they were issued: each the first of its VC and channel, with credit for all its slots. -/
def sendable (h : Hub) (l : Nat) : List Out → List Out → List Out
  | _, [] => []
  | before, o :: r =>
    let ok := !(before.any (fun b => b.msg.pool == o.msg.pool || sameLine b.msg o.msg)) && decide (o.slots ≤ creditOf (link h l) o.msg.pool)
      && !(waitsOther h l o.msg)
    if ok then o :: sendable h l (before ++ [o]) r else sendable h l (before ++ [o]) r

/-- The message that begins next: VC1 first, one of VC0 after 16 of VC1 in a row (R329). -/
def pickOut (h : Hub) (l : Nat) : Option Out :=
  let c := sendable h l [] (link h l).q
  let v1 := c.find? (fun o => o.msg.vc)
  let v0 := c.find? (fun o => !o.msg.vc)
  match v1, v0 with
  | some a, some b => if 16 ≤ (link h l).vc1Run then some b else some a
  | some a, none => some a
  | none, o => o

/-- The slots a flit is being filled with: their bytes, the HDR bits, data slots, and the messages that end in it. -/
structure Fill where
  h : Hub
  bytes : List Byte := []
  hdr : Nat := 0
  dataSlots : Nat := 0
  ends : List Msg := []

/-- What the first slot of a message leaving means: its credit, the time of a snoop (R119), a latency sample (R375) and the reader tap
(R251, R252). -/
def beginOut (l : Nat) (o : Out) (h : Hub) : Hub :=
  let m := o.msg
  let h := setLink h l (fun k => { k with
    used := k.used.set m.pool ((k.used.getD m.pool 0 + o.slots) % 256),
    vc1Run := if m.vc then (if k.q.any (fun x => !x.msg.vc) then k.vc1Run + 1 else 0) else 0 })
  let h := if chanOf m.op = 1 then
      { h with snps := h.snps.map (fun s => if s.id == m.snpid && s.link == l && s.sent == 0 && !s.held then { s with sent := h.now + 1 } else s) } else h
  let h := match o.lat with | some (key, at_, pid) => latSample key (h.now - at_) pid h | none => h
  if chanOf m.op != 2 then h
  else if m.lstat = 1 && (m.op == 0xA2 || m.op == 0x93) then witDerr l m.addr (2 ^ m.len) h
  else if m.op = 0xA2 ∨ m.op = 0x93 then witTap l m.addr m.data h
  else h

/-- What the last slot of a response leaving means for R119: the end of an M or E grant, and of the host's own request. -/
def endOut (l : Nat) (m : Msg) (h : Hub) : Hub :=
  if !(isResponse m) then h
  else
    let n := hostOfLink h l
    let g := granOf h n
    let ten := regField h 0 0x4040 27 16
    let own := (m.state == 3 || m.state == 5) && m.op != 0x93
    { h with
      sieve := if own then h.sieve.map (fun e => if e.host == n && e.addr == m.addr / g * g && 3 ≤ e.st then { e with at_ := h.now + 1 } else e) else h.sieve,
      snps := h.snps.map (fun s => if s.host == n && overlaps s.addr s.size m.addr (2 ^ m.len) then { s with base := max s.base (h.now + 1 + (if own then ten else 0)) } else s) }

/-- Fills a flit's slots from the queue. -/
def fillFlit (l : Nat) : Nat → Fill → Fill
  | 0, f => f
  | n + 1, f =>
    let s := f.bytes.length / 16
    if s ≥ 15 then f
    else
      match (match (link f.h l).q.find? (fun o => o.sent != 0) with | some o => some (o, false) | none => (pickOut f.h l).map (fun o => (o, true))) with
      | none => f
      | some (o, fresh) =>
        let h := if fresh then beginOut l o f.h else f.h
        let k := min (o.slots - o.sent) (15 - s)
        let bytes := f.bytes ++ slice o.msg.slotBytes (16 * o.sent) (16 * k)
        let hdr := if fresh then f.hdr + 2 ^ s else f.hdr
        let dslots := f.dataSlots + (if fresh then k - 1 else k)
        let first := fun (x : Out) => if fresh then x == o else x.sent != 0
        if o.sent + k = o.slots then
          fillFlit l n { h := endOut l o.msg (setLink h l (fun q => { q with q := delFirst first q.q })), bytes := bytes, hdr := hdr, dataSlots := dslots, ends := f.ends ++ [o.msg] }
        else
          fillFlit l n { h := setLink h l (fun q => { q with q := updFirst first (fun x => { x with sent := x.sent + k }) q.q }), bytes := bytes, hdr := hdr, dataSlots := dslots, ends := f.ends }

/-- The acknowledge and credit field of the next flit (Table: Acknowledge and credit field). -/
def ackcr (k : Link) : Nat := k.rxSeq % 1024 + fieldAt (b2n k.nak) 10 + fieldAt (k.crSel % 8) 11 + fieldAt (k.crOut.getD (k.crSel % 8) 0 % 256) 14

/-- A whole flit from its first 244 bytes (Table: Flit layout). -/
def wholeFlit (body : List Byte) (ack : Nat) : List Byte :=
  let a := toBytes 4 ack
  body ++ (toBytes 8 (crc64 (body ++ a))).reverse ++ a

/-- Header and slots of a flit. -/
def flitBody (seq ftype hdr : Nat) (slots : List Byte) : List Byte :=
  toBytes 4 (seq % 1024 + fieldAt ftype 10 + fieldAt hdr 12) ++ fitBytes 240 slots

/-- Puts a flit on the link's balls, with the acknowledgement and the next pool's credit. -/
def putFlit (l : Nat) (body : List Byte) (h : Hub) : Hub :=
  setLink h l (fun k => { k with cur := wholeFlit body (ackcr k), crSel := (k.crSel + 1) % 8 })

/-- One flit time of a running link's transmitter (R324, R329). -/
def effFlitTime (l : Nat) (h : Hub) : Hub :=
  match (link h l).st with
  | .up =>
    let h := returnCredits l h
    let k := link h l
    match k.replayAt.bind (fun i => k.replay[i]?) with
    | some f =>
      let i := k.replayAt.getD 0 + 1
      let h := setLink h l (fun k => { k with replayAt := if i < k.replay.length then some i else none })
      putFlit l f.bytes (pmu 0x20 (dieOfLink l) 1 { port := some l } h)
    | none =>
      if 64 ≤ k.replay.length then putFlit l (flitBody 0 1 0 []) h
      else
        let f := fillFlit l 15 { h := h }
        if f.bytes.isEmpty then putFlit l (flitBody 0 1 0 []) h
        else
          let body := flitBody k.txSeq 0 f.hdr f.bytes
          let n := 16 * f.dataSlots
          let h := setLink f.h l (fun k => { k with
            replay := k.replay ++ [{ seq := k.txSeq, bytes := body, ends := f.ends }],
            ackAt := if k.replay.isEmpty then f.h.now else k.ackAt, txSeq := (k.txSeq + 1) % 1024, txBytes := k.txBytes + n })
          let h := if n = 0 then h else pmu 0x1F (dieOfLink l) n { port := some l } h
          putFlit l body h
  | _ => h

/-! ### Recovery and replay (R324, R325) -/

/-- Offset of LINK_n_CTL. -/
def linkCtlOff (l : Nat) : Nat := 0x4600 + 0x40 * l

/-- LINK_n_CTL. -/
def linkCtl (h : Hub) (l : Nat) : Nat := regGet h (dieOfLink l) (linkCtlOff l)

/-- Counts in a field of LINK_n_ERR, which saturates. -/
def linkCount (l hi lo : Nat) (h : Hub) : Hub :=
  let off := linkCtlOff l + 12
  regSetField h (dieOfLink l) off hi lo (satAdd (regField h (dieOfLink l) off hi lo) 1 (hi + 1 - lo))

/-- An UP link enters RECOVERY. -/
def enterRecovery (l : Nat) (full : Bool) (h : Hub) : Hub :=
  match (link h l).st with
  | .up => linkCount l 7 4 (setLink h l (fun k => { k with st := .recovery, recAt := h.now, recFull := full, replayAt := none, replays := 0 }))
  | _ => h

/-- A replay from the oldest outstanding flit; the fourth without progress sends the link to RECOVERY. -/
def startReplay (l : Nat) (h : Hub) : Hub :=
  let k := link h l
  let h := linkCount l 15 8 h
  if 4 ≤ k.replays + 1 then enterRecovery l false h
  else setLink h l (fun k => { k with replayAt := some 0, replays := k.replays + 1, ackAt := h.now })

/-- REPLAY_TIMER (R324): 2 µs with flits outstanding and no rise in ACK_SEQ. -/
def effReplayTimer (l : Nat) (h : Hub) : Hub :=
  let k := link h l
  if k.st == .up && !k.replay.isEmpty && k.replayAt.isNone && decide (k.ackAt + 2500 ≤ h.now) then startReplay l h else h

/-- BLOCK_LOCK_LOSS (R325). -/
def effBlockLockLoss (l : Nat) (h : Hub) : Hub := enterRecovery l false h

/-- PEER_RECOVERY_TRAINING_SETS (R325). -/
def effPeerRecoveryTrainingSets (l : Nat) (h : Hub) : Hub := enterRecovery l false h

/-! ### The receiver (R321 to R323, R331) -/

/-- Whether an OPCODE stands in Table: Linlek messages as one that this link's peer may send, at the link's revision (R335). -/
def listedOp (h : Hub) (l op : Nat) : Bool :=
  let twin := isTwinLink h l
  let both := [0x11, 0x12, 0x13, 0x14, 0x15, 0x16, 0x21, 0x22, 0x23, 0x24, 0x25, 0x26, 0x32, 0x33, 0x34, 0x39, 0x3A, 0x91, 0x92, 0x93, 0xC1, 0xC3]
  both.contains op || ((op == 0x31 || op == 0x3B) && (link h l).rev11)
    || (twin && [0x51, 0x52, 0x53, 0x54, 0x55, 0xA1, 0xA2, 0xA3, 0xA4, 0xA5, 0xB1, 0xB2, 0xB3].contains op)

/-- A message taken in whole, accepted in this cycle (R157). One with an OPCODE not in the table is discarded, counted and recorded (R331); a LINK_CTL of a reserved KIND
has no meaning. -/
def deliver (l : Nat) (m : Msg) (h : Hub) : Hub :=
  if !(listedOp h l m.op) then
    record 0x62 2 9 (dieOfLink l) 0 (l + 8 * m.op) (linkCount l 3 2 (oweCredit l 0 m.pool (1 + m.dslots) h))
  else if m.op = 0xC3 ∧ 2 ≤ m.kind then oweCredit l 0 m.pool (1 + m.dslots) h
  else
    let m := { m with uid := h.nextId, at_ := h.now, adm := admitted h l m.pid m.stream }
    setLink { h with nextId := h.nextId + 1 } l (fun k => { k with inbox := k.inbox ++ [m] })

/-- Takes in the slots of an accepted payload flit (R322); none where a header begins in a slot that an earlier message still owes. -/
def takeSlots (l hdr : Nat) : Nat → List (List Byte) → Hub → Option Hub
  | _, [], h => some h
  | s, d :: r, h =>
    let k := link h l
    let whole := fun (owed : List Byte) (h : Hub) => deliver l (readHeader (ofBytes (owed.take 16)) (owed.drop 16)) (setLink h l (fun k => { k with owed := [], owedSlots := 0 }))
    if k.owedSlots ≠ 0 then
      if hdr.testBit s then none
      else if k.owedSlots = 1 then takeSlots l hdr (s + 1) r (whole (k.owed ++ d) h)
      else takeSlots l hdr (s + 1) r (setLink h l (fun k => { k with owed := k.owed ++ d, owedSlots := k.owedSlots - 1 }))
    else if hdr.testBit s then
      let n := bits (ofBytes d) 12 8
      if n = 0 then takeSlots l hdr (s + 1) r (whole d h)
      else takeSlots l hdr (s + 1) r (setLink h l (fun k => { k with owed := d, owedSlots := n }))
    else takeSlots l hdr (s + 1) r h

/-- Data slots that an accepted flit carries (R374). -/
def countData (hdr : Nat) : Nat → Nat → List (List Byte) → Nat
  | _, _, [] => 0
  | s, owed, d :: r =>
    if owed ≠ 0 then 1 + countData hdr (s + 1) (owed - 1) r
    else if hdr.testBit s then countData hdr (s + 1) (bits (ofBytes d) 12 8) r
    else countData hdr (s + 1) 0 r

/-- Applies ACK_SEQ, NAK and CR_TOT of a flit whose CRC passed (R321, R324, R327). -/
def takeAck (l a : Nat) (h : Hub) : Hub :=
  let k := link h l
  let seq := bits a 9 0
  let h := setLink h l (fun k => { k with crIn := k.crIn.set (bits a 13 11) (bits a 21 14) })
  let n := if k.replay.any (fun f => f.seq == seq) then (k.replay.takeWhile (fun f => f.seq != seq)).length + 1 else 0
  let h := if n = 0 then h else setLink h l (fun k => { k with
    replay := k.replay.drop n, ackAt := h.now, replays := 0,
    replayAt := k.replayAt.bind (fun i => if i - n < (k.replay.drop n).length then some (i - n) else none) })
  if bitOf a 10 && !(link h l).replay.isEmpty && (link h l).replayAt.isNone then startReplay l h else h

/-- FLIT_RECEIVED (R321 to R324); none where the flit breaks R322. -/
def effFlitReceived (l : Nat) (flit : List Byte) (h : Hub) : Option Hub :=
  match (link h l).st with
  | .up =>
    let head := ofBytes (flit.take 4)
    let ftype := bits head 11 10
    if flit.length ≠ 256 ∨ crc64 (flit.take 244 ++ flit.drop 252) ≠ ofBytes (slice flit 244 8).reverse then
      some (setLink (linkCount l 31 16 h) l (fun k => { k with nak := k.nak || ftype == 0 }))
    else if ftype = 0 ∧ bits head 9 0 ≠ ((link h l).rxSeq + 1) % 1024 then some (setLink h l (fun k => { k with nak := true }))
    else
      let h := takeAck l (ofBytes (flit.drop 252)) h
      if ftype ≠ 0 then some h
      else
        let hdr := bits head 26 12
        let slots := (List.range 15).map (fun s => slice flit (4 + 16 * s) 16)
        let n := 16 * countData hdr 0 (link h l).owedSlots slots
        let h := setLink h l (fun k => { k with rxSeq := bits head 9 0, nak := false, rxBytes := k.rxBytes + n })
        let h := if n = 0 then h else pmu 0x1E (dieOfLink l) n { port := some l } h
        takeSlots l hdr 0 slots h
  | _ => some h

/-! ### Losing a link (R337 to R339, R343) -/

/-- Closes a snoop whose host is lost (R120 step 3): a WRITE_BACK that it awaited never comes, so what the host owned is lost too. -/
def closeAtLoss (s : Snp) (h : Hub) : Hub :=
  let h := if s.wb && s.owner then loseLine s.addr s.size h else h
  if isGroup h s then closeGroup s h else closeLost s h

/-- A castout whose host is lost before its data came ends: its line is INVALID, the reads attached to it are served from memory, and its tracker is
free (R147, Table: Home events). -/
def castAtLoss (c : Txn) (h : Hub) : Hub := dropTxn c.id (if c.cancelled then h else cancelCast c.req.line h)

/-- Every link of a host has gone down (R120): the notices that its recoveries held go on. -/
def hostLost (n : Nat) (h : Hub) : Hub :=
  let mine := h.sieve.filter (fun e => e.host == n && e.live)
  let held := (h.recov.filter (fun v => v.host == n)).flatMap Recovery.held
  let h := { h with sieve := h.sieve.filter (fun e => e.host != n), recov := h.recov.filter (fun v => v.host != n) }
  let h := forEach mine (fun e h => if 4 ≤ e.st then loseLine e.addr (granOf h n) h else loseClean e.addr h) h
  let h := forEach (h.snps.filter (fun s => s.host == n)) closeAtLoss h
  let h := forEach (h.txns.filter (fun t => t.req.op == 0x31 && (t.ph == .cast || t.ph == .alloc) && t.req.host == n)) castAtLoss h
  twinSettle (settle (forEach held again h))

/-- Data of a forward that was lost with the link after its FWD_DONE: the line is poisoned and the requester, which takes the granule as I,
is answered DATA_ERROR (Table: Settling a lost link). -/
def lostData (s : Snp) (h : Hub) : Hub :=
  let h := loseLine s.addr s.size h
  match txnOf h s.txn with
  | none => closeGroup s h
  | some t =>
    let h := closeSnp s (setHostSt t.req.host t.req.addr 0 h)
    match t.ph with
    | .closing => respond t { op := 0x93, lstat := 1 } h
    | _ => updTxn t.id (fun x => { x with fwd := false, ph := .reissue }) h

/-- Granules of a host that the loss of one of its links leaves to settle (R338). -/
def lostGranules (h : Hub) (n l : Nat) : List Nat :=
  let g := max 64 (granOf h n)
  let sent := ((link h l).replay.flatMap SentFlit.ends ++ (link h l).q.map Out.msg).filter isResponse
  ((sent.map (fun m => m.addr / g * g)) ++ ((h.snps.filter (fun s => s.host == n && s.link == l && !s.held && !s.done && !s.wb)).map Snp.addr)).eraseDups

/-- Settles what a lost link carried for a host that keeps another (R338): its sets are asked for on the new snoop link. -/
def settleLost (n l : Nat) (h : Hub) : Hub :=
  let h := forEach (h.snps.filter (fun s => s.host == n && s.link == l && s.done)) lostData h
  let new := (snoopLink h n).getD l
  let h := { h with snps := h.snps.map (fun s => if s.host == n && s.link == l && (s.held || s.wb) then { s with link := new } else s) }
  let gs := lostGranules h n l
  let keys := (gs.map (fun g => (hostSet h n g, homeDie g))).eraseDups
  let old := h.recov.filter (fun v => v.host == n && v.link == l)
  let h := { h with recov := h.recov.filter (fun v => !(v.host == n && v.link == l)) }
  let h := forEach old (fun v h => startQuery n v.set v.die v.granules v.lost h) h
  let h := forEach keys (fun k h => startQuery n k.1 k.2 (gs.filter (fun g => hostSet h n g == k.1 && homeDie g == k.2)) l h) h
  twinSettle (settle (forEach (old.flatMap Recovery.held) again h))

/-- A link goes DOWN (R337); it trains again at once while ENABLE is 1. -/
def takeDown (l : Nat) (h : Hub) : Hub :=
  let n := hostOfLink h l
  let was := linkTrained h l
  let on := bitOf (linkCtl h l) 31
  let h := setLink h l (fun k => { k with st := if on then .training else .down, backoffFrom := none, owed := [], owedSlots := 0, replayAt := none, crHeld := [] })
  if !was then h
  else
    let h := loseMons (fun m => m.link == l) 7 h
    if n = 7 then twinDown (hostLost 7 h)
    else if n < 7 then (if (snoopLink h n).isNone then hostLost n h else settleLost n l h)
    else h

/-- The LINK_DOWN record and its one interrupt, for the first failure after an UP (R317). The spec gives no STAGE for a loss of a running link:
0 (DESIGN CHOICE, log entry 22). -/
def reportDown (l stage reason : Nat) (h : Hub) : Hub :=
  if (link h l).firstFail then
    let die := dieOfLink l
    raiseEvt die (record 0x60 2 9 die 0 (l + 8 * stage + 64 * reason) (setLink h l (fun k => { k with firstFail := false })))
  else h

/-- LINK_DOWN (R337). -/
def effLinkDown (l : Nat) (h : Hub) : Hub := if linkTrained h l then takeDown l (reportDown l 0 0 h) else h

/-- RECOVERY_TIMEOUT (R325): not UP again within 1 ms. -/
def effRecoveryTimeout (l : Nat) (h : Hub) : Hub :=
  let k := link h l
  if k.st == .recovery && decide (k.recAt + 1250000 < h.now) then takeDown l (reportDown l 0 1 h) else h

/-! ### Training (R315 to R320) -/

/-- An attempt fails (R317). -/
def trainFail (l stage reason : Nat) (h : Hub) : Hub :=
  let h := setLink h l (fun k => { k with
    attempts := satAdd k.attempts 1 16, stage := stage, reason := reason,
    backoff := min 128 (2 ^ min k.attempts 7), backoffFrom := some h.now })
  reportDown l stage reason h

/-- Whether a link is in a training attempt now. -/
def attempting (h : Hub) (l : Nat) : Bool :=
  (link h l).st == .training && bitOf (linkCtl h l) 31 && (link h l).backoffFrom.isNone

/-- Code of a stage and of a reason in LINK_n_TRAIN. -/
def stageCode : TrainStage → Nat
  | .detect => 0
  | .lock => 1
  | .width => 2
  | .param => 3
  | .eq => 4

def reasonCode : TrainReason → Nat
  | .timeout => 1
  | .role => 2
  | .rev => 3
  | .credit => 4

/-- TRAINING_STAGE_TIMEOUT (R316, R317); a failure of EQ leaves the attempt going at 16 GT/s (R318). -/
def effTrainingStageTimeout (l : Nat) (st : TrainStage) (r : TrainReason) (h : Hub) : Hub :=
  if attempting h l && st != .eq then trainFail l (stageCode st) (reasonCode r) h else h

/-- TRAINING_BACKOFF_EXPIRY (R317). -/
def effTrainingBackoffExpiry (l : Nat) (h : Hub) : Hub :=
  let k := link h l
  match k.backoffFrom with
  | some t => if t + k.backoff * 1250000 ≤ h.now then setLink h l (fun k => { k with backoffFrom := none }) else h
  | none => h

/-- Minimum initial credits of a peer, by pool (Table: Minimum initial credits). -/
def minCredits (hub : Bool) : List Nat := if hub then [18, 8, 36, 17, 18, 8, 36, 17] else [0, 8, 36, 2, 0, 8, 36, 2]

/-- Revision a link would run at (R320). -/
def revOf (h : Hub) (l : Nat) (u : UpInfo) : Bool := decide (0x11 ≤ u.revMax.toNat) && !(bitOf (linkCtl h l) 29)

/-- Why PARAM refuses, if it does (R319, R320). -/
def paramRefusal (h : Hub) (l : Nat) (u : UpInfo) : Option Nat :=
  let host := if l == 7 && u.hubRole then 8 else ((List.range 7).find? (fun n => geomValid h n && bitOf (geomLinks h n) l)).getD 8
  if u.hubRole && (l != 7 || u.hubId == h.life.hubId) then some 2
  else if (List.range 8).any (fun p => decide (((u.credits.getD p 0#8).toNat) < (minCredits u.hubRole).getD p 0)) then some 4
  else if decide (host < 7) && (List.range 8).any (fun k => k != l && bitOf (geomLinks h host) k && linkTrained h k && (link h k).rev11 != revOf h l u) then some 3
  else none

/-- Width and rate within the caps of LINK_n_CTL (R318). -/
def capWidth (h : Hub) (l w : Nat) : Nat := max w (bits (linkCtl h l) 27 26 % 3)
def capRate (h : Hub) (l : Nat) (r16 : Bool) : Bool := r16 || bitOf (linkCtl h l) 25

/-- LINK_n_STAT.DEGR and the LINK_DEGRADED record of a link that is UP below its caps (R318). -/
def noteDegraded (l : Nat) (h : Hub) : Hub :=
  let k := link h l
  let low := decide (bits (linkCtl h l) 27 26 % 3 < k.width) || (k.rate16 && !(bitOf (linkCtl h l) 25))
  let h := setLink h l (fun k => { k with degr := low })
  if low then record 0x61 1 9 (dieOfLink l) 0 (l + 8 * k.width + 32 * b2n k.rate16) h else h

/-- Training parameters saved where they have changed (R346, R403). -/
def saveTraining (id : Nat) (h : Hub) : Hub :=
  if h.led.training.contains id then h else ledgerPut 0x70 (fun d => { d with training := d.training ++ [id] }) h

/-- A link comes UP from training: everything that counts from UP starts anew (R319, R321, R323). -/
def linkUpFresh (l : Nat) (u : UpInfo) (h : Hub) : Hub :=
  let z := List.replicate 8 0
  let h := setLink h l (fun k => { k with
    st := .up, rev11 := revOf h l u, width := capWidth h l u.width.toNat, rate16 := capRate h l u.rate16, lanes := u.lanes.toNat,
    peerHub := u.hubRole, peerId := u.hubRole && u.hubId, credits := (List.range 8).map (fun p => (u.credits.getD p 0#8).toNat),
    used := z, crIn := z, crOut := z, crHeld := [], crSel := 0, txSeq := 0, rxSeq := 1023, nak := false, replay := [], replayAt := none,
    ackAt := h.now, replays := 0, q := [], cur := [], vc1Run := 0, owed := [], owedSlots := 0,
    attempts := 0, backoff := min 1 k.backoff, backoffFrom := none, firstFail := true, saved := true })
  let h := if l = 7 then { h with twin := { h.twin with
      peerGeom := if u.hubRole then u.proxyGeom else 0#32, peerRdMax := if u.hubRole then u.rdMax.toNat else 0 } } else h
  checkFull (saveTraining l (noteDegraded l { h with life := { h.life with kettleUp := true } }))

/-- A link comes UP again within 1 ms of RECOVERY: everything carries on (R325). -/
def linkUpAgain (l : Nat) (u : UpInfo) (h : Hub) : Hub :=
  let k := link h l
  let w := capWidth h l u.width.toNat
  let r := capRate h l u.rate16
  let w := if k.recFull then w else max k.width w
  let r := if k.recFull then r else k.rate16 || r
  let h := setLink h l (fun k => { k with st := .up, width := w, rate16 := r, lanes := u.lanes.toNat, ackAt := h.now, replays := 0,
                                          replayAt := if k.replay.isEmpty then none else some 0 })
  if w = k.width ∧ r = k.rate16 then h else noteDegraded l h

/-- LINK_UP (R315 to R320, R325). -/
def effLinkUp (l : Nat) (u : UpInfo) (h : Hub) : Hub :=
  match (link h l).st with
  | .training =>
    if !(attempting h l) then h
    else if 3 ≤ u.width.toNat then trainFail l 2 1 h
    else match paramRefusal h l u with
      | some r => trainFail l 3 r h
      | none => linkUpFresh l u h
  | .recovery => if (link h l).recAt + 1250000 < h.now ∨ 3 ≤ u.width.toNat then h else linkUpAgain l u h
  | _ => h

/-- A write of LINK_n_CTL (R317, R325, R337): ENABLE, RETRAIN, which reads 0, and the caps. -/
def writeLinkCtl (l v : Nat) (h : Hub) : Hub :=
  let was := bitOf (linkCtl h l) 31
  let h := regPut h (dieOfLink l) (linkCtlOff l) (bits v 31 31 * 2 ^ 31 + bits v 29 25 * 2 ^ 25)
  let on := v.testBit 31
  if was && !on then takeDown l h
  else if on && !was then (match (link h l).st with | .down => setLink h l (fun k => { k with st := .training, backoffFrom := none }) | _ => h)
  else if v.testBit 30 then enterRecovery l true h
  else h

end Sys2Proof.Machine
end

