-- ==== Sys2Proof/Machine/Life.lean ====
section
/-! DEFINITION. Phases, boot, training of memories, park and wake, PWR_WARN, resets and firmware (R393 to R416, R422, R425). -/

namespace Sys2Proof.Machine

/-- The hub with its life-cycle state changed. -/
def setLife (f : Life → Life) (h : Hub) : Hub := { h with life := f h.life }

/-- The hub with a phase. -/
def setPhase (p : LcPhase) (h : Hub) : Hub := setLife (fun l => { l with phase := p }) h

/-! ### What a cold reset leaves (R412) -/

/-- The cold-reset state: the Ledger, the Kettle and the flash stay; main memory is not guaranteed, so its bytes are a free value (log entry
23); everything else is at its reset value. `lost` says that the always-on rail left its range (R346). -/
def coldHub (lost : Bool) (h : Hub) : Hub :=
  { now := h.now, free := h.free + 1, nextId := h.nextId, led := { h.led with typeNew := [] },
    mem := { main := (Config.freeMain h.free).foldl (fun m c => memWrite m c.1 c.2) [], kettle := h.mem.kettle, ketErr := h.mem.ketErr },
    life := { temp := h.life.temp, kettleLost := h.life.kettleLost || lost,
              slotA := { h.life.slotA with failed := false, attempts := 0 }, slotB := { h.life.slotB with failed := false, attempts := 0 } },
    side := { tapInstr := h.side.tapInstr, tapOut := h.side.tapOut } }

/-- COLD_RESET (R394, R411, R412): RESET_N low. -/
def effColdReset (h : Hub) : Hub := coldHub false h

/-- RAIL_OUT_OF_RANGE (R422): as RESET_N low, but for the main rails once the hub is PARKED. -/
def effRailOutOfRange (aon : Bool) (h : Hub) : Hub :=
  if !aon && (h.life.phase == .parked || h.life.resetLow) then h else coldHub aon h

/-! ### Boot (R394 to R400) -/

/-- Last accepted counters at a boot: F + 4,096, written as the new F (R274); 2^63 where F cannot be read (R400). -/
def bootCounters (h : Hub) : Hub :=
  forEach [0, 1, 2, 3] (fun m h =>
    let f := if h.led.bad.contains m then 2 ^ 63 else bget h.led.floor m 0 + 4096
    ledgerPut m (fun l => { l with floor := bset l.floor m f, bad := l.bad.filter (· != m) }) (setMgr h m (fun r => { r with lastCtr := f }))) h

/-- Ledger records both of whose copies fail at boot (Table: Ledger records unreadable at boot): a LEDGER_ERR record each, and an empty list,
map or summary in their place. -/
def bootBadRecords (h : Hub) : Hub :=
  let h := forEach h.led.bad (fun r h => record 0x71 3 11 0 0 r h) h
  let bad := fun r => h.led.bad.contains r
  { h with led := { h.led with
      retire := if bad 0x40 then [] else h.led.retire,
      remap := if bad 0x50 then [] else h.led.remap, mainRows := if bad 0x50 then [] else h.led.mainRows,
      failed := if bad 0x60 then 0#11 else h.led.failed, rowSpread := if bad 0x60 then [] else h.led.rowSpread,
      posD10 := if bad 0x60 then 15 else h.led.posD10, training := if bad 0x70 then [] else h.led.training,
      spares := if bad 0x80 then [] else h.led.spares, typeCnt := if bad 0x90 then [] else h.led.typeCnt,
      sev3 := if bad 0x90 then [] else h.led.sev3, power := if bad 0x90 then [] else h.led.power } }

/-- The population record (R200): written at the first boot, compared at each later one. -/
def bootPop (h : Hub) : Hub :=
  if h.led.bad.contains 0x20 then setLife (fun l => { l with mismatch := true }) h
  else match h.led.pop with
    | none => ledgerPut 0x20 (fun l => { l with pop := some h.life.arrayPop }) h
    | some p => setLife (fun l => { l with mismatch := p != l.arrayPop }) h

/-! ### Thermal (R425, CB_TEMP) -/

/-- CB_TEMP.THERM_HI. -/
def thermHi (h : Hub) : Int := (regField h 0 0x2C 23 16 : Nat)

/-- Whether a die's TEMP is at or above the threshold. -/
def isHot (h : Hub) (die : Nat) : Bool := decide (thermHi h ≤ (BitVec.ofNat 8 (bget h.life.temp die 0)).toInt)

/-- CB_TEMP.THERM of each die and THERM_N. -/
def checkTherm (h : Hub) : Hub :=
  let h := forEach [0, 1] (fun d h => if isHot h d then regSetField h d 0x2C 31 31 1 else h) h
  setLife (fun l => { l with thermN := isHot h 0 || isHot h 1 }) h

/-- The Kettle where its contents were lost: every word zero with a valid check, and KET_STAT.LOST (R346). -/
def bootKettle (h : Hub) : Hub :=
  if h.life.kettleLost then
    let h := setLife (fun l => { l with kettleLost := false }) { h with mem := { h.mem with kettle := [], ketErr := [] } }
    regSetField (regSetField h 0 0x4800 0 0 1) 1 0x4800 0 0 1
  else h

/-- PWR_GOOD (R394 steps 1 and 2): the ROM runs, the straps are sampled (R430), the Ledger is read and the Kettle made readable. -/
def effPwrGood (hubId bootSel : Bool) (pop : Nat) (h : Hub) : Hub :=
  if !h.life.resetLow then h
  else
    let h := setLife (fun l => { l with phase := .boot, resetLow := false, hubId := hubId, bootSel := bootSel, arrayPop := pop, lastRst := [(0, 0), (1, 0)] }) h
    let h := bootKettle (bootPop (bootBadRecords (bootCounters h)))
    powerEvent 0 (checkTherm { h with integ := { h.integ with failed := h.led.failed, posD10 := h.led.posD10 } })

/-- The boot configuration in force (R397, R398); none stands for the defaults. -/
def bootCfg (h : Hub) : Option BootCfg := if h.life.bootSel || h.led.bad.contains 0x30 then none else h.led.boot

/-- Table: Boot defaults, for HUB_ID strap value `id`. -/
def bootDefaults (id : Bool) : BootCfg :=
  { rmap := [(0, { base := (0xFFFE00000 - 0x800000 * b2n id) / unit2M, size := 1, typ := .cfg, cls := 3, hub := id }),
             (1, { base := (0xFFF800000 - 0x800000 * b2n id) / unit2M, size := 2, typ := .kettle, cls := 1, hub := id })],
    parts := [(1, { st := .active, links := 0x7F#8, kbase := 0, kcount := 64 })],
    linkCtl := (List.range 8).map (fun l => (l, 0x80000000#32)),
    cbAcc := 0x7F000000#32, tickCtl := 0x0000033F#32, period := 16667#32, twinGeom := 0x00400000#32 }

/-- Puts the boot configuration in force, in the order of Table: Boot configuration; links with ENABLE begin training. -/
def applyBoot (h : Hub) : Hub :=
  let c := (bootCfg h).getD (bootDefaults h.life.hubId)
  let h := forEach (List.range 6) (fun f h =>
    match expertBit f with
    | some (off, bit) => if c.expert.getD f false then putExpert off bit 1 h else h
    | none => h) h
  let h := forEach c.geoms (fun g h => regPut h 0 (0x4050 + 4 * g.1) g.2.toNat) h
  let h := regPut h 0 0x406C c.twinGeom.toNat
  let h := { h with rmap := c.rmap, parts := c.parts }
  let h := forEach c.linkCtl (fun g h => regPut h (dieOfLink g.1) (linkCtlOff g.1) g.2.toNat) h
  let h := regPut (regPut (regPut h 0 0x18 c.cbAcc.toNat) 0 0x4104 c.tickCtl.toNat) 0 0x4108 c.period.toNat
  let h := setLife (fun l => { l with cacheSize := c.cacheSize }) h
  let h := forEach (List.range 8) (fun l h => if bitOf (linkCtl h l) 31 then setLink h l (fun k => { k with st := .training }) else h) h
  checkOvercommit h

/-- The cache enabled at the recorded size, where R78 allows it (R404 step 3). -/
def enableRecorded (h : Hub) : Hub :=
  let s := h.life.cacheSize
  if s = 0 || h.life.phase != .run || !h.life.arrayUp || h.cache.cst != .off || cacheClash h s then h else enableCache s h

/-- The package enters RUN: the Frame Sequencer starts (R437). -/
def enterRun (frame : Nat) (h : Hub) : Hub := enableRecorded (startFrames frame (setPhase .run h))

/-- A flash slot, and the hub with one changed. -/
def fwSlot (h : Hub) (b : Bool) : FwSlot := if b then h.life.slotB else h.life.slotA
def setFwSlot (b : Bool) (f : FwSlot → FwSlot) (h : Hub) : Hub :=
  setLife (fun l => if b then { l with slotB := f l.slotB } else { l with slotA := f l.slotA }) h

/-- A slot's failed read or authentication. -/
def failSlot (b : Bool) (h : Hub) : Hub := setFwSlot b (fun s => { s with failed := true, attempts := satAdd s.attempts 1 12 }) h

/-- The slot that the ROM tries first (R395). -/
def firstSlot (h : Hub) : Bool := if h.life.bootSel || h.led.bad.contains 0x30 then false else h.led.bootSlot

/-- Whether the ROM is reading the flash. -/
def romReads (h : Hub) : Bool :=
  !h.life.resetLow && !h.life.waking && (h.life.phase == .boot || (h.life.phase == .romService && h.life.romFrom.isNone))

/-- The header fields of an authenticated image, as its slot shows them. -/
def putHeader (b : Bool) (f : FwHdr) (h : Hub) : Hub :=
  setFwSlot b (fun s => { s with valid := true, live := f.live, failed := false, major := f.major.toNat, minor := f.minor.toNat,
                                 rdMin := f.rdMin.toNat, rdMax := f.rdMax.toNat, wrMax := f.wrMax.toNat }) h

/-- The firmware of a slot runs. -/
def runSlot (b : Bool) (h : Hub) : Hub :=
  let s := fwSlot h b
  setLife (fun l => { l with fwMajor := s.major, fwMinor := s.minor, fwSlot := b, rdMin := s.rdMin, rdMax := s.rdMax, wrMax := s.wrMax }) h

/-- FW_IMAGE_AUTHENTICATED (R395, R396): the first slot of R395's order that authenticates brings the package to RUN. -/
def effFwImageAuthenticated (b : Bool) (f : FwHdr) (h : Hub) : Hub :=
  if !(romReads h) then h
  else
    let h := if b = firstSlot h then h else failSlot (firstSlot h) h
    let h := runSlot b (putHeader b f h)
    let h := if h.life.phase == .boot then applyBoot h else h
    enterRun 0 (setLife (fun l => { l with romBackoff := 0, romFrom := none }) h)

/-- FW_IMAGE_AUTH_FAILED (R395): neither slot authenticates; the ROM serves under the boot configuration and tries again after a backoff. -/
def effFwImageAuthFailed (h : Hub) : Hub :=
  if !(romReads h) then h
  else
    let h := failSlot true (failSlot false h)
    let h := if h.life.phase == .boot then setPhase .romService (applyBoot h) else h
    setLife (fun l => { l with romBackoff := if l.romBackoff = 0 then 1 else min 128 (2 * l.romBackoff), romFrom := some h.now }) h

/-- FW_RETRY_BACKOFF_EXPIRY (R395). -/
def effFwRetryBackoffExpiry (h : Hub) : Hub :=
  match h.life.romFrom with
  | some t => if t + h.life.romBackoff * 1250000 ≤ h.now then setLife (fun l => { l with romFrom := none }) h else h
  | none => h

/-! ### Main memory and the array (R401 to R404, R189, R217) -/

/-- Whether the hub trains memories now. -/
def trains (h : Hub) : Bool := !h.life.resetLow && (h.life.phase == .romService || h.life.phase == .run)

/-- A channel's and a lane's training. -/
def chanOfMem (h : Hub) (k : Nat) : MemTrain := bget h.life.chans k {}
def laneOfMem (h : Hub) (k : Nat) : MemTrain := bget h.life.laneTrain k {}

/-- A resource that has trained. -/
def trainedAs (rate : Nat) (full : Bool) (t : MemTrain) : MemTrain :=
  { t with trained := true, rate := rate, attempts := 0, full := full, backoff := min 1 t.backoff, backoffFrom := none, selfRefresh := false }

/-- Post-package repair at a training (R199, R234, R235): each recorded row that passes a test is repaired where its device offers it, and leaves the
Ledger's list; a lane row frees its spare row. -/
def repairMain (k : Nat) (h : Hub) : Hub :=
  forEach (h.led.mainRows.filter (fun r => r / 2 ^ 24 == k)) (fun r h =>
    let ok := Config.freeRepair h.free
    let h := { h with free := h.free + 1 }
    if ok then ledgerPut 0x50 (fun l => { l with mainRows := l.mainRows.filter (· != r) }) h else h) h
def repairArray (h : Hub) : Hub :=
  let h := forEach h.led.remap (fun r h =>
    let ok := Config.freeRepair h.free
    let h := { h with free := h.free + 1 }
    if ok then ledgerPut 0x50 (fun l => { l with remap := l.remap.filter (· != r) }) h else h) h
  if h.led.remap.isEmpty then h else { h with led := { h.led with remap := h.led.remap.map (fun r => { r with copied := true }) } }

/-- CHANNEL_TRAINED: `units` is the size of main memory found, in 2 MiB units. Capacity, admission and OVERCOMMIT follow (R187 to R189). -/
def effChannelTrained (k rate units : Nat) (full : Bool) (h : Hub) : Hub :=
  let t := chanOfMem h k
  if !(trains h) || t.trained || t.backoffFrom.isSome || rate = 0 || decide (4 < rate) then h
  else
    let h := setLife (fun l => { l with chans := bset l.chans k (trainedAs rate full t), mainUnits := if units = 0 then l.mainUnits else units, waking := false }) h
    checkFull (checkOvercommit (repairMain k (saveTraining (8 + k) h)))

/-- CHANNEL_LOST: a channel trains no more, or trains at a lower rate; rate 0 is lost (R189, R217). -/
def effChannelLost (k rate : Nat) (h : Hub) : Hub :=
  let t := chanOfMem h k
  if !t.trained || decide (4 < rate) then h
  else checkOvercommit (setLife (fun l => { l with chans := bset l.chans k { t with trained := rate != 0, rate := rate } }) h)

/-- A failed attempt (R401). -/
def memFailed (now reason : Nat) (t : MemTrain) : MemTrain :=
  { t with attempts := satAdd t.attempts 1 16, reason := reason, backoff := min 128 (2 ^ min t.attempts 7), backoffFrom := some now }

/-- MEM_TRAINING_FAILED: resource j of a die, 0 to 3 its channels, 4 and 5 its lanes. -/
def effMemTrainingFailed (die j reason : Nat) (h : Hub) : Hub :=
  let k := 4 * die + j
  let n := 2 * die + (j - 4)
  if !(trains h) then h
  else if j < 4 then
    if (chanOfMem h k).trained || (chanOfMem h k).backoffFrom.isSome then h
    else setLife (fun l => { l with chans := bset l.chans k (memFailed h.now reason (chanOfMem h k)) }) h
  else if j < 6 then
    if h.life.lanes.trained || (laneOfMem h n).backoffFrom.isSome then h
    else setLife (fun l => { l with laneTrain := bset l.laneTrain n (memFailed h.now reason (laneOfMem h n)) }) h
  else h

/-- The end of a backoff, where it is due. -/
def backoffEnded (now : Nat) (t : MemTrain) : MemTrain :=
  match t.backoffFrom with
  | some f => if f + t.backoff * 1250000 ≤ now then { t with backoffFrom := none } else t
  | none => t

/-- MEM_TRAIN_BACKOFF_EXPIRY (R401). -/
def effMemTrainBackoffExpiry (die j : Nat) (h : Hub) : Hub :=
  let k := 4 * die + j
  let n := 2 * die + (j - 4)
  if j < 4 then setLife (fun l => { l with chans := bset l.chans k (backoffEnded h.now (chanOfMem h k)) }) h
  else if j < 6 then setLife (fun l => { l with laneTrain := bset l.laneTrain n (backoffEnded h.now (laneOfMem h n)) }) h
  else h

/-- ARRAY_TRAINED: the four lanes train in lockstep, once main memory is there (R401, R402); the zero-fill of R404 begins unless the
population is in doubt (R200). -/
def effArrayTrained (rate : Nat) (dens full : Bool) (h : Hub) : Hub :=
  if !(trains h) || h.life.lanes.trained || rate = 0 || h.life.arrayPop = 0 || !((List.range 8).any (chanTrained h))
      || (List.range 4).any (fun n => (laneOfMem h n).backoffFrom.isSome) then h
  else
    let h := setLife (fun l => { l with
      lanes := trainedAs rate full l.lanes, laneTrain := (List.range 4).map (fun n => (n, trainedAs rate full (laneOfMem h n))),
      dens24 := dens, zeroing := !l.mismatch }) h
    repairArray (saveTraining 16 h)

/-- Array bytes of an entry's footprint written to zero, with a valid code (R404 step 1). -/
def zeroFoot (e : REntry) (h : Hub) : Hub :=
  let lo := e.tbase * unit2M
  let n := e.size * unit2M
  let outer := fun (a : Nat) => !(decide (lo ≤ a) && decide (a < lo + n))
  { h with mem := { h.mem with array := h.mem.array.filter (fun c => outer c.1), beatErr := h.mem.beatErr.filter (fun c => outer (8 * c.1)),
                               crcErr := h.mem.crcErr.filter (fun c => outer (128 * c.1)),
                               encLine := h.mem.encLine.filter (fun c => outer (128 * c.1)),
                               encRange := (lo, n, e.base * unit2M) :: h.mem.encRange } }

/-- NEAR_ZERO_FILL_DONE (R404): near memory is zero, the array enters service, the cache is enabled at the recorded size and the SHADOW
loads begin. -/
def effNearZeroFillDone (h : Hub) : Hub :=
  if !(h.life.zeroing && h.life.lanes.trained && trains h) then h
  else
    let mine := h.rmap.filter (fun e => e.2.valid && e.2.here h)
    let h := forEach (mine.filter (fun e => e.2.typ == .near)) (fun e h => zeroFoot e.2 h) h
    let h := enableRecorded (setLife (fun l => { l with zeroing := false, arrayUp := true }) h)
    let h := { h with shadows := h.shadows ++ ((mine.filter (fun e => e.2.typ == .shadow)).map (fun e => (0, e.1, e.2))) }
    let h := forEach ((h.heavy.filter (fun v => v.opcode == 0x07)).map Heavy.job) (fun j h => finishHeavy j stOk 0 h) h
    checkFull h

/-! ### The boot configuration recorded (R399) -/

/-- What R397 keeps of an ACTIVE partition: its grants and settings. -/
def bootPart (p : Part) : Part :=
  { st := .active, links := p.links, kbase := p.kbase, kcount := p.kcount, monq := p.monq, movLog := p.movLog, movDie := p.movDie, witCnt := p.witCnt,
    cntGrant := p.cntGrant, wayMask := p.wayMask, wayMin := p.wayMin, wayMax := p.wayMax, share := p.share, depth := p.depth, depthMin := p.depthMin,
    depthMax := p.depthMax, bud := p.bud, bmax := p.bmax }

/-- The running configuration. -/
def snapshot (h : Hub) : BootCfg :=
  { expert := (List.range 6).map (fun f => match expertBit f with | some (off, bit) => bitOf (regGet h 0 off) bit | none => false),
    geoms := (List.range 7).map (fun n => (n, BitVec.ofNat 32 (regGet h 0 (0x4050 + 4 * n)))), twinGeom := BitVec.ofNat 32 (twinGeom h),
    rmap := h.rmap, parts := (h.parts.filter (fun e => e.2.st == .active)).map (fun (e : Nat × Part) => (e.1, bootPart e.2)),
    linkCtl := (List.range 8).map (fun l => (l, BitVec.ofNat 32 (linkCtl h l))), cbAcc := BitVec.ofNat 32 (regGet h 0 0x18),
    tickCtl := BitVec.ofNat 32 (regGet h 0 0x4104), period := BitVec.ofNat 32 (regGet h 0 0x4108), cacheSize := if h.cache.cst == .on then h.cache.size else 0 }

/-- SNAP: a pair write of 1 to LC_CTL.SNAP; the Ledger write takes no model time, so SNAP_BUSY is never seen at 1. -/
def doSnap (h : Hub) : Hub :=
  let slot := if h.life.named then h.led.bootSlot else h.life.fwSlot
  match ledgerWrite 0x30 h with
  | (true, h) => { h with led := { h.led with boot := some (snapshot h), bootSlot := slot, bad := h.led.bad.filter (· != 0x30) } }
  | (false, h) => regSetField h 0 0x6808 4 4 1

/-! ### Park and wake (R405 to R409) -/

/-- PARK: a pair write of 1 to LC_CTL.PARK (R405, step 1 of R406). -/
def doPark (h : Hub) : Hub :=
  let err := if !h.heavy.isEmpty then 1 else if h.life.pwrWarn then 2 else if h.life.phase != .run then 3 else 0
  let h := setLife (fun l => { l with parkErr := err }) h
  if err ≠ 0 then h
  else
    let h := setLife (fun l => { l with phase := .parking, cacheSize := if h.cache.cst == .on then h.cache.size else l.cacheSize }) h
    let h := { h with movs := h.movs.map (fun r => { r with stop := true }), warm := [],
                      parts := h.parts.map (fun (e : Nat × Part) => (e.1, { e.2 with warming := false })) }
    if h.cache.cst == .on then startDrain 0 h else h

/-- Writes out a die's Colander as far as its event ring has room. -/
def drainCol (die : Nat) (h : Hub) : Hub :=
  (List.range 40).foldl (fun h _ => if evtFree h die then drainOne die h else h) h

/-- A rising WAKE that is taken: the package boots from retention (R408 step 1). -/
def startWake (h : Hub) : Hub :=
  setLife (fun l => { l with phase := .boot, waking := true, wakeWait := false, parked := false, lastRst := [(0, 1), (1, 1)] }) h

/-- Steps 4 and 5 of the park sequence: what the main rails held is gone, what retention keeps is kept (R406, R412). A mirrored line that waits for its
other channel is made good there (DEDUCED, log entry 123). -/
def toParked (h : Hub) : Hub :=
  let h := settle (drainCol 1 (drainCol 0 h))
  let h := forEach ((h.wins.filter (fun e => e.2.armed)).map Prod.fst) disarmWin h
  let h := forEach h.wbs (fun w h => match w.other with | some p => goodCopy p w h | none => h) (cacheOff h)
  let h := { h with
    sieve := [], recov := [], txns := [], snps := [], orphans := [], waiting := [], wbs := [], tongs := [], ladle := [], dets := [], mons := [],
    links := h.links.map (fun (e : Nat × Link) => (e.1, { saved := e.2.saved })), twin := {}, walks := [], shadows := [], warm := [], movs := [],
    mem := { h.mem with array := [], beatErr := [], crcErr := [], encLine := [], encRange := [] }, integ := { h.integ with backs := [] }, fs := { h.fs with started := false, tickPend := 0 },
    life := { h.life with phase := .parked, parked := true, kettleUp := false, fullUp := false, arrayUp := false, zeroing := false,
                          lanes := {}, laneTrain := [], witFaultN := false,
                          chans := h.life.chans.map (fun (e : Nat × MemTrain) => (e.1, { e.2 with trained := false, selfRefresh := true, backoffFrom := none })) } }
  if h.life.wakeWait && !h.life.pwrWarn then startWake h else h

/-- PARK_DRAIN_DONE (R406 steps 2 to 5): every Mover descriptor, write buffer and set is done with. -/
def effParkDrainDone (h : Hub) : Hub :=
  if h.life.phase != .parking || !h.movs.isEmpty || !(h.wbs.all (fun w => w.rests h)) || !h.txns.isEmpty || !h.waiting.isEmpty
      || !(h.cache.cst == .off || (doneWalk h 2).isSome) then h
  else toParked h

/-- WAKE (R408, R411). -/
def effWake (h : Hub) : Hub :=
  match h.life.phase with
  | .parked => if h.life.pwrWarn then setLife (fun l => { l with wakeWait := true }) h else startWake h
  | .parking => setLife (fun l => { l with wakeWait := true }) h
  | .drain => if h.life.back == .parking then setLife (fun l => { l with wakeWait := true }) h else h
  | _ => h

/-- Words whose clear-on-read fields start anew: what a wake does to status that only the main rails held. -/
def clearRc (regs : Bank Word32) : Bank Word32 :=
  regs.map (fun (e : Nat × Word32) => match findRow (e.1 % 0x100000) with
    | some r => (e.1, e.2 &&& ~~~(BitVec.ofNat 32 (r.maskOf (fun a => a == .rc))))
    | none => e)

/-- FW_RESUMED_FROM_RETENTION (R408 step 2, R409, R412): everything as at park, or a cold boot where the digest fails. -/
def effFwResumedFromRetention (good : Bool) (h : Hub) : Hub :=
  if !(h.life.phase == .boot && h.life.waking) then h
  else if !good then
    let c := coldHub false h
    effPwrGood h.life.hubId h.life.bootSel h.life.arrayPop c
  else
    let h := { h with
      regs := (clearRc h.regs).filter (fun e => !(decide (0x40 ≤ e.1 % 0x100000) && decide (e.1 % 0x100000 < 0x50))),
      pmu := [], bwLeft := 0, bwLat := [], lat := [], latDone := [], occ := [], occDone := [], rounds := [], slotUse := [], lid := [], mbox := [],
      parts := h.parts.map (fun (e : Nat × Part) => (e.1, { e.2 with page := [], run := [], landed := 0, moved := 0, castHit := 0, castGone := 0 })),
      col := h.col.map (fun (e : Nat × Col) => (e.1, { e.2 with stages := [], drops := 0 })),
      integ := { failed := h.led.failed, posD10 := h.led.posD10 }, bt := [],
      fs := { tickCtl := h.fs.tickCtl, frame := h.fs.frame, fallback := h.fs.fallback, overcommit := h.fs.overcommit } }
    let h := powerEvent 1 (bootCounters h)
    let h := forEach (List.range 8) (fun l h => if bitOf (linkCtl h l) 31 then setLink h l (fun k => { k with st := .training }) else h) h
    checkOvercommit (enterRun (h.fs.frame + 1) h)

/-! ### PWR_WARN (R173, R410, R411) -/

/-- PWR_WARN asserted: the drain begins; reservations are lost (R172). -/
def effPwrWarn (h : Hub) : Hub :=
  if h.life.resetLow then h
  else
    let h := setLife (fun l => { l with pwrWarn := true, warnGone := false }) h
    match h.life.phase with
    | .parked => h
    | .drain => h
    | p => { h with mons := [], life := { h.life with phase := .drain, back := p, drainAt := some h.now, drainDone := false } }

/-- Whether a transaction is a write that waits for a snoop answer. -/
def lateWrite (t : Txn) : Bool := writesLine t.req.op && (t.ph == .snoop || t.ph == .reissue)

/-- Closes a snoop without its answer: its host is shown I, and a late answer means nothing (R173). -/
def doWithout (s : Snp) (h : Hub) : Hub :=
  if s.held then closeSnp s h
  else closeSnp s (setHostSt s.host s.addr 0 { h with orphans := h.orphans ++ [(s.host, s.id)] })

/-- Whether a transaction that is no write keeps a later write of its line waiting (R137, R139, R173). -/
def barsWrite (h : Hub) (u : Txn) : Bool :=
  u.coherent && !(writesLine u.req.op) && u.ph != .fill && u.ph != .perform && u.ph != .closing
    && h.txns.any (fun t => writesLine t.req.op && decide (u.id < t.id) && overlaps (t.lo / 128 * 128) 128 (u.lo / 128 * 128) 128
      && t.ph != .closing && t.ph != .perform && t.ph != .fill)

/-- Abandons a transaction (Table: Fate of writes, PWR_WARN row): its snoops are done without, what it fills becomes INVALID, and its requester is
left in I where it had been given a position. -/
def abandon (u : Txn) (h : Hub) : Hub :=
  let h := forEach (txnSnps h u.id) doWithout h
  let h := match u.slot with
    | some (set, way) => setSlotLine u.slice set way (lineIx u.req.addr) .invalid h
    | none => h
  let h := if u.ph != .stalled && decide (u.req.host < 8) && (u.req.op == 0x11 || u.req.op == 0x12 || u.req.op == 0x15) then
      setHostSt u.req.host u.req.addr 0 h else h
  finish u h

/-- One round of R173's step 4: reads that bar writes are abandoned, writes that wait for a snoop answer go on without it, and those that waited
behind an abandoned read are ordered. -/
def drainRound (h : Hub) : Hub :=
  let h := forEach (h.txns.filter (barsWrite h)) abandon h
  let ids := (h.txns.filter lateWrite).map Txn.id
  let h := forEach (h.snps.filter (fun s => ids.contains s.txn)) doWithout h
  let left := h.waiting.filter (fun w => writesLine w.req.op || !(h.waiting.any (fun x => writesLine x.req.op && x.why == .stream
    && x.req.link == w.req.link && x.req.stream == w.req.stream && decide (w.req.uid < x.req.uid))))
  presentWaiting ((left.filter (fun w => writesLine w.req.op && w.why == .stream)).map Waiting.req) (settle { h with waiting := left })

/-- PWR_WARN_SNOOP_DEADLINE (R173 step 4): from 40 µs on, writes still waiting for a snoop answer are written without it, whether it is their own
or a read's that stands before them. -/
def effPwrWarnSnoopDeadline (h : Hub) : Hub :=
  match h.life.drainAt with
  | none => h
  | some t =>
    if h.life.phase != .drain || decide (h.now < t + 50000) then h
    else (List.range (h.txns.length + 1)).foldl (fun h _ => drainRound h) h

/-- Whether an accepted write has not yet been put into the write buffer, or into the array or the Kettle (R172, R173). -/
def writesOpen (h : Hub) : Bool :=
  h.txns.any (fun t => writesLine t.req.op && t.ph != .closing) || h.waiting.any (fun w => writesLine w.req.op)
    || h.recov.any (fun v => v.held.any (fun r => writesLine r.op))
    || h.links.any (fun k => k.2.inbox.any (fun m => m.uid != 0 && writesLine m.op))

/-- Service resumes (R410): every channel leaves self-refresh, and PHASE is what it was. -/
def resumeDrain (h : Hub) : Hub :=
  settle (setLife (fun l => { l with
    phase := l.back, drainAt := none, drainDone := false, warnGone := false,
    chans := l.chans.map (fun (e : Nat × MemTrain) => (e.1, { e.2 with selfRefresh := false })) }) h)

/-- PWR_WARN_DRAIN_DONE (R173 steps 5 and 6): every accepted write and every write-buffer line is at rest, every channel in self-refresh and the Ledger written. In
PARKING the park sequence goes on from its step 4 (R411). -/
def effPwrWarnDrainDone (h : Hub) : Hub :=
  if h.life.phase != .drain || h.life.drainDone || !(h.wbs.all (fun w => w.rests h)) || writesOpen h then h
  else
    let h := setLife (fun l => { l with drainDone := true, chans := l.chans.map (fun (e : Nat × MemTrain) => (e.1, { e.2 with selfRefresh := e.2.trained })) }) h
    let h := powerEvent 2 (foldHistory h)
    if h.life.back == .parking then toParked h else if h.life.warnGone then resumeDrain h else h

/-- PWR_WARN released (R410, R411). -/
def effPwrWarnRelease (h : Hub) : Hub :=
  if !h.life.pwrWarn then h
  else
    let h := setLife (fun l => { l with pwrWarn := false }) h
    match h.life.phase with
    | .drain => if h.life.drainDone then resumeDrain h else setLife (fun l => { l with warnGone := true }) h
    | .parked => if h.life.wakeWait then startWake h else h
    | _ => h

/-! ### Warm reset of a die (R25, R413) -/

/-- A pair write to CB_RESET; a 0 written to either bit has no effect. Answers whether R411 refuses it. -/
def writeReset (v : Nat) (h : Hub) : Bool × Hub :=
  if h.life.phase == .parking || h.life.phase == .parked || h.life.phase == .drain then (false, h)
  else
    let h := if v.testBit 0 then startWarm 0 2 h else h
    (true, if v.testBit 1 then startWarm 1 2 h else h)

/-- Whether anything homed on a die, or one of its engines, is still at work. -/
def dieBusy (h : Hub) (die : Nat) : Bool :=
  h.wbs.any (fun w => dieOfCluster w.cluster == die && !(w.rests h)) || h.txns.any (fun t => dieOfSlice t.slice == die)
    || h.movs.any (fun r => (part h r.pid).movDie == die)

/-- The die's own monitoring starts anew, and its PMU registers go back to their reset values (R412). -/
def clearPmu (die : Nat) (h : Hub) : Hub :=
  let keep := fun (k : Nat) => !(decide (die * 0x100000 + 0x4900 ≤ k) && decide (k < die * 0x100000 + 0x4960))
  { h with regs := h.regs.filter (fun e => keep e.1), pmu := bdel h.pmu die, lat := h.lat.filter (fun e => e.1 / 4 != die),
           latDone := h.latDone.filter (fun e => e.1 / 4 != die), occ := h.occ.filter (fun e => e.1 / 4 != die),
           occDone := h.occDone.filter (fun e => e.1 / 4 != die), rounds := h.rounds.filter (fun e => e.1 / 16 != die),
           slotUse := h.slotUse.filter (fun e => e.1 / 16 != die) }

/-- The Colander drained as far as its ring has room; a GAP with the number of records left is the first after the reset. -/
def resetCol (die : Nat) (h : Hub) : Hub :=
  let h := drainCol die h
  let c := col h die
  colGap die { h with col := bset h.col die { c with stages := [], drops := satAdd c.drops c.stages.length 16 } }

/-- WARM_RESET_DONE (R413 steps 2 to 5). -/
def effWarmResetDone (die : Nat) (h : Hub) : Hub :=
  match bfind h.life.warm die with
  | none => h
  | some cause =>
    if dieBusy h die then h
    else
      let h := resetCol die (clearPmu die (settle h))
      let h := { h with lid := bdel h.lid die, mbox := h.mbox.filter (fun e => e.1 / 4 != die),
                        ladle := h.ladle.filter (fun e => dieOfCluster e.cluster != die), dets := h.dets.filter (fun d => dieOfCluster d.cluster != die) }
      let h := setLife (fun l => { l with warm := bdel l.warm die, lastRst := bset l.lastRst die cause }) h
      forEach [4 * die, 4 * die + 1, 4 * die + 2, 4 * die + 3] takeDown h

/-! ### Firmware (R414 to R416) -/

/-- Whether a staged image authenticates (R396): MAGIC and LENGTH here, digest and signature an open constant (log entry 5). -/
def imageGood (d : List Byte) : Bool :=
  let n := ofBytes (slice d 12 4)
  decide (128 ≤ d.length) && ofBytes (d.take 4) == 0x4B465746 && decide (128 ≤ n) && decide (n ≤ 4194304) && decide (n ≤ d.length)
    && Config.imageSignatureGood (d.take n)

/-- The header fields of an image. -/
def imageHdr (d : List Byte) : FwHdr :=
  let b := fun i => d.getD i 0#8
  { minor := b 4, major := b 5, live := (b 6).getLsbD 0, rdMin := (b 8).extractLsb' 0 4, rdMax := (b 8).extractLsb' 4 4, wrMax := (b 9).extractLsb' 0 4 }

/-- FW_STAGE (R414). One stages at a time: a second is refused (DESIGN CHOICE, log entry 24). -/
def bodyFwStage : CmdBody := fun m c h =>
  let slot := bitOf c.arg0.toNat 0
  let len := c.arg2.toNat
  if decide (4194304 < len) || decide (len < 128) then ended h stBadArg
  else if slot = h.life.fwSlot || h.stage.isSome then ended h stWrong
  else
    let (job, h) := startHeavy m 0x38 c h
    ({ h with stage := some (job, slot, toBytes 8 c.arg1.toNat ++ toBytes 4 len) }, none)

def effFwStage (m : Nat) (c : CmdWord) (h : Hub) : Hub := takeCmd m 0x38 c bodyFwStage h

/-- FW_STAGE_DONE: both passes are over; `digestGood` says whether the read-back's digest agrees. -/
def effFwStageDone (digestGood : Bool) (h : Hub) : Hub :=
  match h.stage with
  | none => h
  | some (job, slot, arg) =>
    let m := ((h.heavy.find? (fun v => v.job == job)).map Heavy.mgr).getD 0
    match fetchRange m job (ofBytes (arg.take 8)) (ofBytes (arg.drop 8)) h with
    | .wait h => h
    | .got bad d h =>
      let h := { h with stage := none }
      if bad.isSome || !(imageGood d) then finishHeavy job stBadArg 0 h
      else
        let h := setFwSlot slot (fun s => { s with image := d }) h
        if digestGood then finishHeavy job stOk d.length (putHeader slot (imageHdr d) h)
        else
          let h := setFwSlot slot (fun s => { s with valid := false }) h
          let h := if h.led.bootSlot = slot then ledgerPut 0x30 (fun l => { l with bootSlot := h.life.fwSlot }) h else h
          finishHeavy job stDataErr d.length h

/-- FW_SWITCH (R415, R416). -/
def bodyFwSwitch : CmdBody := fun m c h =>
  let slot := bitOf c.arg0.toNat 0
  let s := fwSlot h slot
  if slot = h.life.fwSlot || !s.valid || h.life.handover.isSome || h.stage.any (fun g => g.2.1 == slot) then ended h stWrong
  else if !s.live then
    match ledgerWrite 0x30 h with
    | (true, h) => ended (setLife (fun l => { l with named := true }) { h with led := { h.led with bootSlot := slot } }) stOk
    | (false, h) => ended h stNoRes
  else if !(Config.startupChecksPass s.image) then ended h stBadArg
  else
    let (_, h) := startHeavy m 0x39 c h
    (setLife (fun l => { l with handover := some slot, handAt := h.fs.frame }) h, none)

def effFwSwitch (m : Nat) (c : CmdWord) (h : Hub) : Hub := takeCmd m 0x39 c bodyFwSwitch h

/-- FW_HANDOVER (R415 step 2): at the first tick after the switch, command taking pauses and the frame's steward pass is skipped. -/
def effFwHandover (h : Hub) : Hub :=
  if h.life.handover.isNone || h.life.handRun || h.life.phase != .run || h.fs.frame = h.life.handAt then h
  else setFs (fun f => { f with skipPass := true }) (setLife (fun l => { l with handRun := true }) h)

/-- FW_HANDOVER_DONE (R415 step 4). -/
def effFwHandoverDone (h : Hub) : Hub :=
  match h.life.handover with
  | none => h
  | some slot =>
    if !h.life.handRun then h
    else
      let h := ledgerPut 0x30 (fun l => { l with bootSlot := slot }) h
      let h := setLife (fun l => { l with handover := none, handRun := false, named := false }) (runSlot slot h)
      forEach ((h.heavy.filter (fun v => v.opcode == 0x39)).map Heavy.job) (fun j h => finishHeavy j stOk 0 h) h

/-! ### A die's temperature -/

/-- THERM_CROSSING: a new reading of a die's temperature; while RESET_N is low the hub drives no output and sets no field (R429). -/
def effThermCrossing (die : Nat) (temp : Byte) (h : Hub) : Hub :=
  let h := setLife (fun l => { l with temp := bset l.temp die temp.toNat }) h
  if h.life.resetLow then h else checkTherm h

end Sys2Proof.Machine
end

