-- ==== Sys2Proof/Machine/Regs.lean ====
section
/-! DEFINITION. What the configuration window's registers read: the fields whose value is state held elsewhere, the pages (R244, R260, R366, R367)
and the mailboxes' snapshots (R389 to R392). -/

namespace Sys2Proof.Machine

/-! ### Fields given by the rest of the state

Each function answers the word of a register's RO fields, none for an offset whose word in `regs` is all there is. -/

/-- A count as a field of `n` bits shows it. -/
def shown (n x : Nat) : Nat := min x (2 ^ n - 1)

/-- CACHE_WALK_STAT on a die: KIND, MODE and LEFT of the walk that runs (R67). -/
def walkStat (h : Hub) (die : Nat) : Nat :=
  let st := (match h.cache.cst with | .off => 0 | .on => 1 | .draining => 2) * 2 ^ 30
  match runningWalk h with
  | none => st
  | some w =>
    let left := sumOf ((List.range 16).map (fun i =>
      w.total h - bget w.next (16 * die + i) 0 + (bget w.again (16 * die + i) []).length))
    st + w.kind % 8 * 2 ^ 27 + b2n w.setMode * 2 ^ 26 + shown 17 left

/-- Registers of the cache and its maintenance (0x4000 to 0x403F). -/
def liveCache (h : Hub) (die off : Nat) : Option Nat :=
  if off = 0x4000 then
    some (b2n (cacheExpert h) * 2 ^ 8 + (match h.cache.cst with | .off => 0 | _ => 4 + h.cache.size % 4))
  else if off = 0x4014 then some (walkStat h die)
  else if off = 0x401C then some (h.cache.pending.toNat * 2 ^ 16 + h.cache.powered.toNat)
  else none

/-- Registers of coherence and ordering (0x4040 to 0x40FF). -/
def liveCoherence (h : Hub) (die off : Nat) : Option Nat :=
  if off = 0x4070 then some h.twin.peerGeom.toNat
  else if off = 0x4074 then some (shown 5 (retryDepth h die) * 2 ^ 24 + shown 20 (allotment h 7 0 (twinGeom h)))
  else if off = 0x4080 then some (shown 7 ((h.mons.filter (fun m => m.die == die)).length))
  else if off = 0x4088 then
    some (b2n (h.life.phase == .drain || (bfind h.life.warm die).isSome) * 2 ^ 31 + shown 9 (wbOnDie h die))
  else none

/-- Registers of the Frame Sequencer (0x4100 to 0x4128). -/
def liveFrame (h : Hub) (off : Nat) : Option Nat :=
  let p := h.fs.period
  if off = 0x410C then some (shown 20 (frameUs h) * 2 ^ 12 + b2n h.fs.synth * 2 ^ 8 + h.fs.srcNow % 4 * 2 ^ 6 + h.fs.step % 16)
  else if off = 0x4110 then some (h.fs.frame % 2 ^ 32)
  else if off = 0x4114 then some (shown 20 (capOf h p))
  else if off = 0x4118 then some (shown 20 (sdSum h))
  else if off = 0x411C then some (shown 20 (hkReserve h p (hkPct h)))
  else if off = 0x4120 then some (2 * b2n h.fs.overcommit)
  else none

/-- Registers of the array, main memory and the region map (0x4180 to 0x418C, 0x5000 to 0x53FF). -/
def liveMemory (h : Hub) (off : Nat) : Option Nat :=
  if off = 0x4180 then
    some (popOf h % 4 * 2 ^ 30 + h.life.arrayPop % 4 * 2 ^ 28 + b2n h.life.mismatch * 2 ^ 27 + b2n h.life.arrayUp * 2 ^ 26
      + (if h.life.lanes.trained then h.life.lanes.rate % 4 else 0) * 2 ^ 24 + b2n h.life.dens24 * 2 ^ 23)
  else if off = 0x4184 then some ((if h.life.lanes.trained then mapTop h % 2 ^ 14 else 0) * 2 ^ 16 + cacheTop h % 2 ^ 14)
  else if off = 0x4188 then
    some (sumOf ((List.range 8).map (fun k => 2 ^ (24 + k) * b2n (chanTrained h k))) + shown 16 h.life.mainUnits)
  else if off = 0x418C then
    some (sumOf ((List.range 8).map (fun k => 16 ^ k * (if chanTrained h k then (chanOfMem h k).rate % 16 else 0))))
  else if 0x5000 ≤ off ∧ off < 0x5400 then
    let e := bget h.rmap ((off - 0x5000) / 16) {}
    match off % 16 with
    | 0 => some (b2n e.hub * 2 ^ 31 + e.base % 2 ^ 27)
    | 4 => some (b2n e.mirror * 2 ^ 23 + b2n e.ecc * 2 ^ 22 + e.cls % 4 * 2 ^ 20 + e.typ.code % 16 * 2 ^ 16 + e.size % 2 ^ 16)
    | 8 => some (e.tbase % 2 ^ 16)
    | 12 => some (e.src % 2 ^ 27)
    | _ => none
  else none

/-- A die's longest last completed lap over some of the twelve Whisks (WHISK_LAP_ARR, WHISK_LAP_MAIN). -/
def lapWord (h : Hub) (rs : List Nat) : Nat :=
  let b := rs.foldl (fun (b : Nat × Nat) r =>
    let p := whisk h r
    if b.1 < p.lapMs ∨ (b.1 = p.lapMs ∧ b.2 < p.lapFrames) then (p.lapMs, p.lapFrames) else b) (0, 0)
  shown 18 b.1 * 2 ^ 14 + shown 14 b.2

/-- Registers of integrity (0x41C0 to 0x41E8). -/
def liveIntegrity (h : Hub) (die off : Nat) : Option Nat :=
  if off = 0x41CC then some (lapWord h [2 * die, 2 * die + 1])
  else if off = 0x41D0 then some (lapWord h [4 * die + 4, 4 * die + 5, 4 * die + 6, 4 * die + 7])
  else if off = 0x41D8 then some (shown 7 (bget h.integ.corr die []).length)
  else if off = 0x41DC then
    some (h.integ.failed.toNat * 2 ^ 21 + h.integ.posD10 % 16 * 2 ^ 17 + b2n h.integ.rebuild * 2 ^ 16 + b2n h.integ.degraded * 2 ^ 15)
  else if off = 0x41E0 then some (shown 14 h.integ.rebuildPtr)
  else if off = 0x41E4 then
    let used := fun (lane : Nat) => shown 11 ((h.led.remap.filter (fun r => r.lane == lane)).length)
    some (used (2 * die + 1) * 2 ^ 16 + used (2 * die))
  else none

/-- Registers of the witness (0x4200 to 0x4308). -/
def liveWitness (h : Hub) (off : Nat) : Option Nat :=
  if 0x4200 ≤ off ∧ off < 0x4300 then
    let w := win h ((off - 0x4200) / 16)
    match off % 16 with
    | 0 => some (w.writers.toNat * 2 ^ 24 + w.group % 16 * 2 ^ 20 + b2n w.pinEn * 2 ^ 19 + b2n w.static * 2 ^ 18 + w.reader % 8 * 2 ^ 15
        + (w.lines - 1) % 2 ^ 15)
    | 4 => some (w.base % 2 ^ 32 / 128 * 128)
    | 8 => some (w.base / 2 ^ 32 % 2 ^ 16)
    | 12 => some (b2n w.armed * 2 ^ 31 + w.pid % 64)
    | _ => none
  else if off = 0x4304 then
    some (b2n h.life.witFaultN * 2 ^ 31 + sumOf ((List.range 16).map (fun n => 2 ^ n * b2n (win h n).failed)))
  else none

/-- Whether a manager's ring is enabled or a command of it runs, and whether R261 holds its commands back. -/
def mgrStat (h : Hub) (m : Nat) : Nat :=
  let r := mgr h m
  (r.head % 2 ^ 16) * 2 ^ 16 + shown 4 (heavyOf h m) * 2 ^ 8 + 2 * b2n (!r.held.isEmpty || (bitOf (mgrCtl h m) 31 && cplFree h m == 0))
    + b2n ((bitOf (mgrCtl h m) 31 && !r.fetchStop) || heavyOf h m != 0 || !r.held.isEmpty)

/-- Registers of the rings and the Mover (0x4400 to 0x4498, 0x5410 to 0x57FF). -/
def liveRings (h : Hub) (die off : Nat) : Option Nat :=
  if 0x4400 ≤ off ∧ off < 0x4480 ∧ off % 0x20 = 0x18 then some (mgrStat h ((off - 0x4400) / 0x20))
  else if off = 0x4488 then some (sumOf ((List.range 4).map (fun m => 2 ^ m * b2n (keyLoaded h m))))
  else if off = 0x4498 then some ((col h die).tail % 2 ^ 16 * 2 ^ 16 + (col h die).head % 2 ^ 16)
  else if 0x5410 ≤ off ∧ off < 0x5800 then
    let k := part h ((off - 0x5400) / 16)
    match off % 16 with
    | 8 => some (k.movDie % 2 * 2 ^ 8 + k.movLog % 16)
    | 12 => some (movNext h ((off - 0x5400) / 16) * 2 ^ 16 + b2n (h.movs.any (fun r => r.pid == (off - 0x5400) / 16)))
    | _ => none
  else none

/-- PART_p_STAT.STATE code of a state. -/
def partCode : PartSt → Nat
  | .free => 0
  | .created => 1
  | .active => 2
  | .quiescing => 3
  | .quiesced => 4
  | .frozen => 5

/-- Registers of one partition, by offset in its 64 bytes. -/
def livePart (k : Part) (o : Nat) : Option Nat :=
  if o = 0 then some (k.level % 16 * 2 ^ 8 + b2n k.warming * 2 ^ 5 + b2n k.busy * 2 ^ 4 + partCode (shownSt k))
  else if o = 4 then some (k.links.toNat * 2 ^ 24 + k.kcount % 128 * 2 ^ 16 + k.kbase % 64 * 2 ^ 8 + k.monq % 128)
  else if o = 8 then some (b2n k.cntGrant * 2 ^ 31 + k.witCnt % 32)
  else if o = 12 then some (k.wayMax % 32 * 2 ^ 21 + k.wayMin % 32 * 2 ^ 16 + k.wayMask.toNat)
  else if o = 16 then some (k.depthMax % 32 * 2 ^ 18 + k.depthMin % 32 * 2 ^ 13 + k.depth % 32 * 2 ^ 8 + k.share % 256)
  else if o < 0x20 then some (k.bud.getD ((o - 0x14) / 4) 0 % 2 ^ 20)
  else if o < 0x2C then some (k.bmax.getD ((o - 0x20) / 4) 0 % 2 ^ 20)
  else none

/-- Registers of the partitions and their pools (0x4500 to 0x4508, 0x5840 to 0x67FF). -/
def liveParts (h : Hub) (off : Nat) : Option Nat :=
  if off = 0x4500 then some (witFree h 64 * 2 ^ 24 + monFree h 64 * 2 ^ 16 + monFree h 64 * 2 ^ 8 + ketFree h 64)
  else if off = 0x4504 then some (movFree h 64 1 * 2 ^ 16 + movFree h 64 0)
  else if off = 0x4508 then
    some (h.twin.peerRdMax % 16 * 2 ^ 16 + h.life.wrMax % 16 * 2 ^ 8 + h.life.rdMax % 16 * 2 ^ 4 + h.life.rdMin % 16)
  else if 0x5840 ≤ off ∧ off < 0x6800 then
    let p := (off - 0x5800) / 64
    let k := part h p
    livePart { k with warming := k.warming || ((k.st == .quiesced || k.st == .active) && warmOpen h p) } (off % 64)
  else none

/-- LINK_n_STAT.STATE code. -/
def linkCode : LinkSt → Nat
  | .down => 0
  | .training => 1
  | .up => 2
  | .recovery => 3

/-- Registers of one link, by offset in its 64 bytes. -/
def liveLink (k : Link) (o : Nat) : Option Nat :=
  if o = 4 then
    some (linkCode k.st * 2 ^ 30 + b2n k.rev11 * 2 ^ 29 + k.width % 4 * 2 ^ 27 + b2n k.rate16 * 2 ^ 26 + b2n k.degr * 2 ^ 25
      + b2n k.peerHub * 2 ^ 24 + b2n k.peerId * 2 ^ 23 + k.lanes % 8 * 2 ^ 20)
  else if o = 8 then some (shown 16 k.attempts * 2 ^ 16 + k.stage % 8 * 2 ^ 13 + k.reason % 8 * 2 ^ 10 + shown 8 k.backoff)
  else if o = 16 then some (sumOf ((List.range 4).map (fun c => 256 ^ c * (k.credits.getD c 0 % 256))))
  else if o = 20 then some (sumOf ((List.range 4).map (fun c => 256 ^ c * (k.credits.getD (4 + c) 0 % 256))))
  else none

/-- The most writes of any Ledger word in units of 10⁶ (LEDGER_STAT.WEAR): a record's writes spread over its slot pairs (R349). -/
def ledgerWear (h : Hub) : Nat := maxOf (h.led.recs.map (fun (e : Nat × (Nat × Nat)) => ceilDiv e.2.1 (ledgerPairs e.1) / 1000000))

/-- Registers of the on-chip memories (0x4804 to 0x4820) and WHISK_RATE. -/
def liveOnChip (h : Hub) (die off : Nat) : Option Nat :=
  if off = 0x4804 then some (shown 10 (ledgerWear h) * 2 ^ 22)
  else if off = 0x480C then some (shown 5 ((h.led.spares.filter (fun x => x.1 == die)).length) * 2 ^ 16)
  else if off = 0x4820 then some (shown 16 (col h die).drops * 2 ^ 16 + shown 6 (col h die).stages.length)
  else none

/-- CB_BOOT of a die. -/
def bootWord (h : Hub) (die : Nat) : Nat :=
  bget h.life.lastRst die 0 % 16 * 2 ^ 28 + 8 * b2n h.life.fullUp + 4 * b2n h.life.arrayUp + 2 * b2n ((List.range 8).any (chanTrained h))
    + b2n h.life.kettleUp

/-- LC_STAT.PHASE (Table: Package phases). -/
def phaseCode : LcPhase → Nat
  | .boot => 0
  | .romService => 1
  | .run => 2
  | .parking => 3
  | .parked => 4
  | .drain => 5

/-- LC_FW_A and LC_FW_B. -/
def fwWord (h : Hub) (b : Bool) : Nat :=
  let s := fwSlot h b
  b2n s.valid * 2 ^ 31 + b2n s.live * 2 ^ 30 + b2n (h.led.bootSlot == b) * 2 ^ 29 + b2n s.failed * 2 ^ 28 + shown 12 s.attempts * 2 ^ 16
    + s.major % 256 * 2 ^ 8 + s.minor % 256

/-- LC_TRAIN_j of a die: channels 0 to 3 of the die, then its lanes. -/
def trainWord (h : Hub) (die j : Nat) : Nat :=
  let t := if j < 4 then chanOfMem h (4 * die + j) else laneOfMem h (2 * die + (j - 4))
  shown 16 t.attempts * 2 ^ 16 + b2n t.full * 2 ^ 15 + b2n t.trained * 2 ^ 14 + t.reason % 8 * 2 ^ 11 + shown 8 t.backoff

/-- Registers of the life cycle (0x6800 to 0x6834). -/
def liveLife (h : Hub) (die off : Nat) : Option Nat :=
  if off = 0x6800 then some (b2n (h.life.phase == .parking))
  else if off = 0x6808 then
    some (phaseCode h.life.phase * 2 ^ 28 + h.life.parkErr % 4 * 2 ^ 26 + 4 * b2n h.life.pwrWarn + b2n h.life.parked)
  else if off = 0x680C then some (fwWord h false)
  else if off = 0x6810 then some (fwWord h true)
  else if 0x6820 ≤ off ∧ off < 0x6838 then some (trainWord h die ((off - 0x6820) / 4))
  else none

/-- The Lid of a die. -/
def lid (h : Hub) (die : Nat) : Lid := bget h.lid die {}

/-- Whether a die's Lid is open: within 256 cycles of its key write (R386). -/
def lidOpen (h : Hub) (die : Nat) : Bool :=
  match (lid h die).openAt with
  | some t => decide (h.now < t + 256)
  | none => false

/-- A mailbox of a die. -/
def mbox (h : Hub) (die k : Nat) : Mbox := bget h.mbox (4 * die + k) {}

/-- Registers of one mailbox, by offset in its 128 bytes (R390). -/
def liveMbox (b : Mbox) (o : Nat) : Option Nat :=
  if o = 4 then some (b2n b.valid * 2 ^ 31 + b2n b.busy * 2 ^ 30 + b2n b.err * 2 ^ 29 + b.words.length % 32 * 2 ^ 16)
  else if 8 ≤ o ∧ o < 0x50 then some (if b.valid then (b.words.getD ((o - 8) / 4) 0#32).toNat else 0)
  else none

/-- Registers of the control block (0x0000 to 0x3FFF). -/
def liveControl (h : Hub) (die off : Nat) : Option Nat :=
  if off = 0x00 then some (0x4100 * 2 ^ 16 + Config.stepping * 2 ^ 8 + die % 2)
  else if off = 0x04 then some (h.life.arrayPop % 4 * 4 + 2 * b2n h.life.bootSel + b2n h.life.hubId)
  else if off = 0x08 then some (h.life.fwMajor % 256 * 2 ^ 24 + h.life.fwMinor % 256 * 2 ^ 16 + b2n h.life.fwSlot * 2 ^ 8)
  else if off = 0x0C then some (bootWord h die)
  else if off = 0x10 then some (b2n (bfind h.life.warm 0).isSome + 2 * b2n (bfind h.life.warm 1).isSome)
  else if off = 0x28 then some (2 * b2n (lid h die).pair.isSome + b2n (lidOpen h die))
  else if off = 0x2C then some (bget h.life.temp die 0 % 256)
  else if 0x100 ≤ off ∧ off < 0x300 then liveMbox (mbox h die ((off - 0x100) / 0x80)) (off % 0x80)
  else none

/-- Every live word. -/
def liveReg (h : Hub) (die off : Nat) : Option Nat :=
  if off < 0x4000 then liveControl h die off
  else if off < 0x4040 then liveCache h die off
  else if off < 0x4100 then liveCoherence h die off
  else if off < 0x4180 then liveFrame h off
  else if off < 0x41C0 then liveMemory h off
  else if off < 0x4200 then liveIntegrity h die off
  else if off < 0x4400 then liveWitness h off
  else if off < 0x4500 then liveRings h die off
  else if off < 0x4600 then liveParts h off
  else if off < 0x4800 then liveLink (link h ((off - 0x4600) / 64)) (off % 64)
  else if off < 0x4900 then liveOnChip h die off
  else if off < 0x5000 then none
  else if off < 0x5400 then liveMemory h off
  else if off < 0x5800 then liveRings h die off
  else if off < 0x6800 then liveParts h off
  else liveLife h die off

/-- WHISK_RATE (R239): the manager's rates under expert control, else the steward's pace, here that of the first lane and of the first
channel. -/
def whiskWord0 (h : Hub) : Nat :=
  let w := regGet h 0 0x41C8
  if bitOf w 31 then w else shown 15 (whiskRate h 0 / 256) * 2 ^ 16 + shown 15 (whiskRate h 4 / 256)

/-- Whether a die's window shows a register: LINK_n registers only in the window of the die that holds link n. -/
def onWindow (die off : Nat) : Bool := !(decide (0x4600 ≤ off) && decide (off < 0x4800)) || (off - 0x4600) / 256 == die

/-- The value a register of the control block or the block registers reads (R379, R382). -/
def regValue (h : Hub) (die off : Nat) : Nat :=
  match findRow off with
  | none => 0
  | some r =>
    if !(onWindow die off) then 0
    else if off = 0x41C8 then whiskWord0 h
    else
      let w := regGet h die off
      match liveReg h die off with
      | some v => Nat.land w (r.maskOf (fun a => a != .ro && a != .wo)) + Nat.land v (r.maskOf (fun a => a == .ro || a == .wp))
      | none => Nat.land w (r.maskOf (fun a => a != .wo))

/-! ### Mailbox snapshots (R389 to R392) -/

/-- A value as so many words, least significant first (R391). -/
def asWords (n v : Nat) : List Word32 := (List.range n).map (fun i => BitVec.ofNat 32 (v / 2 ^ (32 * i)))

/-- LEDGER_HIST_k: 64 bytes of the error history summary (R392). -/
def histWords (h : Hub) (k : Nat) : List Word32 :=
  if k < 16 then (List.range 16).map (fun i => BitVec.ofNat 32 (bget h.led.typeCnt (16 * k + i) 0))
  else if k < 80 then (List.range 4).flatMap (fun i => asWords 4 (h.led.sev3.getD (4 * (k - 16) + i) 0#128).toNat)
  else if k < 96 then (List.range 4).flatMap (fun i =>
    match h.led.power[4 * (k - 80) + i]? with
    | some (kind, frame) => asWords 4 (kind + 1 + frame % 2 ^ 32 * 2 ^ 32)
    | none => asWords 4 0)
  else List.replicate 16 0#32

/-- The words a selector names at a die's mailbox; none where R391 refuses it. -/
def snapshotOf (h : Hub) (die sel : Nat) : Option (List Word32) :=
  let p := pmuOf h die
  if 0x10 ≤ sel ∧ sel < 0x14 then some (asWords 2 (mgr h (sel - 0x10)).lastCtr)
  else if 0x100 ≤ sel ∧ sel < 0x110 then some (asWords 2 (win h (sel - 0x100)).wsig.toNat)
  else if 0x110 ≤ sel ∧ sel < 0x120 then some (asWords 2 (win h (sel - 0x110)).rsigLat.toNat)
  else if sel = 0x200 then some (asWords 2 p.cyc)
  else if 0x210 ≤ sel ∧ sel < 0x218 then some (asWords 2 (bget p.cnt (sel - 0x210) 0))
  else if 0x220 ≤ sel ∧ sel < 0x228 then some (asWords 2 (bget p.lat (sel - 0x220) 0))
  else if 0x300 ≤ sel ∧ sel < 0x308 then
    if dieOfLink (sel - 0x300) = die then
      let b := bget h.bwLat (sel - 0x300) (0, 0)
      some (asWords 2 b.1 ++ asWords 2 b.2)
    else none
  else if 0x310 ≤ sel ∧ sel < 0x314 then
    let r := bget h.latDone (4 * die + (sel - 0x310)) {}
    some (asWords 1 r.min ++ asWords 1 r.max ++ (List.range 16).map (fun i => BitVec.ofNat 32 (bget r.buckets i 0)))
  else if 0x320 ≤ sel ∧ sel < 0x324 then
    let r := bget h.occDone (4 * die + (sel - 0x320)) (0, [])
    some (asWords 1 r.1 ++ (List.range 16).map (fun i => BitVec.ofNat 32 (r.2.getD i 0)))
  else if sel = 0x330 then some ((List.range 4).flatMap (fun i => asWords 2 (p.slotHk.getD i 0 % 2 ^ 48)))
  else if 0x1000 ≤ sel ∧ sel < 0x1400 then some (histWords h (sel - 0x1000))
  else none

/-- The hub with a mailbox changed. -/
def setMbox (die k : Nat) (b : Mbox) (h : Hub) : Hub := { h with mbox := bset h.mbox (4 * die + k) b }

/-- MAILBOX_FETCH_DONE: the fetch cycle of a running fetch. -/
def effMailboxFetchDone (die k : Nat) (h : Hub) : Hub :=
  if !(mbox h die k).busy then h
  else match snapshotOf h die (regField h die (0x100 + 0x80 * k) 15 0) with
    | some ws => setMbox die k { valid := true, words := ws } h
    | none => setMbox die k { err := true } h

/-! ### Pages -/

/-- What a partition page reads (R366, R367): `size` bytes, 4 or 8, at offset `o` below 0x400. -/
def pageRead (h : Hub) (p o size pid : Nat) : Nat :=
  let k := part h p
  if privOf h pid != 1 || (pid == p && k.cntGrant) then
    let v := bget k.page (o / 8) 0
    if size = 8 then v % 2 ^ 64 else v / 2 ^ (8 * (o % 8)) % 2 ^ 32
  else 0

/-- What a seal page reads (R244). -/
def sealRead (h : Hub) (n o : Nat) : Nat :=
  let w := win h n
  if o = 4 then w.reason % 4 * 2 ^ 10 + w.last % 4 * 2 ^ 8 + w.sealErr % 8 * 2 ^ 4 + b2n w.broken * 2 ^ 3 + winCode w.st
  else if o = 8 then w.sealFrame % 2 ^ 32
  else if o = 12 then shown 16 w.covLat * 2 ^ 16 + shown 16 w.derrLat
  else 0

end Sys2Proof.Machine
end

