-- ==== Sys2Proof/Machine/Window.lean ====
section
/-! DEFINITION. Accesses to the configuration window (R377 to R388): the Lid and its pairs, what each register's write does, bit aliases, reads that
clear, doorbells and pages. -/

namespace Sys2Proof.Machine

/-! ### The Lid (R386 to R388) -/

/-- The hub with a die's Lid changed. -/
def setLid (die : Nat) (f : Lid → Lid) (h : Hub) : Hub := { h with lid := bupd h.lid die {} f }

/-- Sets a bit of LID_STAT: 2 DENY, 3 PAIR_ERR, 4 BAD_KEY. -/
def lidErr (die bit : Nat) (h : Hub) : Hub := regSetField h die 0x28 bit bit 1

/-- The Lid closes. -/
def closeLid (die : Nat) (h : Hub) : Hub := setLid die (fun l => { l with openAt := none }) h

/-- A pending pair is discarded. -/
def dropPair (die : Nat) (h : Hub) : Hub := lidErr die 3 (setLid die (fun l => { l with pair := none }) h)

/-- LID_TIMEOUT: 256 cycles after the key write the Lid closes. -/
def effLidTimeout (die : Nat) (h : Hub) : Hub := if (lid h die).openAt.isSome && !(lidOpen h die) then closeLid die h else h

/-- PAIR_TIMEOUT: a complement that has not come within 256 cycles discards the pair. -/
def effPairTimeout (die : Nat) (h : Hub) : Hub :=
  match (lid h die).pair with
  | some (_, _, t) => if t + 256 < h.now then dropPair die h else h
  | none => h

/-- What time has done to a Lid since its last event. -/
def tidyLid (die : Nat) (h : Hub) : Hub := effPairTimeout die (effLidTimeout die h)

/-- Registers written as pairs, and their complement ports. -/
def isWp (off : Nat) : Bool := off == 0x10 || off == 0x18 || off == 0x6800
def isPort (off : Nat) : Bool := off == 0x14 || off == 0x1C || off == 0x6804

/-- A write to LID_KEY. -/
def writeKey (die v : Nat) (h : Hub) : Hub :=
  if v = 0x6B7A then setLid die (fun l => { l with openAt := some h.now }) h else lidErr die 4 (closeLid die h)

/-- A pair whose complement has come: V is written at X (R387, R399, R405, R411, R413). -/
def commitPair (die off v : Nat) (h : Hub) : Hub :=
  if off = 0x10 then
    match writeReset v h with
    | (true, h) => h
    | (false, h) => lidErr die 2 h
  else if off = 0x18 then regPut h die off (Nat.land v 0xFF00007F)
  else
    let h := if v.testBit 1 then doSnap h else h
    if v.testBit 0 then doPark h else h

/-! ### What a write of each register does

`nw` is the word that the register's writable fields make with the old one; `opn` says whether the Lid was open, so that WK fields are written. -/

/-- A register's word with the fields that a write may change taken from `v`. -/
def mergeWord (r : RegRow) (opn : Bool) (old v : Nat) : Nat :=
  let m := r.maskOf (fun a => a == .rw || (opn && a == .wk))
  old - Nat.land old m + Nat.land v m

/-- Control block: CB_TEMP.THERM_HI, a mailbox's selector, scratch. -/
def applyControl (die off nw : Nat) (opn : Bool) (h : Hub) : Hub :=
  if off = 0x2C then
    let t := bits nw 23 16
    if opn && decide (85 ≤ t) && decide (t ≤ 125) then checkTherm (regSetField (regSetField h 0 off 23 16 t) 1 off 23 16 t) else h
  else if 0x100 ≤ off ∧ off < 0x300 ∧ off % 0x80 = 0 then setMbox die ((off - 0x100) / 0x80) { busy := true } (regPut h die off nw)
  else regPut h die off nw

/-- The cache and the Ladle (R63, R65, R66, R95). -/
def applyCacheReg (die off nw : Nat) (h : Hub) : Hub :=
  if off = 0x4004 then if cacheExpert h then regPut h die off nw else h
  else if off = 0x4008 then
    if 64 < bits nw 6 0 + bits nw 14 8 ∨ 32 < bits nw 21 16 then h else regPut h die off nw
  else if off = 0x400C then
    if cacheExpert h then
      let h := regPut h die off nw
      { h with cache := { h.cache with coldCnt := h.cache.coldCnt.filter (fun e => dieOfSlice (e.1 / 64) != die) } }
    else h
  else if off = 0x4024 then if ladleExpert h then regPut h die off nw else h
  else regPut h die off nw

/-- Whether no link of a mask is trained (R135). -/
def untrained (h : Hub) (mask : Nat) : Bool := !((bitList mask 8).any (linkTrained h))

/-- Whether a geometry write changes what entries are placed by. -/
def reshapes (old nw : Nat) : Bool :=
  bits old 22 22 != bits nw 22 22 || bits old 15 12 != bits nw 15 12 || bits old 9 5 != bits nw 9 5 || bits old 20 16 != bits nw 20 16

/-- COH_SIEVE_STAT.ALLOT_ERR, on both dies: one geometry register serves both. -/
def allotErr (h : Hub) : Hub := regSetField (regSetField h 0 0x4074 31 31 1) 1 0x4074 31 31 1

/-- A write of COH_HOST_n_GEOM (R100, R135). -/
def applyGeom (n old nw : Nat) (h : Hub) : Hub :=
  if !(untrained h (Nat.lor (bits old 31 24) (bits nw 31 24))) || decide (8 < bits nw 15 12) then h
  else if bitOf nw 23 && decide (786432 < allotment h n nw (twinGeom h)) then allotErr h
  else
    let h := regPut h 0 (0x4050 + 4 * n) nw
    if bitOf old 23 && (!(bitOf nw 23) || reshapes old nw) then { h with sieve := h.sieve.filter (fun e => e.host != n) } else h

/-- A write of COH_TWIN_GEOM (R100, R135). -/
def applyTwinGeom (old nw : Nat) (h : Hub) : Hub :=
  if linkTrained h 7 || decide (8 < bits nw 15 12) then h
  else if bitOf nw 23 && decide (786432 < allotment h 7 0 nw) then allotErr h
  else
    let h := regPut h 0 0x406C nw
    if bitOf old 23 && (!(bitOf nw 23) || reshapes old nw) then { h with twin := { h.twin with proxy := [] } } else h

/-- Coherence. -/
def applyCohReg (die off old nw : Nat) (opn : Bool) (h : Hub) : Hub :=
  if 0x4050 ≤ off ∧ off < 0x406C then if opn then applyGeom ((off - 0x4050) / 4) old nw h else h
  else if off = 0x406C then if opn then applyTwinGeom old nw h else h
  else regPut h die off nw

/-- FS_STAT.HK_ERR. -/
def hkErr (h : Hub) : Hub := regSetField h 0 0x4120 3 3 1

/-- The frame period that will be in force from the next tick. -/
def nextPeriod (h : Hub) : Nat := regField h 0 0x4108 15 0

/-- A write of FS_PERIOD (R175, R188, R191). -/
def applyPeriod (nw : Nat) (h : Hub) : Hub :=
  let p := bits nw 15 0
  if p < 4000 ∨ 40000 < p then h
  else
    let adm := admits h (sdSum h) p
    let hk := hkHolds h (whiskFloor h).1 (whiskFloor h).2 p (hkPct h)
    if adm && hk then regPut h 0 0x4108 nw
    else
      let h := if adm then h else regSetField h 0 0x4120 4 4 1
      if hk then h else hkErr h

/-- A write of FS_CFG under expert control (R191, R198). -/
def applyFsCfg (old nw : Nat) (h : Hub) : Hub :=
  let pct := bits nw 3 0
  if pct < 1 ∨ 10 < pct then regPut h 0 0x4100 (putBits nw 3 0 (bits old 3 0))
  else if hkHolds h (whiskFloor h).1 (whiskFloor h).2 (nextPeriod h) pct then regPut h 0 0x4100 nw
  else hkErr h

/-- The Frame Sequencer (R175, R177, R188, R198). -/
def applyFrameReg (off old nw : Nat) (opn : Bool) (h : Hub) : Hub :=
  let expert := bitOf (regGet h 0 0x4100) 31
  if off = 0x4100 then if expert then applyFsCfg old nw h else h
  else if off = 0x4104 then
    if opn then setFs (fun f => { f with srcWritten := true }) (regPut h 0 off nw) else h
  else if off = 0x4108 then if opn then applyPeriod nw h else h
  else if off = 0x4128 then if expert then regPut h 0 off nw else h
  else regPut h 0 off nw

/-- The Whisk (R191, R239) and the correction threshold. -/
def applyWhiskReg (off nw : Nat) (h : Hub) : Hub :=
  let a := bits nw 31 16
  let m := bits nw 15 0
  if off = 0x41C0 then
    if !(hkHolds h a m (nextPeriod h) (hkPct h)) || decide (regField h 0 0x41C4 31 16 < a) || decide (regField h 0 0x41C4 15 0 < m)
    then hkErr h else regPut h 0 off nw
  else if off = 0x41C4 then
    if a < (whiskFloor h).1 ∨ m < (whiskFloor h).2 then h else regPut h 0 off nw
  else if off = 0x41C8 then if whiskExpert h then regPut h 0 off nw else h
  else regPut h 0 off nw

/-- The witness: WIT_CTL (R256). -/
def applyWitReg (off nw : Nat) (h : Hub) : Hub :=
  if off = 0x4300 then
    let h := regPut h 0 off (bits nw 0 0)
    if bitOf nw 1 then setLife (fun l => { l with witFaultN := false }) h else h
  else regPut h 0 off nw

/-- A write of MGR_m_CTL (R259). -/
def applyMgrCtl (m old nw : Nat) (h : Hub) : Hub :=
  let nw := if bitOf old 31 then putBits old 31 31 (bits nw 31 31) else nw
  let h := regPut h 0 (0x4400 + 0x20 * m) nw
  setIntPins (if bitOf nw 31 && !(bitOf old 31) then enableMgr m h else h)

/-- The managers' rings and the event rings (R259, R262). -/
def applyRingReg (die off old nw : Nat) (opn : Bool) (h : Hub) : Hub :=
  if !opn then h
  else if off < 0x4480 then
    let m := (off - 0x4400) / 0x20
    if (off - 0x4400) % 0x20 = 0 then applyMgrCtl m old nw h
    else if bitOf (mgrCtl h m) 31 then h else regPut h die off nw
  else if off = 0x4490 then
    if bitOf old 0 then regPut h die off (putBits old 0 0 (bits nw 0 0)) else regPut h die off nw
  else if off = 0x4494 then if bitOf (regGet h die 0x4490) 0 then h else regPut h die off nw
  else regPut h die off nw

/-- Monitoring (R364, R365, R374); PMU_CLR reads 0. -/
def applyMonReg (die off nw v : Nat) (h : Hub) : Hub :=
  if off = 0x4900 then
    let h := regPut h die off nw
    { h with pmu := bupd h.pmu die {} (fun p => { p with winLeft := none }) }
  else if off = 0x4904 then
    let h := if v.testBit 8 then clearCyc die h else h
    clearCnt die (bits v 7 0) h
  else if off = 0x4960 then { regPut h die off nw with bwLeft := 0 }
  else if 0x4910 ≤ off ∧ off < 0x4950 then regPut (keepSel die ((off - 0x4910) / 8) h) die off nw
  else regPut h die off nw

/-- The Mover's rings (R281, MOV_RING_p_CTL.WEIGHT). -/
def applyMovReg (off old nw : Nat) (h : Hub) : Hub :=
  let p := (off - 0x5400) / 16
  match off % 16 with
  | 8 => regPut h 0 off (if bitOf (regGet h 0 0x4484) 31 then nw else putBits nw 19 16 (bits old 19 16))
  | _ => if (part h p).st == .active then h else regPut h 0 off nw

/-- The write of a register of the control block or the block registers that is no pair. -/
def applyReg (die off old nw v : Nat) (opn : Bool) (h : Hub) : Hub :=
  if off < 0x4000 then applyControl die off nw opn h
  else if off < 0x4040 then applyCacheReg die off nw h
  else if off < 0x4100 then applyCohReg die off old nw opn h
  else if off < 0x4180 then applyFrameReg off old nw opn h
  else if off < 0x4200 then applyWhiskReg off nw h
  else if off < 0x4400 then applyWitReg off nw h
  else if off < 0x4500 then applyRingReg die off old nw opn h
  else if 0x4600 ≤ off ∧ off < 0x4800 then if opn && off % 64 == 0 then writeLinkCtl ((off - 0x4600) / 64) nw h else h
  else if 0x4900 ≤ off ∧ off < 0x5000 then applyMonReg die off nw v h
  else if 0x5400 ≤ off ∧ off < 0x5800 then applyMovReg off old nw h
  else regPut h die off nw

/-- A write ordered while no pair is pending. -/
def writePlain (die off v : Nat) (h : Hub) : Hub :=
  if off = 0x24 then writeKey die v h
  else if isWp off then
    if lidOpen h die then setLid die (fun _ => { pair := some (off, BitVec.ofNat 32 v, h.now) }) h else lidErr die 2 h
  else if isPort off then if lidOpen h die then closeLid die h else lidErr die 2 h
  else match findRow off with
    | none => h
    | some r =>
      if !(onWindow die off) then h
      else
        let opn := lidOpen h die
        let h := if r.fields.any (fun f => f.acc == .wk) then (if opn then closeLid die h else lidErr die 2 h) else h
        let old := regGet h die off
        applyReg die off old (mergeWord r opn old v) v opn h

/-- A write ordered to the control block or the block registers of a die (R381, R386 to R388). -/
def writeBlock (die off v : Nat) (h : Hub) : Hub :=
  let h := tidyLid die h
  match (lid h die).pair with
  | none => writePlain die off v h
  | some (x, w, _) =>
    if off = x + 4 ∧ v = w.toNat ^^^ 0xFFFFFFFF then commitPair die x w.toNat (setLid die (fun l => { l with pair := none }) h)
    else
      let h := dropPair die h
      if isWp off || isPort off then h else writePlain die off v h

/-! ### Reads -/

/-- What a read of a register clears (R385, R390). -/
def afterRead (die off : Nat) (h : Hub) : Hub :=
  match findRow off with
  | none => h
  | some r =>
    let m := r.maskOf (fun a => a == .rc)
    if !(onWindow die off) then h
    else if 0x100 ≤ off ∧ off < 0x300 then
      let k := (off - 0x100) / 0x80
      let b := mbox h die k
      if b.valid && off % 0x80 == 4 + 4 * b.words.length then setMbox die k { b with valid := false } h else h
    else if m = 0 then h
    else
      let w := regGet h die off
      let h := regPut h die off (w - Nat.land w m)
      if off = 0x4480 then setIntPins h else h

/-- A direct read of a register of the control block or the block registers. -/
def readBlock (die off : Nat) (h : Hub) : Nat × Hub :=
  let h := tidyLid die h
  if isPort off then (regValue h die (off - 4) ^^^ 0xFFFFFFFF, h) else (regValue h die off, afterRead die off h)

/-! ### Bit aliases (R382 to R384) -/

/-- Register of a bit's byte, and the bit's place in it. -/
def aliasReg (byte : Nat) : Nat := byte / 4 * 4
def aliasBit (byte bit : Nat) : Nat := byte % 4 * 8 + bit

/-- Whether a register's aliases read 0 and ignore writes: LID_KEY and every mailbox register (R384). -/
def aliasDead (off : Nat) : Bool := off == 0x24 || (decide (0x100 ≤ off) && decide (off < 0x300))

/-- The field of a register that a bit lies in. -/
def fieldOfBit (off j : Nat) : Option RegField := (findRow off).bind (fun r => r.fields.find? (fun f => decide (f.lo ≤ j) && decide (j ≤ f.hi)))

/-- A read of a bit's alias: the bit, which a clear-on-read bit then loses. -/
def readAlias (die byte bit : Nat) (h : Hub) : Nat × Hub :=
  let off := aliasReg byte
  let j := aliasBit byte bit
  let h := tidyLid die h
  if aliasDead off then (0, h)
  else if isPort off then (b2n !(bitOf (regValue h die (off - 4)) j), h)
  else
    let v := b2n (bitOf (regValue h die off) j)
    match fieldOfBit off j with
    | some f => if f.acc == .rc then (v, regSetField h die off j j 0) else (v, h)
    | none => (v, h)

/-- Whether a register holds a WK or WP field. -/
def holdsKey (off : Nat) : Bool := (findRow off).any (fun r => r.fields.any (fun f => f.acc == .wk || f.acc == .wp))

/-- The write of one bit by its field's access code; `opn` says whether the Lid was open. -/
def aliasWrite (die off j : Nat) (opn x : Bool) (h : Hub) : Hub :=
  match fieldOfBit off j with
  | none => h
  | some f =>
    match f.acc with
    | .rw => regSetField h die off j j (b2n x)
    | .rc => if x then h else regSetField h die off j j 0
    | .wk => if opn then applyReg die off (regGet h die off) (setBit (regGet h die off) j x) 0 true h else lidErr die 2 h
    | .wp => lidErr die 3 h
    | _ => h

/-- A write to a bit's alias: one access to its register (R384), so a pending pair is discarded and a register with a WK or WP field closes the
Lid. -/
def writeAlias (die byte bit : Nat) (x : Bool) (h : Hub) : Hub :=
  let off := aliasReg byte
  let h := tidyLid die h
  let h := if (lid h die).pair.isSome then dropPair die h else h
  let opn := lidOpen h die
  let h := if holdsKey off then closeLid die h else h
  if aliasDead off then h else if isPort off then lidErr die 3 (closeLid die h) else aliasWrite die off (aliasBit byte bit) opn x h

/-! ### The window (R377, R378, R380) -/

/-- CB_ACC's check of an access (R380). -/
def cbAllows (h : Hub) (l pid : Nat) : Bool :=
  let w := regGet h 0 0x18
  bitOf w (24 + l) && (!(bitOf w 6) || bits w 5 0 == pid
    || (List.range 4).any (fun m => bitOf (mgrCtl h m) 31 && bits (mgrCtl h m) 5 0 == pid))

/-- A doorbell write to a manager's page (R260 to R262). -/
def managerPage (die m o l pid v : Nat) (h : Hub) : Nat × Hub :=
  let door := fun (f : Hub → Hub) => if mgrDoorOk h m l pid then (0, f h) else (3, h)
  if o = 0 then door (doorCmd m v)
  else if o = 4 then door (doorCpl m v)
  else if o = 0x10 ∧ m = 0 then door (doorEvt die v)
  else (0, h)

/-- A write to a partition's page (R260, R367). -/
def partitionPage (p o pid v : Nat) (h : Hub) : Nat × Hub :=
  if o < 0x400 then (3, h)
  else if o = 0xF00 then (if pid = p ∧ (part h p).st == .active then (0, doorMov p v h) else (3, h))
  else (0, h)

/-- A 4-byte write at an offset of a die's window that R289 has admitted: link status, and the hub after it. -/
def windowWrite (die off l pid v : Nat) (h : Hub) : Nat × Hub :=
  if off < 0x10000 then if cbAllows h l pid then (0, writeBlock die off v h) else (3, h)
  else if off < 0x14000 then managerPage die ((off - 0x10000) / 0x1000) (off % 0x1000) l pid v h
  else if off < 0x24000 then
    if off % 0x1000 = 0 then
      match writeSeal ((off - 0x14000) / 0x1000) l pid v h with
      | (true, h) => (0, h)
      | (false, h) => (3, h)
    else (0, h)
  else if off < 0x63000 then partitionPage ((off - 0x24000) / 0x1000 + 1) (off % 0x1000) pid v h
  else if off < 0x80000 then (0, h)
  else if cbAllows h l pid then (0, writeAlias die ((off - 0x80000) / 32) ((off - 0x80000) % 32 / 4) (v.testBit 0) h)
  else (3, h)

/-- A read of 4 or 8 bytes at an offset of a die's window that R289 has admitted: the value, and the hub after it. -/
def windowRead (die off size l pid : Nat) (h : Hub) : Nat × Hub :=
  if off < 0x10000 then if cbAllows h l pid then readBlock die off h else (0, h)
  else if off < 0x14000 then (0, h)
  else if off < 0x24000 then (sealRead h ((off - 0x14000) / 0x1000) (off % 0x1000), h)
  else if off < 0x63000 then
    (if off % 0x1000 < 0x400 then pageRead h ((off - 0x24000) / 0x1000 + 1) (off % 0x1000) size pid else 0, h)
  else if off < 0x80000 then (0, h)
  else if cbAllows h l pid then readAlias die ((off - 0x80000) / 32) ((off - 0x80000) % 32 / 4) h
  else (0, h)

/-- Whether an access has a size and place that R378 allows. -/
def windowSize (read : Bool) (off size : Nat) : Bool :=
  (size == 4 && off % 4 == 0)
    || (read && size == 8 && off % 8 == 0 && decide (0x24000 ≤ off) && decide (off < 0x63000) && decide (off % 0x1000 < 0x400))

/-- The answer to an access of a die's window; its data crosses the Seam where the link is the other die's (R28). -/
def cfgReply (r : Req) (die : Nat) (m : Msg) (h : Hub) : Hub :=
  let h := if dieOfLink r.link != die && !m.data.isEmpty then pmu 0x1D die m.data.length { pid := some r.pid, cls := some r.cls } h else h
  sendMsg r.link (replyTo r m) h

/-- Whether a request is admitted to a window (R289), and in PARKING whether it reads the control block (R406). -/
def cfgAdmits (r : Req) (off : Nat) (h : Hub) : Bool :=
  r.admitted && (h.life.phase != .parking || ((r.op == 0x13 || r.op == 0x14) && decide (off < 0x4000)))

/-- A request to a CFG address: offset `off` of a die's window (R60, R107, R124, R171, R289, R378, R406). -/
def cfgAccess (r : Req) (die off : Nat) (h : Hub) : Hub :=
  let read := r.op == 0x13 || r.op == 0x14
  let write := r.op == 0x22 || r.op == 0x23
  if !(cfgAdmits r off h) then refuse r 3 (if r.admitted then h else countDeny r.pid h)
  else if !(read || write) || !(windowSize read off r.size) || (write && !(r.mask.all id)) then refuse r 2 h
  else if read then
    let (v, h) := windowRead die off r.size r.link r.pid h
    cfgReply r die { op := 0xA2, data := slotData off (toBytes r.size v) } h
  else
    let (st, h) := windowWrite die off r.link r.pid (ofBytes (r.data.take 4)) h
    cfgReply r die { op := 0xA1, lstat := st } h

/-- A request that reaches a die's window: one that crosses the Seam to a die in warm reset is held there (R25). -/
def cfgArrive (r : Req) (h : Hub) : Hub :=
  let o := r.addr - r.ent.base * unit2M
  let die := b2n (bitOf o 20)
  if (bfind h.life.warm die).isSome && dieOfLink r.link != die then
    if r.uid = 0 then putWaiting .seam { r with uid := h.nextId } { h with nextId := h.nextId + 1 } else putWaiting .seam r h
  else cfgAccess r die (o % 2 ^ 20) h

/-- Die that a request held at the Seam waits for. -/
def seamDie (r : Req) : Nat := if r.ent.typ = .cfg then b2n (bitOf (r.addr - r.ent.base * unit2M) 20) else homeDie r.addr

/-- What a die's warm reset held at the Seam is served, in the order of its arrival (R25, R28). -/
def releaseSeam (die : Nat) (h : Hub) : Hub :=
  let rs := (h.waiting.filter (fun w => w.why == .seam && seamDie w.req == die)).map Waiting.req
  settle (forEach rs (fun r h =>
    let h := { h with waiting := delFirst (fun w => w.req == r) h.waiting }
    if r.ent.typ == .cfg then cfgArrive r h else again r h) h)

/-- WARM_RESET_DONE (R413): the die has completed its reset, and what the Seam held for it goes on. -/
def effWarmResetServed (die : Nat) (h : Hub) : Hub :=
  let h' := effWarmResetDone die h
  if (bfind h.life.warm die).isSome && (bfind h'.life.warm die).isNone then releaseSeam die h' else h'

/-! ### The rows of the opcode table that name one register access -/

/-- The request of a register access: RD_ONCE or WR_PART of 4 bytes (log entry 1). -/
def accReq (a : RegAcc) (off : Nat) (v : Option Word32) (h : Hub) : Req :=
  let e := ((h.rmap.find? (fun e => e.2.typ == .cfg && e.2.here h)).map (fun (e : Nat × REntry) => e.2)).getD { typ := .cfg }
  { op := if v.isSome then 0x22 else 0x13, link := a.link.toNat, host := hostOfLink h a.link.toNat, pid := a.pid.toNat, stream := a.stream.toNat,
    tag := a.tag.toNat, vc := a.vc, addr := e.base * unit2M + a.die.toNat * 2 ^ 20 + off, size := 4, ent := e,
    data := toBytes 4 ((v.map BitVec.toNat).getD 0), mask := List.replicate 4 true, at_ := h.now,
    admitted := admitted h a.link.toNat a.pid.toNat a.stream.toNat }

/-- A write of one register through a die's window, as its own row: nothing comes over a link that is not trained. -/
def regWrite (a : RegAcc) (off : Nat) (v : Word32) (h : Hub) : Hub :=
  if linkTrained h a.link.toNat then cfgArrive (accReq a off (some v) h) h else h

/-- A read of one register through a die's window. -/
def regRead (a : RegAcc) (off : Nat) (h : Hub) : Hub :=
  if linkTrained h a.link.toNat then cfgArrive (accReq a off none h) h else h

/-- Rows that stand for a write at a manager's page, a seal page or a partition's page. -/
def managerOff (m : BitVec 2) (o : Nat) : Nat := 0x10000 + 0x1000 * m.toNat + o
def sealOff (w : BitVec 4) (o : Nat) : Nat := 0x14000 + 0x1000 * w.toNat + o
def pageOff (p : BitVec 6) (o : Nat) : Nat := 0x23000 + 0x1000 * p.toNat + o

end Sys2Proof.Machine
end

