-- ==== Sys2Proof/Machine/Side.lean ====
section
/-! DEFINITION. The sideband pins that commands reach without a link: the I3C target (R432) and the test access port (R433). -/

namespace Sys2Proof.Machine

/-- The hub with its sideband state changed. -/
def setSide (f : Side → Side) (h : Hub) : Hub := { h with side := f h.side }

/-- Table: I3C registers; other indexes read 0. -/
def i3cValue (h : Hub) (index : Nat) : Nat :=
  match index with
  | 0 => regValue h 0 0x00
  | 1 => regValue h 0 0x04
  | 2 => regValue h 0 0x0C
  | 3 => regValue h 0 0x6808
  | 4 => regValue h 0 0x2C
  | 5 => regValue h 1 0x2C
  | 6 => regValue h 0 0x4304
  | _ => 0

/-- I3C_READ: the 4-byte value of the index is returned, and nothing is cleared. The target answers from PWR_GOOD on. -/
def effI3cRead (index : Nat) (h : Hub) : Hub :=
  if h.life.resetLow then h else setSide (fun s => { s with i3cOut := some (BitVec.ofNat 32 (i3cValue h index)) }) h

/-- I3C_DYNAMIC_ADDRESS: SETDASA or ENTDAA gives the target its address. -/
def effI3cDynamicAddress (addr : Nat) (h : Hub) : Hub :=
  if h.life.resetLow then h else setSide (fun s => { s with i3cDyn := some addr }) h

/-- Instruction loaded in the test access port: 0 IDCODE (which IEEE 1149.1 loads at the port's reset; PRESUMED, log entry 25), 1 BYPASS,
2 SAMPLE/PRELOAD, 3 EXTEST, 4 EXTEST_PULSE, 5 EXTEST_TRAIN. -/
def loadTap (code : Nat) (out : Option Word32) (h : Hub) : Hub := setSide (fun s => { s with tapInstr := code, tapOut := out }) h

/-- BYPASS: the one-bit bypass register, which captures 0, is selected. -/
def effBypass (h : Hub) : Hub := loadTap 1 (some 0#32) h

/-- IDCODE: the identification code is selected. -/
def effIdcode (h : Hub) : Hub := loadTap 0 (some Config.idcode) h

/-- SAMPLE/PRELOAD: the boundary register is selected; its cells are not in the spec (log entry 25). -/
def effSamplePreload (h : Hub) : Hub := loadTap 2 none h

/-- The boundary tests, which the port takes only while RESET_N is low, and loads BYPASS in their place at other times. -/
def extestOr (code : Nat) (h : Hub) : Hub := if h.life.resetLow then loadTap code none h else effBypass h

end Sys2Proof.Machine
end

