-- ==== Sys2Proof/Machine/Operands.lean ====
section
/-! DEFINITION. The operands of a link request as its row gives them: sizes and data slots that Table: Linlek messages allows (R331), the message
and the request that its header spells (R157, R330), its write bytes and byte enables. -/

namespace Sys2Proof.Machine

/-! ### Sizes and data slots (R331) -/

/-- Whether a request's LEN is the granule of its host. A host without a cache has no granule: either may be named (R336, log entry 26). -/
def lenIsGranule (h : Hub) (host len : Nat) : Bool :=
  if host = 8 then len == 6 || len == 7 else 2 ^ len == granOf h host

/-- Whether Table: Linlek messages allows an opcode's LEN. Notices name the granule they concern (DEDUCED, log entry 26). -/
def lenOk (h : Hub) (host op len : Nat) : Bool :=
  if op = 0x11 ∨ op = 0x12 ∨ op = 0x15 ∨ op = 0x16 ∨ op = 0x21 ∨ op = 0x31 ∨ op = 0x32 ∨ op = 0x33 ∨ op = 0x34 then lenIsGranule h host len
  else if op = 0x24 then len == 7
  else if op = 0x25 ∨ op = 0x26 then decide (len ≤ 4)
  else decide (len ≤ 7)

/-- Data slots that Table: Linlek messages gives an opcode. -/
def tableSlots (op len sub : Nat) : Nat :=
  if op = 0x21 ∨ op = 0x32 ∨ op = 0x33 then 2 ^ len / 16
  else if op = 0x22 ∨ op = 0x23 then (if len ≤ 4 then 1 else if len = 5 then 2 else 1 + 2 ^ len / 16)
  else if op = 0x25 then (if sub = 5 then 2 else 1)
  else if op = 0x26 then 1
  else 0

/-- Whether an opcode names no address: ADDR and LEN are ignored (R331). -/
def noAddr (op : Nat) : Bool := op == 0x39 || op == 0x3A

/-- Whether an ATOMIC's code is one this link may use (R121, R335). -/
def atomicOk (rev11 : Bool) (sub : Nat) : Bool := decide (sub < 6) || (rev11 && decide (sub < 10))

/-! ### Write bytes and enables -/

/-- Bytes that a request writes, from its data slots (R322, R331): a short write lies at its address's offset in its slot, a wide
partial one follows its byte enables, an ATOMIC or ST_COND keeps its slots. -/
def writeBytes (op addr len : Nat) (d : List Byte) : List Byte :=
  if op = 0x24 then List.replicate 128 0#8
  else if op = 0x25 ∨ op = 0x26 then d
  else if op = 0x22 ∨ op = 0x23 then
    if len < 4 then slice (fitBytes 16 d) (addr % 16) (2 ^ len)
    else if len ≤ 5 then fitBytes (2 ^ len) d
    else fitBytes (2 ^ len) (d.drop 16)
  else if tableSlots op len 0 = 0 then []
  else fitBytes (2 ^ len) d

/-- Byte enables of a request's write bytes: bit i of the mask slot for byte i where LEN is 6 or 7 (R331), else all. -/
def writeMask (op len : Nat) (d : List Byte) : List Bool :=
  if (op = 0x22 ∨ op = 0x23) ∧ 6 ≤ len then (List.range (2 ^ len)).map (fun i => (ofBytes (d.take 16)).testBit i)
  else if tableSlots op len 0 = 0 ∧ op ≠ 0x24 then []
  else List.replicate (2 ^ len) true

/-! ### Messages and requests -/

/-- The message that a request row spells. -/
def reqMsg (op : Nat) (q : ReqHdr) (d : List Byte) : Msg :=
  { op := op, vc := q.vc, cls := q.cls.toNat, pid := q.pid.toNat, stream := q.stream.toNat, tag := q.tag.toNat, addr := q.addr.toNat,
    len := q.len.toNat, hway := q.hway.toNat, sub := q.sub.toNat, data := d }

/-- The message that a response row of the twin spells. -/
def rspMsg (op : Nat) (r : RspHdr) (d : List Byte) : Msg :=
  { op := op, vc := r.vc, lstat := r.lstat.toNat, stream := r.stream.toNat, tag := r.tag.toNat, state := r.state.toNat,
    reason := r.reason.toNat, declined := r.declined, pass := r.pass, data := d }

/-- The message that a snoop row of the twin spells. -/
def snpMsg (op : Nat) (s : SnpHdr) : Msg :=
  { op := op, vc := s.vc, snpid := s.snpid.toNat, addr := s.addr.toNat, size128 := s.size128 }

/-- The request that a message accepted on a link makes (R157). -/
def reqOf (l uid : Nat) (m : Msg) (h : Hub) : Req :=
  { op := m.op, link := l, host := hostOfLink h l, pid := m.pid, cls := m.cls, carried := m.cls, stream := m.stream, tag := m.tag, vc := m.vc,
    addr := m.addr, size := 2 ^ m.len, hway := m.hway, sub := m.sub, data := writeBytes m.op m.addr m.len m.data,
    mask := writeMask m.op m.len m.data, at_ := m.at_, uid := uid, admitted := m.adm }

end Sys2Proof.Machine
end

