-- ==== Sys2Proof/Machine/Flags.lean ====
section
/-! DEFINITION. The status a received message leaves: link error counts (R326, R331), and the link status with which a request is answered before
it is performed (R121, R211, R289, R331). -/

namespace Sys2Proof.Machine

/-- Link status OK (Table: Response header). -/
def lstatOk : Nat := 0

/-- Link status DATA_ERROR. -/
def lstatDataError : Nat := 1

/-- Link status ADDR_ERROR. -/
def lstatAddrError : Nat := 2

/-- Link status DENIED. -/
def lstatDenied : Nat := 3

/-- A request of a class other than S on VC1 is counted in LINK_n_ERR.VC_ERR (R326). -/
def countVcErr (l : Nat) (m : Msg) (h : Hub) : Hub := if m.vc && m.cls != 0 then linkCount l 1 0 h else h

/-- An OPCODE not in the table: discarded, counted in PROTO_CNT and recorded (R331). -/
def protoDiscard (l op : Nat) (h : Hub) : Hub := record 0x62 2 9 (dieOfLink l) 0 (l + 8 * op) (linkCount l 3 2 h)

/-- The link status with which Table: Linlek messages and R121 refuse a request on sight; OK where they let it pass. -/
def formStatus (h : Hub) (r : Req) (len dslots : Nat) : Nat :=
  if noAddr r.op then (if dslots = 0 then lstatOk else lstatDenied)
  else if r.op = 0x3B then (if dslots = 0 then lstatOk else lstatDenied)
  else if !(lenOk h r.host r.op len) || dslots != tableSlots r.op len r.sub then lstatDenied
  else if r.op = 0x25 && !(atomicOk (link h r.link).rev11 r.sub) then lstatDenied
  else if r.addr % r.size ≠ 0 then lstatAddrError
  else lstatOk

/-- Whether PARKING leaves a request without admission, as it does every request but a read of the control block (R406). -/
def parkingBars (h : Hub) : Bool := h.life.phase == .parking

/-- Whether a write from a link to a KETTLE region reaches a block that its partition has not been granted (R296). -/
def kettleBars (h : Hub) (e : REntry) (r : Req) : Bool :=
  let k := part h r.pid
  e.typ == .kettle && writesLine r.op && r.pid != 0
    && !(decide (k.kbase * 65536 ≤ e.off r.addr) && decide (e.off r.addr + r.size ≤ (k.kbase + k.kcount) * 65536))

end Sys2Proof.Machine
end

