-- ==== Sys2Proof/Machine/Requests.lean ====
section
/-! DEFINITION. What a message taken in from a link does (R157, R330 to R336): requests from their acceptance to their home (R163, R170, R211,
R289, R326, R331), answers of hosts to snoops (R149), and the messages that the twin sends (R132 to R134). -/

namespace Sys2Proof.Machine

/-! ### Taking a message in -/

/-- A message less its acceptance, the header bits that its opcode does not use, and its data where the row names none. -/
def Msg.plain (withData : Bool) (m : Msg) : Msg :=
  let m := { m with uid := 0, at_ := 0, adm := false, data := if withData then m.data else [] }
  if m.op = 0x91 then { m with passed := false } else if m.op = 0x92 then { m with wbPending := false } else m

/-- Takes the row's message from the link: the oldest one that its flits delivered where it is that message, with its credit owed back (R328),
else one that comes whole over a trained link (log entry 1). Answers the message with its data slots, the number of its acceptance (R157)
and the hub; none where nothing comes. -/
def takeIn (l : Nat) (m : Msg) (withData : Bool) (h : Hub) : Option (Msg × Nat × Hub) :=
  let bump := { h with nextId := h.nextId + 1 }
  let whole := if linkTrained h l then some ({ m with at_ := h.now, adm := admitted h l m.pid m.stream }, h.nextId, bump) else none
  match (link h l).inbox with
  | [] => whole
  | x :: rest =>
    if x.plain withData == m.plain withData then
      some (x, x.uid, oweCredit l (if chanOf x.op = 0 then x.uid else 0) x.pool (1 + x.dslots) (setLink h l (fun k => { k with inbox := rest })))
    else whole

/-- A message taken in whose OPCODE the link lists (R331, R335), handed on; another is discarded. -/
def onListed (l : Nat) (m : Msg) (withData : Bool) (f : Msg → Nat → Hub → Hub) (h : Hub) : Hub :=
  match takeIn l m withData h with
  | none => h
  | some (x, uid, h) => if listedOp h l m.op then f x uid h else protoDiscard l m.op h

/-! ### Requests without an address -/

/-- Acceptances of the writes in a FENCE's scope that are not yet globally visible (R163). -/
def fenceWaits (r : Req) (h : Hub) : List Nat :=
  let open_ := (h.txns.filter (fun t => t.ph != .closing)).map Txn.req ++ h.waiting.map Waiting.req ++ h.recov.flatMap Recovery.held
    ++ (h.twin.reqs.filter (fun q => q.ph != 3)).map TwinReq.req
  let mine := fun (q : Req) => q.src == .link && fenceWrite q.op
    && (if r.sub = 0 then q.link == r.link && q.stream == r.stream
        else if r.sub = 1 then q.link == r.link
        else q.pid == r.pid && decide (q.at_ < r.at_))
  let taken := h.links.flatMap (fun k => k.2.inbox.filter (fun m => r.sub == 2 && fenceWrite m.op && m.pid == r.pid && decide (m.at_ < r.at_)))
  (open_.filter mine).map Req.uid ++ taken.map Msg.uid

/-- FENCE (R163, R164): refused scopes are answered DENIED; another is acknowledged when every write in its scope is visible. -/
def fence (r : Req) (h : Hub) : Hub :=
  if 3 ≤ r.sub ∨ (r.sub = 2 ∧ (link h r.link).rev11 = false) then refuse r lstatDenied h
  else
    let t : Txn := { id := h.nextId, req := r, lo := 0, n := 0, ph := .ready, crossed := fenceWaits r h }
    settle { h with txns := h.txns ++ [t], nextId := h.nextId + 1 }

/-- PF_HINT of an admitted request (R87): misaligned ones cannot be answered and do nothing. -/
def hint (r : Req) (h : Hub) : Hub :=
  if r.addr % 128 ≠ 0 ∨ parkingBars h = true then h
  else match rmapFind h r.addr with
    | none => h
    | some (_, e) => hintLines r.addr (r.sub % 32 + 1) r.pid (max r.cls e.cls) h

/-! ### Requests with an address -/

/-- Opcodes charged at acceptance (Table: Charges). -/
def chargedOp (op : Nat) : Bool :=
  op == 0x11 || op == 0x12 || op == 0x13 || op == 0x14 || op == 0x15 || op == 0x16 || op == 0x33 || (writesLine op && decide (op < 0x33))

/-- The class a request is served at and its charge (R184, R185, R211, R289): one not admitted is served at class B and charged nothing. -/
def classify (e : REntry) (r : Req) (adm : Bool) (h : Hub) : Req × Hub :=
  if !adm then ({ r with cls := 3, carried := 3, admitted := false }, h)
  else
    let c := max r.cls e.cls
    if chargedOp r.op then
      let (c', h) := chargeRequest r.addr r.pid c (if writesLine r.op && e.mirror && e.typ.isMain then 256 else 128) r.link h
      ({ r with cls := c', carried := c }, h)
    else ({ r with cls := c, carried := c }, h)

/-- Whether a request is a notice, or castout data. -/
def isNotice (op : Nat) : Bool := op == 0x31 || op == 0x32 || op == 0x33 || op == 0x34

/-- A request homed on this hub goes to its slice (R14, R60, R107, R142, R147). -/
def toSlice (e : REntry) (r : Req) (adm : Bool) (h : Hub) : Hub :=
  if isNotice r.op && (r.host == 8 || !e.typ.sieve) then violate (r.addr / 64 * 64) (max 64 r.size) h
  else if kettleBars h e r then refuse r lstatDenied h
  else
    let (r, h) := classify e r adm h
    if r.op = 0x32 ∧ (link h r.link).rev11 = true then settle (castDataIn r h)
    else if isNotice r.op then settle (orderNotice r h)
    else present r h

/-- A request whose address is homed on the twin (R33, R133, R340). -/
def toPeer (r : Req) (h : Hub) : Hub :=
  if isNotice r.op && r.host == 8 then violate (r.addr / 64 * 64) (max 64 r.size) h
  else if r.op = 0x32 ∧ (link h r.link).rev11 = true then
    match toTwinCast r h with
    | some h => h
    | none => violate (r.addr / r.size * r.size) r.size h
  else toTwin r h

/-- Resolves a request's address (R211): no entry, a window of this hub, this hub, or the twin. -/
def route (r : Req) (adm : Bool) (h : Hub) : Hub :=
  match rmapFind h r.addr with
  | none => refuse r lstatAddrError h
  | some (_, e) =>
    let r := { r with ent := e }
    let h := seamBytes r (dieOfLink r.link) r.data.length h
    if !(e.here h) then toPeer r h
    else match e.typ with
      | .cfg =>
        if r.op = 0x13 ∨ r.op = 0x14 ∨ r.op = 0x22 ∨ r.op = 0x23 then
          cfgArrive r h
        else refuse r lstatAddrError h
      | _ => toSlice e r adm h

/-- Whether an address is one of this hub's windows, where PARKING is judged by the register (R406). -/
def atWindow (h : Hub) (a : Nat) : Bool :=
  match rmapFind h a with
  | some (_, e) => e.typ == .cfg && e.here h
  | none => false

/-- A request that is not admitted (Table: Requests not admitted). -/
def notAdmitted (r : Req) (h : Hub) : Hub :=
  if r.op = 0x33 ∨ r.op = 0x34 then route r false h
  else if r.op = 0x31 then declineCast r 1 (countOffer r h)
  else if r.op = 0x32 then (if (link h r.link).rev11 then route r false h else declineCast r 1 (countOffer r h))
  else refuse r lstatDenied h

/-- A request whose form the tables allow, from its admission on. -/
def admitReq (r : Req) (h : Hub) : Hub :=
  let ok := r.admitted
  let h := if ok then h else countDeny r.pid h
  if r.op = 0x39 then fence r h
  else if r.op = 0x3A then clearResv r.link r.stream (r.sub.testBit 0) h
  else if r.op = 0x3B then (if ok then hint r h else h)
  else if ok && (!(parkingBars h) || atWindow h r.addr) then route r true h
  else notAdmitted r h

/-- A request taken in (R326, R331, R169). -/
def request (r : Req) (len dslots : Nat) (h : Hub) : Hub :=
  match formStatus h r len dslots with
  | 0 => admitReq r h
  | st => refuse r st (if r.op = 0x26 ∧ st = lstatAddrError then releaseResv r.link r.stream h else h)

/-- A request row: its message is taken in and acted on. -/
def effRequest (op l : Nat) (q : ReqHdr) (d : List Byte) (withData : Bool) (h : Hub) : Hub :=
  onListed l (reqMsg op q d) withData (fun x uid h => request (reqOf l uid x h) x.len x.dslots (countVcErr l x h)) h

/-! ### Answers of hosts (R149, R154) -/

/-- The VC of the message at the head of a link's inbox (R326): the row of an answer or a management message does not repeat it. -/
def inboxVc (h : Hub) (l : Nat) (dflt : Bool) : Bool := ((link h l).inbox.head?.map Msg.vc).getD dflt

/-- Whether data of an answer is a whole granule of the snoop. -/
def answerSized (s : Snp) (d : List Byte) : Bool := d.length == s.size

/-- Finds the snoop or forward that an answer names and hands it on. An answer that names none outstanding at its host, or one already answered where
`once`, is a violation of no granule that the hub knows: it is discarded (R5, R149; DEDUCED, log entry 97). The late answer to a snoop that the hub
went on without means nothing (R136, R173). -/
def onSnoop (l id : Nat) (once : Bool) (f : Snp → Hub → Hub) (h : Hub) : Hub :=
  let host := hostOfLink h l
  match snpOf h host id with
  | none => { h with orphans := h.orphans.filter (· != (host, id)) }
  | some s => if once && !s.awaited then h else f s h

/-- SNP_RSP. Data of another size than the granule's is a violation by the host. -/
def effSnpRsp (l id st : Nat) (dirty wbp : Bool) (d : List Byte) (h : Hub) : Hub :=
  onListed l { op := 0x91, snpid := id, state := st, dirty := dirty, wbPending := wbp, vc := inboxVc h l true, data := d } true (fun _ _ h =>
    onSnoop l id true (fun s h =>
      if !d.isEmpty && !(answerSized s d) then twinSettle (settle (violate s.addr s.size h))
      else if isGroup h s then settle (groupRsp s st dirty wbp d h)
      else twinSettle (settle (answerSnp s st dirty wbp d h))) h) h

/-- FWD_DONE. -/
def effFwdDone (l id st : Nat) (dirty passed : Bool) (h : Hub) : Hub :=
  onListed l { op := 0x92, snpid := id, state := st, dirty := dirty, passed := passed, vc := inboxVc h l true } false (fun _ _ h =>
    onSnoop l id true (fun s h =>
      if isGroup h s then settle (groupFwd s st dirty passed h)
      else twinSettle (settle (answerFwd s st dirty passed h))) h) h

/-- DATA: a host's for a forward, or the twin's home's for a request of this hub (R109, R133). -/
def effData (l : Nat) (r : RspHdr) (id : Nat) (fromHome : Bool) (d : List Byte) (h : Hub) : Hub :=
  let m := { rspMsg 0x93 r d with snpid := id }
  let head := (link h l).inbox.head?
  let m' := match head with
    | some x => if fromHome then { m with snpid := x.snpid }
        else { m with vc := x.vc, lstat := x.lstat, stream := x.stream, tag := x.tag, state := x.state, reason := x.reason, declined := x.declined, pass := x.pass }
    | none => m
  onListed l m' true (fun _ _ h =>
    if fromHome then (if isTwinLink h l then twinAnswer r.stream.toNat r.tag.toNat (rspMsg 0x93 r d) h else protoDiscard l 0x93 h)
    else onSnoop l id false (fun s h =>
      if !(answerSized s d) then twinSettle (settle (violate s.addr s.size h))
      else if isGroup h s then settle (groupData s d h)
      else twinSettle (settle (routeData s d h))) h) h

/-! ### Messages of the twin (R132 to R134, R341) -/

/-- A row that takes in a message whose effect needs nothing but the row's operands. -/
def onMessage (l : Nat) (m : Msg) (withData : Bool) (f : Hub → Hub) (h : Hub) : Hub := onListed l m withData (fun _ _ h => f h) h

/-- A snoop or forward from the twin. -/
def effTwinSnoop (op l : Nat) (s : SnpHdr) (h : Hub) : Hub :=
  onMessage l (snpMsg op s) false (fun h => twinSnoop (op - 0x51) s.snpid.toNat s.addr.toNat (if s.size128 then 128 else 64) s.vc h) h

/-- A response from the twin. -/
def effTwinRsp (op l : Nat) (r : RspHdr) (d : List Byte) (h : Hub) : Hub :=
  onMessage l (rspMsg op r d) true (fun h => twinAnswer r.stream.toNat r.tag.toNat (rspMsg op r d) h) h

/-! ### Management messages -/

/-- TICK (R174, R178). -/
def effTickMsg (l frame : Nat) (h : Hub) : Hub :=
  onListed l { op := 0xC1, vc := inboxVc h l true, frame := frame } false (fun x _ h => effTick l x.at_ h) h

/-- LINK_CTL: KIND 0 SET_QUERY, 1 SET_REPORT (R131, R154). -/
def effLinkCtl (kind l qid hset : Nat) (d : List Byte) (h : Hub) : Hub :=
  onMessage l { op := 0xC3, vc := inboxVc h l true, kind := kind, qid := qid, hset := hset, data := d } true
    (if kind = 0 then effLinkCtlSetQuery l qid hset else effLinkCtlSetReport l qid hset d) h

end Sys2Proof.Machine
end

