-- ==== Sys2Proof/Machine/FrameEvents.lean ====
section
/-! DEFINITION. Meanings of commands: frame ticks, sub-frame steps, the steward, windows and timeouts (R174 to R198, R365, R374, R386, R387). Each is its row's effect on the hub; the queue stays as it is. -/

namespace Sys2Proof.Machine

/-- FTICK_EDGE (R174). An edge on a tick ball. -/
def execFtickEdge (ball : Bool) (falling : Bool) (s : State) : Host.Outcome State Fault Refusal :=
  liftHub (effFtickEdge ball falling) s

/-- INTERNAL_TIMER_TICK (R174). A tick of the internal timer. -/
def execInternalTimerTick (s : State) : Host.Outcome State Fault Refusal :=
  liftHub effInternalTimerTick s

/-- FRAME_TICK (R180). A frame begins. -/
def execFrameTick (s : State) : Host.Outcome State Fault Refusal :=
  liftHub effFrameTick s

/-- SYNTHETIC_TICK (R176). A tick that did not come is made. -/
def execSyntheticTick (s : State) : Host.Outcome State Fault Refusal :=
  liftHub effSyntheticTick s

/-- TICK_FAILOVER (R177). The tick source fails over. -/
def execTickFailover (s : State) : Host.Outcome State Fault Refusal :=
  liftHub effTickFailover s

/-- SUBFRAME_STEP (R183). A sub-frame step begins. -/
def execSubframeStep (s : State) : Host.Outcome State Fault Refusal :=
  liftHub effSubframeStep s

/-- STEWARD_PASS (R197). The steward decides. -/
def execStewardPass (s : State) : Host.Outcome State Fault Refusal :=
  liftHub effStewardPass s

/-- STEWARD_PASS_DISCARD (R197). A steward pass that came too late is dropped. -/
def execStewardPassDiscard (s : State) : Host.Outcome State Fault Refusal :=
  liftHub effStewardPassDiscard s

/-- PMU_WINDOW_END (R365). A PMU window ends. -/
def execPmuWindowEnd (s : State) : Host.Outcome State Fault Refusal :=
  liftHub effPmuWindowEnd s

/-- BW_WINDOW_END (R374). A bandwidth window ends. -/
def execBwWindowEnd (s : State) : Host.Outcome State Fault Refusal :=
  liftHub effBwWindowEnd s

/-- HISTORY_FOLD (R351). The event history is folded into the Ledger. -/
def execHistoryFold (s : State) : Host.Outcome State Fault Refusal :=
  liftHub effHistoryFold s

/-- LID_TIMEOUT (R386). The Lid closes by itself. -/
def execLidTimeout (die : BitVec 1) (s : State) : Host.Outcome State Fault Refusal :=
  liftHub (effLidTimeout die.toNat) s

/-- PAIR_TIMEOUT (R387). A pair write's time has passed. -/
def execPairTimeout (die : BitVec 1) (s : State) : Host.Outcome State Fault Refusal :=
  liftHub (effPairTimeout die.toNat) s

/-- COLANDER_DRAIN (R355). A Colander writes a record to its event ring. -/
def execColanderDrain (die : BitVec 1) (s : State) : Host.Outcome State Fault Refusal :=
  liftHub (effColanderDrain die.toNat) s

/-- SEAL_COMPLETE (R245). A seal's pass over its window ends. -/
def execSealComplete (w : BitVec 4) (s : State) : Host.Outcome State Fault Refusal :=
  liftHub (effSealComplete w.toNat) s

end Sys2Proof.Machine
end

