-- ==== Sys2Proof/Machine/LifeEvents.lean ====
section
/-! DEFINITION. Meanings of commands: reset, boot, power, park and wake, temperature, and the sideband pins (R392 to R416, R422 to R433). Each is its row's effect on the hub; the queue stays as it is. -/

namespace Sys2Proof.Machine

/-- WARM_RESET_DONE (R413). A die's warm reset ends. -/
def execWarmResetDone (die : BitVec 1) (s : State) : Host.Outcome State Fault Refusal :=
  liftHub (effWarmResetServed die.toNat) s

/-- PARK_DRAIN_DONE (R406). The park sequence ends. -/
def execParkDrainDone (s : State) : Host.Outcome State Fault Refusal :=
  liftHub effParkDrainDone s

/-- I3C_READ (R432). A read over the I3C target. -/
def execI3cRead (index : Byte) (s : State) : Host.Outcome State Fault Refusal :=
  liftHub (effI3cRead index.toNat) s

/-- I3C_DYNAMIC_ADDRESS (R432). The I3C target gets its address. -/
def execI3cDynamicAddress (addr : BitVec 7) (s : State) : Host.Outcome State Fault Refusal :=
  liftHub (effI3cDynamicAddress addr.toNat) s

/-- BYPASS (R433). An instruction of the test access port. -/
def execBypass (s : State) : Host.Outcome State Fault Refusal :=
  liftHub effBypass s

/-- IDCODE (R433). An instruction of the test access port. -/
def execIdcode (s : State) : Host.Outcome State Fault Refusal :=
  liftHub effIdcode s

/-- SAMPLE_PRELOAD (R433). An instruction of the test access port. -/
def execSamplePreload (s : State) : Host.Outcome State Fault Refusal :=
  liftHub effSamplePreload s

/-- EXTEST (R433). A boundary test of the test access port. -/
def execExtest (s : State) : Host.Outcome State Fault Refusal :=
  liftHub (extestOr 3) s

/-- EXTEST_PULSE (R433). A boundary test of the test access port. -/
def execExtestPulse (s : State) : Host.Outcome State Fault Refusal :=
  liftHub (extestOr 4) s

/-- EXTEST_TRAIN (R433). A boundary test of the test access port. -/
def execExtestTrain (s : State) : Host.Outcome State Fault Refusal :=
  liftHub (extestOr 5) s

/-- COLD_RESET (R411). RESET_N goes low. -/
def execColdReset (s : State) : Host.Outcome State Fault Refusal :=
  liftHub effColdReset s

/-- PWR_GOOD (R394). RESET_N goes high with power good, and the ROM starts. -/
def execPwrGood (hubId bootSel : Bool) (arrayPop : BitVec 2) (s : State) : Host.Outcome State Fault Refusal :=
  liftHub (effPwrGood hubId bootSel arrayPop.toNat) s

/-- RAIL_OUT_OF_RANGE (R422). A supply leaves its range. -/
def execRailOutOfRange (aon : Bool) (s : State) : Host.Outcome State Fault Refusal :=
  liftHub (effRailOutOfRange aon) s

/-- PWR_WARN (R173). PWR_WARN is asserted. -/
def execPwrWarn (s : State) : Host.Outcome State Fault Refusal :=
  liftHub effPwrWarn s

/-- PWR_WARN_SNOOP_DEADLINE (R173). 40 µs after PWR_WARN. -/
def execPwrWarnSnoopDeadline (s : State) : Host.Outcome State Fault Refusal :=
  liftHub effPwrWarnSnoopDeadline s

/-- PWR_WARN_DRAIN_DONE (R173). The drain is complete. -/
def execPwrWarnDrainDone (s : State) : Host.Outcome State Fault Refusal :=
  liftHub effPwrWarnDrainDone s

/-- PWR_WARN_RELEASE (R410). PWR_WARN is released. -/
def execPwrWarnRelease (s : State) : Host.Outcome State Fault Refusal :=
  liftHub effPwrWarnRelease s

/-- WAKE (R408). WAKE is asserted. -/
def execWake (s : State) : Host.Outcome State Fault Refusal :=
  liftHub effWake s

/-- THERM_CROSSING (R425). A die's temperature crosses a threshold. -/
def execThermCrossing (die : BitVec 1) (temp : Byte) (s : State) : Host.Outcome State Fault Refusal :=
  liftHub (effThermCrossing die.toNat temp) s

/-- FW_RETRY_BACKOFF_EXPIRY (R395). The ROM tries the flash again. -/
def execFwRetryBackoffExpiry (s : State) : Host.Outcome State Fault Refusal :=
  liftHub effFwRetryBackoffExpiry s

/-- FW_IMAGE_AUTHENTICATED (R396). The ROM has authenticated an image and enters it. -/
def execFwImageAuthenticated (slot : Bool) (f : FwHdr) (s : State) : Host.Outcome State Fault Refusal :=
  liftHub (effFwImageAuthenticated slot f) s

/-- FW_IMAGE_AUTH_FAILED (R395). Neither image passed. -/
def execFwImageAuthFailed (s : State) : Host.Outcome State Fault Refusal :=
  liftHub effFwImageAuthFailed s

/-- FW_RESUMED_FROM_RETENTION (R408). The firmware resumes at wake. -/
def execFwResumedFromRetention (digestGood : Bool) (s : State) : Host.Outcome State Fault Refusal :=
  liftHub (effFwResumedFromRetention digestGood) s

end Sys2Proof.Machine
end

