-- ==== Sys2Proof/Machine/LinkAnswers.lean ====
section
/-! DEFINITION. Meanings of commands: the answers of hosts, the management messages and the messages of the twin (R131, R133, R149). Each is its row's effect on the hub; the queue stays as it is. -/

namespace Sys2Proof.Machine

/-- SNP_RSP (R149). A host's answer to a snoop. -/
def execSnpRsp (l : BitVec 3) (snpid : BitVec 12) (st : BitVec 3) (dirty wbPending : Bool) (d : List Byte) (s : State) : Host.Outcome State Fault Refusal :=
  liftHub (effSnpRsp l.toNat snpid.toNat st.toNat dirty wbPending d) s

/-- FWD_DONE (R149). An owner's answer to a forward. -/
def execFwdDone (l : BitVec 3) (snpid : BitVec 12) (st : BitVec 3) (dirty passed : Bool) (s : State) : Host.Outcome State Fault Refusal :=
  liftHub (effFwdDone l.toNat snpid.toNat st.toNat dirty passed) s

/-- DATA (R109). An owner's data on its way to the requester, or data from the twin's home. -/
def execData (l : BitVec 3) (r : RspHdr) (snpid : BitVec 12) (fromHome : Bool) (d : List Byte) (s : State) : Host.Outcome State Fault Refusal :=
  liftHub (effData l.toNat r snpid.toNat fromHome d) s

/-- LINK_CTL_SET_REPORT (R131). A host's report of one of its sets. -/
def execLinkCtlSetReport (l : BitVec 3) (qid : Byte) (hset : BitVec 16) (d : List Byte) (s : State) : Host.Outcome State Fault Refusal :=
  liftHub (effLinkCtl 1 l.toNat qid.toNat hset.toNat d) s

/-- LINK_CTL_SET_QUERY (R154). The twin asks for one of the proxy's sets. -/
def execLinkCtlSetQuery (l : BitVec 3) (qid : Byte) (hset : BitVec 16) (s : State) : Host.Outcome State Fault Refusal :=
  liftHub (effLinkCtl 0 l.toNat qid.toNat hset.toNat []) s

/-- TICK (R174). A frame tick from a link. -/
def execTick (l : BitVec 3) (frame : Word32) (s : State) : Host.Outcome State Fault Refusal :=
  liftHub (effTickMsg l.toNat frame.toNat) s

/-- SNP_SHARED (R134). A snoop or forward of the twin at the proxy. -/
def execSnpShared (l : BitVec 3) (h : SnpHdr) (s : State) : Host.Outcome State Fault Refusal :=
  liftHub (effTwinSnoop 0x51 l.toNat h) s

/-- SNP_UNIQUE (R134). A snoop or forward of the twin at the proxy. -/
def execSnpUnique (l : BitVec 3) (h : SnpHdr) (s : State) : Host.Outcome State Fault Refusal :=
  liftHub (effTwinSnoop 0x52 l.toNat h) s

/-- SNP_INVAL (R134). A snoop or forward of the twin at the proxy. -/
def execSnpInval (l : BitVec 3) (h : SnpHdr) (s : State) : Host.Outcome State Fault Refusal :=
  liftHub (effTwinSnoop 0x53 l.toNat h) s

/-- SNP_FWD_SHARED (R134). A snoop or forward of the twin at the proxy. -/
def execSnpFwdShared (l : BitVec 3) (h : SnpHdr) (s : State) : Host.Outcome State Fault Refusal :=
  liftHub (effTwinSnoop 0x54 l.toNat h) s

/-- SNP_FWD_UNIQUE (R134). A snoop or forward of the twin at the proxy. -/
def execSnpFwdUnique (l : BitVec 3) (h : SnpHdr) (s : State) : Host.Outcome State Fault Refusal :=
  liftHub (effTwinSnoop 0x55 l.toNat h) s

/-- COMP (R133). A response of the twin's home to a request sent on LL7. -/
def execComp (l : BitVec 3) (r : RspHdr) (s : State) : Host.Outcome State Fault Refusal :=
  liftHub (effTwinRsp 0xA1 l.toNat r []) s

/-- COMP_DATA (R133). A response of the twin's home to a request sent on LL7. -/
def execCompData (l : BitVec 3) (r : RspHdr) (d : List Byte) (s : State) : Host.Outcome State Fault Refusal :=
  liftHub (effTwinRsp 0xA2 l.toNat r d) s

/-- WB_ACK (R133). A response of the twin's home to a request sent on LL7. -/
def execWbAck (l : BitVec 3) (r : RspHdr) (s : State) : Host.Outcome State Fault Refusal :=
  liftHub (effTwinRsp 0xA3 l.toNat r []) s

/-- FENCE_ACK (R163). A response of the twin's home to a request sent on LL7. -/
def execFenceAck (l : BitVec 3) (r : RspHdr) (s : State) : Host.Outcome State Fault Refusal :=
  liftHub (effTwinRsp 0xA4 l.toNat r []) s

/-- SC_RESULT (R169). A response of the twin's home to a request sent on LL7. -/
def execScResult (l : BitVec 3) (r : RspHdr) (s : State) : Host.Outcome State Fault Refusal :=
  liftHub (effTwinRsp 0xA5 l.toNat r []) s

/-- CAST_ACCEPT (R62). A response of the twin's home to a request sent on LL7. -/
def execCastAccept (l : BitVec 3) (r : RspHdr) (s : State) : Host.Outcome State Fault Refusal :=
  liftHub (effTwinRsp 0xB1 l.toNat r []) s

/-- CAST_DECLINE (R61). A response of the twin's home to a request sent on LL7. -/
def execCastDecline (l : BitVec 3) (r : RspHdr) (s : State) : Host.Outcome State Fault Refusal :=
  liftHub (effTwinRsp 0xB2 l.toNat r []) s

/-- CAST_DONE (R62). A response of the twin's home to a request sent on LL7. -/
def execCastDone (l : BitVec 3) (r : RspHdr) (s : State) : Host.Outcome State Fault Refusal :=
  liftHub (effTwinRsp 0xB3 l.toNat r []) s

end Sys2Proof.Machine
end

