-- ==== Sys2Proof/Machine/LinkEvents.lean ====
section
/-! DEFINITION. Meanings of commands: flits, replay, recovery and training of links (R314 to R339). Each is its row's effect on the hub; the queue stays as it is. -/

namespace Sys2Proof.Machine

/-- FLIT_RECEIVED (R323). A flit arrives at the balls of a link. -/
def execFlitReceived (l : BitVec 3) (flit : List Byte) (s : State) : Host.Outcome State Fault Refusal :=
  liftFlit (effFlitReceived l.toNat flit) s

/-- REPLAY_TIMER (R324). Outstanding flits are replayed when no acknowledgement came. -/
def execReplayTimer (l : BitVec 3) (s : State) : Host.Outcome State Fault Refusal :=
  liftHub (effReplayTimer l.toNat) s

/-- RECOVERY_TIMEOUT (R325). A link that did not come back within 1 ms goes DOWN. -/
def execRecoveryTimeout (l : BitVec 3) (s : State) : Host.Outcome State Fault Refusal :=
  liftHub (effRecoveryTimeout l.toNat) s

/-- LINK_DOWN (R337). A link is lost. -/
def execLinkDown (l : BitVec 3) (s : State) : Host.Outcome State Fault Refusal :=
  liftHub (effLinkDown l.toNat) s

/-- LINK_UP (R316). Training or recovery ends with the link UP. -/
def execLinkUp (l : BitVec 3) (u : UpInfo) (s : State) : Host.Outcome State Fault Refusal :=
  liftHub (effLinkUp l.toNat u) s

/-- TRAINING_STAGE_TIMEOUT (R316). A training attempt fails. -/
def execTrainingStageTimeout (l : BitVec 3) (stage : TrainStage) (reason : TrainReason) (s : State) : Host.Outcome State Fault Refusal :=
  liftHub (effTrainingStageTimeout l.toNat stage reason) s

/-- TRAINING_BACKOFF_EXPIRY (R317). The next training attempt may start. -/
def execTrainingBackoffExpiry (l : BitVec 3) (s : State) : Host.Outcome State Fault Refusal :=
  liftHub (effTrainingBackoffExpiry l.toNat) s

/-- BLOCK_LOCK_LOSS (R325). A receiver loses lock. -/
def execBlockLockLoss (l : BitVec 3) (s : State) : Host.Outcome State Fault Refusal :=
  liftHub (effBlockLockLoss l.toNat) s

/-- PEER_RECOVERY_TRAINING_SETS (R325). The peer starts recovery. -/
def execPeerRecoveryTrainingSets (l : BitVec 3) (s : State) : Host.Outcome State Fault Refusal :=
  liftHub (effPeerRecoveryTrainingSets l.toNat) s

/-- FLIT_TIME (R329). A flit leaves a link. -/
def execFlitTime (l : BitVec 3) (s : State) : Host.Outcome State Fault Refusal :=
  liftHub (effFlitTime l.toNat) s

end Sys2Proof.Machine
end

