-- ==== Sys2Proof/Machine/LinkRequests.lean ====
section
/-! DEFINITION. Meanings of commands: the requests of hosts (R105, R331). Each is its row's effect on the hub; the queue stays as it is. -/

namespace Sys2Proof.Machine

/-- RD_SHARED (R105). A read that may be granted any state but M. -/
def execRdShared (l : BitVec 3) (h : ReqHdr) (s : State) : Host.Outcome State Fault Refusal :=
  liftHub (effRequest 0x11 l.toNat h [] false) s

/-- RD_UNIQUE (R105). A read for ownership. -/
def execRdUnique (l : BitVec 3) (h : ReqHdr) (s : State) : Host.Outcome State Fault Refusal :=
  liftHub (effRequest 0x12 l.toNat h [] false) s

/-- RD_ONCE (R105). A read of 1 to 128 bytes that leaves no copy. -/
def execRdOnce (l : BitVec 3) (h : ReqHdr) (s : State) : Host.Outcome State Fault Refusal :=
  liftHub (effRequest 0x13 l.toNat h [] false) s

/-- RD_NOSNP (R143). A read without snoops. -/
def execRdNosnp (l : BitVec 3) (h : ReqHdr) (s : State) : Host.Outcome State Fault Refusal :=
  liftHub (effRequest 0x14 l.toNat h [] false) s

/-- CLEAN_UNIQUE (R106). An upgrade to ownership without data. -/
def execCleanUnique (l : BitVec 3) (h : ReqHdr) (s : State) : Host.Outcome State Fault Refusal :=
  liftHub (effRequest 0x15 l.toNat h [] false) s

/-- RD_RESV (R168). A read once that sets a reservation. -/
def execRdResv (l : BitVec 3) (h : ReqHdr) (s : State) : Host.Outcome State Fault Refusal :=
  liftHub (effRequest 0x16 l.toNat h [] false) s

/-- WR_LINE (R55). A write of one host granule. -/
def execWrLine (l : BitVec 3) (h : ReqHdr) (d : List Byte) (s : State) : Host.Outcome State Fault Refusal :=
  liftHub (effRequest 0x21 l.toNat h d true) s

/-- WR_PART (R56). A write of some bytes. -/
def execWrPart (l : BitVec 3) (h : ReqHdr) (d : List Byte) (s : State) : Host.Outcome State Fault Refusal :=
  liftHub (effRequest 0x22 l.toNat h d true) s

/-- WR_NOSNP (R143). A write of some bytes without snoops. -/
def execWrNosnp (l : BitVec 3) (h : ReqHdr) (d : List Byte) (s : State) : Host.Outcome State Fault Refusal :=
  liftHub (effRequest 0x23 l.toNat h d true) s

/-- ZERO_LINE (R60). A write of 128 zeros. -/
def execZeroLine (l : BitVec 3) (h : ReqHdr) (s : State) : Host.Outcome State Fault Refusal :=
  liftHub (effRequest 0x24 l.toNat h [] false) s

/-- ATOMIC (R122). An operation of the Tongs; the old value returns. -/
def execAtomic (l : BitVec 3) (h : ReqHdr) (d : List Byte) (s : State) : Host.Outcome State Fault Refusal :=
  liftHub (effRequest 0x25 l.toNat h d true) s

/-- ST_COND (R169). A write that passes only on an unlost reservation. -/
def execStCond (l : BitVec 3) (h : ReqHdr) (d : List Byte) (s : State) : Host.Outcome State Fault Refusal :=
  liftHub (effRequest 0x26 l.toNat h d true) s

/-- CAST_OFFER (R61). An offer of a clean line. -/
def execCastOffer (l : BitVec 3) (h : ReqHdr) (s : State) : Host.Outcome State Fault Refusal :=
  liftHub (effRequest 0x31 l.toNat h [] false) s

/-- CAST_DATA (R62). Data of a castout. -/
def execCastData (l : BitVec 3) (h : ReqHdr) (d : List Byte) (s : State) : Host.Outcome State Fault Refusal :=
  liftHub (effRequest 0x32 l.toNat h d true) s

/-- WRITE_BACK (R57). An owner's data, given up. -/
def execWriteBack (l : BitVec 3) (h : ReqHdr) (d : List Byte) (s : State) : Host.Outcome State Fault Refusal :=
  liftHub (effRequest 0x33 l.toNat h d true) s

/-- EVICT_NOTE (R142). A granule given up without data. -/
def execEvictNote (l : BitVec 3) (h : ReqHdr) (s : State) : Host.Outcome State Fault Refusal :=
  liftHub (effRequest 0x34 l.toNat h [] false) s

/-- FENCE (R164). An acknowledgement once earlier writes in scope are visible. -/
def execFence (l : BitVec 3) (h : ReqHdr) (s : State) : Host.Outcome State Fault Refusal :=
  liftHub (effRequest 0x39 l.toNat h [] false) s

/-- RESV_CLEAR (R170). Reservations given up. -/
def execResvClear (l : BitVec 3) (h : ReqHdr) (s : State) : Host.Outcome State Fault Refusal :=
  liftHub (effRequest 0x3A l.toNat h [] false) s

/-- PF_HINT (R87). Lines to prefetch. -/
def execPfHint (l : BitVec 3) (h : ReqHdr) (s : State) : Host.Outcome State Fault Refusal :=
  liftHub (effRequest 0x3B l.toNat h [] false) s

end Sys2Proof.Machine
end

