-- ==== Sys2Proof/Machine/ManagerCommands.lean ====
section
/-! DEFINITION. Meanings of commands: the commands of managers' rings and the ends of their work (R258 to R280, R292 to R313). Each is its row's effect on the hub; the queue stays as it is. -/

namespace Sys2Proof.Machine

/-- NOP (R270). NOP, or an opcode the catalogue does not list. -/
def execNop (m : BitVec 2) (opcode : Byte) (c : CmdWord) (s : State) : Host.Outcome State Fault Refusal :=
  liftHub (effNop m.toNat opcode.toNat c) s

/-- CACHE_ENABLE (R78). A command at the head of a manager's ring is taken. -/
def execCacheEnable (m : BitVec 2) (c : CmdWord) (s : State) : Host.Outcome State Fault Refusal :=
  liftHub (effCacheEnable m.toNat c) s

/-- CACHE_DISABLE (R80). A command at the head of a manager's ring is taken. -/
def execCacheDisable (m : BitVec 2) (c : CmdWord) (s : State) : Host.Outcome State Fault Refusal :=
  liftHub (effCacheDisable m.toNat c) s

/-- CACHE_DISABLE_DRAIN_DONE (R80). The work of a running command ends. -/
def execCacheDisableDrainDone (s : State) : Host.Outcome State Fault Refusal :=
  liftHub effCacheDisableDrainDone s

/-- CACHE_RANGE (R73). A command at the head of a manager's ring is taken. -/
def execCacheRange (m : BitVec 2) (c : CmdWord) (s : State) : Host.Outcome State Fault Refusal :=
  liftHub (effCacheRange m.toNat c) s

/-- CACHE_RANGE_DONE (R74). The work of a running command ends. -/
def execCacheRangeDone (s : State) : Host.Outcome State Fault Refusal :=
  liftHub effCacheRangeDone s

/-- WAY_POWER (R83). A command at the head of a manager's ring is taken. -/
def execWayPower (m : BitVec 2) (c : CmdWord) (s : State) : Host.Outcome State Fault Refusal :=
  liftHub (effWayPower m.toNat c) s

/-- WAY_POWER_OFF_DONE (R83). The work of a running command ends. -/
def execWayPowerOffDone (s : State) : Host.Outcome State Fault Refusal :=
  liftHub effWayPowerOffDone s

/-- WAY_LOCK (R75). A command at the head of a manager's ring is taken. -/
def execWayLock (m : BitVec 2) (c : CmdWord) (s : State) : Host.Outcome State Fault Refusal :=
  liftHub (effWayLock m.toNat c) s

/-- WAY_LOCK_DONE (R75). The work of a running command ends. -/
def execWayLockDone (s : State) : Host.Outcome State Fault Refusal :=
  liftHub effWayLockDone s

/-- REGION_SET (R213). A command at the head of a manager's ring is taken. -/
def execRegionSet (m : BitVec 2) (c : CmdWord) (s : State) : Host.Outcome State Fault Refusal :=
  liftHub (effRegionSet m.toNat c) s

/-- SHADOW_LOAD_DONE (R216). The work of a running command ends. -/
def execShadowLoadDone (s : State) : Host.Outcome State Fault Refusal :=
  liftHub effShadowLoadDone s

/-- ARRAY_POP_SET (R214). A command at the head of a manager's ring is taken. -/
def execArrayPopSet (m : BitVec 2) (c : CmdWord) (s : State) : Host.Outcome State Fault Refusal :=
  liftHub (effArrayPopSet m.toNat c) s

/-- PART_CREATE (R295). A command at the head of a manager's ring is taken. -/
def execPartCreate (m : BitVec 2) (c : CmdWord) (s : State) : Host.Outcome State Fault Refusal :=
  liftHub (effPartCreate m.toNat c) s

/-- PART_SET (R298). A command at the head of a manager's ring is taken. -/
def execPartSet (m : BitVec 2) (c : CmdWord) (s : State) : Host.Outcome State Fault Refusal :=
  liftHub (effPartSet m.toNat c) s

/-- PART_QUIESCE (R301). A command at the head of a manager's ring is taken. -/
def execPartQuiesce (m : BitVec 2) (c : CmdWord) (s : State) : Host.Outcome State Fault Refusal :=
  liftHub (effPartQuiesce m.toNat c) s

/-- PART_QUIESCE_DONE (R301). The work of a running partition command ends. -/
def execPartQuiesceDone (p : BitVec 6) (s : State) : Host.Outcome State Fault Refusal :=
  liftHub (effPartQuiesceDone p.toNat) s

/-- PART_RESUME (R300). A command at the head of a manager's ring is taken. -/
def execPartResume (m : BitVec 2) (c : CmdWord) (s : State) : Host.Outcome State Fault Refusal :=
  liftHub (effPartResume m.toNat c) s

/-- PART_RESET (R302). A command at the head of a manager's ring is taken. -/
def execPartReset (m : BitVec 2) (c : CmdWord) (s : State) : Host.Outcome State Fault Refusal :=
  liftHub (effPartReset m.toNat c) s

/-- PART_FREEZE (R303). A command at the head of a manager's ring is taken. -/
def execPartFreeze (m : BitVec 2) (c : CmdWord) (s : State) : Host.Outcome State Fault Refusal :=
  liftHub (effPartFreeze m.toNat c) s

/-- PART_FREEZE_DONE (R303). The work of a running partition command ends. -/
def execPartFreezeDone (p : BitVec 6) (s : State) : Host.Outcome State Fault Refusal :=
  liftHub (effPartFreezeDone p.toNat) s

/-- PART_SAVE (R304). A command at the head of a manager's ring is taken. -/
def execPartSave (m : BitVec 2) (c : CmdWord) (s : State) : Host.Outcome State Fault Refusal :=
  liftHub (effPartSave m.toNat c) s

/-- PART_SAVE_DONE (R305). The work of a running partition command ends. -/
def execPartSaveDone (p : BitVec 6) (s : State) : Host.Outcome State Fault Refusal :=
  liftHub (effPartSaveDone p.toNat) s

/-- PART_RESTORE (R306). A command at the head of a manager's ring is taken. -/
def execPartRestore (m : BitVec 2) (c : CmdWord) (s : State) : Host.Outcome State Fault Refusal :=
  liftHub (effPartRestore m.toNat c) s

/-- PART_RESTORE_LOAD_DONE (R307). The work of a running partition command ends. -/
def execPartRestoreLoadDone (p : BitVec 6) (s : State) : Host.Outcome State Fault Refusal :=
  liftHub (effPartRestoreLoadDone p.toNat) s

/-- PART_DESTROY (R305). A command at the head of a manager's ring is taken. -/
def execPartDestroy (m : BitVec 2) (c : CmdWord) (s : State) : Host.Outcome State Fault Refusal :=
  liftHub (effPartDestroy m.toNat c) s

/-- WITNESS_ARM (R241). A command at the head of a manager's ring is taken. -/
def execWitnessArm (m : BitVec 2) (c : CmdWord) (s : State) : Host.Outcome State Fault Refusal :=
  liftHub (effWitnessArm m.toNat c) s

/-- WITNESS_DISARM (R242). A command at the head of a manager's ring is taken. -/
def execWitnessDisarm (m : BitVec 2) (c : CmdWord) (s : State) : Host.Outcome State Fault Refusal :=
  liftHub (effWitnessDisarm m.toNat c) s

/-- EXPERT_SET (R270). A command at the head of a manager's ring is taken. -/
def execExpertSet (m : BitVec 2) (c : CmdWord) (s : State) : Host.Outcome State Fault Refusal :=
  liftHub (effExpertSet m.toNat c) s

/-- KEY_LOAD (R276). A command at the head of a manager's ring is taken. -/
def execKeyLoad (m : BitVec 2) (c : CmdWord) (s : State) : Host.Outcome State Fault Refusal :=
  liftHub (effKeyLoad m.toNat c) s

/-- KEY_ROTATE (R276). A command at the head of a manager's ring is taken. -/
def execKeyRotate (m : BitVec 2) (c : CmdWord) (s : State) : Host.Outcome State Fault Refusal :=
  liftHub (effKeyRotate m.toNat c) s

/-- FW_STAGE (R414). A command at the head of a manager's ring is taken. -/
def execFwStage (m : BitVec 2) (c : CmdWord) (s : State) : Host.Outcome State Fault Refusal :=
  liftHub (effFwStage m.toNat c) s

/-- FW_SWITCH (R415). A command at the head of a manager's ring is taken. -/
def execFwSwitch (m : BitVec 2) (c : CmdWord) (s : State) : Host.Outcome State Fault Refusal :=
  liftHub (effFwSwitch m.toNat c) s

/-- FW_HANDOVER (R415). The handover pause begins. -/
def execFwHandover (s : State) : Host.Outcome State Fault Refusal :=
  liftHub effFwHandover s

/-- ERR_INJECT (R279). A command at the head of a manager's ring is taken. -/
def execErrInject (m : BitVec 2) (c : CmdWord) (s : State) : Host.Outcome State Fault Refusal :=
  liftHub (effErrInject m.toNat c) s

/-- LEDGER_ERASE (R280). A command at the head of a manager's ring is taken. -/
def execLedgerErase (m : BitVec 2) (c : CmdWord) (s : State) : Host.Outcome State Fault Refusal :=
  liftHub (effLedgerErase m.toNat c) s

/-- FW_STAGE_DONE (R414). A staged image has been checked. -/
def execFwStageDone (digestGood : Bool) (s : State) : Host.Outcome State Fault Refusal :=
  liftHub (effFwStageDone digestGood) s

/-- FW_HANDOVER_DONE (R415). The work of a running command ends. -/
def execFwHandoverDone (s : State) : Host.Outcome State Fault Refusal :=
  liftHub effFwHandoverDone s

/-- RING_FETCH_ERR (R263). A descriptor read fails. -/
def execRingFetchErr (mover : Bool) (i : BitVec 6) (s : State) : Host.Outcome State Fault Refusal :=
  liftHub (effRingFetchErr mover i.toNat) s

/-- CACHE_WARM_SECTOR (R308). Cache warming of a restored partition reads one sector. -/
def execCacheWarmSector (p : BitVec 6) (s : State) : Host.Outcome State Fault Refusal :=
  liftHub (effCacheWarmSector p.toNat) s

end Sys2Proof.Machine
end

