-- ==== Sys2Proof/Machine/MemoryEvents.lean ====
section
/-! DEFINITION. Meanings of commands: training of memory, data that lands, writes that complete, scrub, test, rebuild and remap (R225 to R238, R401 to R404). Each is its row's effect on the hub; the queue stays as it is. -/

namespace Sys2Proof.Machine

/-- MEM_TRAIN_BACKOFF_EXPIRY (R401). The next training attempt of a channel may start. -/
def execMemTrainBackoffExpiry (die : BitVec 1) (j : BitVec 3) (s : State) : Host.Outcome State Fault Refusal :=
  liftHub (effMemTrainBackoffExpiry die.toNat j.toNat) s

/-- CHANNEL_TRAINED (R401). A main-memory channel is trained. -/
def execChannelTrained (k : BitVec 3) (rate : BitVec 4) (units : BitVec 16) (full : Bool) (s : State) : Host.Outcome State Fault Refusal :=
  liftHub (effChannelTrained k.toNat rate.toNat units.toNat full) s

/-- ARRAY_TRAINED (R404). The array's lanes are trained. -/
def execArrayTrained (rate : BitVec 2) (dens full : Bool) (s : State) : Host.Outcome State Fault Refusal :=
  liftHub (effArrayTrained rate.toNat dens full) s

/-- NEAR_ZERO_FILL_DONE (R404). The array's zero fill has ended. -/
def execNearZeroFillDone (s : State) : Host.Outcome State Fault Refusal :=
  liftHub effNearZeroFillDone s

/-- MEM_TRAINING_FAILED (R401). A channel or lane fails to train. -/
def execMemTrainingFailed (die : BitVec 1) (j : BitVec 3) (reason : BitVec 3) (s : State) : Host.Outcome State Fault Refusal :=
  liftHub (effMemTrainingFailed die.toNat j.toNat reason.toNat) s

/-- CHANNEL_LOST (R189). A channel is lost. -/
def execChannelLost (k : BitVec 3) (rate : BitVec 4) (s : State) : Host.Outcome State Fault Refusal :=
  liftHub (effChannelLost k.toNat rate.toNat) s

/-- FILL_DATA_LANDS (R150). Data of a read of memory lands. -/
def execFillDataLands (txn : Nat) (x : Disturb) (s : State) : Host.Outcome State Fault Refusal :=
  liftHub (fun h => twinSettle (effFillDataLands txn x h)) s

/-- PREFETCH_LANDS (R89). Data of a prefetch lands. -/
def execPrefetchLands (cluster : BitVec 3) (line : BitVec 41) (x : Disturb) (s : State) : Host.Outcome State Fault Refusal :=
  liftHub (effPrefetchLands cluster.toNat line.toNat x) s

/-- MEMORY_WRITE_COMPLETE (R438). A buffered write reaches its target. -/
def execMemoryWriteComplete (wb : Nat) (s : State) : Host.Outcome State Fault Refusal :=
  liftHub (fun h => twinSettle (effMemoryWriteComplete wb h)) s

/-- TRACKER_FREED_RETRY (R19). A slice presents its waiting requests again. -/
def execTrackerFreedRetry (slice : BitVec 5) (s : State) : Host.Outcome State Fault Refusal :=
  liftHub (fun h => twinSettle (effTrackerFreedRetry slice.toNat h)) s

/-- STREAM_MISS_RETRY (R45). A stream's waiting requests are presented again. -/
def execStreamMissRetry (l : BitVec 3) (stream : BitVec 10) (cluster : BitVec 3) (s : State) : Host.Outcome State Fault Refusal :=
  liftHub (fun h => twinSettle (effStreamMissRetry l.toNat stream.toNat cluster.toNat h)) s

/-- TAG_SET_REBUILD (R93). A tag set is rebuilt. -/
def execTagSetRebuild (slice : BitVec 5) (set : BitVec 12) (s : State) : Host.Outcome State Fault Refusal :=
  liftHub (effTagSetRebuild slice.toNat set.toNat) s

/-- WALKER_TURN (R68). A walker takes its turn at a slice. -/
def execWalkerTurn (slice : BitVec 5) (s : State) : Host.Outcome State Fault Refusal :=
  liftHub (effWalkerTurn slice.toNat) s

/-- WHISK_LINE_READ (R230). A Whisk reads and checks a line. -/
def execWhiskLineRead (r : BitVec 4) (line : Nat) (x : Disturb) (s : State) : Host.Outcome State Fault Refusal :=
  liftHub (effWhiskLineRead r.toNat line x) s

/-- WHISK_LAP_END (R231). A Whisk's lap ends. -/
def execWhiskLapEnd (r : BitVec 4) (s : State) : Host.Outcome State Fault Refusal :=
  liftHub (effWhiskLapEnd r.toNat) s

/-- BT_STEP (R352). A step of the background test. -/
def execBtStep (die : BitVec 1) (struct : BtStruct) (fails : Bool) (s : State) : Host.Outcome State Fault Refusal :=
  liftHub (effBtStep die.toNat struct fails) s

/-- REBUILD_START (R237). A rebuild onto the spare device starts. -/
def execRebuildStart (s : State) : Host.Outcome State Fault Refusal :=
  liftHub effRebuildStart s

/-- REBUILD_DONE (R237). A rebuild ends. -/
def execRebuildDone (s : State) : Host.Outcome State Fault Refusal :=
  liftHub effRebuildDone s

/-- REMAP_COPY_DONE (R235). A remapped row has been copied. -/
def execRemapCopyDone (lane : BitVec 2) (row : Nat) (s : State) : Host.Outcome State Fault Refusal :=
  liftHub (effRemapCopyDone lane.toNat row) s

/-- KETTLE_PARKED_SCRUB (R346). A Kettle word is scrubbed while parked. -/
def execKettleParkedScrub (word : BitVec 19) (x : BitVec 72) (s : State) : Host.Outcome State Fault Refusal :=
  liftHub (effKettleParkedScrub word.toNat x) s

/-- LADLE_EXPIRY (R88). A Ladle entry expires. -/
def execLadleExpiry (cluster : BitVec 3) (line : BitVec 41) (s : State) : Host.Outcome State Fault Refusal :=
  liftHub (effLadleExpiry cluster.toNat line.toNat) s

/-- RESV_EXPIRY (R170). A reservation expires. -/
def execResvExpiry (die : BitVec 1) (mon : Nat) (s : State) : Host.Outcome State Fault Refusal :=
  liftHub (effResvExpiry die.toNat mon) s

/-- CLASS_B_PROMOTE (R181). A class B request that waited is served as class G. -/
def execClassBPromote (txn : Nat) (s : State) : Host.Outcome State Fault Refusal :=
  liftHub (effClassBPromote txn) s

/-- SNOOP_TIMEOUT (R119). A snoop has been unanswered for its timeout. -/
def execSnoopTimeout (l : BitVec 3) (snpid : BitVec 12) (s : State) : Host.Outcome State Fault Refusal :=
  liftHub (effSnoopTimeout l.toNat snpid.toNat) s

/-- TONGS_HOLD_END (R123). A Tongs hold ends. -/
def execTongsHoldEnd (line : BitVec 41) (s : State) : Host.Outcome State Fault Refusal :=
  liftHub (effTongsHoldEnd line.toNat) s

end Sys2Proof.Machine
end

