-- ==== Sys2Proof/Machine/MoverCommands.lean ====
section
/-! DEFINITION. Meanings of commands: the Mover's descriptors and chunks (R282 to R287). Each is its row's effect on the hub; the queue stays as it is. -/

namespace Sys2Proof.Machine

/-- MOVER_COPY (R285). A descriptor at the head of a partition's Mover ring starts. -/
def execMoverCopy (p : BitVec 6) (d : MovDesc) (s : State) : Host.Outcome State Fault Refusal :=
  liftHub (effMover 0 p.toNat d) s

/-- MOVER_FILL (R285). A descriptor at the head of a partition's Mover ring starts. -/
def execMoverFill (p : BitVec 6) (d : MovDesc) (s : State) : Host.Outcome State Fault Refusal :=
  liftHub (effMover 1 p.toNat d) s

/-- MOVER_ZERO (R285). A descriptor at the head of a partition's Mover ring starts. -/
def execMoverZero (p : BitVec 6) (d : MovDesc) (s : State) : Host.Outcome State Fault Refusal :=
  liftHub (effMover 2 p.toNat d) s

/-- MOVER_CRC (R286). A descriptor at the head of a partition's Mover ring starts. -/
def execMoverCrc (p : BitVec 6) (d : MovDesc) (s : State) : Host.Outcome State Fault Refusal :=
  liftHub (effMover 3 p.toNat d) s

/-- MOVER_COMPARE (R286). A descriptor at the head of a partition's Mover ring starts. -/
def execMoverCompare (p : BitVec 6) (d : MovDesc) (s : State) : Host.Outcome State Fault Refusal :=
  liftHub (effMover 4 p.toNat d) s

/-- MOVER_CHUNK_DONE (R286). A chunk of a Mover descriptor is complete. -/
def execMoverChunkDone (p : BitVec 6) (s : State) : Host.Outcome State Fault Refusal :=
  liftHub (effMoverChunkDone p.toNat) s

end Sys2Proof.Machine
end

