-- ==== Sys2Proof/Machine/RegisterRows.lean ====
section
/-! DEFINITION. Meanings of commands: the register accesses that the table names (R260, R378 to R391). Each is its row's effect on the hub; the queue stays as it is. -/

namespace Sys2Proof.Machine

/-- CMD_DB (R260). Command doorbell of a manager. -/
def execCmdDb (a : RegAcc) (m : BitVec 2) (v : Word32) (s : State) : Host.Outcome State Fault Refusal :=
  liftHub (regWrite a (managerOff m 0) v) s

/-- CPL_DB (R261). Completion doorbell of a manager. -/
def execCplDb (a : RegAcc) (m : BitVec 2) (v : Word32) (s : State) : Host.Outcome State Fault Refusal :=
  liftHub (regWrite a (managerOff m 4) v) s

/-- EVT_DB (R262). Event-ring doorbell. -/
def execEvtDb (a : RegAcc) (v : Word32) (s : State) : Host.Outcome State Fault Refusal :=
  liftHub (regWrite a (managerOff 0 0x10) v) s

/-- MOV_DB (R260). Mover doorbell of a partition. -/
def execMovDb (a : RegAcc) (p : BitVec 6) (v : Word32) (s : State) : Host.Outcome State Fault Refusal :=
  liftHub (regWrite a (pageOff p 0xF00) v) s

/-- WIT_SEAL (R244). Seal page of a witness window. -/
def execWitSeal (a : RegAcc) (w : BitVec 4) (v : Word32) (s : State) : Host.Outcome State Fault Refusal :=
  liftHub (regWrite a (sealOff w 0) v) s

/-- LID_KEY_WRITE (R386). Lid key. -/
def execLidKeyWrite (a : RegAcc) (v : Word32) (s : State) : Host.Outcome State Fault Refusal :=
  liftHub (regWrite a 0x24 v) s

/-- WARM_RESET_WEST (R413). Pair write of CB_RESET at its complement port. -/
def execWarmResetWest (a : RegAcc) (v : Word32) (s : State) : Host.Outcome State Fault Refusal :=
  liftHub (regWrite a 0x14 v) s

/-- WARM_RESET_EAST (R413). Pair write of CB_RESET at its complement port. -/
def execWarmResetEast (a : RegAcc) (v : Word32) (s : State) : Host.Outcome State Fault Refusal :=
  liftHub (regWrite a 0x14 v) s

/-- SNAP (R399). Pair write of LC_CTL.SNAP at its complement port. -/
def execSnap (a : RegAcc) (v : Word32) (s : State) : Host.Outcome State Fault Refusal :=
  liftHub (regWrite a 0x6804 v) s

/-- PARK (R405). Pair write of LC_CTL.PARK at its complement port. -/
def execPark (a : RegAcc) (v : Word32) (s : State) : Host.Outcome State Fault Refusal :=
  liftHub (regWrite a 0x6804 v) s

/-- WIT_CTL_CLEAR (R256). WIT_CTL. -/
def execWitCtlClear (a : RegAcc) (v : Word32) (s : State) : Host.Outcome State Fault Refusal :=
  liftHub (regWrite a 0x4300 v) s

/-- LINK_ENABLE (R317). LINK_n_CTL.ENABLE. -/
def execLinkEnable (a : RegAcc) (n : BitVec 3) (v : Word32) (s : State) : Host.Outcome State Fault Refusal :=
  liftHub (regWrite a (0x4600 + 0x40 * n.toNat) v) s

/-- RETRAIN (R325). LINK_n_CTL.RETRAIN. -/
def execRetrain (a : RegAcc) (n : BitVec 3) (v : Word32) (s : State) : Host.Outcome State Fault Refusal :=
  liftHub (regWrite a (0x4600 + 0x40 * n.toNat) v) s

/-- MGR_CTL_ENABLE (R259). MGR_m_CTL. -/
def execMgrCtlEnable (a : RegAcc) (m : BitVec 2) (v : Word32) (s : State) : Host.Outcome State Fault Refusal :=
  liftHub (regWrite a (0x4400 + 0x20 * m.toNat) v) s

/-- COH_HOST_GEOM_WRITE (R100). COH_HOST_n_GEOM. -/
def execCohHostGeomWrite (a : RegAcc) (n : BitVec 3) (v : Word32) (s : State) : Host.Outcome State Fault Refusal :=
  liftHub (regWrite a (0x4050 + 4 * n.toNat) v) s

/-- COH_TWIN_GEOM_WRITE (R135). COH_TWIN_GEOM. -/
def execCohTwinGeomWrite (a : RegAcc) (v : Word32) (s : State) : Host.Outcome State Fault Refusal :=
  liftHub (regWrite a 0x406C v) s

/-- CACHE_TRK_CTL_WRITE (R66). CACHE_TRK_CTL. -/
def execCacheTrkCtlWrite (a : RegAcc) (v : Word32) (s : State) : Host.Outcome State Fault Refusal :=
  liftHub (regWrite a 0x4008 v) s

/-- CACHE_CAST_CTL_WRITE (R63). CACHE_CAST_CTL. -/
def execCacheCastCtlWrite (a : RegAcc) (v : Word32) (s : State) : Host.Outcome State Fault Refusal :=
  liftHub (regWrite a 0x400C v) s

/-- FS_PERIOD_WRITE (R188). FS_PERIOD. -/
def execFsPeriodWrite (a : RegAcc) (v : Word32) (s : State) : Host.Outcome State Fault Refusal :=
  liftHub (regWrite a 0x4108 v) s

/-- FS_TICK_CTL_WRITE (R177). FS_TICK_CTL. -/
def execFsTickCtlWrite (a : RegAcc) (v : Word32) (s : State) : Host.Outcome State Fault Refusal :=
  liftHub (regWrite a 0x4104 v) s

/-- WHISK_FLOOR_WRITE (R239). WHISK_FLOOR. -/
def execWhiskFloorWrite (a : RegAcc) (v : Word32) (s : State) : Host.Outcome State Fault Refusal :=
  liftHub (regWrite a 0x41C0 v) s

/-- PMU_CLR_CYC (R364). PMU_CTL.CLR_CYC. -/
def execPmuClrCyc (a : RegAcc) (v : Word32) (s : State) : Host.Outcome State Fault Refusal :=
  liftHub (regWrite a 0x4904 v) s

/-- PMU_CLR_CNT (R364). PMU_CTL.CLR_CNT. -/
def execPmuClrCnt (a : RegAcc) (v : Word32) (s : State) : Host.Outcome State Fault Refusal :=
  liftHub (regWrite a 0x4904 v) s

/-- MB_SEL_WRITE (R389). MB_k_SEL. -/
def execMbSelWrite (a : RegAcc) (k : BitVec 2) (v : Word32) (s : State) : Host.Outcome State Fault Refusal :=
  liftHub (regWrite a (0x100 + 0x80 * k.toNat) v) s

/-- MAILBOX_FETCH_DONE (R389). A mailbox has its words. -/
def execMailboxFetchDone (die : BitVec 1) (k : BitVec 2) (s : State) : Host.Outcome State Fault Refusal :=
  liftHub (effMailboxFetchDone die.toNat k.toNat) s

/-- MB_LAST_WORD_READ (R390). The read of a mailbox's last word. -/
def execMbLastWordRead (a : RegAcc) (k : BitVec 2) (s : State) : Host.Outcome State Fault Refusal :=
  liftHub (fun h => regRead a (0x104 + 0x80 * k.toNat + 4 * max 1 (mbox h a.die.toNat k.toNat).words.length) h) s

/-- CLEAR_ON_READ (R385). A read that clears. -/
def execClearOnRead (a : RegAcc) (off : BitVec 20) (s : State) : Host.Outcome State Fault Refusal :=
  liftHub (regRead a off.toNat) s

/-- BIT_ALIAS_WRITE (R383). One bit of a register, through its alias. -/
def execBitAliasWrite (a : RegAcc) (byte : BitVec 14) (bit : BitVec 3) (v : Word32) (s : State) : Host.Outcome State Fault Refusal :=
  liftHub (regWrite a (0x80000 + 32 * byte.toNat + 4 * bit.toNat) v) s

/-- REGISTER_WRITE (R381). Any register of a window. -/
def execRegisterWrite (a : RegAcc) (off : BitVec 20) (v : Word32) (s : State) : Host.Outcome State Fault Refusal :=
  liftHub (regWrite a off.toNat v) s

end Sys2Proof.Machine
end

