-- ==== Sys2Proof/Machine/Dispatch.lean ====
section
/-! DEFINITION. The meaning of every command: one direct call for each row of spec/opcode_table.json. -/

namespace Sys2Proof.Machine

/-- A command's effect on everything but the queue. -/
def exec (i : Instr) (s : State) : Host.Outcome State Fault Refusal :=
  match i with
  | .rdShared l h => Sys2Proof.Machine.execRdShared l h s
  | .rdUnique l h => Sys2Proof.Machine.execRdUnique l h s
  | .rdOnce l h => Sys2Proof.Machine.execRdOnce l h s
  | .rdNosnp l h => Sys2Proof.Machine.execRdNosnp l h s
  | .cleanUnique l h => Sys2Proof.Machine.execCleanUnique l h s
  | .rdResv l h => Sys2Proof.Machine.execRdResv l h s
  | .wrLine l h d => Sys2Proof.Machine.execWrLine l h d s
  | .wrPart l h d => Sys2Proof.Machine.execWrPart l h d s
  | .wrNosnp l h d => Sys2Proof.Machine.execWrNosnp l h d s
  | .zeroLine l h => Sys2Proof.Machine.execZeroLine l h s
  | .atomic l h d => Sys2Proof.Machine.execAtomic l h d s
  | .stCond l h d => Sys2Proof.Machine.execStCond l h d s
  | .castOffer l h => Sys2Proof.Machine.execCastOffer l h s
  | .castData l h d => Sys2Proof.Machine.execCastData l h d s
  | .writeBack l h d => Sys2Proof.Machine.execWriteBack l h d s
  | .evictNote l h => Sys2Proof.Machine.execEvictNote l h s
  | .fence l h => Sys2Proof.Machine.execFence l h s
  | .resvClear l h => Sys2Proof.Machine.execResvClear l h s
  | .pfHint l h => Sys2Proof.Machine.execPfHint l h s
  | .snpRsp l snpid st dirty wbPending d => Sys2Proof.Machine.execSnpRsp l snpid st dirty wbPending d s
  | .fwdDone l snpid st dirty passed => Sys2Proof.Machine.execFwdDone l snpid st dirty passed s
  | .data l r snpid fromHome d => Sys2Proof.Machine.execData l r snpid fromHome d s
  | .linkCtlSetReport l qid hset d => Sys2Proof.Machine.execLinkCtlSetReport l qid hset d s
  | .linkCtlSetQuery l qid hset => Sys2Proof.Machine.execLinkCtlSetQuery l qid hset s
  | .tick l frame => Sys2Proof.Machine.execTick l frame s
  | .snpShared l h => Sys2Proof.Machine.execSnpShared l h s
  | .snpUnique l h => Sys2Proof.Machine.execSnpUnique l h s
  | .snpInval l h => Sys2Proof.Machine.execSnpInval l h s
  | .snpFwdShared l h => Sys2Proof.Machine.execSnpFwdShared l h s
  | .snpFwdUnique l h => Sys2Proof.Machine.execSnpFwdUnique l h s
  | .comp l r => Sys2Proof.Machine.execComp l r s
  | .compData l r d => Sys2Proof.Machine.execCompData l r d s
  | .wbAck l r => Sys2Proof.Machine.execWbAck l r s
  | .fenceAck l r => Sys2Proof.Machine.execFenceAck l r s
  | .scResult l r => Sys2Proof.Machine.execScResult l r s
  | .castAccept l r => Sys2Proof.Machine.execCastAccept l r s
  | .castDecline l r => Sys2Proof.Machine.execCastDecline l r s
  | .castDone l r => Sys2Proof.Machine.execCastDone l r s
  | .flitReceived l flit => Sys2Proof.Machine.execFlitReceived l flit s
  | .replayTimer l => Sys2Proof.Machine.execReplayTimer l s
  | .recoveryTimeout l => Sys2Proof.Machine.execRecoveryTimeout l s
  | .linkDown l => Sys2Proof.Machine.execLinkDown l s
  | .linkUp l u => Sys2Proof.Machine.execLinkUp l u s
  | .trainingStageTimeout l stage reason => Sys2Proof.Machine.execTrainingStageTimeout l stage reason s
  | .trainingBackoffExpiry l => Sys2Proof.Machine.execTrainingBackoffExpiry l s
  | .memTrainBackoffExpiry die j => Sys2Proof.Machine.execMemTrainBackoffExpiry die j s
  | .channelTrained k rate units full => Sys2Proof.Machine.execChannelTrained k rate units full s
  | .arrayTrained rate dens full => Sys2Proof.Machine.execArrayTrained rate dens full s
  | .nearZeroFillDone => Sys2Proof.Machine.execNearZeroFillDone s
  | .fwRetryBackoffExpiry => Sys2Proof.Machine.execFwRetryBackoffExpiry s
  | .fwImageAuthenticated slot f => Sys2Proof.Machine.execFwImageAuthenticated slot f s
  | .ftickEdge ball falling => Sys2Proof.Machine.execFtickEdge ball falling s
  | .internalTimerTick => Sys2Proof.Machine.execInternalTimerTick s
  | .frameTick => Sys2Proof.Machine.execFrameTick s
  | .syntheticTick => Sys2Proof.Machine.execSyntheticTick s
  | .tickFailover => Sys2Proof.Machine.execTickFailover s
  | .subframeStep => Sys2Proof.Machine.execSubframeStep s
  | .stewardPass => Sys2Proof.Machine.execStewardPass s
  | .stewardPassDiscard => Sys2Proof.Machine.execStewardPassDiscard s
  | .pmuWindowEnd => Sys2Proof.Machine.execPmuWindowEnd s
  | .bwWindowEnd => Sys2Proof.Machine.execBwWindowEnd s
  | .historyFold => Sys2Proof.Machine.execHistoryFold s
  | .ladleExpiry cluster line => Sys2Proof.Machine.execLadleExpiry cluster line s
  | .resvExpiry die mon => Sys2Proof.Machine.execResvExpiry die mon s
  | .classBPromote txn => Sys2Proof.Machine.execClassBPromote txn s
  | .snoopTimeout l snpid => Sys2Proof.Machine.execSnoopTimeout l snpid s
  | .tongsHoldEnd line => Sys2Proof.Machine.execTongsHoldEnd line s
  | .lidTimeout die => Sys2Proof.Machine.execLidTimeout die s
  | .pairTimeout die => Sys2Proof.Machine.execPairTimeout die s
  | .fillDataLands txn x => Sys2Proof.Machine.execFillDataLands txn x s
  | .prefetchLands cluster line x => Sys2Proof.Machine.execPrefetchLands cluster line x s
  | .memoryWriteComplete wb => Sys2Proof.Machine.execMemoryWriteComplete wb s
  | .trackerFreedRetry slice => Sys2Proof.Machine.execTrackerFreedRetry slice s
  | .streamMissRetry l stream cluster => Sys2Proof.Machine.execStreamMissRetry l stream cluster s
  | .tagSetRebuild slice set => Sys2Proof.Machine.execTagSetRebuild slice set s
  | .walkerTurn slice => Sys2Proof.Machine.execWalkerTurn slice s
  | .whiskLineRead r line x => Sys2Proof.Machine.execWhiskLineRead r line x s
  | .whiskLapEnd r => Sys2Proof.Machine.execWhiskLapEnd r s
  | .btStep die struct fails => Sys2Proof.Machine.execBtStep die struct fails s
  | .rebuildStart => Sys2Proof.Machine.execRebuildStart s
  | .rebuildDone => Sys2Proof.Machine.execRebuildDone s
  | .remapCopyDone lane row => Sys2Proof.Machine.execRemapCopyDone lane row s
  | .colanderDrain die => Sys2Proof.Machine.execColanderDrain die s
  | .sealComplete w => Sys2Proof.Machine.execSealComplete w s
  | .cacheWarmSector p => Sys2Proof.Machine.execCacheWarmSector p s
  | .moverChunkDone p => Sys2Proof.Machine.execMoverChunkDone p s
  | .nop m opcode c => Sys2Proof.Machine.execNop m opcode c s
  | .cacheEnable m c => Sys2Proof.Machine.execCacheEnable m c s
  | .cacheDisable m c => Sys2Proof.Machine.execCacheDisable m c s
  | .cacheDisableDrainDone => Sys2Proof.Machine.execCacheDisableDrainDone s
  | .cacheRange m c => Sys2Proof.Machine.execCacheRange m c s
  | .cacheRangeDone => Sys2Proof.Machine.execCacheRangeDone s
  | .wayPower m c => Sys2Proof.Machine.execWayPower m c s
  | .wayPowerOffDone => Sys2Proof.Machine.execWayPowerOffDone s
  | .wayLock m c => Sys2Proof.Machine.execWayLock m c s
  | .wayLockDone => Sys2Proof.Machine.execWayLockDone s
  | .regionSet m c => Sys2Proof.Machine.execRegionSet m c s
  | .shadowLoadDone => Sys2Proof.Machine.execShadowLoadDone s
  | .arrayPopSet m c => Sys2Proof.Machine.execArrayPopSet m c s
  | .partCreate m c => Sys2Proof.Machine.execPartCreate m c s
  | .partSet m c => Sys2Proof.Machine.execPartSet m c s
  | .partQuiesce m c => Sys2Proof.Machine.execPartQuiesce m c s
  | .partQuiesceDone p => Sys2Proof.Machine.execPartQuiesceDone p s
  | .partResume m c => Sys2Proof.Machine.execPartResume m c s
  | .partReset m c => Sys2Proof.Machine.execPartReset m c s
  | .partFreeze m c => Sys2Proof.Machine.execPartFreeze m c s
  | .partFreezeDone p => Sys2Proof.Machine.execPartFreezeDone p s
  | .partSave m c => Sys2Proof.Machine.execPartSave m c s
  | .partSaveDone p => Sys2Proof.Machine.execPartSaveDone p s
  | .partRestore m c => Sys2Proof.Machine.execPartRestore m c s
  | .partRestoreLoadDone p => Sys2Proof.Machine.execPartRestoreLoadDone p s
  | .partDestroy m c => Sys2Proof.Machine.execPartDestroy m c s
  | .witnessArm m c => Sys2Proof.Machine.execWitnessArm m c s
  | .witnessDisarm m c => Sys2Proof.Machine.execWitnessDisarm m c s
  | .expertSet m c => Sys2Proof.Machine.execExpertSet m c s
  | .keyLoad m c => Sys2Proof.Machine.execKeyLoad m c s
  | .keyRotate m c => Sys2Proof.Machine.execKeyRotate m c s
  | .fwStage m c => Sys2Proof.Machine.execFwStage m c s
  | .fwSwitch m c => Sys2Proof.Machine.execFwSwitch m c s
  | .fwHandover => Sys2Proof.Machine.execFwHandover s
  | .errInject m c => Sys2Proof.Machine.execErrInject m c s
  | .ledgerErase m c => Sys2Proof.Machine.execLedgerErase m c s
  | .moverCopy p d => Sys2Proof.Machine.execMoverCopy p d s
  | .moverFill p d => Sys2Proof.Machine.execMoverFill p d s
  | .moverZero p d => Sys2Proof.Machine.execMoverZero p d s
  | .moverCrc p d => Sys2Proof.Machine.execMoverCrc p d s
  | .moverCompare p d => Sys2Proof.Machine.execMoverCompare p d s
  | .cmdDb a m v => Sys2Proof.Machine.execCmdDb a m v s
  | .cplDb a m v => Sys2Proof.Machine.execCplDb a m v s
  | .evtDb a v => Sys2Proof.Machine.execEvtDb a v s
  | .movDb a p v => Sys2Proof.Machine.execMovDb a p v s
  | .witSeal a w v => Sys2Proof.Machine.execWitSeal a w v s
  | .lidKeyWrite a v => Sys2Proof.Machine.execLidKeyWrite a v s
  | .warmResetWest a v => Sys2Proof.Machine.execWarmResetWest a v s
  | .warmResetEast a v => Sys2Proof.Machine.execWarmResetEast a v s
  | .warmResetDone die => Sys2Proof.Machine.execWarmResetDone die s
  | .snap a v => Sys2Proof.Machine.execSnap a v s
  | .park a v => Sys2Proof.Machine.execPark a v s
  | .parkDrainDone => Sys2Proof.Machine.execParkDrainDone s
  | .witCtlClear a v => Sys2Proof.Machine.execWitCtlClear a v s
  | .linkEnable a n v => Sys2Proof.Machine.execLinkEnable a n v s
  | .retrain a n v => Sys2Proof.Machine.execRetrain a n v s
  | .mgrCtlEnable a m v => Sys2Proof.Machine.execMgrCtlEnable a m v s
  | .cohHostGeomWrite a n v => Sys2Proof.Machine.execCohHostGeomWrite a n v s
  | .cohTwinGeomWrite a v => Sys2Proof.Machine.execCohTwinGeomWrite a v s
  | .cacheTrkCtlWrite a v => Sys2Proof.Machine.execCacheTrkCtlWrite a v s
  | .cacheCastCtlWrite a v => Sys2Proof.Machine.execCacheCastCtlWrite a v s
  | .fsPeriodWrite a v => Sys2Proof.Machine.execFsPeriodWrite a v s
  | .fsTickCtlWrite a v => Sys2Proof.Machine.execFsTickCtlWrite a v s
  | .whiskFloorWrite a v => Sys2Proof.Machine.execWhiskFloorWrite a v s
  | .pmuClrCyc a v => Sys2Proof.Machine.execPmuClrCyc a v s
  | .pmuClrCnt a v => Sys2Proof.Machine.execPmuClrCnt a v s
  | .mbSelWrite a k v => Sys2Proof.Machine.execMbSelWrite a k v s
  | .mailboxFetchDone die k => Sys2Proof.Machine.execMailboxFetchDone die k s
  | .mbLastWordRead a k => Sys2Proof.Machine.execMbLastWordRead a k s
  | .clearOnRead a off => Sys2Proof.Machine.execClearOnRead a off s
  | .bitAliasWrite a byte bit v => Sys2Proof.Machine.execBitAliasWrite a byte bit v s
  | .registerWrite a off v => Sys2Proof.Machine.execRegisterWrite a off v s
  | .i3cRead index => Sys2Proof.Machine.execI3cRead index s
  | .i3cDynamicAddress addr => Sys2Proof.Machine.execI3cDynamicAddress addr s
  | .bypass => Sys2Proof.Machine.execBypass s
  | .idcode => Sys2Proof.Machine.execIdcode s
  | .samplePreload => Sys2Proof.Machine.execSamplePreload s
  | .extest => Sys2Proof.Machine.execExtest s
  | .extestPulse => Sys2Proof.Machine.execExtestPulse s
  | .extestTrain => Sys2Proof.Machine.execExtestTrain s
  | .coldReset => Sys2Proof.Machine.execColdReset s
  | .pwrGood hubId bootSel arrayPop => Sys2Proof.Machine.execPwrGood hubId bootSel arrayPop s
  | .railOutOfRange aon => Sys2Proof.Machine.execRailOutOfRange aon s
  | .pwrWarn => Sys2Proof.Machine.execPwrWarn s
  | .pwrWarnSnoopDeadline => Sys2Proof.Machine.execPwrWarnSnoopDeadline s
  | .pwrWarnDrainDone => Sys2Proof.Machine.execPwrWarnDrainDone s
  | .pwrWarnRelease => Sys2Proof.Machine.execPwrWarnRelease s
  | .wake => Sys2Proof.Machine.execWake s
  | .kettleParkedScrub word x => Sys2Proof.Machine.execKettleParkedScrub word x s
  | .thermCrossing die temp => Sys2Proof.Machine.execThermCrossing die temp s
  | .blockLockLoss l => Sys2Proof.Machine.execBlockLockLoss l s
  | .peerRecoveryTrainingSets l => Sys2Proof.Machine.execPeerRecoveryTrainingSets l s
  | .memTrainingFailed die j reason => Sys2Proof.Machine.execMemTrainingFailed die j reason s
  | .channelLost k rate => Sys2Proof.Machine.execChannelLost k rate s
  | .fwImageAuthFailed => Sys2Proof.Machine.execFwImageAuthFailed s
  | .fwResumedFromRetention digestGood => Sys2Proof.Machine.execFwResumedFromRetention digestGood s
  | .fwStageDone digestGood => Sys2Proof.Machine.execFwStageDone digestGood s
  | .fwHandoverDone => Sys2Proof.Machine.execFwHandoverDone s
  | .ringFetchErr mover k => Sys2Proof.Machine.execRingFetchErr mover k s
  | .flitTime l => Sys2Proof.Machine.execFlitTime l s

end Sys2Proof.Machine
end

