-- ==== Sys2Proof/Machine/Step.lean ====
section
/-! DEFINITION. One step of the machine: the command at the front of the queue is performed with the queue's rest; on an empty queue one cycle
passes. -/

namespace Sys2Proof.Machine

/-- One step. On an empty queue the hub's clock goes on by one cycle (DESIGN CHOICE, log entry 2). -/
def step (s : State) : Host.Outcome State Fault Refusal :=
  match s.pending with
  | [] => .next ⟨cycle s.hub, []⟩
  | c :: rest => exec c ⟨s.hub, rest⟩

/-- The state with the command that a table word spells at the front of its queue. The table gives no row any bits, so no word spells one. -/
def State.withFetchWord (s : State) (nbits w : Nat) : State :=
  match Sys2Proof.decodeTableWord nbits w with
  | some c => ⟨s.hub, c :: s.pending⟩
  | none => s

end Sys2Proof.Machine
end

