-- ==== Sys2Proof/WellFormed.lean ====
section
/-! DEFINITION. Which commands are well formed: the ranges of operands that the constructors' types do not already fix. The meanings are
total; an ill-formed command is one that nothing outside the hub can send. -/

namespace Sys2Proof

/-- Whether data is whole 16-byte slots, no more than DSLOTS counts (R322, R330). -/
def slotsWf (d : List Byte) : Bool := d.length % 16 == 0 && decide (d.length ≤ 16 * 31)

/-- Whether a flit has its 256 bytes (Table: Flit layout). -/
def flitWf (f : List Byte) : Bool := f.length == 256

/-- Whether a peer announces eight credit pools (R319). -/
def UpInfo.wf (u : UpInfo) : Bool := u.credits.length == 8

/-- Whether a disturbance names words and beats of one line (R199, R218). -/
def Disturb.wf (x : Disturb) : Bool := x.words.all (fun p => decide (p.1 < 16)) && x.beats.all (fun p => decide (p.1 < 16))

/-- Opcodes of Table: Command catalogue but NOP (R270), which have rows of their own. -/
def catalogued : List Nat :=
  [0x01, 0x02, 0x03, 0x04, 0x05, 0x06, 0x07, 0x10, 0x11, 0x12, 0x13, 0x14, 0x15, 0x16, 0x17, 0x18, 0x20, 0x21, 0x28, 0x30, 0x31, 0x38, 0x39, 0x3A, 0x3B]

/-- Whether the row NOP stands for a descriptor's opcode: 0, or one that the catalogue does not list. -/
def nopWf (opcode : Byte) : Bool := !(catalogued.contains opcode.toNat)

/-- Whether an offset names a register word (R378). -/
def offWf (off : BitVec 20) : Bool := off.toNat % 4 == 0

/-- Whether a partition number names a partition of the table (R288). -/
def pidWf (p : BitVec 6) : Bool := p != 0#6

/-- Whether a host number names a geometry register (Table: COH_HOST_n_GEOM). -/
def hostWf (n : BitVec 3) : Bool := n != 7#3

/-- Whether a unit number names one of a die's four channels (0 to 3) or two lanes (4, 5) (R401, R404). -/
def unitWf (j : BitVec 3) : Bool := decide (j.toNat < 6)

/-- Whether a Whisk number names a lane or a channel: 0 to 3 lanes, 4 to 11 channels (R228). -/
def whiskWf (r : BitVec 4) : Bool := decide (r.toNat < 12)

/-- Whether a command is well formed. -/
def Instr.wf : Instr → Bool
  | .rdShared _ _ => true
  | .rdUnique _ _ => true
  | .rdOnce _ _ => true
  | .rdNosnp _ _ => true
  | .cleanUnique _ _ => true
  | .rdResv _ _ => true
  | .wrLine _ _ d => slotsWf d
  | .wrPart _ _ d => slotsWf d
  | .wrNosnp _ _ d => slotsWf d
  | .atomic _ _ d => slotsWf d
  | .stCond _ _ d => slotsWf d
  | .castData _ _ d => slotsWf d
  | .writeBack _ _ d => slotsWf d
  | .snpRsp _ _ _ _ _ d => slotsWf d
  | .data _ _ _ _ d => slotsWf d
  | .linkCtlSetReport _ _ _ d => slotsWf d
  | .compData _ _ d => slotsWf d
  | .flitReceived _ f => flitWf f
  | .linkUp _ u => u.wf
  | .fillDataLands _ x => x.wf
  | .prefetchLands _ _ x => x.wf
  | .whiskLineRead r _ x => whiskWf r && x.wf
  | .whiskLapEnd r => whiskWf r
  | .memTrainBackoffExpiry _ j => unitWf j
  | .memTrainingFailed _ j _ => unitWf j
  | .nop _ o _ => nopWf o
  | .moverChunkDone p => pidWf p
  | .moverCopy p _ => pidWf p
  | .moverFill p _ => pidWf p
  | .moverZero p _ => pidWf p
  | .moverCrc p _ => pidWf p
  | .moverCompare p _ => pidWf p
  | .movDb _ p _ => pidWf p
  | .cohHostGeomWrite _ n _ => hostWf n
  | .clearOnRead _ off => offWf off
  | .registerWrite _ off _ => offWf off
  | .zeroLine _ _ => true
  | .castOffer _ _ => true
  | .evictNote _ _ => true
  | .fence _ _ => true
  | .resvClear _ _ => true
  | .pfHint _ _ => true
  | .fwdDone _ _ _ _ _ => true
  | .linkCtlSetQuery _ _ _ => true
  | .tick _ _ => true
  | .snpShared _ _ => true
  | .snpUnique _ _ => true
  | .snpInval _ _ => true
  | .snpFwdShared _ _ => true
  | .snpFwdUnique _ _ => true
  | .comp _ _ => true
  | .wbAck _ _ => true
  | .fenceAck _ _ => true
  | .scResult _ _ => true
  | .castAccept _ _ => true
  | .castDecline _ _ => true
  | .castDone _ _ => true
  | .replayTimer _ => true
  | .recoveryTimeout _ => true
  | .linkDown _ => true
  | .trainingStageTimeout _ _ _ => true
  | .trainingBackoffExpiry _ => true
  | .channelTrained _ _ _ _ => true
  | .arrayTrained _ _ _ => true
  | .nearZeroFillDone => true
  | .fwRetryBackoffExpiry => true
  | .fwImageAuthenticated _ _ => true
  | .ftickEdge _ _ => true
  | .internalTimerTick => true
  | .frameTick => true
  | .syntheticTick => true
  | .tickFailover => true
  | .subframeStep => true
  | .stewardPass => true
  | .stewardPassDiscard => true
  | .pmuWindowEnd => true
  | .bwWindowEnd => true
  | .historyFold => true
  | .ladleExpiry _ _ => true
  | .resvExpiry _ _ => true
  | .classBPromote _ => true
  | .snoopTimeout _ _ => true
  | .tongsHoldEnd _ => true
  | .lidTimeout _ => true
  | .pairTimeout _ => true
  | .memoryWriteComplete _ => true
  | .trackerFreedRetry _ => true
  | .streamMissRetry _ _ _ => true
  | .tagSetRebuild _ _ => true
  | .walkerTurn _ => true
  | .btStep _ _ _ => true
  | .rebuildStart => true
  | .rebuildDone => true
  | .remapCopyDone _ _ => true
  | .colanderDrain _ => true
  | .sealComplete _ => true
  | .cacheWarmSector _ => true
  | .cacheEnable _ _ => true
  | .cacheDisable _ _ => true
  | .cacheDisableDrainDone => true
  | .cacheRange _ _ => true
  | .cacheRangeDone => true
  | .wayPower _ _ => true
  | .wayPowerOffDone => true
  | .wayLock _ _ => true
  | .wayLockDone => true
  | .regionSet _ _ => true
  | .shadowLoadDone => true
  | .arrayPopSet _ _ => true
  | .partCreate _ _ => true
  | .partSet _ _ => true
  | .partQuiesce _ _ => true
  | .partQuiesceDone _ => true
  | .partResume _ _ => true
  | .partReset _ _ => true
  | .partFreeze _ _ => true
  | .partFreezeDone _ => true
  | .partSave _ _ => true
  | .partSaveDone _ => true
  | .partRestore _ _ => true
  | .partRestoreLoadDone _ => true
  | .partDestroy _ _ => true
  | .witnessArm _ _ => true
  | .witnessDisarm _ _ => true
  | .expertSet _ _ => true
  | .keyLoad _ _ => true
  | .keyRotate _ _ => true
  | .fwStage _ _ => true
  | .fwSwitch _ _ => true
  | .fwHandover => true
  | .errInject _ _ => true
  | .ledgerErase _ _ => true
  | .cmdDb _ _ _ => true
  | .cplDb _ _ _ => true
  | .evtDb _ _ => true
  | .witSeal _ _ _ => true
  | .lidKeyWrite _ _ => true
  | .warmResetWest _ _ => true
  | .warmResetEast _ _ => true
  | .warmResetDone _ => true
  | .snap _ _ => true
  | .park _ _ => true
  | .parkDrainDone => true
  | .witCtlClear _ _ => true
  | .linkEnable _ _ _ => true
  | .retrain _ _ _ => true
  | .mgrCtlEnable _ _ _ => true
  | .cohTwinGeomWrite _ _ => true
  | .cacheTrkCtlWrite _ _ => true
  | .cacheCastCtlWrite _ _ => true
  | .fsPeriodWrite _ _ => true
  | .fsTickCtlWrite _ _ => true
  | .whiskFloorWrite _ _ => true
  | .pmuClrCyc _ _ => true
  | .pmuClrCnt _ _ => true
  | .mbSelWrite _ _ _ => true
  | .mailboxFetchDone _ _ => true
  | .mbLastWordRead _ _ => true
  | .bitAliasWrite _ _ _ _ => true
  | .i3cRead _ => true
  | .i3cDynamicAddress _ => true
  | .bypass => true
  | .idcode => true
  | .samplePreload => true
  | .extest => true
  | .extestPulse => true
  | .extestTrain => true
  | .coldReset => true
  | .pwrGood _ _ _ => true
  | .railOutOfRange _ => true
  | .pwrWarn => true
  | .pwrWarnSnoopDeadline => true
  | .pwrWarnDrainDone => true
  | .pwrWarnRelease => true
  | .wake => true
  | .kettleParkedScrub _ _ => true
  | .thermCrossing _ _ => true
  | .blockLockLoss _ => true
  | .peerRecoveryTrainingSets _ => true
  | .channelLost _ _ => true
  | .fwImageAuthFailed => true
  | .fwResumedFromRetention _ => true
  | .fwStageDone _ => true
  | .fwHandoverDone => true
  | .ringFetchErr _ _ => true
  | .flitTime _ => true

end Sys2Proof
end

