-- ==== Sys2Proof/Safety.lean ====
section
/-! DEFINITION. What counts as a safe state and a safe step, in the terms claims use. -/

namespace Sys2Proof.Machine

/-- The memories behind the hub are in canonical form. -/
def State.memOk (s : State) : Prop := s.hub.mem.wf = true

/-- Every waiting command is well formed. -/
def State.queueOk (s : State) : Prop := s.pending.all Instr.wf = true

/-- The machine goes on: its next step neither faults nor is refused. -/
def State.goesOn (s : State) : Prop := ∃ t, step s = .next t

/-- A run of `n` steps goes on all the way. -/
def State.safeFor : Nat → State → Prop
  | 0, _ => True
  | n + 1, s => ∃ t, step s = .next t ∧ State.safeFor n t

/-- Nothing waits at a home: no transaction is open, no request waits to be ordered, no Tongs line is held, no retired sector is to be evicted and no
echo write waits for a write-buffer line. -/
def Hub.quiet (h : Hub) : Prop := h.txns = [] ∧ h.waiting = [] ∧ h.tongs = [] ∧ h.integ.evict = [] ∧ h.cache.echoDue = []

/-- An idle hub: in RUN with nothing open anywhere, its memories in canonical form, no error pending on its paths, in the Sieve's parity or in the Kettle,
no witness window and no PMU event selected. -/
def Hub.idle (h : Hub) : Prop :=
  h.quiet ∧ h.snps = [] ∧ h.recov = [] ∧ h.undef = [] ∧ h.wbs = [] ∧ (h.sieve.all fun e => !parityBad h e) = true ∧ h.life.warm = [] ∧ h.life.phase = .run ∧ h.integ.pathErr = []
    ∧ h.wins = [] ∧ h.mem.wf = true ∧ h.mem.ketErr = [] ∧ (∀ d n, d < 2 → n < 8 → bfind h.regs (d * 0x100000 + 0x4910 + 8 * n) = none)

/-- Link `l` can take a request whose form the tables allow, that is admitted and whose address entry `e` of this hub resolves. -/
def Hub.takes (h : Hub) (l op : Nat) (r : ReqHdr) (d : List Byte) (e : REntry) : Prop :=
  linkTrained h l = true ∧ (link h l).inbox = [] ∧ listedOp h l op = true ∧ admitted h l r.pid.toNat r.stream.toNat = true
    ∧ (rmapFind h r.addr.toNat).map Prod.snd = some e ∧ e.here h = true
    ∧ formStatus h (reqOf l h.nextId (reqMsg op r d) h) r.len.toNat (ceilDiv d.length 16) = 0

/-- From one hub to another, link `l` has one more message to send, and it answers request `r`; the other links' queues are as they were. -/
def Hub.answered (h t : Hub) (l : Nat) (r : ReqHdr) (p : Msg → Prop) : Prop :=
  (∃ o, (link t l).q = (link h l).q ++ [o] ∧ o.sent = 0 ∧ o.slots = 1 + ceilDiv o.msg.data.length 16
    ∧ o.msg.vc = r.vc ∧ o.msg.stream = r.stream.toNat ∧ o.msg.tag = r.tag.toNat ∧ p o.msg)
    ∧ ∀ k, k ≠ l → (link t k).q = (link h k).q

/-- Slot of manager `m`'s completion ring that its next completion goes to. -/
def Hub.cplSlot (h : Hub) (m : Nat) : Nat := cplBase h m + 16 * ((mgr h m).cplTail % cplSize h m)

/-- Manager `m`'s completions go to a Kettle region `e` of this hub, and its ring has a free slot. -/
def Hub.ringIn (h : Hub) (m : Nat) (e : REntry) : Prop :=
  (rmapFind h (h.cplSlot m)).map Prod.snd = some e ∧ e.here h = true ∧ e.typ = .kettle ∧ (mgr h m).held = [] ∧ 0 < cplFree h m ∧ h.mons = []

/-- The hub may take command `c` of opcode `op` from manager `m`'s ring, and its authentication and form pass (R265, R270 to R274); its counter, if it
bears one, is below the next write of the Ledger's floor. -/
def Hub.takesCmd (h : Hub) (m op : Nat) (c : CmdWord) : Prop :=
  m < 4 ∧ canTake h m = true
    ∧ (∃ k, cmdSpec op = some k ∧ (k.mgr0 = true → m = 0) ∧ reservedSet k c = false)
    ∧ ((c.auth = false ∧ isCritical op m c h = false)
      ∨ (c.auth = true ∧ keyLoaded h m = true ∧ macGood h m op c = true ∧ (mgr h m).lastCtr < c.counter.toNat
          ∧ c.counter.toNat < bget h.led.floor m 0 + 4096))

/-- From one hub to another, the next completion of manager `m` was written into its slot of Kettle region `e`: FINAL, with these fields and the phase of its
pass (R266); no other byte of the Kettle changed. -/
def Hub.posted (h t : Hub) (m : Nat) (e : REntry) (tag status op result info : Nat) : Prop :=
  memReadN t.mem.kettle (e.off (h.cplSlot m)) 16
      = toBytes 16 (tag % 65536 + status % 256 * 2 ^ 16 + op % 256 * 2 ^ 24 + h.fs.frame % 2 ^ 32 * 2 ^ 32 + result % 2 ^ 48 * 2 ^ 64
          + info % 256 * 2 ^ 112 + 2 ^ 120 + b2n (mgr h m).phase * 2 ^ 127)
    ∧ (∀ a, (a < e.off (h.cplSlot m) ∨ e.off (h.cplSlot m) + 16 ≤ a) → memRead t.mem.kettle a = memRead h.mem.kettle a)
    ∧ (mgr t m).cplTail = ((mgr h m).cplTail + 1) % 65536

/-- From one hub to another, heavy command `c` of opcode `op` was taken from manager `m`'s ring and its job started, with no completion yet (R268). -/
def Hub.startedHeavy (h t : Hub) (m op : Nat) (c : CmdWord) : Prop :=
  (∃ v, t.heavy = h.heavy ++ [v] ∧ v.mgr = m ∧ v.opcode = op ∧ v.tag = c.tag.toNat ∧ v.pid = c.pid.toNat ∧ v.irq = c.irq ∧ v.job = h.nextId)
    ∧ (mgr t m).cplTail = (mgr h m).cplTail ∧ (mgr t m).head = ((mgr h m).head + 1) % 65536 ∧ t.mem = h.mem

/-- An access of a die's window that comes over a trained link, is admitted (R289, R378), and where it is one of a control register that CB_ACC allows (R380). -/
def Hub.mayAccess (h : Hub) (a : RegAcc) (off : Nat) : Prop :=
  linkTrained h a.link.toNat = true ∧ admitted h a.link.toNat a.pid.toNat a.stream.toNat = true ∧ h.life.phase = .run
    ∧ (off < 0x10000 ∨ 0x80000 ≤ off → cbAllows h a.link.toNat a.pid.toNat = true)

/-- A register access is answered on its link: one more message, with its virtual channel, stream and tag, COMP with the given link status for a write and COMP_DATA
with a 4-byte value in its place of a 16-byte slot for a read. -/
def Hub.acked (h t : Hub) (a : RegAcc) (st : Nat) (v : Option (Nat × Nat)) : Prop :=
  ∃ o, (link t a.link.toNat).q = (link h a.link.toNat).q ++ [o] ∧ o.msg.vc = a.vc ∧ o.msg.stream = a.stream.toNat ∧ o.msg.tag = a.tag.toNat ∧ o.msg.lstat = st
    ∧ (match v with
      | none => o.msg.op = 0xA1 ∧ o.msg.data = []
      | some (off, x) => o.msg.op = 0xA2 ∧ o.msg.data = slotData off (toBytes 4 x))

end Sys2Proof.Machine
end

