-- ==== Sys2Proof/Certificates/Slice0/Obligations.lean ====
section
/-! DEFINITION. Statements about the hub for the provers: what each family of commands does to each kind of state, that every command completes where
the spec gives it an effect, and the rules of the whole machine. A state is written as a hub `h` and a queue `q` of waiting commands. -/

open Sys2Proof Sys2Proof.Machine

/-! ### Reset, boot, power, park and wake -/

/-- COLD_RESET, and a rail out of its range, leave the cold-reset state (R411, R412, R422): no register word, table or queue is listed any more, so
each reads its reset value; the Ledger and the Kettle's bytes stay, and a loss of the always-on rail is remembered (R346). -/
def Obligations.ColdResetLeaves : Prop :=
  ∀ (h : Hub) (q : List Instr) (i : Instr),
    (i = .coldReset ∨ i = .railOutOfRange true ∨ (i = .railOutOfRange false ∧ h.life.phase ≠ .parked ∧ h.life.resetLow = false)) →
    ∃ t, exec i ⟨h, q⟩ = .next ⟨t, q⟩
      ∧ t.life.resetLow = true ∧ t.regs = [] ∧ t.links = [] ∧ t.rmap = [] ∧ t.parts = [] ∧ t.sieve = []
      ∧ t.cache = {} ∧ t.txns = [] ∧ t.mons = [] ∧ t.wins = [] ∧ t.mgrs = [] ∧ t.mem.array = []
      ∧ t.mem.kettle = h.mem.kettle ∧ t.mem.ketErr = h.mem.ketErr
      ∧ t.led = { h.led with typeNew := [] }
      ∧ t.life.kettleLost = (h.life.kettleLost || decide (i = .railOutOfRange true))

/-- PWR_GOOD while RESET_N is low starts the ROM (R394): BOOT, the straps sampled (R430), the counters of R274 from the Ledger's floors (2^63 where a
floor is unreadable, R400), and a Kettle whose contents were lost zeroed and marked LOST on both dies (R346). At other times nothing changes. -/
def Obligations.PowerGoodStartsTheRom : Prop :=
  ∀ (h : Hub) (q : List Instr) (a b : Bool) (p : BitVec 2),
    (h.life.resetLow = true →
      ∃ t, exec (.pwrGood a b p) ⟨h, q⟩ = .next ⟨t, q⟩
        ∧ t.life.resetLow = false ∧ t.life.phase = .boot ∧ t.life.hubId = a ∧ t.life.bootSel = b ∧ t.life.arrayPop = p.toNat
        ∧ t.life.lastRst = [(0, 0), (1, 0)]
        ∧ (∀ m, m < 4 → (mgr t m).lastCtr = if h.led.bad.contains m then 2 ^ 63 else bget h.led.floor m 0 + 4096)
        ∧ (h.life.kettleLost = true → t.mem.kettle = [] ∧ t.mem.ketErr = [] ∧ t.life.kettleLost = false
            ∧ regField t 0 0x4800 0 0 = 1 ∧ regField t 1 0x4800 0 0 = 1)
        ∧ (h.life.kettleLost = false → t.mem.kettle = h.mem.kettle ∧ t.mem.ketErr = h.mem.ketErr)
        ∧ t.mem.main = h.mem.main ∧ t.rmap = h.rmap)
    ∧ (h.life.resetLow = false → exec (.pwrGood a b p) ⟨h, q⟩ = .next ⟨h, q⟩)

/-- The boot ROM's two ends (R394, R395). An image that authenticates runs and brings the package to RUN, with its header's fields shown; where none
does, both slots are marked failed, a package in BOOT serves in ROM_SERVICE, and the next attempt waits for a backoff of 1 ms that doubles up to
128 ms. The backoff's expiry lets the ROM read again. -/
def Obligations.RomReadsTheSlots : Prop :=
  ∀ (h : Hub) (q : List Instr),
    (romReads h = true →
      (∀ (b : Bool) (f : FwHdr), ∃ t, exec (.fwImageAuthenticated b f) ⟨h, q⟩ = .next ⟨t, q⟩
        ∧ t.life.phase = .run ∧ t.life.fwSlot = b ∧ t.life.fwMajor = f.major.toNat ∧ t.life.fwMinor = f.minor.toNat
        ∧ t.life.rdMin = f.rdMin.toNat ∧ t.life.rdMax = f.rdMax.toNat ∧ t.life.wrMax = f.wrMax.toNat
        ∧ (fwSlot t b).valid = true ∧ (fwSlot t b).failed = false
        ∧ (b ≠ firstSlot h → (fwSlot t (firstSlot h)).failed = true)
        ∧ t.life.romFrom = none ∧ t.life.romBackoff = 0 ∧ t.fs.started = true ∧ t.fs.frame = 0
        ∧ t.mem = h.mem ∧ t.mgrs = h.mgrs)
      ∧ ∃ t, exec .fwImageAuthFailed ⟨h, q⟩ = .next ⟨t, q⟩
        ∧ t.life.phase = .romService ∧ (fwSlot t false).failed = true ∧ (fwSlot t true).failed = true
        ∧ t.life.romBackoff = (if h.life.romBackoff = 0 then 1 else min 128 (2 * h.life.romBackoff))
        ∧ t.life.romFrom = some h.now ∧ t.mem = h.mem)
    ∧ (∀ t0, h.life.romFrom = some t0 → t0 + h.life.romBackoff * 1250000 ≤ h.now →
        exec .fwRetryBackoffExpiry ⟨h, q⟩ = .next ⟨{ h with life := { h.life with romFrom := none } }, q⟩)

/-- A wake's firmware resumes from retention (R408, R409): where the digest is good the package is in RUN again, with the frame number one further, the
Ledger's failed resources shown, every partition, window and region map entry as at park, and links with ENABLE training; where it is not, the
package boots as after PWR_GOOD. -/
def Obligations.ResumeFromRetention : Prop :=
  ∀ (h : Hub) (q : List Instr), h.life.phase = .boot → h.life.waking = true →
    (h.life.arrayPop < 4 → exec (.fwResumedFromRetention false) ⟨h, q⟩
        = exec (.pwrGood h.life.hubId h.life.bootSel (BitVec.ofNat 2 h.life.arrayPop)) ⟨coldHub false h, q⟩)
    ∧ ∃ t, exec (.fwResumedFromRetention true) ⟨h, q⟩ = .next ⟨t, q⟩
      ∧ t.life.phase = .run ∧ t.fs.frame = (h.fs.frame + 1) % 2 ^ 32 ∧ t.rmap = h.rmap ∧ t.wins = h.wins
      ∧ (∀ p, (part t p).st = (part h p).st ∧ (part t p).links = (part h p).links ∧ (part t p).bud = (part h p).bud)
      ∧ (∀ m, m < 4 → (mgr t m).lastCtr = if h.led.bad.contains m then 2 ^ 63 else bget h.led.floor m 0 + 4096)
      ∧ t.integ.failed = h.led.failed ∧ t.lid = [] ∧ t.pmu = [] ∧ t.mem = h.mem

/-- WAKE and the release of PWR_WARN (R408, R410, R411): a WAKE while PARKED boots from retention at once, or is held while PWR_WARN is asserted and taken
at its release; one in PARKING, or in a DRAIN that left PARKING, is held until the package is PARKED. PWR_WARN begins the drain (R173, R410): every reservation is lost and the package is in DRAIN, from which service resumes where the package was. When
no write-buffer line and no accepted write is left, DRAIN_DONE puts every trained channel in self-refresh; a release after that resumes the phase left, stated
of a hub at whose homes nothing waits. At the snoop deadline a write whose snoop has no answer goes on without it: the host is shown in I, and the write's data is in
the write buffer. -/
def Obligations.WakeAndPowerWarning : Prop :=
  ∀ (h : Hub) (q : List Instr),
    (h.life.phase = .parked → h.life.pwrWarn = false →
      exec .wake ⟨h, q⟩ = .next ⟨{ h with life := { h.life with
        phase := .boot, waking := true, wakeWait := false, parked := false, lastRst := [(0, 1), (1, 1)] } }, q⟩)
    ∧ ((h.life.phase = .parking ∨ (h.life.phase = .parked ∧ h.life.pwrWarn = true) ∨ (h.life.phase = .drain ∧ h.life.back = .parking)) →
      exec .wake ⟨h, q⟩ = .next ⟨{ h with life := { h.life with wakeWait := true } }, q⟩)
    ∧ (h.life.phase = .parked → h.life.pwrWarn = true → h.life.wakeWait = true →
      exec .pwrWarnRelease ⟨h, q⟩ = .next ⟨{ h with life := { h.life with
        pwrWarn := false, phase := .boot, waking := true, wakeWait := false, parked := false, lastRst := [(0, 1), (1, 1)] } }, q⟩)
    ∧ (h.life.phase = .drain → h.life.pwrWarn = true → h.life.drainDone = false →
      exec .pwrWarnRelease ⟨h, q⟩ = .next ⟨{ h with life := { h.life with pwrWarn := false, warnGone := true } }, q⟩)
    ∧ (h.life.resetLow = false → h.life.phase ≠ .parked → h.life.phase ≠ .drain →
      exec .pwrWarn ⟨h, q⟩ = .next ⟨{ h with mons := [], life := { h.life with
        pwrWarn := true, warnGone := false, phase := .drain, back := h.life.phase, drainAt := some h.now, drainDone := false } }, q⟩)
    ∧ (h.life.phase = .drain → h.life.drainDone = false → h.wbs = [] → writesOpen h = false → h.life.back ≠ .parking → h.life.warnGone = false →
      ∃ t, exec .pwrWarnDrainDone ⟨h, q⟩ = .next ⟨t, q⟩ ∧ t.life.phase = .drain ∧ t.life.drainDone = true
        ∧ t.life.chans = h.life.chans.map (fun e => (e.1, { e.2 with selfRefresh := e.2.trained })) ∧ t.mem = h.mem)
    ∧ (h.quiet → h.life.phase = .drain → h.life.pwrWarn = true → h.life.drainDone = true →
      exec .pwrWarnRelease ⟨h, q⟩ = .next ⟨{ h with life := { h.life with
        pwrWarn := false, phase := h.life.back, drainAt := none, drainDone := false, warnGone := false,
        chans := h.life.chans.map (fun e => (e.1, { e.2 with selfRefresh := false })) } }, q⟩)
    ∧ (∀ (t0 : Nat) (x : Txn) (s : Snp) (e : REntry), h.life.drainAt = some t0 → h.life.phase = .drain → t0 + 50000 ≤ h.now →
        Hub.idle { h with txns := [], snps := [], life := { h.life with phase := .run } } → h.txns = [x] → h.snps = [s] → x.ph = .snoop → x.req.op = 0x21 →
        x.req.src = .link → linkTrained h x.req.link = true → x.req.ent = e → e.typ = .nwt → e.here h = true → x.req.addr % 128 = 0 → x.req.size = 128 →
        x.req.data.length = 128 → x.req.mask = List.replicate 128 true → x.lo = x.req.addr → x.n = 128 → x.wb = false → x.fwd = false → s.txn = x.id → s.kind = 2 →
        s.owner = false → s.held = false → s.wb = false → s.done = false → s.passed = false → h.cache.cst = .off → h.cache.sectors = [] → h.ladle = [] → h.mons = [] →
        h.twin.snps = [] → memReadable h e x.req.addr = true → 0 < wbFree h (homeCluster x.req.addr) →
      ∃ t w, exec .pwrWarnSnoopDeadline ⟨h, q⟩ = .next ⟨t, q⟩ ∧ t.snps = [] ∧ t.orphans = h.orphans ++ [(s.host, s.id)] ∧ hostSt t s.host s.addr = 0
        ∧ t.txns = [] ∧ t.wbs = [w] ∧ w.line = x.req.line ∧ w.data = x.req.data ∧ w.mask = x.req.mask ∧ t.mem = h.mem)

/-- The end of a park's drain (R405, R406). When the Movers, the write buffer and the transactions are done with, a package in PARKING is PARKED: the cache
is off, the array and every coherence structure are empty, the links are down, and main memory, the Kettle, the region map, the partitions and the
Ledger are kept. -/
def Obligations.ParkKeepsWhatRetentionKeeps : Prop :=
  ∀ (h : Hub) (q : List Instr), h.life.phase = .parking → h.movs = [] → h.wbs = [] → h.quiet → h.cache.cst = .off →
    (∀ d, (col h d).stages = []) → (∀ e ∈ h.wins, e.2.st = .disarmed) → h.life.wakeWait = false →
    ∃ t, exec .parkDrainDone ⟨h, q⟩ = .next ⟨t, q⟩ ∧ t.life.phase = .parked ∧ t.life.parked = true ∧ t.cache.cst = .off
      ∧ t.mem.main = h.mem.main ∧ t.mem.kettle = h.mem.kettle ∧ t.mem.array = [] ∧ t.sieve = [] ∧ t.txns = [] ∧ t.mons = []
      ∧ (∀ l, (link t l).st = .down) ∧ t.rmap = h.rmap ∧ t.parts = h.parts ∧ t.led = h.led ∧ t.regs = h.regs

/-- WARM_RESET_DONE (R413): once nothing homed on the die is open, its reset ends; the cause is shown, its Lid, mailboxes, PMU, Ladle entries and
stream detectors start anew, its links stay out of use, and the other die keeps its own. Stated of a die whose Colander is empty and whose links are
not trained, in a hub in which nothing waits at a home. -/
def Obligations.WarmResetEnds : Prop :=
  ∀ (h : Hub) (q : List Instr) (d : BitVec 1) (cause : Nat), bfind h.life.warm d.toNat = some cause → dieBusy h d.toNat = false → h.quiet →
    (col h d.toNat).stages = [] → (col h d.toNat).drops = 0 → (∀ l, 4 * d.toNat ≤ l → l < 4 * d.toNat + 4 → linkTrained h l = false) →
    ∃ t, exec (.warmResetDone d) ⟨h, q⟩ = .next ⟨t, q⟩
      ∧ bfind t.life.warm d.toNat = none ∧ bget t.life.lastRst d.toNat 0 = cause
      ∧ bfind t.lid d.toNat = none ∧ (∀ k, k < 4 → bfind t.mbox (4 * d.toNat + k) = none) ∧ bfind t.pmu d.toNat = none
      ∧ (∀ e ∈ t.ladle, dieOfCluster e.cluster ≠ d.toNat) ∧ (∀ e ∈ t.dets, dieOfCluster e.cluster ≠ d.toNat)
      ∧ (∀ l, 4 * d.toNat ≤ l → l < 4 * d.toNat + 4 → linkTrained t l = false)
      ∧ lid t (1 - d.toNat) = lid h (1 - d.toNat) ∧ pmuOf t (1 - d.toNat) = pmuOf h (1 - d.toNat)
      ∧ t.mem = h.mem ∧ t.rmap = h.rmap ∧ t.parts = h.parts

/-- A Kettle word that the scrub of a parked package finds correctable is corrected in place and counted (R346); away from PARKED nothing is read. THERM_CROSSING (R425): the die's TEMP is the reading; out of reset, THERM of a die at or above THERM_HI is set and stays set, and
THERM_N follows both dies. -/
def Obligations.ParkedScrubAndTherm : Prop :=
  (∀ (h : Hub) (q : List Instr) (w : BitVec 19) (x : BitVec 72),
    (h.life.phase ≠ .parked → exec (.kettleParkedScrub w x) ⟨h, q⟩ = .next ⟨h, q⟩)
    ∧ (h.life.phase = .parked → bfind h.mem.ketErr w.toNat = none →
        (x = 0#72 ∨ ∃ i, i < 72 ∧ x = BitVec.ofNat 72 (2 ^ i)) →
        ∃ t, exec (.kettleParkedScrub w x) ⟨h, q⟩ = .next ⟨t, q⟩ ∧ bfind t.mem.ketErr w.toNat = none ∧ t.mem.kettle = h.mem.kettle
          ∧ regField t (w.toNat / 2 ^ 18) 0x4800 31 16
              = (if x = 0#72 then regField h (w.toNat / 2 ^ 18) 0x4800 31 16 else min (regField h (w.toNat / 2 ^ 18) 0x4800 31 16 + 1) 65535)
          ∧ t.mem.main = h.mem.main ∧ t.life = h.life))
  ∧ (∀ (h : Hub) (q : List Instr) (d : BitVec 1) (x : Byte),
    ∃ t, exec (.thermCrossing d x) ⟨h, q⟩ = .next ⟨t, q⟩
      ∧ bget t.life.temp d.toNat 0 = x.toNat ∧ (∀ e, e ≠ d.toNat → bget t.life.temp e 0 = bget h.life.temp e 0)
      ∧ (h.life.resetLow = true → t.regs = h.regs ∧ t.life.thermN = h.life.thermN)
      ∧ (h.life.resetLow = false →
          (∀ e, e < 2 → regField t e 0x2C 31 31 = if isHot t e then 1 else regField h e 0x2C 31 31)
          ∧ t.life.thermN = (isHot t 0 || isHot t 1))
      ∧ t.mem = h.mem ∧ t.links = h.links)


/-! ### Training of the memories -/

/-- A channel trains, is lost and fails to train (R401, R189). A channel that trained is shown so at its rate with no attempts counted; one lost, or
trained at a lower rate, shows that; a failed attempt counts and starts a backoff that doubles from 1 ms to 128 ms. The other channels keep theirs. -/
def Obligations.ChannelTraining : Prop :=
  ∀ (h : Hub) (q : List Instr) (k : BitVec 3),
    (∀ (r : BitVec 4) (u : BitVec 16) (f : Bool), trains h = true → (chanOfMem h k.toNat).trained = false → (chanOfMem h k.toNat).backoffFrom = none →
      0 < r.toNat → r.toNat ≤ 4 →
      ∃ t, exec (.channelTrained k r u f) ⟨h, q⟩ = .next ⟨t, q⟩
        ∧ chanOfMem t k.toNat = { chanOfMem h k.toNat with
            trained := true, rate := r.toNat, attempts := 0, full := f, backoff := min 1 (chanOfMem h k.toNat).backoff, selfRefresh := false }
        ∧ (∀ j, j ≠ k.toNat → chanOfMem t j = chanOfMem h j)
        ∧ t.life.mainUnits = (if u = 0#16 then h.life.mainUnits else u.toNat) ∧ t.mem = h.mem)
    ∧ (∀ (r : BitVec 4), (chanOfMem h k.toNat).trained = true → r.toNat ≤ 4 →
      ∃ t, exec (.channelLost k r) ⟨h, q⟩ = .next ⟨t, q⟩
        ∧ chanOfMem t k.toNat = { chanOfMem h k.toNat with trained := decide (r ≠ 0#4), rate := r.toNat }
        ∧ (∀ j, j ≠ k.toNat → chanOfMem t j = chanOfMem h j) ∧ t.mem = h.mem)
    ∧ (∀ (die : BitVec 1) (j x : BitVec 3), trains h = true → j.toNat < 4 → k.toNat = 4 * die.toNat + j.toNat →
      (chanOfMem h k.toNat).trained = false → (chanOfMem h k.toNat).backoffFrom = none →
      ∃ t, exec (.memTrainingFailed die j x) ⟨h, q⟩ = .next ⟨t, q⟩
        ∧ chanOfMem t k.toNat = { chanOfMem h k.toNat with
            attempts := min ((chanOfMem h k.toNat).attempts + 1) 65535, reason := x.toNat, backoff := min 128 (2 ^ min (chanOfMem h k.toNat).attempts 7), backoffFrom := some h.now }
        ∧ (∀ i, i ≠ k.toNat → chanOfMem t i = chanOfMem h i) ∧ t.mem = h.mem)
    ∧ (∀ (die : BitVec 1) (j : BitVec 3) (t0 : Nat), j.toNat < 4 → k.toNat = 4 * die.toNat + j.toNat → (chanOfMem h k.toNat).backoffFrom = some t0 →
      ∃ t, exec (.memTrainBackoffExpiry die j) ⟨h, q⟩ = .next ⟨t, q⟩
        ∧ chanOfMem t k.toNat = { chanOfMem h k.toNat with
            backoffFrom := if t0 + (chanOfMem h k.toNat).backoff * 1250000 ≤ h.now then none else some t0 }
        ∧ (∀ i, i ≠ k.toNat → chanOfMem t i = chanOfMem h i) ∧ t.mem = h.mem)

/-- The array's four lanes train together once a channel has, and the zero-fill begins unless the population is in doubt (R401, R402, R404). When it is done
near memory reads zero, the array is in service and every SHADOW entry homed here is to be loaded; main memory and the Kettle are as before. -/
def Obligations.ArrayEntersService : Prop :=
  ∀ (h : Hub) (q : List Instr),
    (∀ (r : BitVec 2) (d f : Bool), trains h = true → h.life.lanes.trained = false → r ≠ 0#2 → h.life.arrayPop ≠ 0 →
      (∃ k, k < 8 ∧ chanTrained h k = true) → (∀ n, n < 4 → (laneOfMem h n).backoffFrom = none) →
      ∃ t, exec (.arrayTrained r d f) ⟨h, q⟩ = .next ⟨t, q⟩
        ∧ t.life.lanes.trained = true ∧ t.life.lanes.rate = r.toNat ∧ (∀ n, n < 4 → (laneOfMem t n).trained = true ∧ (laneOfMem t n).rate = r.toNat)
        ∧ t.life.dens24 = d ∧ t.life.zeroing = !h.life.mismatch ∧ t.life.arrayUp = h.life.arrayUp ∧ t.mem = h.mem)
    ∧ (h.life.zeroing = true → h.life.lanes.trained = true → trains h = true → (∀ v ∈ h.heavy, v.opcode ≠ 0x07) →
      ∃ t, exec .nearZeroFillDone ⟨h, q⟩ = .next ⟨t, q⟩
        ∧ t.life.arrayUp = true ∧ t.life.zeroing = false
        ∧ (∀ e ∈ h.rmap, e.2.valid = true → e.2.here h = true → e.2.typ = .near →
            ∀ a, e.2.tbase * unit2M ≤ a → a < e.2.tbase * unit2M + e.2.size * unit2M → memRead t.mem.array a = 0#8)
        ∧ t.shadows = h.shadows ++ ((h.rmap.filter (fun e => (e.2.valid && e.2.here h) && e.2.typ == .shadow)).map (fun e => (0, e.1, e.2)))
        ∧ t.mem.main = h.mem.main ∧ t.mem.kettle = h.mem.kettle)

/-! ### Links -/

/-- A running link that loses block lock, or sees its peer's recovery training sets, goes to RECOVERY with everything it holds kept, and the loss
counts in LINK_n_ERR.REC_CNT, which stops at 15 (R325, R326). -/
def Obligations.RecoveryEntryOfARunningLink : Prop :=
  ∀ (h : Hub) (q : List Instr) (l : BitVec 3) (i : Instr),
    (i = .blockLockLoss l ∨ i = .peerRecoveryTrainingSets l) → (link h l.toNat).st = .up →
    ∃ t, exec i ⟨h, q⟩ = .next ⟨t, q⟩
      ∧ link t l.toNat = { link h l.toNat with st := .recovery, recAt := h.now, recFull := false, replayAt := none, replays := 0 }
      ∧ (∀ k, k ≠ l.toNat → link t k = link h k)
      ∧ regField t (dieOfLink l.toNat) (0x460C + 0x40 * l.toNat) 7 4 = min (regField h (dieOfLink l.toNat) (0x460C + 0x40 * l.toNat) 7 4 + 1) 15
      ∧ t.mem = h.mem ∧ t.sieve = h.sieve ∧ t.txns = h.txns ∧ t.life = h.life

/-- A failed training attempt is counted and named in LINK_n_TRAIN, and the next waits for a backoff of 1 ms that doubles with each attempt up to
128 ms; the backoff's end lets the link train again (R316, R317). A failure of the EQ stage is no failed attempt (R318). -/
def Obligations.TrainingBackoff : Prop :=
  ∀ (h : Hub) (q : List Instr) (l : BitVec 3),
    (∀ t0, (link h l.toNat).backoffFrom = some t0 → t0 + (link h l.toNat).backoff * 1250000 ≤ h.now →
      exec (.trainingBackoffExpiry l) ⟨h, q⟩ = .next ⟨setLink h l.toNat (fun k => { k with backoffFrom := none }), q⟩)
    ∧ (∀ (st : TrainStage) (r : TrainReason), attempting h l.toNat = true → st ≠ .eq →
      ∃ t, exec (.trainingStageTimeout l st r) ⟨h, q⟩ = .next ⟨t, q⟩
        ∧ (link t l.toNat).st = .training
        ∧ (link t l.toNat).attempts = min ((link h l.toNat).attempts + 1) 65535
        ∧ (link t l.toNat).backoff = min 128 (2 ^ min (link h l.toNat).attempts 7)
        ∧ (link t l.toNat).backoffFrom = some h.now
        ∧ (link t l.toNat).stage = (match st with | .detect => 0 | .lock => 1 | .width => 2 | .param => 3 | .eq => 4)
        ∧ (link t l.toNat).reason = (match r with | .timeout => 1 | .role => 2 | .rev => 3 | .credit => 4)
        ∧ (link t l.toNat).firstFail = false ∧ t.mem = h.mem ∧ t.sieve = h.sieve)
    ∧ (∀ (r : TrainReason), exec (.trainingStageTimeout l .eq r) ⟨h, q⟩ = .next ⟨h, q⟩)

/-- A link that comes UP from training starts with the peer's credits and at sequence number 0, nothing outstanding and no attempt counted (R319, R321, R323,
R327); one that comes UP again from RECOVERY in time keeps its sequence numbers and credits and replays what is outstanding (R325). -/
def Obligations.LinkUp : Prop :=
  ∀ (h : Hub) (q : List Instr) (l : BitVec 3) (u : UpInfo), u.width.toNat < 3 →
    (attempting h l.toNat = true → paramRefusal h l.toNat u = none →
      ∃ t, exec (.linkUp l u) ⟨h, q⟩ = .next ⟨t, q⟩
        ∧ (link t l.toNat).st = .up
        ∧ (link t l.toNat).rev11 = (decide (0x11 ≤ u.revMax.toNat) && !(bitOf (linkCtl h l.toNat) 29))
        ∧ (link t l.toNat).credits = (List.range 8).map (fun p => (u.credits.getD p 0#8).toNat)
        ∧ (link t l.toNat).txSeq = 0 ∧ (link t l.toNat).rxSeq = 1023 ∧ (link t l.toNat).replay = [] ∧ (link t l.toNat).attempts = 0
        ∧ (∀ k, k ≠ l.toNat → (link t k).st = (link h k).st) ∧ t.mem = h.mem ∧ t.sieve = h.sieve ∧ t.txns = h.txns)
    ∧ ((link h l.toNat).st = .recovery → h.now ≤ (link h l.toNat).recAt + 1250000 →
      ∃ t, exec (.linkUp l u) ⟨h, q⟩ = .next ⟨t, q⟩
        ∧ (link t l.toNat).st = .up ∧ (link t l.toNat).txSeq = (link h l.toNat).txSeq ∧ (link t l.toNat).rxSeq = (link h l.toNat).rxSeq
        ∧ (link t l.toNat).credits = (link h l.toNat).credits ∧ (link t l.toNat).used = (link h l.toNat).used
        ∧ (link t l.toNat).replay = (link h l.toNat).replay
        ∧ (link t l.toNat).replayAt = (if (link h l.toNat).replay.isEmpty then none else some 0)
        ∧ t.mem = h.mem ∧ t.sieve = h.sieve)

/-- A trained link is lost by LINK_DOWN, or when RECOVERY has lasted more than 1 ms (R325, R337): it trains again while ENABLE is 1 and is DOWN otherwise,
and its reservations are gone (R172). Stated of a link of no host with a cache, whose loss settles nothing more. -/
def Obligations.LinkLost : Prop :=
  ∀ (h : Hub) (q : List Instr) (l : BitVec 3) (i : Instr), hostOfLink h l.toNat = 8 →
    ((i = .linkDown l ∧ linkTrained h l.toNat = true)
      ∨ (i = .recoveryTimeout l ∧ (link h l.toNat).st = .recovery ∧ (link h l.toNat).recAt + 1250000 < h.now)) →
    ∃ t, exec i ⟨h, q⟩ = .next ⟨t, q⟩
      ∧ (link t l.toNat).st = (if bitOf (linkCtl h l.toNat) 31 then .training else .down)
      ∧ (link t l.toNat).firstFail = false ∧ (link t l.toNat).owed = [] ∧ (link t l.toNat).owedSlots = 0
      ∧ (∀ k, k ≠ l.toNat → (link t k).st = (link h k).st)
      ∧ (∀ m ∈ t.mons, m.link ≠ l.toNat ∧ m ∈ h.mons)
      ∧ (∀ m ∈ h.mons, (∀ x ∈ h.mons, x.link = l.toNat → x.id ≠ m.id) → m ∈ t.mons)
      ∧ t.mem = h.mem ∧ t.sieve = h.sieve ∧ t.txns = h.txns

/-- One flit time of a running link (R324, R329): the next flit of a replay; with nothing to send, an idle flit, which takes no sequence number; and a
management message that waits alone with its credit leaves whole in one payload flit, which is kept for replay. -/
def Obligations.FlitTime : Prop :=
  ∀ (h : Hub) (q : List Instr) (l : BitVec 3), (link h l.toNat).st = .up →
    (∀ i f, (link h l.toNat).replayAt = some i → (link h l.toNat).replay[i]? = some f →
      ∃ t a, exec (.flitTime l) ⟨h, q⟩ = .next ⟨t, q⟩ ∧ (link t l.toNat).cur = wholeFlit f.bytes a
        ∧ (link t l.toNat).replay = (link h l.toNat).replay ∧ (link t l.toNat).txSeq = (link h l.toNat).txSeq
        ∧ (link t l.toNat).replayAt = (if i + 1 < (link h l.toNat).replay.length then some (i + 1) else none) ∧ t.mem = h.mem)
    ∧ ((link h l.toNat).replayAt = none → (link h l.toNat).q = [] →
      ∃ t a, exec (.flitTime l) ⟨h, q⟩ = .next ⟨t, q⟩ ∧ (link t l.toNat).cur = wholeFlit (flitBody 0 1 0 []) a
        ∧ (link t l.toNat).replay = (link h l.toNat).replay ∧ (link t l.toNat).txSeq = (link h l.toNat).txSeq
        ∧ (link t l.toNat).crSel = ((link h l.toNat).crSel + 1) % 8 ∧ t.mem = h.mem)
    ∧ (∀ o, (link h l.toNat).replayAt = none → (link h l.toNat).q = [o] → o.sent = 0 → o.slots = 1 → o.lat = none → o.msg.data = [] →
        chanOf o.msg.op = 3 → 1 ≤ creditOf (link h l.toNat) o.msg.pool → (link h l.toNat).replay.length < 64 →
      ∃ t a, exec (.flitTime l) ⟨h, q⟩ = .next ⟨t, q⟩
        ∧ (link t l.toNat).cur = wholeFlit (flitBody (link h l.toNat).txSeq 0 1 o.msg.slotBytes) a
        ∧ (link t l.toNat).replay = (link h l.toNat).replay
            ++ [{ seq := (link h l.toNat).txSeq, bytes := flitBody (link h l.toNat).txSeq 0 1 o.msg.slotBytes, ends := [o.msg] }]
        ∧ (link t l.toNat).txSeq = ((link h l.toNat).txSeq + 1) % 1024 ∧ (link t l.toNat).q = [] ∧ t.mem = h.mem ∧ t.sieve = h.sieve)

/-- FLIT_RECEIVED from the bits of R321 to R331: a payload flit with the next sequence number that carries one request, header and data, is taken, and the
request waits in the link's inbox with every field as it was sent, the cycle of its
acceptance and whether it was admitted then (R157, R289). -/
def Obligations.FlitCarriesARequest : Prop :=
  ∀ (h : Hub) (q : List Instr) (l : BitVec 3) (op ack : Nat) (r : ReqHdr) (d : List Byte),
    (link h l.toNat).st = .up → (link h l.toNat).replay = [] → (link h l.toNat).owedSlots = 0 →
    op < 64 → listedOp h l.toNat op = true → d.length % 16 = 0 → d.length ≤ 16 * 14 → ack < 2 ^ 32 →
    ∃ t, exec (.flitReceived l (wholeFlit (flitBody ((link h l.toNat).rxSeq + 1) 0 1 (reqMsg op r d).slotBytes) ack)) ⟨h, q⟩ = .next ⟨t, q⟩
      ∧ (link t l.toNat).inbox = (link h l.toNat).inbox
          ++ [{ reqMsg op r d with uid := h.nextId, at_ := h.now, adm := admitted h l.toNat r.pid.toNat r.stream.toNat }]
      ∧ (link t l.toNat).rxSeq = ((link h l.toNat).rxSeq + 1) % 1024 ∧ (link t l.toNat).nak = false
      ∧ (link t l.toNat).crIn = (link h l.toNat).crIn.set (bits ack 13 11) (bits ack 21 14)
      ∧ t.mem = h.mem ∧ t.sieve = h.sieve ∧ t.txns = h.txns

/-- A flit whose CRC fails is discarded, counted in LINK_n_ERR.CRC_CNT and, where its FTYPE reads payload, answered NAK; a payload flit out of sequence is
discarded and answered NAK (R321, R323). Nothing is delivered. A running link whose oldest flit has waited 2 µs for its acknowledgement replays from it, and counts; the fourth replay without progress sends the
link to RECOVERY instead (R324, R325). -/
def Obligations.LinkErrorsAreReplayed : Prop :=
  (∀ (h : Hub) (q : List Instr) (l : BitVec 3) (f : List Byte), (link h l.toNat).st = .up → f.length = 256 →
    (crc64 (f.take 244 ++ f.drop 252) ≠ ofBytes (slice f 244 8).reverse →
      ∃ t, exec (.flitReceived l f) ⟨h, q⟩ = .next ⟨t, q⟩
        ∧ link t l.toNat = { link h l.toNat with nak := (link h l.toNat).nak || decide (bits (ofBytes (f.take 4)) 11 10 = 0) }
        ∧ regField t (dieOfLink l.toNat) (0x460C + 0x40 * l.toNat) 31 16
            = min (regField h (dieOfLink l.toNat) (0x460C + 0x40 * l.toNat) 31 16 + 1) 65535
        ∧ (∀ k, k ≠ l.toNat → link t k = link h k) ∧ t.mem = h.mem)
    ∧ (crc64 (f.take 244 ++ f.drop 252) = ofBytes (slice f 244 8).reverse → bits (ofBytes (f.take 4)) 11 10 = 0 →
        bits (ofBytes (f.take 4)) 9 0 ≠ ((link h l.toNat).rxSeq + 1) % 1024 → (link h l.toNat).replay = [] →
      ∃ t, exec (.flitReceived l f) ⟨h, q⟩ = .next ⟨t, q⟩ ∧ (link t l.toNat).nak = true
        ∧ (link t l.toNat).rxSeq = (link h l.toNat).rxSeq ∧ (link t l.toNat).inbox = (link h l.toNat).inbox ∧ t.mem = h.mem))
  ∧ (∀ (h : Hub) (q : List Instr) (l : BitVec 3),
    (link h l.toNat).st = .up → (link h l.toNat).replay ≠ [] → (link h l.toNat).replayAt = none → (link h l.toNat).ackAt + 2500 ≤ h.now →
    ∃ t, exec (.replayTimer l) ⟨h, q⟩ = .next ⟨t, q⟩
      ∧ ((link h l.toNat).replays < 3 →
          link t l.toNat = { link h l.toNat with replayAt := some 0, replays := (link h l.toNat).replays + 1, ackAt := h.now })
      ∧ (3 ≤ (link h l.toNat).replays → (link t l.toNat).st = .recovery)
      ∧ (∀ k, k ≠ l.toNat → link t k = link h k)
      ∧ regField t (dieOfLink l.toNat) (0x460C + 0x40 * l.toNat) 15 8 = min (regField h (dieOfLink l.toNat) (0x460C + 0x40 * l.toNat) 15 8 + 1) 255
      ∧ t.mem = h.mem ∧ t.sieve = h.sieve ∧ t.txns = h.txns)

/-- Every header layout reads back as it was written (Tables: Request, Snoop and Response header): a request, a snoop and a response with any field values
and up to 31 data slots. -/
def Obligations.HeadersReadBack : Prop :=
  (∀ (op : Nat) (r : ReqHdr) (d : List Byte), op < 64 → d.length % 16 = 0 → d.length ≤ 16 * 31 →
    readHeader (reqMsg op r d).header d = reqMsg op r d)
  ∧ (∀ (op : Nat) (s : SnpHdr), 64 ≤ op → op < 128 → readHeader (snpMsg op s).header [] = snpMsg op s)
  ∧ (∀ (op : Nat) (r : RspHdr) (d : List Byte), 160 ≤ op → op < 192 → d.length % 16 = 0 → d.length ≤ 16 * 31 →
    readHeader (rspMsg op r d).header d = rspMsg op r d)

/-! ### Frames, windows and the steward -/

/-- A tick of the source in use is accepted from the guard on, and the first one at once; one that comes sooner is discarded and counted in FS_STAT
(R174, R175, R437). An FTICK ball counts where it is the source and the edge has the selected direction; the internal timer where it is the source. A
missing tick is replaced 1.25 periods after the last one (R176), and after FAILOVER synthetic ticks in a row the source becomes ALT_SRC, with FS_STAT
telling so (R177). -/
def Obligations.TicksAreGuardedAndReplaced : Prop :=
  (∀ (h : Hub) (q : List Instr) (i : Instr), h.fs.started = true → h.fs.tickPend = 0 →
      ((∃ b f, i = .ftickEdge b f ∧ h.fs.srcNow = (if b then 1 else 0) ∧ h.fs.tickCtl.toNat.testBit 6 = f)
        ∨ (i = .internalTimerTick ∧ h.fs.srcNow = 3 ∧ h.fs.tickAt + h.fs.period * 1250 ≤ h.now)) →
      (h.fs.fresh = true ∨ h.fs.tickAt + max 4000 (h.fs.period / 2) * 1250 ≤ h.now →
        exec i ⟨h, q⟩ = .next ⟨{ h with fs := { h.fs with tickPend := 1, fresh := false, tickAt := h.now, synthRun := 0 } }, q⟩)
      ∧ (h.fs.fresh = false → h.now < h.fs.tickAt + max 4000 (h.fs.period / 2) * 1250 →
        ∃ t, exec i ⟨h, q⟩ = .next ⟨t, q⟩ ∧ t.fs = h.fs ∧ regField t 0 0x4120 23 16 = min (regField h 0 0x4120 23 16 + 1) 255
          ∧ t.mem = h.mem ∧ t.links = h.links ∧ t.parts = h.parts))
  ∧ (∀ (h : Hub) (q : List Instr),
      (h.fs.started = true → h.fs.tickPend = 0 → h.fs.srcNow ≠ 3 → h.fs.tickAt + h.fs.period * 5 / 4 * 1250 ≤ h.now →
        ∃ t, exec .syntheticTick ⟨h, q⟩ = .next ⟨t, q⟩
          ∧ t.fs = { h.fs with tickPend := 2, tickAt := h.now, synthRun := h.fs.synthRun + 1 }
          ∧ regField t 0 0x4120 31 24 = min (regField h 0 0x4120 31 24 + 1) 255 ∧ t.mem = h.mem ∧ t.links = h.links)
      ∧ (h.fs.srcNow = 3 → exec .syntheticTick ⟨h, q⟩ = .next ⟨h, q⟩)
      ∧ (0 < bits h.fs.tickCtl.toNat 11 8 → bits h.fs.tickCtl.toNat 11 8 ≤ h.fs.synthRun → h.fs.srcNow ≠ bits h.fs.tickCtl.toNat 3 2 →
        ∃ t, exec .tickFailover ⟨h, q⟩ = .next ⟨t, q⟩ ∧ t.fs = { h.fs with srcNow := bits h.fs.tickCtl.toNat 3 2, synthRun := 0 }
          ∧ regField t 0 0x4120 2 2 = 1 ∧ t.mem = h.mem))

/-- FRAME_TICK: a tick that waits ends the frame and begins the next at step 0 with nothing charged and no decision left over; the frame says whether its
tick was synthetic, the histogram of the frame just ended is kept for the steward, and every partition's budgets in force and counts start anew
(R180, R182, R195, R197, R366). Stated of a tick at which no heavy command has a PROGRESS completion to post. -/
def Obligations.FrameTickBeginsAFrame : Prop :=
  ∀ (h : Hub) (q : List Instr), h.fs.tickPend ≠ 0 → h.heavy = [] →
    ∃ t, exec .frameTick ⟨h, q⟩ = .next ⟨t, q⟩
      ∧ t.fs.frame = (h.fs.frame + 1) % 2 ^ 32 ∧ t.fs.tickPend = 0 ∧ t.fs.step = 0 ∧ t.fs.synth = decide (h.fs.tickPend = 2)
      ∧ t.fs.charged = [] ∧ t.fs.regionCnt = [] ∧ t.fs.decisions = [] ∧ t.fs.histDone = h.fs.hist ∧ t.fs.hist = []
      ∧ t.fs.passFrame = (if h.fs.skipPass then none else some h.fs.frame) ∧ t.fs.tickAt = h.fs.tickAt
      ∧ (∀ p, shownSt (part h p) ≠ .free → (part t p).budNow = (part h p).bud ∧ (part t p).run = [])

/-- SUBFRAME_STEP: at its boundary step k begins, and each region's allowance of each partition not FREE is a quarter of what the step releases of the
frame's budget beyond what is charged (R180, R183). Stated of a frame with no steward decision waiting. -/
def Obligations.StepReleasesBudget : Prop :=
  ∀ (h : Hub) (q : List Instr), h.fs.started = true → h.fs.tickPend = 0 → h.fs.step < 15 → h.fs.decisions = [] →
    h.fs.tickAt + (h.fs.step + 1) * h.fs.period / 16 * 1250 ≤ h.now → (∀ e ∈ h.parts, e.1 < 64) →
    ∃ t, exec .subframeStep ⟨h, q⟩ = .next ⟨t, q⟩ ∧ t.fs.step = h.fs.step + 1 ∧ t.fs.regionCnt = [] ∧ t.fs.frame = h.fs.frame
      ∧ t.fs.charged = h.fs.charged
      ∧ (∀ e ∈ h.parts, e.2.st ≠ .free → ∀ c rg, c < 3 → rg < 4 →
          allowance t rg e.1 c = Int.fdiv ((((h.fs.step + 2) * ((part h e.1).budNow.getD c 0 * 65536) / 16 : Nat) : Int)
                                    - ((bget h.fs.charged (e.1 * 4 + c) 0 : Nat) : Int)) 4)
      ∧ t.parts = h.parts ∧ t.mem = h.mem ∧ t.links = h.links ∧ t.regs = h.regs

/-- The steward's pass over the frame just ended, made in RUN before boundary 8, only adds decisions (R195 to R197): each scrub pace among them lies between
its Whisk's floor and the larger of floor and ceiling, whatever the idle time was, and each depth decision is for an ACTIVE partition of which at
least 64 prefetched lines have landed. A pass not made by then is discarded. -/
def Obligations.StewardPass : Prop :=
  ∀ (h : Hub) (q : List Instr) (f : Nat), h.fs.passFrame = some f →
    (h.fs.step < 8 → h.life.phase = .run →
      ∃ t ds, exec .stewardPass ⟨h, q⟩ = .next ⟨t, q⟩
        ∧ t = { h with free := t.free, fs := { h.fs with passFrame := none, decisions := h.fs.decisions ++ ds } }
        ∧ (∀ d ∈ ds, d.kind = 2 → floorLines h d.pid ≤ d.newV ∧ d.newV ≤ max (floorLines h d.pid) (ceilLines h d.pid))
        ∧ (∀ d ∈ ds, d.kind = 1 → ∃ k, (d.pid, k) ∈ h.parts ∧ k.st = .active ∧ 64 ≤ k.landedDone))
    ∧ (8 ≤ h.fs.step →
      ∃ t, exec .stewardPassDiscard ⟨h, q⟩ = .next ⟨t, q⟩ ∧ t.fs = { h.fs with passFrame := none }
        ∧ regField t 0 0x4120 0 0 = 1 ∧ t.mem = h.mem ∧ t.parts = h.parts)

/-- Monitoring windows end (R365, R374), and the history is folded every 1,024 frames (R351). A PMU window's counters are copied and start again from 0; the
link byte counts are latched modulo 2^48 and start again from 0; the counts by TYPE move into the Ledger's summary. -/
def Obligations.WindowsEnd : Prop :=
  ∀ (h : Hub) (q : List Instr),
    (∀ die, die < 2 → (pmuOf h die).winLeft = some 0 →
      ∃ t, exec .pmuWindowEnd ⟨h, q⟩ = .next ⟨t, q⟩
        ∧ (∀ n, n < 8 → bget (pmuOf t die).lat n 0 = bget (pmuOf h die).cnt n 0) ∧ (pmuOf t die).cnt = [] ∧ (pmuOf t die).cyc = (pmuOf h die).cyc
        ∧ t.regs = h.regs ∧ t.mem = h.mem ∧ t.links = h.links)
    ∧ (h.bwLeft = 1 →
      ∃ t, exec .bwWindowEnd ⟨h, q⟩ = .next ⟨t, q⟩
        ∧ (∀ l, l < 8 → bget t.bwLat l (0, 0) = ((link h l).rxBytes % 2 ^ 48, (link h l).txBytes % 2 ^ 48))
        ∧ (∀ l, link t l = { link h l with rxBytes := 0, txBytes := 0 }) ∧ t.mem = h.mem)
    ∧ (h.fs.started = true → h.fs.frame % 1024 = 0 → h.led.failing = [] → ∀ typ n, h.led.typeNew = [(typ, n)] →
      ∃ t, exec .historyFold ⟨h, q⟩ = .next ⟨t, q⟩
        ∧ t.led.typeNew = [] ∧ bget t.led.typeCnt typ 0 = min (bget h.led.typeCnt typ 0 + n) (2 ^ 32 - 1)
        ∧ (∀ k, k ≠ typ → bget t.led.typeCnt k 0 = bget h.led.typeCnt k 0) ∧ t.mem = h.mem ∧ t.regs = h.regs)

/-! ### Timers -/

/-- The Lid closes 256 cycles after it was opened, with a pair that waits left as it is; a pair whose second write has not come in 256 cycles is dropped
(R386, R387), and the other die's Lid keeps its state. A reservation goes after 12,500 cycles, which RESV_LOSS counts (R170), and a Tongs hold after its
cycles, where no ATOMIC is open (R123). CLASS_B_PROMOTE marks a class B request that has waited 4,096 cycles at its channel, and no other (R181).
SNOOP_TIMEOUT reports a snoop unanswered for its timeout once: COH_ERR_STAT counts it and the transaction goes on waiting (R119). -/
def Obligations.HoldsAndWaitsEnd : Prop :=
  (∀ (h : Hub) (q : List Instr) (d : BitVec 1),
      (∀ t0, (lid h d.toNat).openAt = some t0 → t0 + 256 ≤ h.now →
        ∃ t, exec (.lidTimeout d) ⟨h, q⟩ = .next ⟨t, q⟩ ∧ lid t d.toNat = { lid h d.toNat with openAt := none }
          ∧ (∀ e, e ≠ d.toNat → lid t e = lid h e) ∧ t.regs = h.regs ∧ t.mem = h.mem)
      ∧ (∀ off v t0, (lid h d.toNat).pair = some (off, v, t0) → t0 + 256 < h.now →
        ∃ t, exec (.pairTimeout d) ⟨h, q⟩ = .next ⟨t, q⟩ ∧ (lid t d.toNat).pair = none ∧ (lid t d.toNat).openAt = (lid h d.toNat).openAt
          ∧ (∀ e, e ≠ d.toNat → lid t e = lid h e) ∧ t.mem = h.mem))
  ∧ (∀ (h : Hub) (q : List Instr),
      (∀ (d : BitVec 1) (m : Mon), m ∈ h.mons → m.die = d.toNat → m.at_ + 12500 ≤ h.now → (∀ x ∈ h.mons, x.id = m.id → x = m) →
        ∃ t, exec (.resvExpiry d m.id) ⟨h, q⟩ = .next ⟨t, q⟩ ∧ t.mons = h.mons.filter (fun x => x.id != m.id)
          ∧ regField t d.toNat 0x4084 7 0 = min (regField h d.toNat 0x4084 7 0 + 1) 255 ∧ t.mem = h.mem ∧ t.sieve = h.sieve)
      ∧ (∀ (line : BitVec 41), h.txns = [] → h.integ.evict = [] → h.cache.echoDue = [] →
        exec (.tongsHoldEnd line) ⟨h, q⟩ = .next ⟨{ h with tongs := h.tongs.filter (fun g => g.since != 0 && decide (h.now + 1 < g.since + regField h 0 0x4040 27 16)) }, q⟩)
      ∧ (∀ id, ∃ t, exec (.classBPromote id) ⟨h, q⟩ = .next ⟨t, q⟩
        ∧ t = { h with txns := h.txns.map (fun x =>
            if x.id = id ∧ x.req.cls = 3 ∧ (x.ph = .fill ∨ x.ph = .perform) ∧ x.since ≠ 0 ∧ x.since + 4096 ≤ h.now + 1 then { x with promoted := true } else x) })
      ∧ (∀ (l : BitVec 3) (n : BitVec 12) (s : Snp), h.snps.find? (fun x => x.link == l.toNat && x.id == n.toNat) = some s →
          s.done = false → s.timedOut = false → s.sent ≠ 0 → s.sent + snpTimeout h ≤ h.now + 1 →
        ∃ t, exec (.snoopTimeout l n) ⟨h, q⟩ = .next ⟨t, q⟩
          ∧ regField t (homeDie s.addr) 0x4078 7 0 = min (regField h (homeDie s.addr) 0x4078 7 0 + 1) 255
          ∧ (∀ x ∈ t.snps, x.id = s.id → x.host = s.host → x.timedOut = true) ∧ t.snps.length = h.snps.length
          ∧ t.txns = h.txns ∧ t.sieve = h.sieve ∧ t.mem = h.mem))

/-- R88. A Ladle entry stays until the second frame tick after its data landed; from then on its expiry drops it and no other entry, counts it in its partition's
PF_EXPIRE and counts the slot of its prefetch lost (values 25 and 9 of the counter page). -/
def Obligations.LadleEntryExpires : Prop :=
  ∀ (h : Hub) (q : List Instr) (cl : BitVec 3) (line : BitVec 41) (e : LadleE), e ∈ h.ladle → e.cluster = cl.toNat → e.line = line.toNat → e.inFlight = false →
    (∀ x ∈ h.ladle, x.cluster = e.cluster → x.line = e.line → x = e) → 0 < e.pid → e.pid < 64 → (part h e.pid).st ≠ .free →
    (2 ≤ (h.fs.frame + 2 ^ 32 - e.frame) % 2 ^ 32 →
      ∃ t, exec (.ladleExpiry cl line) ⟨h, q⟩ = .next ⟨t, q⟩ ∧ t.ladle = h.ladle.filter (fun x => x.seq != e.seq) ∧ e ∉ t.ladle
        ∧ bget (part t e.pid).run 25 0 = bget (part h e.pid).run 25 0 + 1 ∧ bget (part t e.pid).run 9 0 = bget (part h e.pid).run 9 0 + 1
        ∧ (∀ i, i ≠ 25 → i ≠ 9 → bget (part t e.pid).run i 0 = bget (part h e.pid).run i 0) ∧ (∀ p, p ≠ e.pid → part t p = part h p)
        ∧ t.mem = h.mem ∧ t.txns = h.txns ∧ t.cache = h.cache ∧ t.regs = h.regs)
    ∧ ((h.fs.frame + 2 ^ 32 - e.frame) % 2 ^ 32 < 2 → exec (.ladleExpiry cl line) ⟨h, q⟩ = .next ⟨h, q⟩)

/-! ### Memory, the cache's walks, and the hub's own upkeep -/

/-- What memory gives back and takes (R43, R59, R150, R438). Data that lands for a read is answered from main memory's bytes with the grant its home
ordering gave; data that lands for a prefetch waits in the Ladle, or is dropped where the prefetch was killed; a buffered line that reaches main
memory leaves the bytes it enables there and no other. Stated of channels in service and words without errors. -/
def Obligations.MemoryAnswers : Prop :=
  ∀ (h : Hub) (q : List Instr) (e : REntry) (k : Nat), e.typ = .nwt → e.here h = true → e.mirror = false → h.mem.mainErr = [] → chanTrained h k = true →
    (∀ t : Txn, Hub.idle { h with txns := [] } → h.txns = [t] → t.ph = .fill → t.slot = none → t.pieces = [] → t.req.src = .link →
        t.req.op ∈ [0x11, 0x12, 0x13, 0x14, 0x16] → linkTrained h t.req.link = true → t.req.size ∈ [1, 2, 4, 8, 16, 32, 64, 128] →
        t.req.addr % t.req.size = 0 → t.req.ent = e → k = homeChannel t.req.addr →
      ∃ u o, exec (.fillDataLands t.id { words := [], beats := [], crc := 0#32, path := 0#2 }) ⟨h, q⟩ = .next ⟨u, q⟩
        ∧ (link u t.req.link).q = (link h t.req.link).q ++ [o] ∧ o.msg.op = 0xA2 ∧ o.msg.lstat = 0 ∧ o.msg.state = t.grant
        ∧ o.msg.tag = t.req.tag ∧ o.msg.stream = t.req.stream
        ∧ o.msg.data = slotData t.req.addr (memReadN h.mem.main (e.off t.req.addr) t.req.size)
        ∧ u.txns = [] ∧ u.mem = h.mem ∧ u.sieve = h.sieve)
    ∧ (∀ (le : LadleE) (c : BitVec 3) (line : BitVec 41), h.idle → h.ladle = [le] → le.inFlight = true → le.cluster = c.toNat → le.line = line.toNat →
        (rmapFind h (line.toNat * 128)).map Prod.snd = some e → k = homeChannel (line.toNat * 128) →
      ∃ u, exec (.prefetchLands c line { words := [], beats := [], crc := 0#32, path := 0#2 }) ⟨h, q⟩ = .next ⟨u, q⟩
        ∧ u.ladle = (if le.killed then []
            else [{ le with inFlight := false, data := memReadN h.mem.main (e.off (line.toNat * 128)) 128, frame := h.fs.frame }])
        ∧ u.mem = h.mem ∧ u.txns = [])
    ∧ (∀ w : WbLine, Hub.idle { h with wbs := [] } → h.wbs = [w] → w.tgt = 0 → e.base * unit2M ≤ w.line * 128 → w.poison = false → w.entry = e → w.data.length = 128 → w.mask.length = 128 →
        k = homeChannel (w.line * 128) → h.cache.sectors = [] →
      ∃ u, exec (.memoryWriteComplete w.id) ⟨h, q⟩ = .next ⟨u, q⟩ ∧ u.wbs = []
        ∧ (∀ i, i < 128 → memRead u.mem.main (e.off (w.line * 128) + i)
            = if w.mask.getD i false then w.data.getD i 0#8 else memRead h.mem.main (e.off (w.line * 128) + i))
        ∧ (∀ a, (a < e.off (w.line * 128) ∨ e.off (w.line * 128) + 128 ≤ a) → memRead u.mem.main a = memRead h.mem.main a)
        ∧ u.mem.kettle = h.mem.kettle ∧ u.mem.array = h.mem.array ∧ u.txns = [])

/-- A read that waited at its home, for a tracker or for its stream's share of them (R19, R45), is presented again by its slice's retry or its stream's, and
then goes on to memory with a tracker; where nothing waits neither changes anything. -/
def Obligations.LateRetries : Prop :=
  ∀ (h : Hub) (q : List Instr) (i : Instr) (sl : BitVec 5) (l : BitVec 3) (st : BitVec 10) (cl : BitVec 3),
    (Hub.idle h → (i = .trackerFreedRetry sl ∨ i = .streamMissRetry l st cl) → exec i ⟨h, q⟩ = .next ⟨h, q⟩)
    ∧ (∀ (w : Waiting) (e : REntry), Hub.idle { h with waiting := [] } → h.waiting = [w] → w.req.src = .link → w.req.op = 0x13 → w.req.host < 7 →
        ((i = .trackerFreedRetry sl ∧ w.slice = sl.toNat ∧ w.why = .resource) ∨
          (i = .streamMissRetry l st cl ∧ w.why = .undone ∧ w.req.link = l.toNat ∧ w.req.stream = st.toNat ∧ homeCluster w.req.addr = cl.toNat)) →
        w.req.ent = e → e.typ = .nwt → e.here h = true → h.sieve = [] → h.ladle = [] → h.dets = [] → h.cache.cst = .off →
        h.cache.sectors = [] → memReadable h e w.req.addr = true → canTrk h (homeCluster w.req.addr) 3 = true → canTrk h (homeCluster w.req.addr) w.req.cls = true →
      ∃ u x, exec i ⟨h, q⟩ = .next ⟨u, q⟩ ∧ u.waiting = [] ∧ u.txns = [x] ∧ x.req = w.req ∧ x.ph = .fill ∧ x.trk = true ∧ u.mem = h.mem)

/-- The cache's walks (R68, R93, R94, R308). A walker's turn on a set of a drain invalidates the CLEAN lines it finds there and passes to the next set. A set
whose tags fail their parity is rebuilt from its Echo: what nothing names is INVALID, no tag of it is bad any more, and the rebuild is counted. A turn of
cache warming takes the first listed sector of its partition and presents reads of its eight lines. -/
def Obligations.WalksAndTags : Prop :=
  ∀ (h : Hub) (q : List Instr) (sl : BitVec 5), h.idle →
    (∀ (w : Walk) (s : Sector), h.walks = [w] → w.ended h = false → w.kind = 2 → w.setMode = true → bget w.next sl.toNat 0 < setsInUse h → h.cache.sectors = [s] →
        s.slice = sl.toNat → s.set = bget w.next sl.toNat 0 → s.way < 16 → w.op = 2 → s.lines.length = 8 → (∀ x ∈ s.lines, x = .clean ∨ x = .invalid) →
        s.echo = false → s.cast = [] →
      ∃ u w', exec (.walkerTurn sl) ⟨h, q⟩ = .next ⟨u, q⟩
        ∧ (∀ x ∈ u.cache.sectors, ∀ y ∈ x.lines, y = .invalid) ∧ u.walks = [w'] ∧ bget w'.next sl.toNat 0 = bget w.next sl.toNat 0 + 1
        ∧ w'.job = w.job ∧ u.mem = h.mem ∧ u.wbs = [])
    ∧ (∀ (set : BitVec 12) (s : Sector), h.cache.sectors = [s] → s.slice = sl.toNat → s.set = set.toNat → s.way < 16 → s.tagPar = true →
        chipKill h = false → h.cache.locks = [] → s.cast = [] → s.lines.length = 8 →
      ∃ u x, exec (.tagSetRebuild sl set) ⟨h, q⟩ = .next ⟨u, q⟩ ∧ u.cache.sectors = [x] ∧ x.tagPar = false ∧ x.statePar = false
        ∧ (∀ i, i < 8 → x.lines.getD i .invalid = if (s.lines.getD i .invalid).moving then s.lines.getD i .invalid else .invalid)
        ∧ regField u (sl.toNat / 16) 0x4020 31 16 = min (regField h (sl.toNat / 16) 0x4020 31 16 + 1) 65535 ∧ u.mem = h.mem)
    ∧ (∀ (p : BitVec 6) (a : Nat) (rest : List Nat), bget h.warm p.toNat [] = a :: rest → rest ≠ [] → (part h p.toNat).st = .active →
        (h.warmAt = 0 ∨ h.warmAt + 64 ≤ h.now + 1) → mappedHere h a = true →
      ∃ u, exec (.cacheWarmSector p) ⟨h, q⟩
          = .next ⟨presentAll ((List.range 8).map (fun i =>
              { op := 0x13, src := .warm, pid := p.toNat, cls := 3, carried := 3, addr := a + 128 * i, at_ := h.now })) u, q⟩
        ∧ u.warm = bset h.warm p.toNat rest ∧ u.warmAt = h.now + 1 ∧ u.txns = [] ∧ u.mem = h.mem ∧ u.sieve = h.sieve)

/-- Upkeep of the memories (R230, R231, R235, R237, R352, R353). A Whisk's read of a main-memory line finds a bit that failed there, schedules its corrected write-back and passes on; the
write-back, when memory takes it, leaves the word good; at the
end of a lap it starts again at the first line. A step of the background test passes to the next region, and a region that fails is restored from a
spare, which the Ledger keeps. A rebuild starts once when it is due; at its end D10 holds the failed device's position, in the Ledger too. A remapped row
counts as copied once its lines are in the spare row. -/
def Obligations.Upkeep : Prop :=
  ∀ (h : Hub) (q : List Instr), h.idle →
    (∀ (r : BitVec 4) (line a i k : Nat) (e : REntry), 4 ≤ r.toNat → r.toNat ≤ 11 → whiskThere h r.toNat = true → (whisk h r.toNat).lines < ceilLines h r.toNat →
        scrubNext h r.toNat (whisk h r.toNat).next = some (line, .main e a) → e.base * unit2M ≤ a → e.typ = .nwt → e.ecc = true → e.mirror = false → i < 16 → k < 72 → h.mem.mainErr = [] →
        bget h.integ.corr (homeDie a) [] = [] → h.integ.backs = [] →
      ∃ u b v, exec (.whiskLineRead r line { words := [(i, BitVec.ofNat 72 (2 ^ k))], beats := [], crc := 0#32, path := 0#2 }) ⟨h, q⟩ = .next ⟨u, q⟩
        ∧ u.integ.backs = [b] ∧ b.kind = 0 ∧ b.key = e.off (a / 128 * 128) / 8 + i ∧ u.mem.mainErr = [(b.key, BitVec.ofNat 72 (2 ^ k))] ∧ u.mem.main = h.mem.main
        ∧ (whisk u r.toNat).next = line + 1 ∧ (whisk u r.toNat).lines = (whisk h r.toNat).lines + 1 ∧ (bget u.integ.corr (homeDie a) []).length = 1
        ∧ exec (.memoryWriteComplete b.id) ⟨u, q⟩ = .next ⟨v, q⟩ ∧ v.mem = h.mem ∧ v.integ.backs = [] ∧ v.txns = [])
    ∧ (∀ r : BitVec 4, r.toNat ≤ 11 → whiskThere h r.toNat = true → scrubNext h r.toNat (whisk h r.toNat).next = none →
      ∃ u, exec (.whiskLapEnd r) ⟨h, q⟩ = .next ⟨u, q⟩ ∧ (whisk u r.toNat).next = 0 ∧ (whisk u r.toNat).begun = true
        ∧ (whisk u r.toNat).lap = (whisk h r.toNat).lap + b2n (whisk h r.toNat).begun
        ∧ (whisk u r.toNat).lapFrames = (if (whisk h r.toNat).begun then (h.fs.frame + 2 ^ 32 - (whisk h r.toNat).lapFrame) % 2 ^ 32 else (whisk h r.toNat).lapFrames) ∧ u.mem = h.mem)
    ∧ (∀ (d : BitVec 1) (st : BtStruct) (fails : Bool), st = .buffers ∨ st = .sieve →
        (bget h.bt (d.toNat * 4 + btCode st) {}).steps < btMax h → (bget h.bt (d.toNat * 4 + btCode st) {}).region < btRegions h (btCode st) →
        h.led.failing.contains 0x80 = false →
      ∃ u, exec (.btStep d st fails) ⟨h, q⟩ = .next ⟨u, q⟩
        ∧ (bget u.bt (d.toNat * 4 + btCode st) {}).region
            = (if (bget h.bt (d.toNat * 4 + btCode st) {}).region + 1 = btRegions h (btCode st) then 0 else (bget h.bt (d.toNat * 4 + btCode st) {}).region + 1)
        ∧ (bget u.bt (d.toNat * 4 + btCode st) {}).steps = (bget h.bt (d.toNat * 4 + btCode st) {}).steps + 1
        ∧ u.led.spares = h.led.spares ++ (if fails = true ∧ (h.led.spares.filter (fun x => x.1 == d.toNat && x.2.1 == btCode st)).length < 4
            then [(d.toNat, btCode st, (bget h.bt (d.toNat * 4 + btCode st) {}).region)] else [])
        ∧ u.mem = h.mem)
    ∧ exec .rebuildStart ⟨h, q⟩ = .next ⟨if h.integ.rebuildDue = true ∧ rebuildWanted h = true
        then { h with integ := { h.integ with rebuild := true, rebuildPtr := 0, rebuildDue := false } } else h, q⟩
    ∧ (∀ k, h.integ.rebuild = true → k < 10 → h.integ.failed.toNat % 1024 = 2 ^ k → h.mem.beatErr = [] → h.led.failing.contains 0x60 = false →
      ∃ u, exec .rebuildDone ⟨h, q⟩ = .next ⟨u, q⟩ ∧ u.integ.rebuild = false ∧ u.integ.posD10 = posOfDev k ∧ u.led.posD10 = posOfDev k ∧ u.mem = h.mem)
    ∧ (∀ (lane : BitVec 2) (row : Nat), h.led.remap.any (fun r => r.lane == lane.toNat && r.row == row && !r.copied) = true → h.mem.beatErr = [] → h.mem.crcErr = [] →
        (rowLines h lane.toNat row).filterMap (fun x => shadowOwned x.1 x.2 0 h) = [] →
      ∃ u, exec (.remapCopyDone lane row) ⟨h, q⟩ = .next ⟨u, q⟩ ∧ u.led = { h.led with remap := h.led.remap.map (fun r =>
        if r.lane = lane.toNat ∧ r.row = row then { r with copied := true } else r) } ∧ u.mem = h.mem ∧ u.txns = [] ∧ u.sieve = h.sieve)

/-- Records and seals (R245, R246, R355). A Colander's drain writes its oldest record, as it was made, into the next slot of its event ring. A seal that ends
holds the sum of its lines' hashes and counts from this frame on; one whose window has lost its placement reports code 3 and leaves it OPEN. -/
def Obligations.RecordsAndSeals : Prop :=
  ∀ (h : Hub) (q : List Instr),
    (∀ (d : BitVec 1) (r : BitVec 128) (rest : List (BitVec 128)) (e : REntry) (a : Nat), h.idle → h.mons = [] → (col h d.toNat).stages = r :: rest →
        (col h d.toNat).drops = 0 → evtFree h d.toNat = true → ((col h d.toNat).lastDrain = 0 ∨ (col h d.toNat).lastDrain + 8 ≤ h.now + 1) →
        a = regField h d.toNat 0x4490 31 4 * 16 + regField h d.toNat 0x4494 15 0 * 2 ^ 32 + 16 * ((col h d.toNat).tail % evtSize h d.toNat) →
        (rmapFind h a).map Prod.snd = some e → e.typ = .kettle → e.here h = true →
      ∃ u, exec (.colanderDrain d) ⟨h, q⟩ = .next ⟨u, q⟩ ∧ (col u d.toNat).stages = rest ∧ (col u d.toNat).tail = ((col h d.toNat).tail + 1) % 65536
        ∧ memReadN u.mem.kettle (e.off a) 16 = toBytes 16 r.toNat
        ∧ (∀ x, (x < e.off a ∨ e.off a + 16 ≤ x) → memRead u.mem.kettle x = memRead h.mem.kettle x) ∧ u.mem.main = h.mem.main)
    ∧ (∀ (n : BitVec 4) (w : Win) (e : REntry), Hub.idle { h with wins := [] } → h.wins = [(n.toNat, w)] → w.st = .sealing → w.lines = 1 → w.restoreSig = none →
        (witPlaced h w.base 128 = true → (rmapFind h w.base).map Prod.snd = some e → e.typ = .nnc → h.mem.mainErr = [] → h.mem.mirrErr = [] →
          chanTrained h (2 * homeRg w.base) = true → w.base % 128 = 0 →
          ∃ u, exec (.sealComplete n) ⟨h, q⟩ = .next ⟨u, q⟩
            ∧ win u n.toNat = { w with st := .sealed, wsig := lineHash w.base (memReadN h.mem.main (e.off w.base) 128), sealFrame := h.fs.frame,
                                       sealTicks := some 0, sealAt := h.now, restoreSig := none } ∧ u.mem = h.mem)
        ∧ (witPlaced h w.base 128 = false →
          ∃ u, exec (.sealComplete n) ⟨h, q⟩ = .next ⟨u, q⟩ ∧ win u n.toNat = { w with st := .opened, sealErr := 3, sealTicks := none } ∧ u.mem = h.mem))

/-! ### Requests of hosts -/

/-- Reads of the Kettle (R107, R345): a read of any kind, which needs no Sieve lookup there, is answered at once with the region's bytes in the slots of its
transfer and state I, and changes nothing it reads. -/
def Obligations.KettleReadsAnswerTheBytes : Prop :=
  ∀ (h : Hub) (q : List Instr) (l : BitVec 3) (r : ReqHdr) (e : REntry) (i : Instr) (op : Nat),
    (i, op) ∈ [(Instr.rdShared l r, 0x11), (.rdUnique l r, 0x12), (.rdOnce l r, 0x13), (.rdNosnp l r, 0x14)] →
    h.idle → h.takes l.toNat op r [] e → e.typ = .kettle →
    ∃ t, exec i ⟨h, q⟩ = .next ⟨t, q⟩
      ∧ h.answered t l.toNat r (fun m => m.op = 0xA2 ∧ m.lstat = 0 ∧ m.state = 0
          ∧ m.data = slotData r.addr.toNat (memReadN h.mem.kettle (e.off r.addr.toNat) (2 ^ r.len.toNat)))
      ∧ t.mem = h.mem ∧ t.txns = [] ∧ t.sieve = h.sieve ∧ t.mons = h.mons ∧ t.wbs = h.wbs

/-- Writes of the Kettle (R55, R56, R60, R143, R345) inside the partition's blocks (R296) store the bytes enabled, zeros for ZERO_LINE, at the region's
offset and no other byte of any memory, and are answered COMP. -/
def Obligations.KettleWritesStoreTheBytes : Prop :=
  ∀ (h : Hub) (q : List Instr) (l : BitVec 3) (r : ReqHdr) (d : List Byte) (e : REntry) (i : Instr) (op : Nat),
    ((i, op) ∈ [(Instr.wrLine l r d, 0x21), (.wrPart l r d, 0x22), (.wrNosnp l r d, 0x23)] ∨ (i = .zeroLine l r ∧ op = 0x24 ∧ d = [])) →
    h.idle → h.takes l.toNat op r d e → e.typ = .kettle → kettleBars h e (reqOf l.toNat h.nextId (reqMsg op r d) h) = false →
    ∃ t, exec i ⟨h, q⟩ = .next ⟨t, q⟩
      ∧ h.answered t l.toNat r (fun m => m.op = 0xA1 ∧ m.lstat = 0)
      ∧ (∀ k, k < 2 ^ r.len.toNat → memRead t.mem.kettle (e.off r.addr.toNat + k)
          = if (writeMask op r.len.toNat d).getD k false then (writeBytes op r.addr.toNat r.len.toNat d).getD k 0#8
            else memRead h.mem.kettle (e.off r.addr.toNat + k))
      ∧ (∀ a, (a < e.off r.addr.toNat ∨ e.off r.addr.toNat + 2 ^ r.len.toNat ≤ a) → memRead t.mem.kettle a = memRead h.mem.kettle a)
      ∧ t.mem.main = h.mem.main ∧ t.mem.array = h.mem.array ∧ t.txns = [] ∧ t.sieve = h.sieve ∧ t.wbs = h.wbs

/-- ATOMIC on the Kettle (R121, R122): the old value is answered, and memory holds what Table: Tongs operations makes of it; no other byte changes. -/
def Obligations.KettleAtomic : Prop :=
  ∀ (h : Hub) (q : List Instr) (l : BitVec 3) (r : ReqHdr) (d : List Byte) (e : REntry),
    h.idle → h.takes l.toNat 0x25 r d e → e.typ = .kettle → kettleBars h e (reqOf l.toNat h.nextId (reqMsg 0x25 r d) h) = false →
    ∃ t, exec (.atomic l r d) ⟨h, q⟩ = .next ⟨t, q⟩
      ∧ h.answered t l.toNat r (fun m => m.op = 0xA2 ∧ m.lstat = 0
          ∧ m.data = fitBytes 16 (memReadN h.mem.kettle (e.off r.addr.toNat) (2 ^ r.len.toNat)))
      ∧ memReadN t.mem.kettle (e.off r.addr.toNat) (2 ^ r.len.toNat)
          = toBytes (2 ^ r.len.toNat) (atomicValue r.sub.toNat (2 ^ r.len.toNat) (ofBytes (memReadN h.mem.kettle (e.off r.addr.toNat) (2 ^ r.len.toNat)))
              (ofBytes (d.take (2 ^ r.len.toNat))) (ofBytes (slice d 16 (2 ^ r.len.toNat))))
      ∧ (∀ a, (a < e.off r.addr.toNat ∨ e.off r.addr.toNat + 2 ^ r.len.toNat ≤ a) → memRead t.mem.kettle a = memRead h.mem.kettle a)
      ∧ t.mem.main = h.mem.main ∧ t.mem.array = h.mem.array ∧ t.txns = [] ∧ t.sieve = h.sieve

/-- A reservation pair (R168, R169) on the Kettle: RD_RESV answers the bytes and leaves its stream's reservation of the hub line; ST_COND stores and answers
PASS where the stream holds one, and stores nothing and answers that it failed where it holds none; either way its stream holds none afterwards. -/
def Obligations.ReservationPair : Prop :=
  ∀ (h : Hub) (q : List Instr) (l : BitVec 3) (r : ReqHdr) (d : List Byte) (e : REntry), h.idle → e.typ = .kettle →
    (h.takes l.toNat 0x16 r [] e → 0 < (part h r.pid.toNat).monq → h.mons = [] →
      ∃ t, exec (.rdResv l r) ⟨h, q⟩ = .next ⟨t, q⟩
        ∧ h.answered t l.toNat r (fun m => m.op = 0xA2 ∧ m.lstat = 0
            ∧ m.data = slotData r.addr.toNat (memReadN h.mem.kettle (e.off r.addr.toNat) (2 ^ r.len.toNat)))
        ∧ holdsResv t r.addr.toNat l.toNat r.stream.toNat = true ∧ t.mons.length = 1 ∧ t.mem = h.mem ∧ t.txns = [])
    ∧ (h.takes l.toNat 0x26 r d e → kettleBars h e (reqOf l.toNat h.nextId (reqMsg 0x26 r d) h) = false →
      ∃ t, exec (.stCond l r d) ⟨h, q⟩ = .next ⟨t, q⟩
        ∧ h.answered t l.toNat r (fun m => m.op = 0xA5 ∧ m.lstat = 0 ∧ m.pass = holdsResv h r.addr.toNat l.toNat r.stream.toNat)
        ∧ (∀ a, memRead t.mem.kettle a
            = if holdsResv h r.addr.toNat l.toNat r.stream.toNat = true ∧ e.off r.addr.toNat ≤ a ∧ a < e.off r.addr.toNat + 2 ^ r.len.toNat
              then d.getD (a - e.off r.addr.toNat) 0#8 else memRead h.mem.kettle a)
        ∧ (∀ m ∈ t.mons, ¬ (m.link = l.toNat ∧ m.stream = r.stream.toNat)) ∧ t.txns = [])

/-- Grants (Table: Requests at the home, R105, R106, R138): where no host holds a granule of main memory that is not in the cache, RD_SHARED outside a sealed
window, RD_UNIQUE and a CLEAN_UNIQUE from I leave their requester E in the Sieve, at the host set and way it named, and start the line's read from
memory with a tracker. -/
def Obligations.FirstReadGrantsExclusive : Prop :=
  ∀ (h : Hub) (q : List Instr) (l : BitVec 3) (r : ReqHdr) (e : REntry) (i : Instr) (op : Nat),
    (i, op) ∈ [(Instr.rdShared l r, 0x11), (.rdUnique l r, 0x12), (.cleanUnique l r, 0x15)] →
    h.idle → h.takes l.toNat op r [] e → e.typ = .nwt → hostOfLink h l.toNat < 7 → compressed h (hostOfLink h l.toNat) = false →
    h.sieve = [] → h.ladle = [] → h.dets = [] → h.cache.cst = .off → h.cache.sectors = [] → memReadable h e r.addr.toNat = true →
    canTrk h (homeCluster r.addr.toNat) 3 = true →
    ∃ t x, exec i ⟨h, q⟩ = .next ⟨t, q⟩
      ∧ hostSt t (hostOfLink h l.toNat) r.addr.toNat = 3 ∧ t.sieve.length = 1
      ∧ (∀ s ∈ t.sieve, s.host = hostOfLink h l.toNat ∧ s.way = r.hway.toNat ∧ s.set = hostSet h (hostOfLink h l.toNat) r.addr.toNat)
      ∧ t.txns = [x] ∧ x.ph = .fill ∧ x.grant = 3 ∧ x.trk = true
      ∧ t.mem = h.mem ∧ t.snps = [] ∧ (∀ k, (link t k).q = (link h k).q)

/-- CLEAN_UNIQUE where it needs no data (R106, R107): on a region without a Sieve lookup it is answered COMP at once; a host shown S1 of a granule that no one
else holds is answered COMP with E and is shown E. -/
def Obligations.UpgradeWithoutData : Prop :=
  ∀ (h : Hub) (q : List Instr) (l : BitVec 3) (r : ReqHdr) (e : REntry), h.idle → h.takes l.toNat 0x15 r [] e →
    (e.typ = .kettle →
      ∃ t, exec (.cleanUnique l r) ⟨h, q⟩ = .next ⟨t, q⟩ ∧ h.answered t l.toNat r (fun m => m.op = 0xA1 ∧ m.lstat = 0 ∧ m.state = 0)
        ∧ t.mem = h.mem ∧ t.txns = [] ∧ t.sieve = h.sieve)
    ∧ (∀ s, e.typ = .nwt → hostOfLink h l.toNat < 7 → h.cache.cst = .off → h.cache.sectors = [] → h.ladle = [] →
        canTrk h (homeCluster r.addr.toNat) 3 = true → h.sieve = [s] → s.host = hostOfLink h l.toNat →
        s.addr = r.addr.toNat / granOf h (hostOfLink h l.toNat) * granOf h (hostOfLink h l.toNat) → s.st = 1 →
      ∃ t, exec (.cleanUnique l r) ⟨h, q⟩ = .next ⟨t, q⟩ ∧ h.answered t l.toNat r (fun m => m.op = 0xA1 ∧ m.lstat = 0 ∧ m.state = 3)
        ∧ hostSt t (hostOfLink h l.toNat) r.addr.toNat = 3 ∧ t.sieve.length = 1 ∧ t.mem = h.mem ∧ t.txns = [])

/-- Notices (R57, R61, R102, R142): a host that was shown a clean copy and drops it with EVICT_NOTE, and one that gives a granule of uncached memory up with
WRITE_BACK, is shown I afterwards and no other entry of the Sieve changes. EVICT_NOTE has no answer. The WRITE_BACK's bytes are in the write buffer,
and it is answered WB_ACK. -/
def Obligations.NoticesGiveUpTheGranule : Prop :=
  ∀ (h : Hub) (q : List Instr) (l : BitVec 3) (r : ReqHdr) (d : List Byte) (e : REntry),
    h.idle → hostOfLink h l.toNat < 7 → e.typ = .nwt →
    (h.takes l.toNat 0x34 r [] e → hostSt h (hostOfLink h l.toNat) r.addr.toNat < 4 →
      ∃ t, exec (.evictNote l r) ⟨h, q⟩ = .next ⟨t, q⟩
        ∧ t.sieve = h.sieve.filter (fun s => !(s.host == hostOfLink h l.toNat && s.addr == r.addr.toNat / granOf h (hostOfLink h l.toNat) * granOf h (hostOfLink h l.toNat)))
        ∧ (∀ k, (link t k).q = (link h k).q) ∧ t.mem = h.mem ∧ t.txns = [] ∧ t.wbs = [])
    ∧ (h.takes l.toNat 0x33 r d e → 3 ≤ hostSt h (hostOfLink h l.toNat) r.addr.toNat → h.cache.cst = .off → h.cache.sectors = [] → h.ladle = [] →
        h.mons = [] → memReadable h e r.addr.toNat = true → canWb h (homeCluster r.addr.toNat) 3 = true →
      ∃ t w, exec (.writeBack l r d) ⟨h, q⟩ = .next ⟨t, q⟩
        ∧ t.sieve = h.sieve.filter (fun s => !(s.host == hostOfLink h l.toNat && s.addr == r.addr.toNat / granOf h (hostOfLink h l.toNat) * granOf h (hostOfLink h l.toNat)))
        ∧ h.answered t l.toNat r (fun m => m.op = 0xA3 ∧ m.lstat = 0)
        ∧ t.wbs = [w] ∧ w.line = r.addr.toNat / 128 ∧ w.tgt = 0 ∧ w.poison = false
        ∧ (∀ k, k < 2 ^ r.len.toNat → w.mask.getD (r.addr.toNat % 128 + k) false = true ∧ w.data.getD (r.addr.toNat % 128 + k) 0#8 = d.getD k 0#8)
        ∧ t.mem = h.mem ∧ t.txns = [])

/-- Castouts (R61, R62). With the cache on and a free slot among its partition's live ways, a class B offer of a granule that its host is shown holding clean is
accepted: the host is shown I, the line is FILLING and the castout waits for its data. Its 128 bytes make the line CLEAN in the array and are answered
CAST_DONE. -/
def Obligations.CastoutIsTakenIn : Prop :=
  ∀ (h : Hub) (q : List Instr) (l : BitVec 3) (r : ReqHdr) (e : REntry), e.typ = .nwt → hostOfLink h l.toNat < 7 → h.cache.cst = .on →
    (link h l.toNat).rev11 = true →
    (h.idle → h.takes l.toNat 0x31 r [] e → h.cache.sectors = [] → h.cache.locks = [] → h.cache.retired = [] → h.cache.powered = 0xFFFF#16 → h.cache.pending = 0#16 →
        (part h r.pid.toNat).wayMask = 0xFFFF#16 → 63 * (part h r.pid.toNat).castDen ≤ 64 * (part h r.pid.toNat).castFrac →
        r.cls = 3#2 → 0 < hostSt h (hostOfLink h l.toNat) r.addr.toNat → hostSt h (hostOfLink h l.toNat) r.addr.toNat < 4 →
        canTrk h (homeCluster r.addr.toNat) 3 = true → bitOf (regGet h 0 0x4000) 8 = false →
      ∃ t x, exec (.castOffer l r) ⟨h, q⟩ = .next ⟨t, q⟩
        ∧ h.answered t l.toNat r (fun m => m.op = 0xB1 ∧ m.lstat = 0) ∧ hostSt t (hostOfLink h l.toNat) r.addr.toNat = 0
        ∧ lineSt t r.addr.toNat = .filling ∧ t.txns = [x] ∧ x.ph = .cast ∧ x.cancelled = false ∧ x.req.tag = r.tag.toNat ∧ t.mem = h.mem)
    ∧ (∀ (d : List Byte) (x : Txn) (set way : Nat) (s : Sector), linkTrained h l.toNat = true → (link h l.toNat).inbox = [] → d.length = 128 → r.len = 7#3 →
        r.addr.toNat % 128 = 0 → admitted h l.toNat r.pid.toNat r.stream.toNat = true → (rmapFind h r.addr.toNat).map Prod.snd = some e → e.here h = true →
        granOf h (hostOfLink h l.toNat) = 128 → h.life.phase = .run → h.life.warm = [] → h.undef = [] → h.snps = [] → h.waiting = [] → h.tongs = [] → h.integ.evict = [] →
        h.ladle = [] → h.twin.reqs = [] → (∀ dd n, dd < 2 → n < 8 → bfind h.regs (dd * 0x100000 + 0x4910 + 8 * n) = none) →
        h.txns = [x] → x.req.op = 0x31 → x.req.src = .link → x.ph = .cast → x.req.host = hostOfLink h l.toNat → x.req.addr = r.addr.toNat → x.req.size = 128 →
        x.req.tag = r.tag.toNat → x.req.link = l.toNat → x.req.stream = r.stream.toNat → x.req.vc = r.vc → x.cancelled = false → x.cnt = false →
        x.slice = homeSlice r.addr.toNat → x.slot = some (set, way) →
        h.cache.sectors = [s] → s.lines.length = 8 → findSector h r.addr.toNat = some s → s.slice = x.slice → s.set = set → s.way = way → h.mem.wf = true →
      ∃ t, exec (.castData l r d) ⟨h, q⟩ = .next ⟨t, q⟩
        ∧ h.answered t l.toNat r (fun m => m.op = 0xB3 ∧ m.lstat = 0 ∧ m.declined = false)
        ∧ memReadN t.mem.array (slotOffset x.slice set way (lineIx r.addr.toNat)) 128 = d ∧ lineSt t r.addr.toNat = .clean ∧ t.mem.main = h.mem.main ∧ t.txns = [])

/-- FENCE, RESV_CLEAR and PF_HINT. On a hub where no write is open a FENCE of a scope the link may name is acknowledged at once (R163, R164); RESV_CLEAR takes the
stream's reservation, or with ALL every one of its link's, and is not answered (R170); a hint starts a prefetch of the line it names where R86 holds
none back, and is not answered (R87). -/
def Obligations.RequestsWithoutData : Prop :=
  ∀ (h : Hub) (q : List Instr) (l : BitVec 3) (r : ReqHdr), h.idle → linkTrained h l.toNat = true → (link h l.toNat).inbox = [] →
    (h.twin.reqs = [] → r.sub.toNat < 3 → (r.sub.toNat = 2 → (link h l.toNat).rev11 = true) → admitted h l.toNat r.pid.toNat r.stream.toNat = true →
      ∃ t, exec (.fence l r) ⟨h, q⟩ = .next ⟨t, q⟩ ∧ h.answered t l.toNat r (fun m => m.op = 0xA4 ∧ m.lstat = 0)
        ∧ t.txns = [] ∧ t.mem = h.mem ∧ t.sieve = h.sieve ∧ t.mons = h.mons)
    ∧ (admitted h l.toNat r.pid.toNat r.stream.toNat = true →
      ∃ t, exec (.resvClear l r) ⟨h, q⟩ = .next ⟨t, q⟩
        ∧ (∀ m ∈ t.mons, m ∈ h.mons ∧ ¬ (m.link = l.toNat ∧ (r.sub.toNat.testBit 0 = true ∨ m.stream = r.stream.toNat)))
        ∧ (∀ k, (link t k).q = (link h k).q) ∧ t.mem = h.mem ∧ t.txns = [])
    ∧ (∀ e, h.takes l.toNat 0x3B r [] e → e.typ = .nwt → r.addr.toNat % 128 = 0 → r.sub.toNat % 32 = 0 →
        prefetchBarred h (r.addr.toNat / 128) r.pid.toNat (max r.cls.toNat e.cls) = false → h.ladle = [] →
      ∃ t x, exec (.pfHint l r) ⟨h, q⟩ = .next ⟨t, q⟩ ∧ t.ladle = [x] ∧ x.line = r.addr.toNat / 128 ∧ x.pid = r.pid.toNat ∧ x.inFlight = true
        ∧ (∀ k, (link t k).q = (link h k).q) ∧ t.mem = h.mem ∧ t.txns = [])

/-- A request that the tables refuse on its form, one whose address no entry resolves, and one that is not admitted are answered and have no other effect but
their counts (R121, R211, R289, R331): DENIED for a wrong LEN or DSLOTS, ADDR_ERROR for a misaligned or unmapped address, DENIED for a request not
admitted, which its PID's DENY_CNT counts. -/
def Obligations.RefusedRequestsAreAnswered : Prop :=
  ∀ (h : Hub) (q : List Instr) (l : BitVec 3) (r : ReqHdr) (d : List Byte) (i : Instr) (op st : Nat),
    (i, op, st) ∈ [(Instr.rdShared l r, 0x11, 0xA2), (.rdUnique l r, 0x12, 0xA2), (.rdOnce l r, 0x13, 0xA2), (.rdNosnp l r, 0x14, 0xA2),
      (.cleanUnique l r, 0x15, 0xA1), (.rdResv l r, 0x16, 0xA2), (.zeroLine l r, 0x24, 0xA1)] → d = [] →
    linkTrained h l.toNat = true → (link h l.toNat).inbox = [] → h.undef = [] → h.life.phase = .run → r.cls = 0#2 →
    (formStatus h (reqOf l.toNat h.nextId (reqMsg op r d) h) r.len.toNat 0 ≠ 0 →
      ∃ t, exec i ⟨h, q⟩ = .next ⟨t, q⟩
        ∧ h.answered t l.toNat r (fun m => m.op = st ∧ m.lstat = formStatus h (reqOf l.toNat h.nextId (reqMsg op r d) h) r.len.toNat 0 ∧ m.data = [])
        ∧ t.mem = h.mem ∧ t.txns = h.txns ∧ t.sieve = h.sieve ∧ t.mons = h.mons ∧ t.regs = h.regs)
    ∧ (formStatus h (reqOf l.toNat h.nextId (reqMsg op r d) h) r.len.toNat 0 = 0 → admitted h l.toNat r.pid.toNat r.stream.toNat = true →
        rmapFind h r.addr.toNat = none →
      ∃ t, exec i ⟨h, q⟩ = .next ⟨t, q⟩ ∧ h.answered t l.toNat r (fun m => m.op = st ∧ m.lstat = 2 ∧ m.data = [])
        ∧ t.mem = h.mem ∧ t.txns = h.txns ∧ t.sieve = h.sieve ∧ t.mons = h.mons ∧ t.regs = h.regs)
    ∧ (formStatus h (reqOf l.toNat h.nextId (reqMsg op r d) h) r.len.toNat 0 = 0 → admitted h l.toNat r.pid.toNat r.stream.toNat = false → 0 < r.pid.toNat →
      ∃ t, exec i ⟨h, q⟩ = .next ⟨t, q⟩ ∧ h.answered t l.toNat r (fun m => m.op = st ∧ m.lstat = 3 ∧ m.data = [])
        ∧ regField t 0 (0x5800 + 64 * r.pid.toNat) 31 16 = min (regField h 0 (0x5800 + 64 * r.pid.toNat) 31 16 + 1) 65535
        ∧ t.mem = h.mem ∧ t.txns = h.txns ∧ t.sieve = h.sieve ∧ t.mons = h.mons)

/-! ### Answers of hosts, and the twin -/

/-- Answers of hosts (R109, R111, R114, R131, R149, Table: Answers at the home). The last sharer's SNP_RSP(I) lets an upgrade be answered COMP with the state its
home ordering gave. An owner's FWD_DONE(I) shows it in I and grants the requester M or E, as the granule was dirty or not, which the home's COMP tells;
the transaction ends with its DATA, which goes to the requester's link as it came. A SET_REPORT of a set under recovery puts into it the granules
reported with a state, and only them, and ends the recovery. A TICK on the link that is the tick source counts as a tick. -/
def Obligations.HostAnswers : Prop :=
  ∀ (h : Hub) (q : List Instr) (l : BitVec 3) (id : BitVec 12) (x : Txn) (s : Snp),
    (Hub.idle { h with txns := [], snps := [] } → h.twin.snps = [] → h.twin.reqs = [] → h.txns = [x] → h.snps = [s] → h.mons = [] →
        linkTrained h l.toNat = true → (link h l.toNat).inbox = [] → linkTrained h x.req.link = true → x.req.src = .link →
        s.link = l.toNat → s.host = hostOfLink h l.toNat → s.host < 7 → s.id = id.toNat → s.held = false → s.txn = x.id → s.wb = false → s.passed = false →
        s.heldFor = 0 →
      (s.kind = 2 → s.owner = false → s.done = false → x.ph = .snoop → x.upg = true → x.fwd = false → x.req.op = 0x15 → x.grant ≠ 0 →
          (rmapFind h x.req.addr).map (fun e => e.2.typ) = some .nwt →
        ∃ u o, exec (.snpRsp l id 0 false false []) ⟨h, q⟩ = .next ⟨u, q⟩
          ∧ (link u x.req.link).q = (link h x.req.link).q ++ [o] ∧ o.msg.op = 0xA1 ∧ o.msg.lstat = 0 ∧ o.msg.state = x.grant ∧ o.msg.tag = x.req.tag
          ∧ u.txns = [] ∧ u.snps = [] ∧ u.sieve = h.sieve ∧ u.mem = h.mem)
      ∧ (∀ (dirty : Bool) (o : SEnt), s.kind = 4 → s.owner = true → s.done = false → x.ph = .snoop → x.req.op = 0x12 → x.fwd = false → x.upg = false →
          h.sieve = [o] → o.host = s.host → o.addr = s.addr → o.st = 3 → x.req.host < 7 → x.req.host ≠ s.host →
          granOf h x.req.host = granOf h s.host → x.req.addr / granOf h s.host * granOf h s.host = s.addr → s.addr % granOf h s.host = 0 →
        ∃ u k, exec (.fwdDone l id 0 dirty false) ⟨h, q⟩ = .next ⟨u, q⟩
          ∧ (link u x.req.link).q = (link h x.req.link).q ++ [k] ∧ k.msg.op = 0xA1 ∧ k.msg.state = (if dirty then 5 else 3) ∧ k.msg.tag = x.req.tag
          ∧ hostSt u s.host s.addr = 0 ∧ hostSt u x.req.host x.req.addr = (if dirty then 5 else 3)
          ∧ u.snps = (if s.dataSeen then [] else [{ s with done := true }]) ∧ u.txns.length = (if s.dataSeen then 0 else 1) ∧ u.mem = h.mem)
      ∧ (∀ (r : RspHdr) (d : List Byte), (s.kind = 3 ∨ s.kind = 4) → s.dataSeen = false → d.length = s.size → (s.done = true → x.ph = .closing) →
          (s.done = false → x.ph = .snoop) → x.req.op = 0x12 →
        ∃ u k, exec (.data l r id false d) ⟨h, q⟩ = .next ⟨u, q⟩
          ∧ (link u x.req.link).q = (link h x.req.link).q ++ [k] ∧ k.msg.op = 0x93 ∧ k.msg.data = d ∧ k.msg.tag = x.req.tag
          ∧ u.snps = (if s.done then [] else [{ s with dataSeen := true }]) ∧ u.txns = (if s.done then [] else [x]) ∧ u.sieve = h.sieve ∧ u.mem = h.mem))
    ∧ (∀ (v : Recovery) (qid : Byte) (hset : BitVec 16) (d : List Byte), Hub.idle { h with recov := [] } → h.recov = [v] → h.twin.snps = [] → h.twin.reqs = [] →
        linkTrained h l.toNat = true → (link h l.toNat).inbox = [] → v.qid = qid.toNat → v.link = l.toNat → v.set = hset.toNat → v.granules = [] → v.held = [] →
        compressed h v.host = false →
      ∃ u, exec (.linkCtlSetReport l qid hset d) ⟨h, q⟩ = .next ⟨u, q⟩ ∧ u.recov = []
        ∧ (u.sieve.filter (fun e => e.host == v.host && e.set == v.set && homeDie e.addr == v.die)).map (fun e => (e.way, e.addr, e.st))
          = ((List.range (d.length / 8)).map (fun w => (w, ofBytes (slice d (8 * w) 8) % 2 ^ 42 * 64, ofBytes (slice d (8 * w) 8) / 2 ^ 42 % 8))).filter
              (fun e => e.2.2 != 0 && homeDie e.2.1 == v.die)
        ∧ u.sieve.filter (fun e => !(e.host == v.host && e.set == v.set && homeDie e.addr == v.die))
          = h.sieve.filter (fun e => !(e.host == v.host && e.set == v.set && homeDie e.addr == v.die))
        ∧ u.mem = h.mem)
    ∧ (∀ frame : Word32, linkTrained h l.toNat = true → (link h l.toNat).inbox = [] → h.fs.srcNow = 2 → bits h.fs.tickCtl.toNat 14 12 = l.toNat →
        h.fs.started = true → h.fs.tickPend = 0 → h.fs.fresh = false → h.fs.tickAt + max 4000 (h.fs.period / 2) * 1250 ≤ h.now →
      ∃ u, exec (.tick l frame) ⟨h, q⟩ = .next ⟨u, q⟩ ∧ u.fs = { h.fs with tickPend := 1, fresh := false, tickAt := h.now, synthRun := 0 } ∧ u.mem = h.mem)

/-- Snoops and forwards of the twin (R134). For a granule that no local host holds the hub answers on LL7 at once: a snoop with SNP_RSP in state I and without
data, a forward with FWD_DONE that it passes; the proxy is shown I. From another link than the twin's the message is discarded and counted. -/
def Obligations.TwinSnoopsAreAnswered : Prop :=
  ∀ (h : Hub) (q : List Instr) (l : BitVec 3) (x : SnpHdr) (i : Instr) (fwd : Bool),
    (i, fwd) ∈ [(Instr.snpShared l x, false), (.snpUnique l x, false), (.snpInval l x, false), (.snpFwdShared l x, true), (.snpFwdUnique l x, true)] →
    linkTrained h l.toNat = true → (link h l.toNat).inbox = [] →
    (isTwinLink h l.toNat = true → h.twin.reqs = [] → h.twin.snps = [] → h.snps = [] → h.sieve = [] → x.addr.toNat % proxyGran h = 0 →
      ∃ u o, exec i ⟨h, q⟩ = .next ⟨u, q⟩ ∧ (link u 7).q = (link h 7).q ++ [o]
        ∧ o.msg.op = (if fwd then 0x92 else 0x91) ∧ o.msg.snpid = x.snpid.toNat ∧ o.msg.state = 0 ∧ o.msg.dirty = false ∧ o.msg.passed = fwd
        ∧ o.msg.data = [] ∧ o.msg.wbPending = false
        ∧ (fwd = false → proxySt u x.addr.toNat = 0) ∧ u.twin.snps = [] ∧ u.mem = h.mem ∧ u.sieve = [])
    ∧ (isTwinLink h l.toNat = false →
      ∃ u, exec i ⟨h, q⟩ = .next ⟨u, q⟩ ∧ u.twin = h.twin ∧ u.txns = h.txns ∧ u.sieve = h.sieve ∧ u.mem = h.mem ∧ (∀ k, (link u k).q = (link h k).q)
        ∧ regField u (dieOfLink l.toNat) (linkCtlOff l.toNat + 12) 3 2 = min (regField h (dieOfLink l.toNat) (linkCtlOff l.toNat + 12) 3 2 + 1) 3)

/-- Answers of the twin (R133, R155, R332). To a request of a local host that was sent on LL7, COMP, COMP_DATA, WB_ACK, SC_RESULT, CAST_DECLINE and CAST_DONE
are passed on to its link with its own tag and end it; a grant for a read goes into the proxy and, for
the host, into the local Sieve; CAST_ACCEPT is passed on and leaves its castout open, and a FENCE that
waits for the last of its writes, one homed on the twin, is acknowledged behind that write's COMP (R158, R164). An answer that names no request, as every FENCE_ACK
does where no FENCE is sent on LL7 (R341), has no effect (log entry 28). A SET_QUERY is answered with a SET_REPORT of the proxy's set (R154). -/
def Obligations.TwinAnswersArePassedOn : Prop :=
  ∀ (h : Hub) (q : List Instr) (r : RspHdr), linkTrained h 7 = true → (link h 7).inbox = [] → isTwinLink h 7 = true →
    (∀ (i : Instr) (op : Nat) (y : TwinReq), (i, op) ∈ [(Instr.comp 7 r, 0xA1), (.compData 7 r [], 0xA2), (.wbAck 7 r, 0xA3), (.scResult 7 r, 0xA5),
          (.castDecline 7 r, 0xB2), (.castDone 7 r, 0xB3)] →
        h.twin.reqs = [y] → h.twin.snps = [] → h.txns = [] → h.waiting = [] → h.tongs = [] → h.integ.evict = [] → h.cache.echoDue = [] → y.ph = 1 → y.req.src = .link → y.ownTag = r.tag.toNat →
        twinStream y.req = r.stream.toNat → y.data = false → y.req.op ∈ [0x13, 0x14, 0x21, 0x22, 0x24, 0x26, 0x31, 0x33] → (y.req.op = 0x13 ∨ y.req.op = 0x14 → op = 0xA2) →
        r.lstat = 0#2 → linkTrained h y.req.link = true → y.req.link ≠ 7 → (∀ d n, d < 2 → n < 8 → bfind h.regs (d * 0x100000 + 0x4910 + 8 * n) = none) →
      ∃ u o, exec i ⟨h, q⟩ = .next ⟨u, q⟩ ∧ (link u y.req.link).q = (link h y.req.link).q ++ [o]
        ∧ o.msg.op = op ∧ o.msg.lstat = 0 ∧ o.msg.tag = y.req.tag ∧ o.msg.stream = y.req.stream ∧ o.msg.vc = y.req.vc
        ∧ o.msg.reason = r.reason.toNat ∧ o.msg.declined = r.declined ∧ o.msg.pass = r.pass
        ∧ u.twin.reqs = [] ∧ u.mem = h.mem ∧ u.sieve = h.sieve)
    ∧ (∀ y : TwinReq, h.twin.reqs = [y] → y.ph = 1 → y.req.src = .link → y.ownTag = r.tag.toNat → twinStream y.req = r.stream.toNat → linkTrained h y.req.link = true →
        (y.req.op = 0x31 → y.req.link ≠ 7 →
          ∃ u o, exec (.castAccept 7 r) ⟨h, q⟩ = .next ⟨u, q⟩ ∧ (link u y.req.link).q = (link h y.req.link).q ++ [o] ∧ o.msg.op = 0xB1
            ∧ o.msg.tag = y.req.tag ∧ u.twin.reqs = [y] ∧ u.mem = h.mem)
        ∧ (∀ x : Txn, y.req.op ∈ [0x21, 0x22, 0x24] → r.lstat = 0#2 → y.data = false → y.req.link ≠ 7 → h.txns = [x] → x.req.op = 0x39 → x.req.src = .link → x.req.link = y.req.link →
            x.ph = .ready → x.crossed = [y.req.uid] → y.req.uid ≠ 0 → (∀ k ∈ h.links, k.2.inbox = []) → h.twin.snps = [] → h.waiting = [] → h.recov = [] → h.snps = [] → h.tongs = [] →
            h.integ.evict = [] → h.cache.echoDue = [] → (∀ d n, d < 2 → n < 8 → bfind h.regs (d * 0x100000 + 0x4910 + 8 * n) = none) →
          ∃ u o p, exec (.comp 7 r) ⟨h, q⟩ = .next ⟨u, q⟩ ∧ (link u y.req.link).q = (link h y.req.link).q ++ [o, p] ∧ o.msg.op = 0xA1 ∧ o.msg.tag = y.req.tag
            ∧ p.msg.op = 0xA4 ∧ p.msg.lstat = 0 ∧ p.msg.tag = x.req.tag ∧ u.twin.reqs = [] ∧ u.txns = [] ∧ u.mem = h.mem))
    ∧ (∀ (y : TwinReq) (d : List Byte) (w : Nat), h.twin.reqs = [y] → h.twin.snps = [] → h.txns = [] → h.waiting = [] → h.tongs = [] → h.integ.evict = [] → h.cache.echoDue = [] →
        h.sieve = [] → y.ph = 1 → y.req.src = .link → y.ownTag = r.tag.toNat → twinStream y.req = r.stream.toNat → y.data = false → y.req.op ∈ [0x11, 0x12] → y.way = some w →
        y.req.addr = y.addr → y.req.size = y.size → 16 ≤ y.size → y.addr % proxyGran h = 0 → d.length = y.size → r.lstat = 0#2 → r.state ∈ [1#3, 3#3, 5#3] → linkTrained h y.req.link = true → y.req.link ≠ 7 →
        y.req.host < 7 → (snoopLink h y.req.host).isSome = true → (∀ d n, d < 2 → n < 8 → bfind h.regs (d * 0x100000 + 0x4910 + 8 * n) = none) →
      ∃ u o, exec (.compData 7 r d) ⟨h, q⟩ = .next ⟨u, q⟩ ∧ (link u y.req.link).q = (link h y.req.link).q ++ [o] ∧ o.msg.op = 0xA2 ∧ o.msg.lstat = 0 ∧ o.msg.state = r.state.toNat
        ∧ o.msg.tag = y.req.tag ∧ o.msg.data = d ∧ hostSt u y.req.host y.req.addr = r.state.toNat ∧ proxySt u y.addr = r.state.toNat ∧ u.twin.reqs = [] ∧ u.mem = h.mem)
    ∧ (∀ (i : Instr), twinOf h r.stream.toNat r.tag.toNat = none → i ∈ [Instr.comp 7 r, .compData 7 r [], .wbAck 7 r, .fenceAck 7 r, .scResult 7 r, .castAccept 7 r, .castDecline 7 r, .castDone 7 r] →
      exec i ⟨h, q⟩ = .next ⟨{ h with nextId := h.nextId + 1 }, q⟩)
    ∧ (∀ (qid : Byte) (hset : BitVec 16),
      ∃ u o, exec (.linkCtlSetQuery 7 qid hset) ⟨h, q⟩ = .next ⟨u, q⟩ ∧ (link u 7).q = (link h 7).q ++ [o] ∧ o.msg.op = 0xC3 ∧ o.msg.kind = 1
        ∧ o.msg.qid = qid.toNat ∧ o.msg.hset = hset.toNat
        ∧ (∀ w, w < wordWays (twinGeom h) → slice o.msg.data (8 * w) 8
            = wayWord (h.twin.proxy.find? (fun e => e.set == hset.toNat && e.way == w)))
        ∧ u.twin = h.twin ∧ u.mem = h.mem)

/-! ### Commands of the managers' rings -/

/-- A light command of a manager's ring has its effect and its completion at once (R78, R84, R213, R214, R241, R242, R266, R267, R270, R276, R279, R280, R415).
Each clause gives the conditions its outcome table sets for OK, the state it leaves and the completion entry; an opcode that the catalogue does not list
completes BAD_ARG. Completions go to a ring in the Kettle. -/
def Obligations.LightCommandsComplete : Prop :=
  ∀ (h : Hub) (q : List Instr) (m : BitVec 2) (c : CmdWord) (e : REntry), Hub.idle { h with wins := [] } → h.ringIn m.toNat e →
    (∀ w : Win, h.takesCmd m.toNat 0x21 c → h.wins = [(bits c.arg0.toNat 3 0, w)] → w.armed = true → bitOf (regGet h 0 0x4300) 0 = false →
      ∃ u, exec (.witnessDisarm m c) ⟨h, q⟩ = .next ⟨u, q⟩ ∧ h.posted u m.toNat e c.tag.toNat 0 0x21 0 0
        ∧ (win u (bits c.arg0.toNat 3 0)).st = .disarmed ∧ (win u (bits c.arg0.toNat 3 0)).failed = false ∧ u.life.witFaultN = false)
    ∧ (h.wins = [] →
    (h.takesCmd m.toNat 0 c →
      ∃ u, exec (.nop m 0#8 c) ⟨h, q⟩ = .next ⟨u, q⟩ ∧ h.posted u m.toNat e c.tag.toNat 0 0 0 0 ∧ (mgr u m.toNat).head = ((mgr h m.toNat).head + 1) % 65536
        ∧ u.cache = h.cache ∧ u.rmap = h.rmap ∧ u.parts = h.parts ∧ u.led = h.led ∧ u.wins = h.wins)
    ∧ (∀ op : Byte, canTake h m.toNat = true → op ≠ 0#8 → cmdSpec op.toNat = none →
      ∃ u, exec (.nop m op c) ⟨h, q⟩ = .next ⟨u, q⟩ ∧ h.posted u m.toNat e c.tag.toNat 2 op.toNat 0 0
        ∧ u.cache = h.cache ∧ u.rmap = h.rmap ∧ u.parts = h.parts ∧ u.led = h.led ∧ u.wins = h.wins)
    ∧ (h.takesCmd m.toNat 0x01 c → bits c.arg0.toNat 1 0 ≠ 0 → h.cache.cst = .off → h.life.arrayUp = true → cacheClash h (bits c.arg0.toNat 1 0) = false →
      ∃ u, exec (.cacheEnable m c) ⟨h, q⟩ = .next ⟨u, q⟩ ∧ h.posted u m.toNat e c.tag.toNat 0 0x01 0 0
        ∧ u.cache.cst = .on ∧ u.cache.size = bits c.arg0.toNat 1 0 ∧ u.cache.sectors = [] ∧ u.cache.locks = [] ∧ u.cache.echoDue = []
        ∧ u.cache.powered = 0xFFFF#16 ∧ u.cache.pending = 0#16 ∧ u.rmap = h.rmap)
    ∧ (h.takesCmd m.toNat 0x04 c → h.cache.cst = .on → h.cache.sectors = [] → bitOf c.arg0.toNat 16 = true → BitVec.ofNat 16 c.arg0.toNat &&& h.cache.pending = 0#16 →
      ∃ u, exec (.wayPower m c) ⟨h, q⟩ = .next ⟨u, q⟩ ∧ h.posted u m.toNat e c.tag.toNat 0 0x04 0 0
        ∧ u.cache.powered = h.cache.powered ||| BitVec.ofNat 16 c.arg0.toNat ∧ u.cache.pending = h.cache.pending ∧ u.cache.sectors = [])
    ∧ (∀ n : REntry, h.takesCmd m.toNat 0x06 c → bits c.arg1.toNat 42 27 ≠ 0 → regionArgs c.arg1.toNat c.arg2.toNat = some n → regionBad h n = false →
        n.typ ≠ .nwb → n.typ ≠ .shadow → breaksShadow h (bits c.arg0.toNat 5 0) (some n) = false → h.shadows = [] → popHolds (popOf h) n.typ = true →
        regionClash h (bits c.arg0.toNat 5 0) n = false →
        (rmapFind { h with rmap := bset h.rmap (bits c.arg0.toNat 5 0) n } (h.cplSlot m.toNat)).map Prod.snd = some e →
      ∃ u, exec (.regionSet m c) ⟨h, q⟩ = .next ⟨u, q⟩ ∧ h.posted u m.toNat e c.tag.toNat 0 0x06 0 0
        ∧ u.rmap = bset h.rmap (bits c.arg0.toNat 5 0) n ∧ u.cache = h.cache)
    ∧ (h.takesCmd m.toNat 0x07 c → bits c.arg0.toNat 1 0 = h.life.arrayPop → h.cache.cst = .off → h.life.arrayUp = true → h.led.failing.contains 0x20 = false →
        h.rmap.any (fun f => f.2.valid && f.2.here h && !(popHolds h.life.arrayPop f.2.typ)) = false →
      ∃ u, exec (.arrayPopSet m c) ⟨h, q⟩ = .next ⟨u, q⟩ ∧ h.posted u m.toNat e c.tag.toNat 0 0x07 0 0
        ∧ u.led.pop = some h.life.arrayPop ∧ u.life.mismatch = false ∧ u.rmap = h.rmap)
    ∧ (h.takesCmd m.toNat 0x20 c → armArgsBad h (armArgs c.pid.toNat c.arg0.toNat c.arg1.toNat c.arg2.toNat) c.arg2.toNat = false →
        witPlaced h c.arg1.toNat c.arg2.toNat = true → shownSt (part h c.pid.toNat) ≠ .free → (part h c.pid.toNat).st ≠ .frozen → 0 < (part h c.pid.toNat).witCnt →
      ∃ u, exec (.witnessArm m c) ⟨h, q⟩ = .next ⟨u, q⟩ ∧ h.posted u m.toNat e c.tag.toNat 0 0x20 0 0
        ∧ u.wins = [(bits c.arg0.toNat 3 0, armArgs c.pid.toNat c.arg0.toNat c.arg1.toNat c.arg2.toNat)])
    ∧ (∀ off bit, h.takesCmd m.toNat 0x28 c → expertBit (bits c.arg0.toNat 2 0) = some (off, bit) → bitOf (regGet h 0 off) bit ≠ bitOf c.arg0.toNat 8 →
        (bitOf c.arg0.toNat 8 = false → expertHeld h (bits c.arg0.toNat 2 0) = false) →
      ∃ u, exec (.expertSet m c) ⟨h, q⟩ = .next ⟨u, q⟩ ∧ h.posted u m.toNat e c.tag.toNat 0 0x28 0 0
        ∧ (∀ d, d < 2 → regField u d off bit bit = b2n (bitOf c.arg0.toNat 8))
        ∧ (bitOf c.arg0.toNat 8 = false → bits c.arg0.toNat 2 0 ∈ u.fs.fallback))
    ∧ (h.takesCmd m.toNat 0x30 c → m = 0#2 → c.auth = false → c.arg3 = 0#64 → h.led.failing.contains 0x10 = false →
      ∃ u, exec (.keyLoad m c) ⟨h, q⟩ = .next ⟨u, q⟩ ∧ h.posted u 0 e c.tag.toNat 0 0x30 0 0
        ∧ bfind u.led.keys 0 = some (BitVec.ofNat 128 (c.arg1.toNat + c.arg2.toNat * 2 ^ 64)))
    ∧ (∀ (k : BitVec 128) (new : List Nat), h.takesCmd m.toNat 0x31 c → bfind h.led.keys m.toNat = some k → keyUnwrap (keyBytes k) (wrappedKey c) = some new →
        h.led.failing.contains (0x10 + m.toNat) = false →
      ∃ u, exec (.keyRotate m c) ⟨h, q⟩ = .next ⟨u, q⟩ ∧ h.posted u m.toNat e c.tag.toNat 0 0x31 0 0
        ∧ bfind u.led.keys m.toNat = some (BitVec.ofNat 128 (ofBytes (new.map (BitVec.ofNat 8)))))
    ∧ (h.takesCmd m.toNat 0x39 c → bitOf c.arg0.toNat 0 ≠ h.life.fwSlot → (fwSlot h (bitOf c.arg0.toNat 0)).valid = true →
        (fwSlot h (bitOf c.arg0.toNat 0)).live = false → h.life.handover = none → h.stage = none → h.led.failing.contains 0x30 = false →
      ∃ u, exec (.fwSwitch m c) ⟨h, q⟩ = .next ⟨u, q⟩ ∧ h.posted u m.toNat e c.tag.toNat 0 0x39 0 0
        ∧ u.led.bootSlot = bitOf c.arg0.toNat 0 ∧ u.life.named = true ∧ u.life.fwSlot = h.life.fwSlot)
    ∧ (∀ n : REntry, h.takesCmd m.toNat 0x3A c → bits c.arg0.toNat 3 0 = 2 → c.arg2 = 1#64 → h.mem.mainErr = [] →
        injectEntry h 2 (bits c.arg0.toNat 15 8) 1 c.arg1.toNat (bitOf c.arg0.toNat 16) = some n → bitOf c.arg0.toNat 16 = false →
      ∃ u, exec (.errInject m c) ⟨h, q⟩ = .next ⟨u, q⟩ ∧ h.posted u m.toNat e c.tag.toNat 0 0x3A 1 0
        ∧ u.mem.mainErr = [(n.off (c.arg1.toNat / 8 * 8) / 8, BitVec.ofNat 72 (2 ^ bits c.arg0.toNat 15 8))] ∧ u.mem.main = h.mem.main)
    ∧ (h.takesCmd m.toNat 0x3B c → bits c.arg0.toNat 4 0 ≠ 0 → h.led.failing = [] → (bits c.arg0.toNat 4 0 % 8 ≠ 0 → h.cache.cst = .off ∧ h.life.arrayUp = false) →
      ∃ u, exec (.ledgerErase m c) ⟨h, q⟩ = .next ⟨u, q⟩ ∧ h.posted u m.toNat e c.tag.toNat 0 0x3B 0 0
        ∧ u.led.retire = (if bitOf c.arg0.toNat 0 then [] else h.led.retire) ∧ u.led.remap = (if bitOf c.arg0.toNat 1 then [] else h.led.remap)
        ∧ u.led.failed = (if bitOf c.arg0.toNat 2 then 0#11 else h.led.failed) ∧ u.led.sev3 = (if bitOf c.arg0.toNat 3 then [] else h.led.sev3)
        ∧ u.led.training = (if bitOf c.arg0.toNat 4 then [] else h.led.training)))

/-- Light partition commands (R294, R295, R297, R298, R300, R302, R305): in the states their tables name they leave the partition with the grants and settings of
their arguments, ACTIVE, CREATED or FREE, other partitions as they were, and complete OK. -/
def Obligations.PartitionCommandsComplete : Prop :=
  ∀ (h : Hub) (q : List Instr) (m : BitVec 2) (c : CmdWord) (e : REntry), h.idle → h.ringIn m.toNat e →
    (h.takesCmd m.toNat 0x10 c → c.pid ≠ 0#6 → grantsOk (grantsOf c.arg0.toNat) = true →
        settingsBad h 31 (putSettings 31 c.arg1.toNat c.arg2.toNat c.arg3.toNat (grantsOf c.arg0.toNat)) = false → (part h c.pid.toNat).st = .free →
        poolsOk h c.pid.toNat (putSettings 31 c.arg1.toNat c.arg2.toNat c.arg3.toNat (grantsOf c.arg0.toNat)) = true →
      ∃ u, exec (.partCreate m c) ⟨h, q⟩ = .next ⟨u, q⟩ ∧ h.posted u m.toNat e c.tag.toNat 0 0x10 0 0
        ∧ part u c.pid.toNat = putSettings 31 c.arg1.toNat c.arg2.toNat c.arg3.toNat (grantsOf c.arg0.toNat)
        ∧ (part u c.pid.toNat).st = .created ∧ (part u c.pid.toNat).kbase = bits c.arg0.toNat 13 8 ∧ (part u c.pid.toNat).bud = threeOf c.arg2.toNat
        ∧ (∀ p, p ≠ c.pid.toNat → part u p = part h p))
    ∧ (h.takesCmd m.toNat 0x11 c → bits c.arg0.toNat 4 0 = 2 → (part h c.pid.toNat).st = .active → (part h c.pid.toNat).busy = false →
        settingsBad h 2 (putSettings 2 0 c.arg2.toNat 0 (part h c.pid.toNat)) = false →
        admitsWith h c.pid.toNat (putSettings 2 0 c.arg2.toNat 0 (part h c.pid.toNat)) = true →
        waysShort h (putSettings 2 0 c.arg2.toNat 0 (part h c.pid.toNat)) = false →
      ∃ u, exec (.partSet m c) ⟨h, q⟩ = .next ⟨u, q⟩ ∧ h.posted u m.toNat e c.tag.toNat 0 0x11 0 0
        ∧ part u c.pid.toNat = { part h c.pid.toNat with bud := threeOf c.arg2.toNat } ∧ (∀ p, p ≠ c.pid.toNat → part u p = part h p))
    ∧ (h.takesCmd m.toNat 0x13 c → (part h c.pid.toNat).busy = false → ((part h c.pid.toNat).st = .created ∨ (part h c.pid.toNat).st = .quiesced) →
      ∃ u, exec (.partResume m c) ⟨h, q⟩ = .next ⟨u, q⟩ ∧ h.posted u m.toNat e c.tag.toNat 0 0x13 0 0
        ∧ part u c.pid.toNat = { part h c.pid.toNat with st := .active, movStop := false, resumeTicks := 0 } ∧ (∀ p, p ≠ c.pid.toNat → part u p = part h p))
    ∧ (h.takesCmd m.toNat 0x14 c → (part h c.pid.toNat).busy = false → (part h c.pid.toNat).st = .quiesced →
      ∃ u, exec (.partReset m c) ⟨h, q⟩ = .next ⟨u, q⟩ ∧ h.posted u m.toNat e c.tag.toNat 0 0x14 0 0
        ∧ (part u c.pid.toNat).st = .created ∧ (part u c.pid.toNat).page = [] ∧ (part u c.pid.toNat).run = [] ∧ (part u c.pid.toNat).movHead = 0
        ∧ (part u c.pid.toNat).movTail = 0 ∧ (part u c.pid.toNat).links = (part h c.pid.toNat).links ∧ (part u c.pid.toNat).bud = (part h c.pid.toNat).bud
        ∧ bget u.warm c.pid.toNat [] = [] ∧ (∀ k ∈ u.cache.locks, k ∈ h.cache.locks ∧ (sector h k.1 k.2.1 k.2.2).pid ≠ c.pid.toNat)
        ∧ (∀ p, p ≠ c.pid.toNat → part u p = part h p))
    ∧ (h.takesCmd m.toNat 0x18 c → (part h c.pid.toNat).busy = false → (part h c.pid.toNat).st = .frozen → (part h c.pid.toNat).kcount = 0 →
      ∃ u, exec (.partDestroy m c) ⟨h, q⟩ = .next ⟨u, q⟩ ∧ h.posted u m.toNat e c.tag.toNat 0 0x18 0 0
        ∧ (part u c.pid.toNat).st = .free ∧ (part u c.pid.toNat).links = 0#8 ∧ (∀ p, p ≠ c.pid.toNat → part u p = part h p))

/-- A heavy command that passes its checks runs: it takes its place among the heavy commands with its tag and partition, no completion is written yet, and its
engine is set to work (R67, R69, R73, R75, R80, R268, R301, R303, R304, R306, R414). -/
def Obligations.HeavyCommandsStart : Prop :=
  ∀ (h : Hub) (q : List Instr) (m : BitVec 2) (c : CmdWord), h.idle →
    (h.takesCmd m.toNat 0x02 c → h.cache.cst = .on →
      ∃ u w, exec (.cacheDisable m c) ⟨h, q⟩ = .next ⟨u, q⟩ ∧ h.startedHeavy u m.toNat 0x02 c ∧ u.cache.cst = .draining
        ∧ u.walks = h.walks ++ [w] ∧ w.kind = 2 ∧ w.op = 2 ∧ w.setMode = true ∧ w.job = h.nextId)
    ∧ (h.takesCmd m.toNat 0x03 c → h.cache.cst = .on → bits c.arg0.toNat 1 0 ≠ 3 → rangeBad 128 c.arg1.toNat c.arg2.toNat = false →
      ∃ u w, exec (.cacheRange m c) ⟨h, q⟩ = .next ⟨u, q⟩ ∧ h.startedHeavy u m.toNat 0x03 c ∧ u.walks = h.walks ++ [w] ∧ w.kind = 1
        ∧ w.op = bits c.arg0.toNat 1 0 ∧ w.base = c.arg1.toNat ∧ w.len = c.arg2.toNat ∧ w.job = h.nextId ∧ w.setMode = !(probes h c.arg2.toNat))
    ∧ (h.takesCmd m.toNat 0x05 c → h.cache.cst = .on → bitOf c.arg0.toNat 0 = true → rangeBad 1024 c.arg1.toNat c.arg2.toNat = false →
        inCached h 192 c.arg1.toNat (c.arg1.toNat + c.arg2.toNat) = true → shownSt (part h c.pid.toNat) = .active →
      ∃ u w, exec (.wayLock m c) ⟨h, q⟩ = .next ⟨u, q⟩ ∧ h.startedHeavy u m.toNat 0x05 c ∧ u.walks = h.walks ++ [w] ∧ w.kind = 4 ∧ w.op = 0
        ∧ w.base = c.arg1.toNat ∧ w.len = c.arg2.toNat ∧ w.pid = c.pid.toNat)
    ∧ (h.takesCmd m.toNat 0x12 c → (part h c.pid.toNat).st = .active → (part h c.pid.toNat).busy = false → h.sieve = [] →
      ∃ u, exec (.partQuiesce m c) ⟨h, q⟩ = .next ⟨u, q⟩ ∧ h.startedHeavy u m.toNat 0x12 c ∧ (part u c.pid.toNat).st = .quiescing
        ∧ (part u c.pid.toNat).busy = true ∧ bget u.warm c.pid.toNat [] = [] ∧ (∀ r ∈ u.movs, r.pid = c.pid.toNat → r.stop = true))
    ∧ (h.takesCmd m.toNat 0x15 c → (part h c.pid.toNat).st = .quiesced → (part h c.pid.toNat).busy = false → h.cache.cst = .on →
      ∃ u w, exec (.partFreeze m c) ⟨h, q⟩ = .next ⟨u, q⟩ ∧ h.startedHeavy u m.toNat 0x15 c ∧ (part u c.pid.toNat).busy = true
        ∧ u.walks = h.walks ++ [w] ∧ w.kind = 6 ∧ w.op = 0 ∧ w.pid = c.pid.toNat ∧ w.setMode = true)
    ∧ (h.takesCmd m.toNat 0x16 c → saveBad h c.pid.toNat h.life.wrMax c.arg1.toNat c.arg2.toNat = false → bits c.arg0.toNat 4 0 = 0 →
        (part h c.pid.toNat).st = .frozen → (part h c.pid.toNat).busy = false → imgLength h c.pid.toNat none ≤ c.arg2.toNat →
      ∃ u j, exec (.partSave m c) ⟨h, q⟩ = .next ⟨u, q⟩ ∧ h.startedHeavy u m.toNat 0x16 c ∧ (part u c.pid.toNat).busy = true
        ∧ u.images = h.images ++ [j] ∧ j.pid = c.pid.toNat ∧ j.save = true ∧ j.addr = c.arg1.toNat ∧ j.level = h.life.wrMax)
    ∧ (h.takesCmd m.toNat 0x38 c → 128 ≤ c.arg2.toNat → c.arg2.toNat ≤ 4194304 → bitOf c.arg0.toNat 0 ≠ h.life.fwSlot → h.stage = none →
      ∃ u, exec (.fwStage m c) ⟨h, q⟩ = .next ⟨u, q⟩ ∧ h.startedHeavy u m.toNat 0x38 c
        ∧ u.stage = some (h.nextId, bitOf c.arg0.toNat 0, toBytes 8 c.arg1.toNat ++ toBytes 4 c.arg2.toNat))

/-- Heavy commands end (R74 to R76, R80, R83, R216, R301, R303, R415): when nothing is left of its walk or drain the engine's state is what the command leaves, and
the completion with the work done is in the manager's ring. -/
def Obligations.HeavyCommandsEnd : Prop :=
  ∀ (h : Hub) (q : List Instr) (v : Heavy) (e : REntry), h.idle → h.ringIn v.mgr e → h.heavy = [v] →
    (∀ w : Walk, h.walks = [w] → w.job = v.job → w.ended h = true → w.waits = [] →
      (w.kind = 2 → h.cache.cst = .draining → h.integ.degraded = false →
        ∃ u, exec .cacheDisableDrainDone ⟨h, q⟩ = .next ⟨u, q⟩ ∧ u.cache.cst = .off ∧ u.cache.size = 0 ∧ u.cache.sectors = [] ∧ u.cache.powered = 0#16
          ∧ u.walks = [] ∧ u.heavy = [] ∧ h.posted u v.mgr e v.tag 0 v.opcode w.done 0)
      ∧ (w.kind = 1 → w.bad = 0 →
        ∃ u, exec .cacheRangeDone ⟨h, q⟩ = .next ⟨u, q⟩ ∧ u.walks = [] ∧ u.heavy = [] ∧ u.cache = h.cache ∧ h.posted u v.mgr e v.tag 0 v.opcode w.done 0)
      ∧ (w.kind = 3 → w.lastAt + 2500 ≤ h.now →
        ∃ u, exec .wayPowerOffDone ⟨h, q⟩ = .next ⟨u, q⟩ ∧ u.walks = [] ∧ u.heavy = [] ∧ u.cache.powered = h.cache.powered &&& ~~~w.mask
          ∧ u.cache.pending = h.cache.pending &&& ~~~w.mask ∧ h.posted u v.mgr e v.tag 0 v.opcode w.done 0)
      ∧ (w.kind = 4 →
        ∃ u, exec .wayLockDone ⟨h, q⟩ = .next ⟨u, q⟩ ∧ u.walks = [] ∧ u.heavy = [] ∧ u.cache.locks = h.cache.locks
          ∧ h.posted u v.mgr e v.tag (if w.missed = 0 then 0 else 7) v.opcode w.count 0)
      ∧ (∀ p : BitVec 6, w.kind = 6 → v.opcode = 0x15 → v.pid = p.toNat → w.bad = 0 →
        ∃ u, exec (.partFreezeDone p) ⟨h, q⟩ = .next ⟨u, q⟩ ∧ (part u p.toNat).st = .frozen ∧ (part u p.toNat).busy = false ∧ u.walks = [] ∧ u.heavy = []
          ∧ h.posted u v.mgr e v.tag 0 0x15 w.count 0))
    ∧ (∀ p : BitVec 6, v.opcode = 0x12 → v.pid = p.toNat → (part h p.toNat).movLog = 0 → quiesceWaits h p.toNat = false →
        ∃ u, exec (.partQuiesceDone p) ⟨h, q⟩ = .next ⟨u, q⟩ ∧ (part u p.toNat).st = .quiesced ∧ (part u p.toNat).busy = false ∧ u.heavy = []
          ∧ h.posted u v.mgr e v.tag 0 0x12 0 0)
    ∧ (∀ s : Bool, h.life.handover = some s → h.life.handRun = true → v.opcode = 0x39 → h.led.failing.contains 0x30 = false →
        ∃ u, exec .fwHandoverDone ⟨h, q⟩ = .next ⟨u, q⟩ ∧ u.life.fwSlot = s ∧ u.led.bootSlot = s ∧ u.life.handover = none ∧ u.life.handRun = false ∧ u.heavy = []
          ∧ h.posted u v.mgr e v.tag 0 0x39 0 0)
    ∧ (h.life.handover.isSome = true → h.life.handRun = false → h.fs.frame ≠ h.life.handAt →
        exec .fwHandover ⟨h, q⟩ = .next ⟨{ h with life := { h.life with handRun := true }, fs := { h.fs with skipPass := true } }, q⟩)

/-- Heavy commands that move whole images (R216, R304 to R307, R414), given what the hub's coherent reads or writes of their range come to: a SHADOW load puts its
entry in force with its lines counted; a freeze image written without a refusal frees its partition; a good image loaded leaves its partition QUIESCED at
the image's level; a staged image is kept in its slot where it authenticates and its read-back agrees, and is refused as BAD_ARG where it does not. -/
def Obligations.ImagesMove : Prop :=
  ∀ (h : Hub) (q : List Instr) (v : Heavy), h.heavy = [v] →
    (∀ (k : Nat) (n : REntry), h.shadows = [(v.job, k, n)] → v.job ≠ 0 → h.txns = [] → h.waiting = [] → h.sieve = [] → n.valid = true →
      ∃ u bad, exec .shadowLoadDone ⟨h, q⟩ = .next ⟨finishHeavy v.job (if bad = 0 then 0 else 8) (if bad = 0 then n.size * unit2M / 128 else bad) u, q⟩
        ∧ bad = (loadLines n (List.range (n.size * unit2M / 128)) 0 h).1 ∧ u.mem = (loadLines n (List.range (n.size * unit2M / 128)) 0 h).2.mem
        ∧ bfind u.rmap k = some n ∧ u.shadows = [])
    ∧ (∀ (p : BitVec 6) (j : ImgJob) (img : List Byte) (g g' : Hub), h.images = [j] → j.pid = p.toNat → j.job = v.job → j.save = true → v.opcode = 0x16 → v.pid = p.toNat →
        imageReady j h = some (img, [], g) → storeRange v.mgr j.job j.addr img g = .done 0 g' →
      ∃ u, exec (.partSaveDone p) ⟨h, q⟩ = .next ⟨finishHeavy v.job 0 img.length (freePart p.toNat u), q⟩ ∧ u.mem = g'.mem ∧ u.parts = g'.parts
        ∧ (part (freePart p.toNat u) p.toNat).st = .free)
    ∧ (∀ (p : BitVec 6) (j : ImgJob) (d : List Byte) (g : Hub), h.images = [j] → j.pid = p.toNat → j.job = v.job → j.save = false → v.opcode = 0x17 → v.pid = p.toNat →
        j.image ≠ [] → fetchRange v.mgr j.job j.addr (fieldOf j.image 12 4) h = .got none d g → (parseSections d 8 64 0).2.1 = none →
      ∃ u, exec (.partRestoreLoadDone p) ⟨h, q⟩ = .next ⟨finishHeavy v.job 0 d.length u, q⟩ ∧ (part u p.toNat).st = .quiesced ∧ (part u p.toNat).busy = false
        ∧ (part u p.toNat).level = j.level)
    ∧ (∀ (m : BitVec 2) (c : CmdWord), h.idle → h.takesCmd m.toNat 0x17 c → c.pid ≠ 0#6 → (part h c.pid.toNat).st = .free → h.sieve = [] →
        (∀ i, i < 3 → mappedTwin h (c.arg1.toNat + 64 * i) = true) → twinUp h = true → h.twin.reqs = [] →
      ∃ u w j, exec (.partRestore m c) ⟨h, q⟩ = .next ⟨u, q⟩ ∧ u.heavy = [v, w] ∧ w.opcode = 0x17 ∧ w.pid = c.pid.toNat ∧ w.tag = c.tag.toNat
        ∧ u.images = h.images ++ [j] ∧ j.pid = c.pid.toNat ∧ j.save = false ∧ j.addr = c.arg1.toNat ∧ (part u c.pid.toNat).busy = true)
    ∧ (∀ (s good : Bool) (arg d : List Byte) (g : Hub), h.stage = some (v.job, s, arg) →
        fetchRange v.mgr v.job (ofBytes (arg.take 8)) (ofBytes (arg.drop 8)) h = .got none d g → g.led.bootSlot ≠ s →
      ∃ u, exec (.fwStageDone good) ⟨h, q⟩ = .next ⟨finishHeavy v.job (if imageGood d = false then 2 else if good then 0 else 8)
              (if imageGood d = false then 0 else d.length) u, q⟩
        ∧ u.stage = none ∧ (imageGood d = true → (fwSlot u s).image = d ∧ (fwSlot u s).valid = good))

/-- The Mover (R284 to R286). A descriptor that passes the checks at its start runs from offset 0; one that fails them completes BAD_ARG in its slot and the ring goes
on. A chunk of a CRC whose bytes lie in the Kettle ends with their CRC-64 in the slot, and one of a ZERO leaves its bytes zero there, and no others. -/
def Obligations.MoverDescriptors : Prop :=
  ∀ (h : Hub) (q : List Instr) (p : BitVec 6) (d : MovDesc), h.idle → h.mons = [] → h.sieve = [] →
    (∀ (i : Instr) (own : Nat), (i, own) ∈ [(Instr.moverCopy p d, 0), (.moverFill p d, 1), (.moverZero p d, 2), (.moverCrc p d, 3), (.moverCompare p d, 4)] →
        movReady h p.toNat = true →
      (movBad h own p.toNat d = false →
        ∃ u r, exec i ⟨h, q⟩ = .next ⟨u, q⟩ ∧ u.movs = h.movs ++ [r] ∧ r.pid = p.toNat ∧ r.d = d ∧ r.doneBytes = 0 ∧ r.stop = false ∧ u.mem = h.mem
          ∧ (part u p.toNat).movHead = (part h p.toNat).movHead)
      ∧ (∀ e : REntry, h.movs = [] → movBad h own p.toNat d = true → (rmapFind h (movSlot h p.toNat (part h p.toNat).movHead)).map Prod.snd = some e → e.typ = .kettle → e.here h = true →
        ∃ u, exec i ⟨h, q⟩ = .next ⟨u, q⟩ ∧ u.movs = [] ∧ (part u p.toNat).movHead = ((part h p.toNat).movHead + 1) % 65536
          ∧ memReadN u.mem.kettle (e.off (movSlot h p.toNat (part h p.toNat).movHead)) 16 = toBytes 8 (setBit (MovDesc.low d) 7 true) ++ toBytes 8 2))
    ∧ (∀ (r : MovRun) (e f : REntry) (a : Nat), h.movs = [r] → r.pid = p.toNat → r.d = d → r.doneBytes = 0 → d.len.toNat ≤ 128 → 0 < d.len.toNat →
        movRangesOk h p.toNat d = true → a = (if d.op = 3#4 then d.src.toNat else d.dst.toNat) → a % 128 + d.len.toNat ≤ 128 → a % 8 = 0 → d.len.toNat % 8 = 0 →
        (rmapFind h a).map Prod.snd = some f → f.typ = .kettle → f.here h = true →
        (rmapFind h (movSlot h p.toNat (part h p.toNat).movHead)).map Prod.snd = some e → e.typ = .kettle → e.here h = true →
        (e.off (movSlot h p.toNat (part h p.toNat).movHead) + 32 ≤ f.off a ∨ f.off a + d.len.toNat ≤ e.off (movSlot h p.toNat (part h p.toNat).movHead)) →
      (d.op = 3#4 → r.crc = 0#64 →
        ∃ u, exec (.moverChunkDone p) ⟨h, q⟩ = .next ⟨u, q⟩ ∧ u.movs = [] ∧ (part u p.toNat).movHead = ((part h p.toNat).movHead + 1) % 65536
          ∧ memReadN u.mem.kettle (e.off (movSlot h p.toNat (part h p.toNat).movHead)) 32
            = toBytes 8 (setBit (MovDesc.low d) 7 true) ++ toBytes 8 (d.len.toNat * 2 ^ 8)
              ++ toBytes 8 (crc64 (memReadN h.mem.kettle (f.off a) d.len.toNat)) ++ toBytes 8 (h.fs.frame % 2 ^ 32))
      ∧ (d.op = 2#4 → r.stop = false →
        ∃ u, exec (.moverChunkDone p) ⟨h, q⟩ = .next ⟨u, q⟩ ∧ u.movs = [] ∧ (∀ i, i < d.len.toNat → memRead u.mem.kettle (f.off a + i) = 0#8)
          ∧ (∀ x, (x < f.off a ∨ f.off a + d.len.toNat ≤ x) → (x < e.off (movSlot h p.toNat (part h p.toNat).movHead)
              ∨ e.off (movSlot h p.toNat (part h p.toNat).movHead) + 32 ≤ x) → memRead u.mem.kettle x = memRead h.mem.kettle x)))

/-! ### Registers, doorbells and mailboxes -/

/-- Doorbells and ring errors (R244, R260 to R263). A doorbell of a page its writer may use moves its ring's index to the value's low 16 bits and is answered COMP;
a value further on than the ring allows sets DB_ERR and moves nothing; a writer that may not use the page is answered DENIED. A seal requested by one of the
window's writers starts. A ring whose fetch fails stops, and its status says so. -/
def Obligations.DoorbellsMoveRings : Prop :=
  ∀ (h : Hub) (q : List Instr) (a : RegAcc) (v : Word32),
    (∀ m : BitVec 2, h.mayAccess a 0x10000 →
      (mgrDoorOk h m.toNat a.link.toNat a.pid.toNat = true →
        (ringDist (v.toNat % 65536) (mgr h m.toNat).head ≤ cmdSize h m.toNat →
          ∃ u, exec (.cmdDb a m v) ⟨h, q⟩ = .next ⟨u, q⟩ ∧ h.acked u a 0 none ∧ mgr u m.toNat = { mgr h m.toNat with tail := v.toNat % 65536 } ∧ u.mem = h.mem)
        ∧ (cmdSize h m.toNat < ringDist (v.toNat % 65536) (mgr h m.toNat).head →
          ∃ u, exec (.cmdDb a m v) ⟨h, q⟩ = .next ⟨u, q⟩ ∧ h.acked u a 0 none ∧ u.mgrs = h.mgrs ∧ regField u 0 (0x4418 + 0x20 * m.toNat) 2 2 = 1 ∧ u.mem = h.mem)
        ∧ (ringDist (v.toNat % 65536) (mgr h m.toNat).cplHead ≤ ringDist (mgr h m.toNat).cplTail (mgr h m.toNat).cplHead → (mgr h m.toNat).held = [] →
          ∃ u, exec (.cplDb a m v) ⟨h, q⟩ = .next ⟨u, q⟩ ∧ h.acked u a 0 none ∧ mgr u m.toNat = { mgr h m.toNat with cplHead := v.toNat % 65536 } ∧ u.mem = h.mem))
      ∧ (mgrDoorOk h m.toNat a.link.toNat a.pid.toNat = false →
        (∃ u, exec (.cmdDb a m v) ⟨h, q⟩ = .next ⟨u, q⟩ ∧ h.acked u a 3 none ∧ u.mgrs = h.mgrs ∧ u.regs = h.regs)
        ∧ (∃ u, exec (.cplDb a m v) ⟨h, q⟩ = .next ⟨u, q⟩ ∧ h.acked u a 3 none ∧ u.mgrs = h.mgrs ∧ u.regs = h.regs)))
    ∧ (h.mayAccess a 0x10010 → mgrDoorOk h 0 a.link.toNat a.pid.toNat = true →
        ringDist (v.toNat % 65536) (col h a.die.toNat).head ≤ ringDist (col h a.die.toNat).tail (col h a.die.toNat).head →
      ∃ u, exec (.evtDb a v) ⟨h, q⟩ = .next ⟨u, q⟩ ∧ h.acked u a 0 none ∧ col u a.die.toNat = { col h a.die.toNat with head := v.toNat % 65536 } ∧ u.mem = h.mem)
    ∧ (∀ p : BitVec 6, h.mayAccess a 0x24F00 → p ≠ 0#6 → a.pid = p → (part h p.toNat).st = .active → (part h p.toNat).movLog ≠ 0 →
        ringDist (v.toNat % 65536) (part h p.toNat).movHead ≤ 2 ^ (part h p.toNat).movLog →
      ∃ u, exec (.movDb a p v) ⟨h, q⟩ = .next ⟨u, q⟩ ∧ h.acked u a 0 none ∧ part u p.toNat = { part h p.toNat with movTail := v.toNat % 65536 } ∧ u.mem = h.mem)
    ∧ (∀ (n : BitVec 4) (w : Win), Hub.idle { h with wins := [] } → h.wins = [(n.toNat, w)] → h.mayAccess a 0x14000 → h.sieve = [] → v.toNat.testBit 0 = true →
        w.armed = true → w.pid = a.pid.toNat → w.writers.toNat.testBit a.link.toNat = true → w.st ≠ .sealing → witPlaced h w.base (w.lines * 128) = true →
      ∃ u, exec (.witSeal a n v) ⟨h, q⟩ = .next ⟨u, q⟩ ∧ h.acked u a 0 none
        ∧ win u n.toNat = { w with st := .sealing, broken := false, sealErr := 0, sealTicks := none } ∧ u.txns = [] ∧ u.mem = h.mem)
    ∧ (∀ m : BitVec 2, ∃ u, exec (.ringFetchErr false (m.setWidth 6)) ⟨h, q⟩ = .next ⟨u, q⟩ ∧ (mgr u m.toNat).fetchStop = true
        ∧ (mgr u m.toNat).head = (mgr h m.toNat).head ∧ regField u 0 (0x4418 + 0x20 * m.toNat) 3 3 = 1 ∧ u.mem = h.mem ∧ u.parts = h.parts)
    ∧ (∀ p : BitVec 6, p ≠ 0#6 → ∃ u, exec (.ringFetchErr true p) ⟨h, q⟩ = .next ⟨u, q⟩ ∧ (part u p.toNat).movStop = true
        ∧ (part u p.toNat).movHead = (part h p.toNat).movHead ∧ regField u 0 (0x540C + 16 * p.toNat) 2 2 = 1 ∧ u.mem = h.mem ∧ u.mgrs = h.mgrs)

/-- The Lid and its pairs (R386, R387, R399, R405, R413). The key opens a die's Lid, another value closes it and sets BAD_KEY. The complement of a pending value,
written to the register's complement port in time, commits it: CB_RESET starts the warm reset of the dies it names, SNAP writes the boot configuration
into the Ledger, PARK ends service. -/
def Obligations.PairsCommit : Prop :=
  ∀ (h : Hub) (q : List Instr) (a : RegAcc) (v w : Word32) (t : Nat),
    (h.mayAccess a 0x24 → (lid h a.die.toNat).pair = none → (lid h a.die.toNat).openAt = none →
      ∃ u, exec (.lidKeyWrite a v) ⟨h, q⟩ = .next ⟨u, q⟩ ∧ h.acked u a 0 none ∧ lidOpen u a.die.toNat = decide (v = 0x6B7A#32)
        ∧ (v ≠ 0x6B7A#32 → regField u a.die.toNat 0x28 4 4 = 1) ∧ u.mem = h.mem)
    ∧ ((lid h a.die.toNat).openAt = none → h.now ≤ t + 256 → v = ~~~w →
      (∀ i ∈ [Instr.warmResetWest a v, .warmResetEast a v], h.mayAccess a 0x14 → (lid h a.die.toNat).pair = some (0x10, w, t) → h.life.warm = [] →
        ∃ u, exec i ⟨h, q⟩ = .next ⟨u, q⟩ ∧ h.acked u a 0 none ∧ (lid u a.die.toNat).pair = none
          ∧ bfind u.life.warm 0 = (if w.toNat.testBit 0 then some 2 else none) ∧ bfind u.life.warm 1 = (if w.toNat.testBit 1 then some 2 else none)
          ∧ (∀ m ∈ u.mons, m ∈ h.mons) ∧ u.mem = h.mem ∧ u.rmap = h.rmap)
      ∧ (h.mayAccess a 0x6804 → (lid h a.die.toNat).pair = some (0x6800, w, t) →
        (w.toNat.testBit 0 = false → w.toNat.testBit 1 = true → h.led.failing.contains 0x30 = false →
          ∃ u, exec (.snap a v) ⟨h, q⟩ = .next ⟨u, q⟩ ∧ h.acked u a 0 none ∧ u.led.boot = some (snapshot h)
            ∧ u.led.bootSlot = (if h.life.named then h.led.bootSlot else h.life.fwSlot) ∧ u.mem = h.mem ∧ u.life = h.life)
        ∧ (w.toNat.testBit 0 = true → w.toNat.testBit 1 = false → h.heavy = [] → h.life.pwrWarn = false →
          ∃ u, exec (.park a v) ⟨h, q⟩ = .next ⟨u, q⟩ ∧ h.acked u a 0 none ∧ u.life.phase = .parking ∧ u.life.parkErr = 0
            ∧ (∀ r ∈ u.movs, r.stop = true) ∧ u.cache.cst = (if h.cache.cst = .on then .draining else h.cache.cst) ∧ u.mem = h.mem ∧ u.rmap = h.rmap)))

/-- Writes of configuration registers (R63, R95, R100, R135, R177, R188, R191, R239, R256, R259, R317, R325, R364, R381 to R384): accepted, each is answered
COMP and has its register's effect, with the Lid open where the field is keyed; the Lid is closed behind a keyed write. -/
def Obligations.ConfigurationWrites : Prop :=
  ∀ (h : Hub) (q : List Instr) (a : RegAcc) (v : Word32), (lid h a.die.toNat).pair = none →
    (∀ (off : BitVec 20) (r : RegRow), h.mayAccess a off.toNat → off.toNat ∈ [0x4010, 0x4040, 0x4100] → findRow off.toNat = some r → bitOf (regGet h 0 0x4100) 31 = false →
      ∃ u, exec (.registerWrite a off v) ⟨h, q⟩ = .next ⟨u, q⟩ ∧ h.acked u a 0 none ∧ u.mem = h.mem
        ∧ regGet u a.die.toNat off.toNat = (if off.toNat = 0x4100 then regGet h a.die.toNat 0x4100 else mergeWord r false (regGet h a.die.toNat off.toNat) v.toNat))
    ∧ (∀ (byte : BitVec 14) (bit : BitVec 3), h.mayAccess a 0x80000 → 0x40 ≤ byte.toNat → byte.toNat < 0x50 →
      ∃ u, exec (.bitAliasWrite a byte bit v) ⟨h, q⟩ = .next ⟨u, q⟩ ∧ h.acked u a 0 none ∧ u.mem = h.mem
        ∧ ∀ j, j < 32 → bitOf (regGet u a.die.toNat (aliasReg byte.toNat)) j
            = if j = aliasBit byte.toNat bit.toNat then v.toNat.testBit 0 else bitOf (regGet h a.die.toNat (aliasReg byte.toNat)) j)
    ∧ (h.mayAccess a 0x4300 → lidOpen h a.die.toNat = true → v.toNat.testBit 1 = true →
      ∃ u, exec (.witCtlClear a v) ⟨h, q⟩ = .next ⟨u, q⟩ ∧ h.acked u a 0 none ∧ u.life.witFaultN = false ∧ regField u 0 0x4300 0 0 = bits v.toNat 0 0 ∧ u.wins = h.wins)
    ∧ (h.mayAccess a 0x400C → cacheExpert h = true →
      ∃ u, exec (.cacheCastCtlWrite a v) ⟨h, q⟩ = .next ⟨u, q⟩ ∧ h.acked u a 0 none ∧ regField u a.die.toNat 0x400C 1 0 = bits v.toNat 1 0
        ∧ regField u a.die.toNat 0x400C 7 2 = bits v.toNat 7 2 ∧ (∀ e ∈ u.cache.coldCnt, dieOfSlice (e.1 / 64) ≠ a.die.toNat))
    ∧ (h.mayAccess a 0x41C0 → hkHolds h (bits v.toNat 31 16) (bits v.toNat 15 0) (nextPeriod h) (hkPct h) = true → bits v.toNat 31 16 ≤ regField h 0 0x41C4 31 16 →
        bits v.toNat 15 0 ≤ regField h 0 0x41C4 15 0 →
      ∃ u, exec (.whiskFloorWrite a v) ⟨h, q⟩ = .next ⟨u, q⟩ ∧ h.acked u a 0 none ∧ whiskFloor u = (bits v.toNat 31 16, bits v.toNat 15 0))
    ∧ (h.mayAccess a 0x4904 → v.toNat.testBit 8 = true → bits v.toNat 7 0 = 0 →
      ∃ u, exec (.pmuClrCyc a v) ⟨h, q⟩ = .next ⟨u, q⟩ ∧ h.acked u a 0 none ∧ pmuOf u a.die.toNat = { pmuOf h a.die.toNat with cyc := 0, cnt := (pmuOf u a.die.toNat).cnt }
        ∧ ∀ n, bget (pmuOf u a.die.toNat).cnt n 0 = bget (pmuOf h a.die.toNat).cnt n 0)
    ∧ (h.mayAccess a 0x4904 → v.toNat.testBit 8 = false →
      ∃ u, exec (.pmuClrCnt a v) ⟨h, q⟩ = .next ⟨u, q⟩ ∧ h.acked u a 0 none ∧ (pmuOf u a.die.toNat).cyc = (pmuOf h a.die.toNat).cyc
        ∧ ∀ n, n < 8 → bget (pmuOf u a.die.toNat).cnt n 0 = if v.toNat.testBit n then 0 else bget (pmuOf h a.die.toNat).cnt n 0)
    ∧ (lidOpen h a.die.toNat = true →
      (h.mayAccess a 0x4108 → 4000 ≤ bits v.toNat 15 0 → bits v.toNat 15 0 ≤ 40000 → admits h (sdSum h) (bits v.toNat 15 0) = true →
          hkHolds h (whiskFloor h).1 (whiskFloor h).2 (bits v.toNat 15 0) (hkPct h) = true →
        ∃ u, exec (.fsPeriodWrite a v) ⟨h, q⟩ = .next ⟨u, q⟩ ∧ h.acked u a 0 none ∧ nextPeriod u = bits v.toNat 15 0 ∧ u.fs = h.fs ∧ lidOpen u a.die.toNat = false)
      ∧ (h.mayAccess a 0x4104 →
        ∃ u, exec (.fsTickCtlWrite a v) ⟨h, q⟩ = .next ⟨u, q⟩ ∧ h.acked u a 0 none ∧ regField u 0 0x4104 1 0 = bits v.toNat 1 0 ∧ regField u 0 0x4104 3 2 = bits v.toNat 3 2
          ∧ regField u 0 0x4104 11 8 = bits v.toNat 11 8 ∧ u.fs = { h.fs with srcWritten := true } ∧ lidOpen u a.die.toNat = false)
      ∧ (∀ m : BitVec 2, h.mayAccess a 0x4400 → bitOf (mgrCtl h m.toNat) 31 = false → v.toNat.testBit 31 = true →
        ∃ u, exec (.mgrCtlEnable a m v) ⟨h, q⟩ = .next ⟨u, q⟩ ∧ h.acked u a 0 none ∧ bitOf (mgrCtl u m.toNat) 31 = true ∧ bits (mgrCtl u m.toNat) 5 0 = bits v.toNat 5 0
          ∧ mgr u m.toNat = { mgr h m.toNat with head := 0, cplTail := 0, phase := true, fetchStop := false } ∧ lidOpen u a.die.toNat = false)
      ∧ (∀ (n : BitVec 3) (r : RegRow) (w : Nat), h.mayAccess a 0x4050 → n ≠ 7#3 → findRow (0x4050 + 4 * n.toNat) = some r → w = mergeWord r true (geomWord h n.toNat) v.toNat →
          untrained h (Nat.lor (bits (geomWord h n.toNat) 31 24) (bits w 31 24)) = true → bits w 15 12 ≤ 8 →
          (allotment h n.toNat w (twinGeom h) ≤ 786432 →
            ∃ u, exec (.cohHostGeomWrite a n v) ⟨h, q⟩ = .next ⟨u, q⟩ ∧ h.acked u a 0 none ∧ geomWord u n.toNat = w
              ∧ (∀ x ∈ u.sieve, x ∈ h.sieve) ∧ (∀ x ∈ h.sieve, x.host ≠ n.toNat → x ∈ u.sieve) ∧ lidOpen u a.die.toNat = false)
          ∧ (bitOf w 23 = true → 786432 < allotment h n.toNat w (twinGeom h) →
            ∃ u, exec (.cohHostGeomWrite a n v) ⟨h, q⟩ = .next ⟨u, q⟩ ∧ h.acked u a 0 none ∧ geomWord u n.toNat = geomWord h n.toNat
              ∧ regField u 0 0x4074 31 31 = 1 ∧ regField u 1 0x4074 31 31 = 1 ∧ u.sieve = h.sieve))
      ∧ (∀ (r : RegRow) (w : Nat), h.mayAccess a 0x406C → findRow 0x406C = some r → w = mergeWord r true (twinGeom h) v.toNat → linkTrained h 7 = false →
          bits w 15 12 ≤ 8 → allotment h 7 0 w ≤ 786432 →
        ∃ u, exec (.cohTwinGeomWrite a v) ⟨h, q⟩ = .next ⟨u, q⟩ ∧ h.acked u a 0 none ∧ twinGeom u = w ∧ u.sieve = h.sieve ∧ lidOpen u a.die.toNat = false)
      ∧ (∀ n : BitVec 3, h.mayAccess a 0x4600 → n.toNat / 4 = a.die.toNat → n ≠ a.link →
        (v.toNat.testBit 31 = true → bitOf (linkCtl h n.toNat) 31 = false → (link h n.toNat).st = .down →
          ∃ u, exec (.linkEnable a n v) ⟨h, q⟩ = .next ⟨u, q⟩ ∧ h.acked u a 0 none ∧ bitOf (linkCtl u n.toNat) 31 = true ∧ (link u n.toNat).st = .training)
        ∧ (v.toNat.testBit 31 = true → bitOf (linkCtl h n.toNat) 31 = true → v.toNat.testBit 30 = true → (link h n.toNat).st = .up →
          ∃ u, exec (.retrain a n v) ⟨h, q⟩ = .next ⟨u, q⟩ ∧ h.acked u a 0 none ∧ (link u n.toNat).st = .recovery)))

/-- A read that changes what it reads, and the mailboxes' fetches (R385, R389, R391). A read of the correctable counts of the Kettle answers them and leaves them 0. A
mailbox's selector makes it busy; its fetch gives the words the selector names, or ERR where it names none. -/
def Obligations.ClearOnReadAndFetches : Prop :=
  ∀ (h : Hub) (q : List Instr) (a : RegAcc) (v : Word32) (k : BitVec 2) (d : BitVec 1), (lid h a.die.toNat).pair = none → (lid h a.die.toNat).openAt = none →
    (h.mayAccess a 0x4800 →
      ∃ u, exec (.clearOnRead a 0x04800#20) ⟨h, q⟩ = .next ⟨u, q⟩ ∧ h.acked u a 0 (some (0x4800, regValue h a.die.toNat 0x4800))
        ∧ regField u a.die.toNat 0x4800 31 16 = 0 ∧ regField u a.die.toNat 0x4800 15 8 = 0
        ∧ regField h a.die.toNat 0x4800 31 16 = bits (regValue h a.die.toNat 0x4800) 31 16 ∧ u.mem = h.mem)
    ∧ (h.mayAccess a 0x100 →
      ∃ u, exec (.mbSelWrite a k v) ⟨h, q⟩ = .next ⟨u, q⟩ ∧ h.acked u a 0 none ∧ (mbox u a.die.toNat k.toNat) = { busy := true }
        ∧ regField u a.die.toNat (0x100 + 0x80 * k.toNat) 15 0 = bits v.toNat 15 0)
    ∧ ((mbox h d.toNat k.toNat).busy = true →
      ∃ u, exec (.mailboxFetchDone d k) ⟨h, q⟩ = .next ⟨u, q⟩ ∧ u = { h with mbox := u.mbox }
        ∧ mbox u d.toNat k.toNat = (match snapshotOf h d.toNat (regField h d.toNat (0x100 + 0x80 * k.toNat) 15 0) with
          | some ws => { valid := true, words := ws }
          | none => { err := true })
        ∧ ∀ j, j ≠ 4 * d.toNat + k.toNat → bget u.mbox j {} = bget h.mbox j {})
    ∧ ((mbox h d.toNat k.toNat).busy = false → exec (.mailboxFetchDone d k) ⟨h, q⟩ = .next ⟨h, q⟩)

/-- R390. The data words of a mailbox: while VALID is 0 each reads 0, and so do those at or above WORDS; a word below WORDS reads as word i of the snapshot; the
read of the last one also clears VALID, so that every data word reads 0 from then on. Nothing that a snapshot is taken from changes with a read. -/
def Obligations.MailboxDataReads : Prop :=
  ∀ (h : Hub) (q : List Instr) (a : RegAcc) (k : BitVec 2) (i : Nat), i < 18 → h.mayAccess a 0x108 → (lid h a.die.toNat).pair = none → (lid h a.die.toNat).openAt = none →
    (((mbox h a.die.toNat k.toNat).valid = false ∨ (mbox h a.die.toNat k.toNat).words.length ≤ i) →
      ∃ u, exec (.clearOnRead a (BitVec.ofNat 20 (0x108 + 0x80 * k.toNat + 4 * i))) ⟨h, q⟩ = .next ⟨u, q⟩
        ∧ h.acked u a 0 (some (0x108 + 0x80 * k.toNat + 4 * i, 0)) ∧ u = { h with links := u.links, nextId := u.nextId })
    ∧ ((mbox h a.die.toNat k.toNat).valid = true → i + 1 < (mbox h a.die.toNat k.toNat).words.length →
      ∃ u, exec (.clearOnRead a (BitVec.ofNat 20 (0x108 + 0x80 * k.toNat + 4 * i))) ⟨h, q⟩ = .next ⟨u, q⟩
        ∧ h.acked u a 0 (some (0x108 + 0x80 * k.toNat + 4 * i, ((mbox h a.die.toNat k.toNat).words.getD i 0#32).toNat))
        ∧ u = { h with links := u.links, nextId := u.nextId })
    ∧ ((mbox h a.die.toNat k.toNat).valid = true → i + 1 = (mbox h a.die.toNat k.toNat).words.length →
      ∃ u, exec (.mbLastWordRead a k) ⟨h, q⟩ = .next ⟨u, q⟩
        ∧ exec (.clearOnRead a (BitVec.ofNat 20 (0x108 + 0x80 * k.toNat + 4 * i))) ⟨h, q⟩ = .next ⟨u, q⟩
        ∧ h.acked u a 0 (some (0x108 + 0x80 * k.toNat + 4 * i, ((mbox h a.die.toNat k.toNat).words.getD i 0#32).toNat))
        ∧ mbox u a.die.toNat k.toNat = { mbox h a.die.toNat k.toNat with valid := false }
        ∧ (∀ j, j ≠ 4 * a.die.toNat + k.toNat → bget u.mbox j {} = bget h.mbox j {})
        ∧ u = { h with links := u.links, nextId := u.nextId, mbox := u.mbox })

/-- R66. A write of CACHE_TRK_CTL that would reserve more than 64 trackers for classes S and D together, or more than 32 write-buffer lines for class S, is ignored.
Any other is accepted, and from then on every cluster of the die, and none of the other die, gives out trackers and write-buffer lines by it. -/
def Obligations.TrackerReserves : Prop :=
  ∀ (h : Hub) (q : List Instr) (a : RegAcc) (v : Word32), (lid h a.die.toNat).pair = none → h.mayAccess a 0x4008 →
    ((64 < bits v.toNat 6 0 + bits v.toNat 14 8 ∨ 32 < bits v.toNat 21 16) →
      ∃ u, exec (.cacheTrkCtlWrite a v) ⟨h, q⟩ = .next ⟨u, q⟩ ∧ h.acked u a 0 none ∧ u.regs = h.regs ∧ u.mem = h.mem)
    ∧ (bits v.toNat 6 0 + bits v.toNat 14 8 ≤ 64 → bits v.toNat 21 16 ≤ 32 →
      ∃ u, exec (.cacheTrkCtlWrite a v) ⟨h, q⟩ = .next ⟨u, q⟩ ∧ h.acked u a 0 none ∧ u.mem = h.mem
        ∧ regField u a.die.toNat 0x4008 6 0 = bits v.toNat 6 0 ∧ regField u a.die.toNat 0x4008 14 8 = bits v.toNat 14 8
        ∧ regField u a.die.toNat 0x4008 21 16 = bits v.toNat 21 16
        ∧ (∀ cl, cl < 8 → dieOfCluster cl = a.die.toNat →
            canTrk u cl 1 = decide (bits v.toNat 6 0 < 128 - trkUsed h cl)
            ∧ canTrk u cl 2 = decide (bits v.toNat 6 0 + bits v.toNat 14 8 < 128 - trkUsed h cl)
            ∧ canWb u cl 2 = decide (bits v.toNat 21 16 < wbFree h cl))
        ∧ (∀ cl, cl < 8 → dieOfCluster cl ≠ a.die.toNat → ∀ c, c < 4 → canTrk u cl c = canTrk h cl c ∧ canWb u cl c = canWb h cl c))

/-! ### The machine -/

/-- R7 and R8. The home die of an address and its home region as the exclusive or of four address bits each, with the region number; every 8 KiB-aligned block has
one home die, and every 4 KiB-aligned block one home region. -/
def Obligations.HomesOfAddresses : Prop :=
  ∀ a : Nat,
    homeDie a = Nat.xor (Nat.xor (a / 2 ^ 13 % 2) (a / 2 ^ 20 % 2)) (Nat.xor (a / 2 ^ 27 % 2) (a / 2 ^ 34 % 2))
    ∧ homeRg a = 2 * homeDie a + Nat.xor (Nat.xor (a / 2 ^ 12 % 2) (a / 2 ^ 19 % 2)) (Nat.xor (a / 2 ^ 26 % 2) (a / 2 ^ 33 % 2))
    ∧ (∀ b, a / 8192 = b / 8192 → homeDie a = homeDie b)
    ∧ (∀ b, a / 4096 = b / 4096 → homeRg a = homeRg b)

/-- A step performs the command at the front of the queue with the queue's rest; with nothing waiting one cycle passes (the tick is the model's choice,
log entry 2). -/
def Obligations.StepRunsTheFrontCommand : Prop :=
  ∀ (h : Hub) (q : List Instr),
    (∀ c : Instr, step ⟨h, c :: q⟩ = exec c ⟨h, q⟩)
    ∧ step ⟨h, []⟩ = .next ⟨cycle h, []⟩
    ∧ (cycle h).now = h.now + 1 ∧ (h.life.resetLow = true → cycle h = { h with now := h.now + 1 })

/-- The machine before its first power-up (R394, R412 and the reset columns of the register tables): nothing waits, RESET_N is low, the memories' lists are in
canonical form, the registers read their reset values, and no structure holds an entry. That nothing was ever written to a memory is the model's choice
(log entry 7). -/
def Obligations.ResetState : Prop :=
  State.reset.memOk ∧ State.reset.queueOk ∧ State.reset.pending = []
  ∧ State.reset.hub.life.resetLow = true
  ∧ regField State.reset.hub 0 0x4108 15 0 = 16667 ∧ regField State.reset.hub 0 0x4104 3 2 = 3 ∧ regField State.reset.hub 0 0x4104 1 0 = 3
  ∧ regField State.reset.hub 0 0x41C0 31 16 = 2000 ∧ regField State.reset.hub 0 0x41C0 15 0 = 1000
  ∧ (∀ d, d < 2 → regField State.reset.hub d 0x4010 11 8 = 4 ∧ regField State.reset.hub d 0x4010 4 0 = 16
      ∧ regField State.reset.hub d 0x4008 6 0 = 8 ∧ regField State.reset.hub d 0x400C 11 8 = 4 ∧ regField State.reset.hub d 0x4024 11 8 = 8)
  ∧ regField State.reset.hub 0 0x4040 27 16 = 256 ∧ regField State.reset.hub 0 0x4040 9 0 = 100
  ∧ State.reset.hub.rmap = [] ∧ State.reset.hub.sieve = [] ∧ State.reset.hub.txns = [] ∧ State.reset.hub.mons = []
  ∧ (∀ l, (link State.reset.hub l).st = .down) ∧ (∀ p, (part State.reset.hub p).st = .free)

/-- Whatever a step does, from every state: it is never a refusal, and every command but FLIT_RECEIVED answers a next state, in every
state and for every operand (FLIT_RECEIVED stops only on a header in a slot that an earlier message owes data to, R5); where it goes on, the queue is what was behind its front, waiting commands stay well formed,
and the memories stay in canonical form, so that equal memories are equal data. -/
def Obligations.EveryStepKeepsTheForm : Prop :=
  ∀ s : State,
    (∀ r, step s ≠ .refused r)
    ∧ (∀ c : Instr, (∀ l f, c ≠ .flitReceived l f) → ∃ t, exec c s = .next t)
    ∧ (∀ l f, exec (.flitReceived l f) s = .fault .undefinedMessage ∨ ∃ t, exec (.flitReceived l f) s = .next t)
    ∧ ∀ t, step s = .next t → t.pending = s.pending.tail ∧ (s.queueOk → t.queueOk) ∧ (s.memOk → t.memOk)

/-- The pins beside the links (R432, R433): a TAP instruction that selects a register is loaded and shows it; one that needs RESET_N low is BYPASS while it is
high; the I3C target takes its dynamic address and answers a read of each of its registers, and 0 for others. The IDCODE is the first stepping's. -/
def Obligations.SidebandPinsSelectAndAnswer : Prop :=
  ∀ (h : Hub) (q : List Instr),
    exec .bypass ⟨h, q⟩ = .next ⟨{ h with side := { h.side with tapInstr := 1, tapOut := some 0#32 } }, q⟩
    ∧ exec .idcode ⟨h, q⟩ = .next ⟨{ h with side := { h.side with tapInstr := 0, tapOut := some 0x14100B67#32 } }, q⟩
    ∧ exec .samplePreload ⟨h, q⟩ = .next ⟨{ h with side := { h.side with tapInstr := 2, tapOut := none } }, q⟩
    ∧ (h.life.resetLow = true →
        exec .extest ⟨h, q⟩ = .next ⟨{ h with side := { h.side with tapInstr := 3, tapOut := none } }, q⟩
        ∧ exec .extestPulse ⟨h, q⟩ = .next ⟨{ h with side := { h.side with tapInstr := 4, tapOut := none } }, q⟩
        ∧ exec .extestTrain ⟨h, q⟩ = .next ⟨{ h with side := { h.side with tapInstr := 5, tapOut := none } }, q⟩)
    ∧ (h.life.resetLow = false →
        (∀ i ∈ [Instr.extest, Instr.extestPulse, Instr.extestTrain], exec i ⟨h, q⟩ = exec .bypass ⟨h, q⟩)
        ∧ (∀ a, exec (.i3cDynamicAddress a) ⟨h, q⟩ = .next ⟨{ h with side := { h.side with i3cDyn := some a.toNat } }, q⟩)
        ∧ (∀ x, exec (.i3cRead x) ⟨h, q⟩ = .next ⟨{ h with side := { h.side with i3cOut := some (BitVec.ofNat 32
            (if x = 0#8 then regValue h 0 0x00 else if x = 1#8 then regValue h 0 0x04 else if x = 2#8 then regValue h 0 0x0C
             else if x = 3#8 then regValue h 0 0x6808 else if x = 4#8 then regValue h 0 0x2C else if x = 5#8 then regValue h 1 0x2C
             else if x = 6#8 then regValue h 0 0x4304 else 0)) } }, q⟩))
end

