-- ==== Sys2Proof/Laws/Banks.lean ====
section
/-! SUPPORT. Laws of banks: what is read after an entry was written, and lists built by repeated changes. -/

namespace Sys2Proof.Machine

@[simp] theorem bfind_bset_same {α : Type} (b : Bank α) (i : Nat) (v : α) : bfind (bset b i v) i = some v := by
  induction b with
  | nil => simp [bset, bfind]
  | cons e r ih =>
    obtain ⟨k, w⟩ := e
    simp only [bset]
    split
    · simp [bfind]
    · split
      · simp [bfind]
      · next h1 h2 => simp [bfind, Ne.symm h2, ih]

theorem bfind_bset_other {α : Type} (b : Bank α) (i j : Nat) (v : α) (h : j ≠ i) : bfind (bset b i v) j = bfind b j := by
  induction b with
  | nil => simp [bset, bfind, Ne.symm h]
  | cons e r ih =>
    obtain ⟨k, w⟩ := e
    simp only [bset]
    split
    · simp [bfind, Ne.symm h]
    · split
      · next h1 h2 => subst h2; simp [bfind, Ne.symm h]
      · simp only [bfind]; split
        · rfl
        · exact ih

@[simp] theorem bget_bset_same {α : Type} (b : Bank α) (i : Nat) (v d : α) : bget (bset b i v) i d = v := by simp [bget]

theorem bget_bset_other {α : Type} (b : Bank α) (i j : Nat) (v d : α) (h : j ≠ i) : bget (bset b i v) j d = bget b j d := by
  simp [bget, bfind_bset_other b i j v h]

@[simp] theorem bget_bupd_same {α : Type} (b : Bank α) (i : Nat) (d : α) (f : α → α) : bget (bupd b i d f) i d = f (bget b i d) := by
  simp [bupd]

theorem bget_bupd_other {α : Type} (b : Bank α) (i j : Nat) (d : α) (f : α → α) (h : j ≠ i) : bget (bupd b i d f) j d = bget b j d := by
  simp [bupd, bget_bset_other _ _ _ _ _ h]

/-- What every single change of a repeated one keeps, all of them together keep. -/
theorem forEach_keeps {α β : Type} (g : Hub → β) (f : α → Hub → Hub) (hf : ∀ x h, g (f x h) = g h) (l : List α) (h : Hub) :
    g (forEach l f h) = g h := by
  induction l generalizing h with
  | nil => rfl
  | cons x r ih => simpa [forEach, hf] using ih (f x h)

/-- A change made or not made keeps what the change keeps. -/
theorem ite_keeps {β : Type} (g : Hub → β) {c : Prop} [Decidable c] {a b h : Hub} (ha : g a = g h) (hb : g b = g h) :
    g (if c then a else b) = g h := by split <;> assumption

@[simp] theorem forEach_nil {α : Type} (f : α → Hub → Hub) (h : Hub) : forEach [] f h = h := rfl

@[simp] theorem forEach_cons {α : Type} (x : α) (l : List α) (f : α → Hub → Hub) (h : Hub) : forEach (x :: l) f h = forEach l f (f x h) := rfl

/-- A key that no entry has finds nothing. -/
theorem bfind_none {α : Type} (b : Bank α) (i : Nat) (h : ∀ e ∈ b, e.1 ≠ i) : bfind b i = none := by
  induction b with
  | nil => rfl
  | cons e r ih =>
    obtain ⟨k, v⟩ := e
    simp only [bfind]
    rw [if_neg (h (k, v) (by simp)), ih (fun x hx => h x (by simp [hx]))]

end Sys2Proof.Machine
end

