-- ==== Sys2Proof/Laws/Codes.lean ====
section
/-! SUPPORT. Lemmas about the codes of Machine/Codes.lean: what AES-128 answers is a block of 16 bytes, so a command sealed with its manager's key
passes the check of its MAC (R272). -/

namespace Sys2Proof.Machine

/-- A list of `n` numbers below 256. -/
def isBytes (n : Nat) (l : List Nat) : Prop := l.length = n ∧ ∀ x ∈ l, x < 256

theorem aesSub_lt (x : Nat) : aesSub x < 256 := Nat.mod_lt _ (by decide)

theorem aesMulN_lt (n a b : Nat) (ha : a < 256) : aesMulN n a b < 256 := by
  induction n generalizing a b with
  | zero => simp [aesMulN]
  | succ n ih =>
    simp only [aesMulN]
    refine Nat.xor_lt_two_pow (n := 8) ?_ (ih _ _ ?_)
    · split <;> omega
    · split
      · exact Nat.xor_lt_two_pow (n := 8) (by omega) (by omega)
      · rename_i h
        rw [Nat.testBit_eq_decide_div_mod_eq] at h
        simp only [decide_eq_true_eq] at h
        omega

theorem isBytes_xor (n m k : Nat) (a b : List Nat) (ha : isBytes n a) (hb : isBytes m b) (hk : min n m = k) : isBytes k (xorBytes a b) := by
  refine ⟨by simp [xorBytes, ha.1, hb.1, hk], fun x hx => ?_⟩
  simp only [xorBytes, List.mem_iff_getElem, List.getElem_zipWith] at hx
  obtain ⟨i, hi, rfl⟩ := hx
  exact Nat.xor_lt_two_pow (n := 8) (ha.2 _ (List.getElem_mem _)) (hb.2 _ (List.getElem_mem _))

theorem isBytes_slice (n k l : Nat) (a : List Nat) (ha : isBytes n a) (h : k + l ≤ n) : isBytes l (slice a k l) := by
  refine ⟨?_, fun x hx => ha.2 x (List.mem_of_mem_drop (List.mem_of_mem_take hx))⟩
  have := ha.1
  simp [slice]; omega

theorem isBytes_append (n m : Nat) (a b : List Nat) (ha : isBytes n a) (hb : isBytes m b) : isBytes (n + m) (a ++ b) :=
  ⟨by simp [ha.1, hb.1], fun x hx => (List.mem_append.1 hx).elim (ha.2 x) (hb.2 x)⟩

theorem isBytes_nextKey (rcon : Nat) (k : List Nat) (hr : rcon < 256) (hk : isBytes 16 k) : isBytes 16 (aesNextKey rcon k) := by
  have ht : isBytes 4 [Nat.xor (aesSub (k.getD 13 0)) rcon, aesSub (k.getD 14 0), aesSub (k.getD 15 0), aesSub (k.getD 12 0)] := by
    refine ⟨rfl, fun x hx => ?_⟩
    simp only [List.mem_cons, List.not_mem_nil, or_false] at hx
    rcases hx with rfl | rfl | rfl | rfl
    · exact Nat.xor_lt_two_pow (n := 8) (aesSub_lt _) hr
    all_goals exact aesSub_lt _
  have h0 := isBytes_xor 4 4 4 _ _ (isBytes_slice 16 0 4 k hk (by omega)) ht rfl
  have h1 := isBytes_xor 4 4 4 _ _ (isBytes_slice 16 4 4 k hk (by omega)) h0 rfl
  have h2 := isBytes_xor 4 4 4 _ _ (isBytes_slice 16 8 4 k hk (by omega)) h1 rfl
  have h3 := isBytes_xor 4 4 4 _ _ (isBytes_slice 16 12 4 k hk (by omega)) h2 rfl
  exact isBytes_append 12 4 _ _ (isBytes_append 8 4 _ _ (isBytes_append 4 4 _ _ h0 h1) h2) h3

theorem isBytes_keys (l : List Nat) (rcon : Nat) (k : List Nat) (hr : rcon < 256) (hk : isBytes 16 k) : ∀ x ∈ aesKeys l rcon k, isBytes 16 x := by
  induction l generalizing rcon k with
  | nil => simp [aesKeys, hk]
  | cons a r ih =>
    intro x hx
    simp only [aesKeys, List.mem_cons] at hx
    rcases hx with rfl | hx
    · exact hk
    · exact ih _ _ (aesMulN_lt _ _ _ hr) (isBytes_nextKey _ _ hr hk) x hx

theorem isBytes_rounds (ks : List (List Nat)) (s : List Nat) (hs : ks ≠ []) (hk : ∀ x ∈ ks, isBytes 16 x) : isBytes 16 (aesRounds ks s) := by
  induction ks generalizing s with
  | nil => exact absurd rfl hs
  | cons k r ih =>
    cases r with
    | nil =>
      refine isBytes_xor 16 16 16 _ _ ⟨by simp [aesShift], fun x hx => ?_⟩ (hk k (by simp)) rfl
      simp only [aesShift, List.mem_map] at hx
      obtain ⟨i, -, rfl⟩ := hx
      rw [List.getD_eq_getElem?_getD, List.getElem?_map]
      cases s[i]? with
      | none => simp
      | some y => simpa using aesSub_lt y
    | cons k2 r => exact ih _ (by simp) (fun x hx => hk x (by simp_all))

theorem isBytes_aesEnc (key blk : List Nat) (hk : isBytes 16 key) : isBytes 16 (aesEnc key blk) := by
  have h := isBytes_keys (List.range 10) 1 key (by decide) hk
  unfold aesEnc
  rw [show List.range 10 = 0 :: (List.range 9).map (· + 1) from rfl] at h ⊢
  simp only [aesKeys] at h ⊢
  refine isBytes_rounds _ _ ?_ (fun x hx => h x (by simp [hx]))
  cases (List.range 9).map (· + 1) <;> simp [aesKeys]

theorem isBytes_cmacBlocks (key sub : List Nat) (ms : List (List Nat)) (c : List Nat) (hk : isBytes 16 key) (hm : ms ≠ []) : isBytes 16 (cmacBlocks key sub ms c) := by
  induction ms generalizing c with
  | nil => exact absurd rfl hm
  | cons m r ih =>
    cases r with
    | nil => exact isBytes_aesEnc _ _ hk
    | cons m2 r => exact ih _ (by simp)

/-- A MAC is 8 bytes. -/
theorem isBytes_cmac64 (key msg : List Nat) (hk : isBytes 16 key) : isBytes 8 (cmac64 key msg) := by
  have h := isBytes_cmacBlocks key (cmacDouble (aesEnc key (List.replicate 16 0))) [slice msg 0 16, slice msg 16 16, slice msg 32 16, slice msg 48 16]
    (List.replicate 16 0) hk (by simp)
  refine ⟨?_, fun x hx => h.2 x (List.mem_of_mem_take hx)⟩
  simp only [cmac64, List.length_take, h.1]
  rfl

/-- A key's bytes are 16 bytes. -/
theorem isBytes_keyBytes (k : BitVec 128) : isBytes 16 (keyBytes k) :=
  ⟨by simp [keyBytes, toBytes], fun x hx => by
    simp only [keyBytes, List.mem_map] at hx
    obtain ⟨b, -, rfl⟩ := hx
    exact b.isLt⟩

theorem ofBytes_lt (l : List Byte) : ofBytes l < 256 ^ l.length := by
  induction l with
  | nil => simp [ofBytes]
  | cons b r ih =>
    have := b.isLt
    simp only [ofBytes, List.length_cons, Nat.pow_succ]
    omega

/-- Bytes read back from the number they make. -/
theorem toBytes_ofBytes (l : List Byte) : toBytes l.length (ofBytes l) = l := by
  induction l with
  | nil => rfl
  | cons b r ih =>
    have := b.isLt
    simp only [List.length_cons, toBytes, ofBytes]
    rw [show (b.toNat + 256 * ofBytes r) / 256 = ofBytes r by omega, ih]
    congr 1
    apply BitVec.eq_of_toNat_eq
    simp only [BitVec.toNat_ofNat]
    omega

/-- A command that carries the MAC computed for it passes its check (R272, R273). -/
theorem macGood_of_mac (h : Hub) (m op : Nat) (c : CmdWord) (k : BitVec 128) (hk : bfind h.led.keys m = some k) (hb : h.led.bad.contains (0x10 + m) = false)
    (hm : c.mac = BitVec.ofNat 64 (ofBytes ((cmac64 (keyBytes k) (macMessage h m op c)).map (BitVec.ofNat 8)))) : macGood h m op c = true := by
  have hc := isBytes_cmac64 (keyBytes k) (macMessage h m op c) (isBytes_keyBytes k)
  unfold macGood
  rw [hk]
  simp only [hb, Bool.not_false, Bool.true_and, beq_iff_eq]
  generalize cmac64 (keyBytes k) (macMessage h m op c) = l at hc hm ⊢
  have hl : (l.map (BitVec.ofNat 8)).length = 8 := by simp [hc.1]
  have hlt := ofBytes_lt (l.map (BitVec.ofNat 8))
  rw [hl] at hlt
  have ht := toBytes_ofBytes (l.map (BitVec.ofNat 8))
  rw [hl] at ht
  have hn : c.mac.toNat = ofBytes (l.map (BitVec.ofNat 8)) := by
    rw [hm, BitVec.toNat_ofNat]
    exact Nat.mod_eq_of_lt (by omega)
  have he : ∀ (q : List Nat), (∀ x ∈ q, x < 256) → (q.map (BitVec.ofNat 8)).map BitVec.toNat = q := by
    intro q hq
    induction q with
    | nil => rfl
    | cons x r ih =>
      have := hq x (by simp)
      simp only [List.map_cons, BitVec.toNat_ofNat]
      rw [ih (fun y hy => hq y (by simp [hy])), Nat.mod_eq_of_lt (by omega)]
  rw [hn, ht, he l hc.2]

end Sys2Proof.Machine
end

