-- ==== Sys2Proof/Laws/State.lean ====
section
/-! SUPPORT. What each named update of the hub leaves: one lemma per field, true by computation, so that no proof unfolds a record update. -/

namespace Sys2Proof.Machine

@[simp] theorem liftHub_next (f : Hub → Hub) (s : State) : liftHub f s = .next ⟨f s.hub, s.pending⟩ := rfl

/-! ### setLink -/

@[simp] theorem setLink_now (h : Hub) (l : Nat) (f : Link → Link) : (setLink h l f).now = h.now := rfl
@[simp] theorem setLink_free (h : Hub) (l : Nat) (f : Link → Link) : (setLink h l f).free = h.free := rfl
@[simp] theorem setLink_regs (h : Hub) (l : Nat) (f : Link → Link) : (setLink h l f).regs = h.regs := rfl
@[simp] theorem setLink_life (h : Hub) (l : Nat) (f : Link → Link) : (setLink h l f).life = h.life := rfl
@[simp] theorem setLink_led (h : Hub) (l : Nat) (f : Link → Link) : (setLink h l f).led = h.led := rfl
@[simp] theorem setLink_rmap (h : Hub) (l : Nat) (f : Link → Link) : (setLink h l f).rmap = h.rmap := rfl
@[simp] theorem setLink_mem (h : Hub) (l : Nat) (f : Link → Link) : (setLink h l f).mem = h.mem := rfl
@[simp] theorem setLink_cache (h : Hub) (l : Nat) (f : Link → Link) : (setLink h l f).cache = h.cache := rfl
@[simp] theorem setLink_sieve (h : Hub) (l : Nat) (f : Link → Link) : (setLink h l f).sieve = h.sieve := rfl
@[simp] theorem setLink_recov (h : Hub) (l : Nat) (f : Link → Link) : (setLink h l f).recov = h.recov := rfl
@[simp] theorem setLink_txns (h : Hub) (l : Nat) (f : Link → Link) : (setLink h l f).txns = h.txns := rfl
@[simp] theorem setLink_nextId (h : Hub) (l : Nat) (f : Link → Link) : (setLink h l f).nextId = h.nextId := rfl
@[simp] theorem setLink_snps (h : Hub) (l : Nat) (f : Link → Link) : (setLink h l f).snps = h.snps := rfl
@[simp] theorem setLink_orphans (h : Hub) (l : Nat) (f : Link → Link) : (setLink h l f).orphans = h.orphans := rfl
@[simp] theorem setLink_waiting (h : Hub) (l : Nat) (f : Link → Link) : (setLink h l f).waiting = h.waiting := rfl
@[simp] theorem setLink_wbs (h : Hub) (l : Nat) (f : Link → Link) : (setLink h l f).wbs = h.wbs := rfl
@[simp] theorem setLink_tongs (h : Hub) (l : Nat) (f : Link → Link) : (setLink h l f).tongs = h.tongs := rfl
@[simp] theorem setLink_ladle (h : Hub) (l : Nat) (f : Link → Link) : (setLink h l f).ladle = h.ladle := rfl
@[simp] theorem setLink_pfSkip (h : Hub) (l : Nat) (f : Link → Link) : (setLink h l f).pfSkip = h.pfSkip := rfl
@[simp] theorem setLink_dets (h : Hub) (l : Nat) (f : Link → Link) : (setLink h l f).dets = h.dets := rfl
@[simp] theorem setLink_mons (h : Hub) (l : Nat) (f : Link → Link) : (setLink h l f).mons = h.mons := rfl
@[simp] theorem setLink_twin (h : Hub) (l : Nat) (f : Link → Link) : (setLink h l f).twin = h.twin := rfl
@[simp] theorem setLink_parts (h : Hub) (l : Nat) (f : Link → Link) : (setLink h l f).parts = h.parts := rfl
@[simp] theorem setLink_wins (h : Hub) (l : Nat) (f : Link → Link) : (setLink h l f).wins = h.wins := rfl
@[simp] theorem setLink_mgrs (h : Hub) (l : Nat) (f : Link → Link) : (setLink h l f).mgrs = h.mgrs := rfl
@[simp] theorem setLink_heavy (h : Hub) (l : Nat) (f : Link → Link) : (setLink h l f).heavy = h.heavy := rfl
@[simp] theorem setLink_walks (h : Hub) (l : Nat) (f : Link → Link) : (setLink h l f).walks = h.walks := rfl
@[simp] theorem setLink_shadows (h : Hub) (l : Nat) (f : Link → Link) : (setLink h l f).shadows = h.shadows := rfl
@[simp] theorem setLink_images (h : Hub) (l : Nat) (f : Link → Link) : (setLink h l f).images = h.images := rfl
@[simp] theorem setLink_warm (h : Hub) (l : Nat) (f : Link → Link) : (setLink h l f).warm = h.warm := rfl
@[simp] theorem setLink_warmAt (h : Hub) (l : Nat) (f : Link → Link) : (setLink h l f).warmAt = h.warmAt := rfl
@[simp] theorem setLink_stage (h : Hub) (l : Nat) (f : Link → Link) : (setLink h l f).stage = h.stage := rfl
@[simp] theorem setLink_movs (h : Hub) (l : Nat) (f : Link → Link) : (setLink h l f).movs = h.movs := rfl
@[simp] theorem setLink_fs (h : Hub) (l : Nat) (f : Link → Link) : (setLink h l f).fs = h.fs := rfl
@[simp] theorem setLink_col (h : Hub) (l : Nat) (f : Link → Link) : (setLink h l f).col = h.col := rfl
@[simp] theorem setLink_lid (h : Hub) (l : Nat) (f : Link → Link) : (setLink h l f).lid = h.lid := rfl
@[simp] theorem setLink_mbox (h : Hub) (l : Nat) (f : Link → Link) : (setLink h l f).mbox = h.mbox := rfl
@[simp] theorem setLink_pmu (h : Hub) (l : Nat) (f : Link → Link) : (setLink h l f).pmu = h.pmu := rfl
@[simp] theorem setLink_bwLeft (h : Hub) (l : Nat) (f : Link → Link) : (setLink h l f).bwLeft = h.bwLeft := rfl
@[simp] theorem setLink_bwLat (h : Hub) (l : Nat) (f : Link → Link) : (setLink h l f).bwLat = h.bwLat := rfl
@[simp] theorem setLink_lat (h : Hub) (l : Nat) (f : Link → Link) : (setLink h l f).lat = h.lat := rfl
@[simp] theorem setLink_latDone (h : Hub) (l : Nat) (f : Link → Link) : (setLink h l f).latDone = h.latDone := rfl
@[simp] theorem setLink_occ (h : Hub) (l : Nat) (f : Link → Link) : (setLink h l f).occ = h.occ := rfl
@[simp] theorem setLink_occDone (h : Hub) (l : Nat) (f : Link → Link) : (setLink h l f).occDone = h.occDone := rfl
@[simp] theorem setLink_rounds (h : Hub) (l : Nat) (f : Link → Link) : (setLink h l f).rounds = h.rounds := rfl
@[simp] theorem setLink_slotUse (h : Hub) (l : Nat) (f : Link → Link) : (setLink h l f).slotUse = h.slotUse := rfl
@[simp] theorem setLink_integ (h : Hub) (l : Nat) (f : Link → Link) : (setLink h l f).integ = h.integ := rfl
@[simp] theorem setLink_bt (h : Hub) (l : Nat) (f : Link → Link) : (setLink h l f).bt = h.bt := rfl
@[simp] theorem setLink_side (h : Hub) (l : Nat) (f : Link → Link) : (setLink h l f).side = h.side := rfl
@[simp] theorem setLink_undef (h : Hub) (l : Nat) (f : Link → Link) : (setLink h l f).undef = h.undef := rfl

/-! ### setPart -/

@[simp] theorem setPart_now (h : Hub) (p : Nat) (f : Part → Part) : (setPart h p f).now = h.now := rfl
@[simp] theorem setPart_free (h : Hub) (p : Nat) (f : Part → Part) : (setPart h p f).free = h.free := rfl
@[simp] theorem setPart_regs (h : Hub) (p : Nat) (f : Part → Part) : (setPart h p f).regs = h.regs := rfl
@[simp] theorem setPart_life (h : Hub) (p : Nat) (f : Part → Part) : (setPart h p f).life = h.life := rfl
@[simp] theorem setPart_led (h : Hub) (p : Nat) (f : Part → Part) : (setPart h p f).led = h.led := rfl
@[simp] theorem setPart_rmap (h : Hub) (p : Nat) (f : Part → Part) : (setPart h p f).rmap = h.rmap := rfl
@[simp] theorem setPart_mem (h : Hub) (p : Nat) (f : Part → Part) : (setPart h p f).mem = h.mem := rfl
@[simp] theorem setPart_cache (h : Hub) (p : Nat) (f : Part → Part) : (setPart h p f).cache = h.cache := rfl
@[simp] theorem setPart_sieve (h : Hub) (p : Nat) (f : Part → Part) : (setPart h p f).sieve = h.sieve := rfl
@[simp] theorem setPart_recov (h : Hub) (p : Nat) (f : Part → Part) : (setPart h p f).recov = h.recov := rfl
@[simp] theorem setPart_txns (h : Hub) (p : Nat) (f : Part → Part) : (setPart h p f).txns = h.txns := rfl
@[simp] theorem setPart_nextId (h : Hub) (p : Nat) (f : Part → Part) : (setPart h p f).nextId = h.nextId := rfl
@[simp] theorem setPart_snps (h : Hub) (p : Nat) (f : Part → Part) : (setPart h p f).snps = h.snps := rfl
@[simp] theorem setPart_orphans (h : Hub) (p : Nat) (f : Part → Part) : (setPart h p f).orphans = h.orphans := rfl
@[simp] theorem setPart_waiting (h : Hub) (p : Nat) (f : Part → Part) : (setPart h p f).waiting = h.waiting := rfl
@[simp] theorem setPart_wbs (h : Hub) (p : Nat) (f : Part → Part) : (setPart h p f).wbs = h.wbs := rfl
@[simp] theorem setPart_tongs (h : Hub) (p : Nat) (f : Part → Part) : (setPart h p f).tongs = h.tongs := rfl
@[simp] theorem setPart_ladle (h : Hub) (p : Nat) (f : Part → Part) : (setPart h p f).ladle = h.ladle := rfl
@[simp] theorem setPart_pfSkip (h : Hub) (p : Nat) (f : Part → Part) : (setPart h p f).pfSkip = h.pfSkip := rfl
@[simp] theorem setPart_dets (h : Hub) (p : Nat) (f : Part → Part) : (setPart h p f).dets = h.dets := rfl
@[simp] theorem setPart_mons (h : Hub) (p : Nat) (f : Part → Part) : (setPart h p f).mons = h.mons := rfl
@[simp] theorem setPart_links (h : Hub) (p : Nat) (f : Part → Part) : (setPart h p f).links = h.links := rfl
@[simp] theorem setPart_twin (h : Hub) (p : Nat) (f : Part → Part) : (setPart h p f).twin = h.twin := rfl
@[simp] theorem setPart_wins (h : Hub) (p : Nat) (f : Part → Part) : (setPart h p f).wins = h.wins := rfl
@[simp] theorem setPart_mgrs (h : Hub) (p : Nat) (f : Part → Part) : (setPart h p f).mgrs = h.mgrs := rfl
@[simp] theorem setPart_heavy (h : Hub) (p : Nat) (f : Part → Part) : (setPart h p f).heavy = h.heavy := rfl
@[simp] theorem setPart_walks (h : Hub) (p : Nat) (f : Part → Part) : (setPart h p f).walks = h.walks := rfl
@[simp] theorem setPart_shadows (h : Hub) (p : Nat) (f : Part → Part) : (setPart h p f).shadows = h.shadows := rfl
@[simp] theorem setPart_images (h : Hub) (p : Nat) (f : Part → Part) : (setPart h p f).images = h.images := rfl
@[simp] theorem setPart_warm (h : Hub) (p : Nat) (f : Part → Part) : (setPart h p f).warm = h.warm := rfl
@[simp] theorem setPart_warmAt (h : Hub) (p : Nat) (f : Part → Part) : (setPart h p f).warmAt = h.warmAt := rfl
@[simp] theorem setPart_stage (h : Hub) (p : Nat) (f : Part → Part) : (setPart h p f).stage = h.stage := rfl
@[simp] theorem setPart_movs (h : Hub) (p : Nat) (f : Part → Part) : (setPart h p f).movs = h.movs := rfl
@[simp] theorem setPart_fs (h : Hub) (p : Nat) (f : Part → Part) : (setPart h p f).fs = h.fs := rfl
@[simp] theorem setPart_col (h : Hub) (p : Nat) (f : Part → Part) : (setPart h p f).col = h.col := rfl
@[simp] theorem setPart_lid (h : Hub) (p : Nat) (f : Part → Part) : (setPart h p f).lid = h.lid := rfl
@[simp] theorem setPart_mbox (h : Hub) (p : Nat) (f : Part → Part) : (setPart h p f).mbox = h.mbox := rfl
@[simp] theorem setPart_pmu (h : Hub) (p : Nat) (f : Part → Part) : (setPart h p f).pmu = h.pmu := rfl
@[simp] theorem setPart_bwLeft (h : Hub) (p : Nat) (f : Part → Part) : (setPart h p f).bwLeft = h.bwLeft := rfl
@[simp] theorem setPart_bwLat (h : Hub) (p : Nat) (f : Part → Part) : (setPart h p f).bwLat = h.bwLat := rfl
@[simp] theorem setPart_lat (h : Hub) (p : Nat) (f : Part → Part) : (setPart h p f).lat = h.lat := rfl
@[simp] theorem setPart_latDone (h : Hub) (p : Nat) (f : Part → Part) : (setPart h p f).latDone = h.latDone := rfl
@[simp] theorem setPart_occ (h : Hub) (p : Nat) (f : Part → Part) : (setPart h p f).occ = h.occ := rfl
@[simp] theorem setPart_occDone (h : Hub) (p : Nat) (f : Part → Part) : (setPart h p f).occDone = h.occDone := rfl
@[simp] theorem setPart_rounds (h : Hub) (p : Nat) (f : Part → Part) : (setPart h p f).rounds = h.rounds := rfl
@[simp] theorem setPart_slotUse (h : Hub) (p : Nat) (f : Part → Part) : (setPart h p f).slotUse = h.slotUse := rfl
@[simp] theorem setPart_integ (h : Hub) (p : Nat) (f : Part → Part) : (setPart h p f).integ = h.integ := rfl
@[simp] theorem setPart_bt (h : Hub) (p : Nat) (f : Part → Part) : (setPart h p f).bt = h.bt := rfl
@[simp] theorem setPart_side (h : Hub) (p : Nat) (f : Part → Part) : (setPart h p f).side = h.side := rfl
@[simp] theorem setPart_undef (h : Hub) (p : Nat) (f : Part → Part) : (setPart h p f).undef = h.undef := rfl

/-! ### setWin -/

@[simp] theorem setWin_now (h : Hub) (n : Nat) (f : Win → Win) : (setWin h n f).now = h.now := rfl
@[simp] theorem setWin_free (h : Hub) (n : Nat) (f : Win → Win) : (setWin h n f).free = h.free := rfl
@[simp] theorem setWin_regs (h : Hub) (n : Nat) (f : Win → Win) : (setWin h n f).regs = h.regs := rfl
@[simp] theorem setWin_life (h : Hub) (n : Nat) (f : Win → Win) : (setWin h n f).life = h.life := rfl
@[simp] theorem setWin_led (h : Hub) (n : Nat) (f : Win → Win) : (setWin h n f).led = h.led := rfl
@[simp] theorem setWin_rmap (h : Hub) (n : Nat) (f : Win → Win) : (setWin h n f).rmap = h.rmap := rfl
@[simp] theorem setWin_mem (h : Hub) (n : Nat) (f : Win → Win) : (setWin h n f).mem = h.mem := rfl
@[simp] theorem setWin_cache (h : Hub) (n : Nat) (f : Win → Win) : (setWin h n f).cache = h.cache := rfl
@[simp] theorem setWin_sieve (h : Hub) (n : Nat) (f : Win → Win) : (setWin h n f).sieve = h.sieve := rfl
@[simp] theorem setWin_recov (h : Hub) (n : Nat) (f : Win → Win) : (setWin h n f).recov = h.recov := rfl
@[simp] theorem setWin_txns (h : Hub) (n : Nat) (f : Win → Win) : (setWin h n f).txns = h.txns := rfl
@[simp] theorem setWin_nextId (h : Hub) (n : Nat) (f : Win → Win) : (setWin h n f).nextId = h.nextId := rfl
@[simp] theorem setWin_snps (h : Hub) (n : Nat) (f : Win → Win) : (setWin h n f).snps = h.snps := rfl
@[simp] theorem setWin_orphans (h : Hub) (n : Nat) (f : Win → Win) : (setWin h n f).orphans = h.orphans := rfl
@[simp] theorem setWin_waiting (h : Hub) (n : Nat) (f : Win → Win) : (setWin h n f).waiting = h.waiting := rfl
@[simp] theorem setWin_wbs (h : Hub) (n : Nat) (f : Win → Win) : (setWin h n f).wbs = h.wbs := rfl
@[simp] theorem setWin_tongs (h : Hub) (n : Nat) (f : Win → Win) : (setWin h n f).tongs = h.tongs := rfl
@[simp] theorem setWin_ladle (h : Hub) (n : Nat) (f : Win → Win) : (setWin h n f).ladle = h.ladle := rfl
@[simp] theorem setWin_pfSkip (h : Hub) (n : Nat) (f : Win → Win) : (setWin h n f).pfSkip = h.pfSkip := rfl
@[simp] theorem setWin_dets (h : Hub) (n : Nat) (f : Win → Win) : (setWin h n f).dets = h.dets := rfl
@[simp] theorem setWin_mons (h : Hub) (n : Nat) (f : Win → Win) : (setWin h n f).mons = h.mons := rfl
@[simp] theorem setWin_links (h : Hub) (n : Nat) (f : Win → Win) : (setWin h n f).links = h.links := rfl
@[simp] theorem setWin_twin (h : Hub) (n : Nat) (f : Win → Win) : (setWin h n f).twin = h.twin := rfl
@[simp] theorem setWin_parts (h : Hub) (n : Nat) (f : Win → Win) : (setWin h n f).parts = h.parts := rfl
@[simp] theorem setWin_mgrs (h : Hub) (n : Nat) (f : Win → Win) : (setWin h n f).mgrs = h.mgrs := rfl
@[simp] theorem setWin_heavy (h : Hub) (n : Nat) (f : Win → Win) : (setWin h n f).heavy = h.heavy := rfl
@[simp] theorem setWin_walks (h : Hub) (n : Nat) (f : Win → Win) : (setWin h n f).walks = h.walks := rfl
@[simp] theorem setWin_shadows (h : Hub) (n : Nat) (f : Win → Win) : (setWin h n f).shadows = h.shadows := rfl
@[simp] theorem setWin_images (h : Hub) (n : Nat) (f : Win → Win) : (setWin h n f).images = h.images := rfl
@[simp] theorem setWin_warm (h : Hub) (n : Nat) (f : Win → Win) : (setWin h n f).warm = h.warm := rfl
@[simp] theorem setWin_warmAt (h : Hub) (n : Nat) (f : Win → Win) : (setWin h n f).warmAt = h.warmAt := rfl
@[simp] theorem setWin_stage (h : Hub) (n : Nat) (f : Win → Win) : (setWin h n f).stage = h.stage := rfl
@[simp] theorem setWin_movs (h : Hub) (n : Nat) (f : Win → Win) : (setWin h n f).movs = h.movs := rfl
@[simp] theorem setWin_fs (h : Hub) (n : Nat) (f : Win → Win) : (setWin h n f).fs = h.fs := rfl
@[simp] theorem setWin_col (h : Hub) (n : Nat) (f : Win → Win) : (setWin h n f).col = h.col := rfl
@[simp] theorem setWin_lid (h : Hub) (n : Nat) (f : Win → Win) : (setWin h n f).lid = h.lid := rfl
@[simp] theorem setWin_mbox (h : Hub) (n : Nat) (f : Win → Win) : (setWin h n f).mbox = h.mbox := rfl
@[simp] theorem setWin_pmu (h : Hub) (n : Nat) (f : Win → Win) : (setWin h n f).pmu = h.pmu := rfl
@[simp] theorem setWin_bwLeft (h : Hub) (n : Nat) (f : Win → Win) : (setWin h n f).bwLeft = h.bwLeft := rfl
@[simp] theorem setWin_bwLat (h : Hub) (n : Nat) (f : Win → Win) : (setWin h n f).bwLat = h.bwLat := rfl
@[simp] theorem setWin_lat (h : Hub) (n : Nat) (f : Win → Win) : (setWin h n f).lat = h.lat := rfl
@[simp] theorem setWin_latDone (h : Hub) (n : Nat) (f : Win → Win) : (setWin h n f).latDone = h.latDone := rfl
@[simp] theorem setWin_occ (h : Hub) (n : Nat) (f : Win → Win) : (setWin h n f).occ = h.occ := rfl
@[simp] theorem setWin_occDone (h : Hub) (n : Nat) (f : Win → Win) : (setWin h n f).occDone = h.occDone := rfl
@[simp] theorem setWin_rounds (h : Hub) (n : Nat) (f : Win → Win) : (setWin h n f).rounds = h.rounds := rfl
@[simp] theorem setWin_slotUse (h : Hub) (n : Nat) (f : Win → Win) : (setWin h n f).slotUse = h.slotUse := rfl
@[simp] theorem setWin_integ (h : Hub) (n : Nat) (f : Win → Win) : (setWin h n f).integ = h.integ := rfl
@[simp] theorem setWin_bt (h : Hub) (n : Nat) (f : Win → Win) : (setWin h n f).bt = h.bt := rfl
@[simp] theorem setWin_side (h : Hub) (n : Nat) (f : Win → Win) : (setWin h n f).side = h.side := rfl
@[simp] theorem setWin_undef (h : Hub) (n : Nat) (f : Win → Win) : (setWin h n f).undef = h.undef := rfl

/-! ### setMgr -/

@[simp] theorem setMgr_now (h : Hub) (m : Nat) (f : Mgr → Mgr) : (setMgr h m f).now = h.now := rfl
@[simp] theorem setMgr_free (h : Hub) (m : Nat) (f : Mgr → Mgr) : (setMgr h m f).free = h.free := rfl
@[simp] theorem setMgr_regs (h : Hub) (m : Nat) (f : Mgr → Mgr) : (setMgr h m f).regs = h.regs := rfl
@[simp] theorem setMgr_life (h : Hub) (m : Nat) (f : Mgr → Mgr) : (setMgr h m f).life = h.life := rfl
@[simp] theorem setMgr_led (h : Hub) (m : Nat) (f : Mgr → Mgr) : (setMgr h m f).led = h.led := rfl
@[simp] theorem setMgr_rmap (h : Hub) (m : Nat) (f : Mgr → Mgr) : (setMgr h m f).rmap = h.rmap := rfl
@[simp] theorem setMgr_mem (h : Hub) (m : Nat) (f : Mgr → Mgr) : (setMgr h m f).mem = h.mem := rfl
@[simp] theorem setMgr_cache (h : Hub) (m : Nat) (f : Mgr → Mgr) : (setMgr h m f).cache = h.cache := rfl
@[simp] theorem setMgr_sieve (h : Hub) (m : Nat) (f : Mgr → Mgr) : (setMgr h m f).sieve = h.sieve := rfl
@[simp] theorem setMgr_recov (h : Hub) (m : Nat) (f : Mgr → Mgr) : (setMgr h m f).recov = h.recov := rfl
@[simp] theorem setMgr_txns (h : Hub) (m : Nat) (f : Mgr → Mgr) : (setMgr h m f).txns = h.txns := rfl
@[simp] theorem setMgr_nextId (h : Hub) (m : Nat) (f : Mgr → Mgr) : (setMgr h m f).nextId = h.nextId := rfl
@[simp] theorem setMgr_snps (h : Hub) (m : Nat) (f : Mgr → Mgr) : (setMgr h m f).snps = h.snps := rfl
@[simp] theorem setMgr_orphans (h : Hub) (m : Nat) (f : Mgr → Mgr) : (setMgr h m f).orphans = h.orphans := rfl
@[simp] theorem setMgr_waiting (h : Hub) (m : Nat) (f : Mgr → Mgr) : (setMgr h m f).waiting = h.waiting := rfl
@[simp] theorem setMgr_wbs (h : Hub) (m : Nat) (f : Mgr → Mgr) : (setMgr h m f).wbs = h.wbs := rfl
@[simp] theorem setMgr_tongs (h : Hub) (m : Nat) (f : Mgr → Mgr) : (setMgr h m f).tongs = h.tongs := rfl
@[simp] theorem setMgr_ladle (h : Hub) (m : Nat) (f : Mgr → Mgr) : (setMgr h m f).ladle = h.ladle := rfl
@[simp] theorem setMgr_pfSkip (h : Hub) (m : Nat) (f : Mgr → Mgr) : (setMgr h m f).pfSkip = h.pfSkip := rfl
@[simp] theorem setMgr_dets (h : Hub) (m : Nat) (f : Mgr → Mgr) : (setMgr h m f).dets = h.dets := rfl
@[simp] theorem setMgr_mons (h : Hub) (m : Nat) (f : Mgr → Mgr) : (setMgr h m f).mons = h.mons := rfl
@[simp] theorem setMgr_links (h : Hub) (m : Nat) (f : Mgr → Mgr) : (setMgr h m f).links = h.links := rfl
@[simp] theorem setMgr_twin (h : Hub) (m : Nat) (f : Mgr → Mgr) : (setMgr h m f).twin = h.twin := rfl
@[simp] theorem setMgr_parts (h : Hub) (m : Nat) (f : Mgr → Mgr) : (setMgr h m f).parts = h.parts := rfl
@[simp] theorem setMgr_wins (h : Hub) (m : Nat) (f : Mgr → Mgr) : (setMgr h m f).wins = h.wins := rfl
@[simp] theorem setMgr_heavy (h : Hub) (m : Nat) (f : Mgr → Mgr) : (setMgr h m f).heavy = h.heavy := rfl
@[simp] theorem setMgr_walks (h : Hub) (m : Nat) (f : Mgr → Mgr) : (setMgr h m f).walks = h.walks := rfl
@[simp] theorem setMgr_shadows (h : Hub) (m : Nat) (f : Mgr → Mgr) : (setMgr h m f).shadows = h.shadows := rfl
@[simp] theorem setMgr_images (h : Hub) (m : Nat) (f : Mgr → Mgr) : (setMgr h m f).images = h.images := rfl
@[simp] theorem setMgr_warm (h : Hub) (m : Nat) (f : Mgr → Mgr) : (setMgr h m f).warm = h.warm := rfl
@[simp] theorem setMgr_warmAt (h : Hub) (m : Nat) (f : Mgr → Mgr) : (setMgr h m f).warmAt = h.warmAt := rfl
@[simp] theorem setMgr_stage (h : Hub) (m : Nat) (f : Mgr → Mgr) : (setMgr h m f).stage = h.stage := rfl
@[simp] theorem setMgr_movs (h : Hub) (m : Nat) (f : Mgr → Mgr) : (setMgr h m f).movs = h.movs := rfl
@[simp] theorem setMgr_fs (h : Hub) (m : Nat) (f : Mgr → Mgr) : (setMgr h m f).fs = h.fs := rfl
@[simp] theorem setMgr_col (h : Hub) (m : Nat) (f : Mgr → Mgr) : (setMgr h m f).col = h.col := rfl
@[simp] theorem setMgr_lid (h : Hub) (m : Nat) (f : Mgr → Mgr) : (setMgr h m f).lid = h.lid := rfl
@[simp] theorem setMgr_mbox (h : Hub) (m : Nat) (f : Mgr → Mgr) : (setMgr h m f).mbox = h.mbox := rfl
@[simp] theorem setMgr_pmu (h : Hub) (m : Nat) (f : Mgr → Mgr) : (setMgr h m f).pmu = h.pmu := rfl
@[simp] theorem setMgr_bwLeft (h : Hub) (m : Nat) (f : Mgr → Mgr) : (setMgr h m f).bwLeft = h.bwLeft := rfl
@[simp] theorem setMgr_bwLat (h : Hub) (m : Nat) (f : Mgr → Mgr) : (setMgr h m f).bwLat = h.bwLat := rfl
@[simp] theorem setMgr_lat (h : Hub) (m : Nat) (f : Mgr → Mgr) : (setMgr h m f).lat = h.lat := rfl
@[simp] theorem setMgr_latDone (h : Hub) (m : Nat) (f : Mgr → Mgr) : (setMgr h m f).latDone = h.latDone := rfl
@[simp] theorem setMgr_occ (h : Hub) (m : Nat) (f : Mgr → Mgr) : (setMgr h m f).occ = h.occ := rfl
@[simp] theorem setMgr_occDone (h : Hub) (m : Nat) (f : Mgr → Mgr) : (setMgr h m f).occDone = h.occDone := rfl
@[simp] theorem setMgr_rounds (h : Hub) (m : Nat) (f : Mgr → Mgr) : (setMgr h m f).rounds = h.rounds := rfl
@[simp] theorem setMgr_slotUse (h : Hub) (m : Nat) (f : Mgr → Mgr) : (setMgr h m f).slotUse = h.slotUse := rfl
@[simp] theorem setMgr_integ (h : Hub) (m : Nat) (f : Mgr → Mgr) : (setMgr h m f).integ = h.integ := rfl
@[simp] theorem setMgr_bt (h : Hub) (m : Nat) (f : Mgr → Mgr) : (setMgr h m f).bt = h.bt := rfl
@[simp] theorem setMgr_side (h : Hub) (m : Nat) (f : Mgr → Mgr) : (setMgr h m f).side = h.side := rfl
@[simp] theorem setMgr_undef (h : Hub) (m : Nat) (f : Mgr → Mgr) : (setMgr h m f).undef = h.undef := rfl

/-! ### setMbox -/

@[simp] theorem setMbox_now (die k : Nat) (b : Mbox) (h : Hub) : (setMbox die k b h).now = h.now := rfl
@[simp] theorem setMbox_free (die k : Nat) (b : Mbox) (h : Hub) : (setMbox die k b h).free = h.free := rfl
@[simp] theorem setMbox_regs (die k : Nat) (b : Mbox) (h : Hub) : (setMbox die k b h).regs = h.regs := rfl
@[simp] theorem setMbox_life (die k : Nat) (b : Mbox) (h : Hub) : (setMbox die k b h).life = h.life := rfl
@[simp] theorem setMbox_led (die k : Nat) (b : Mbox) (h : Hub) : (setMbox die k b h).led = h.led := rfl
@[simp] theorem setMbox_rmap (die k : Nat) (b : Mbox) (h : Hub) : (setMbox die k b h).rmap = h.rmap := rfl
@[simp] theorem setMbox_mem (die k : Nat) (b : Mbox) (h : Hub) : (setMbox die k b h).mem = h.mem := rfl
@[simp] theorem setMbox_cache (die k : Nat) (b : Mbox) (h : Hub) : (setMbox die k b h).cache = h.cache := rfl
@[simp] theorem setMbox_sieve (die k : Nat) (b : Mbox) (h : Hub) : (setMbox die k b h).sieve = h.sieve := rfl
@[simp] theorem setMbox_recov (die k : Nat) (b : Mbox) (h : Hub) : (setMbox die k b h).recov = h.recov := rfl
@[simp] theorem setMbox_txns (die k : Nat) (b : Mbox) (h : Hub) : (setMbox die k b h).txns = h.txns := rfl
@[simp] theorem setMbox_nextId (die k : Nat) (b : Mbox) (h : Hub) : (setMbox die k b h).nextId = h.nextId := rfl
@[simp] theorem setMbox_snps (die k : Nat) (b : Mbox) (h : Hub) : (setMbox die k b h).snps = h.snps := rfl
@[simp] theorem setMbox_orphans (die k : Nat) (b : Mbox) (h : Hub) : (setMbox die k b h).orphans = h.orphans := rfl
@[simp] theorem setMbox_waiting (die k : Nat) (b : Mbox) (h : Hub) : (setMbox die k b h).waiting = h.waiting := rfl
@[simp] theorem setMbox_wbs (die k : Nat) (b : Mbox) (h : Hub) : (setMbox die k b h).wbs = h.wbs := rfl
@[simp] theorem setMbox_tongs (die k : Nat) (b : Mbox) (h : Hub) : (setMbox die k b h).tongs = h.tongs := rfl
@[simp] theorem setMbox_ladle (die k : Nat) (b : Mbox) (h : Hub) : (setMbox die k b h).ladle = h.ladle := rfl
@[simp] theorem setMbox_pfSkip (die k : Nat) (b : Mbox) (h : Hub) : (setMbox die k b h).pfSkip = h.pfSkip := rfl
@[simp] theorem setMbox_dets (die k : Nat) (b : Mbox) (h : Hub) : (setMbox die k b h).dets = h.dets := rfl
@[simp] theorem setMbox_mons (die k : Nat) (b : Mbox) (h : Hub) : (setMbox die k b h).mons = h.mons := rfl
@[simp] theorem setMbox_links (die k : Nat) (b : Mbox) (h : Hub) : (setMbox die k b h).links = h.links := rfl
@[simp] theorem setMbox_twin (die k : Nat) (b : Mbox) (h : Hub) : (setMbox die k b h).twin = h.twin := rfl
@[simp] theorem setMbox_parts (die k : Nat) (b : Mbox) (h : Hub) : (setMbox die k b h).parts = h.parts := rfl
@[simp] theorem setMbox_wins (die k : Nat) (b : Mbox) (h : Hub) : (setMbox die k b h).wins = h.wins := rfl
@[simp] theorem setMbox_mgrs (die k : Nat) (b : Mbox) (h : Hub) : (setMbox die k b h).mgrs = h.mgrs := rfl
@[simp] theorem setMbox_heavy (die k : Nat) (b : Mbox) (h : Hub) : (setMbox die k b h).heavy = h.heavy := rfl
@[simp] theorem setMbox_walks (die k : Nat) (b : Mbox) (h : Hub) : (setMbox die k b h).walks = h.walks := rfl
@[simp] theorem setMbox_shadows (die k : Nat) (b : Mbox) (h : Hub) : (setMbox die k b h).shadows = h.shadows := rfl
@[simp] theorem setMbox_images (die k : Nat) (b : Mbox) (h : Hub) : (setMbox die k b h).images = h.images := rfl
@[simp] theorem setMbox_warm (die k : Nat) (b : Mbox) (h : Hub) : (setMbox die k b h).warm = h.warm := rfl
@[simp] theorem setMbox_warmAt (die k : Nat) (b : Mbox) (h : Hub) : (setMbox die k b h).warmAt = h.warmAt := rfl
@[simp] theorem setMbox_stage (die k : Nat) (b : Mbox) (h : Hub) : (setMbox die k b h).stage = h.stage := rfl
@[simp] theorem setMbox_movs (die k : Nat) (b : Mbox) (h : Hub) : (setMbox die k b h).movs = h.movs := rfl
@[simp] theorem setMbox_fs (die k : Nat) (b : Mbox) (h : Hub) : (setMbox die k b h).fs = h.fs := rfl
@[simp] theorem setMbox_col (die k : Nat) (b : Mbox) (h : Hub) : (setMbox die k b h).col = h.col := rfl
@[simp] theorem setMbox_lid (die k : Nat) (b : Mbox) (h : Hub) : (setMbox die k b h).lid = h.lid := rfl
@[simp] theorem setMbox_pmu (die k : Nat) (b : Mbox) (h : Hub) : (setMbox die k b h).pmu = h.pmu := rfl
@[simp] theorem setMbox_bwLeft (die k : Nat) (b : Mbox) (h : Hub) : (setMbox die k b h).bwLeft = h.bwLeft := rfl
@[simp] theorem setMbox_bwLat (die k : Nat) (b : Mbox) (h : Hub) : (setMbox die k b h).bwLat = h.bwLat := rfl
@[simp] theorem setMbox_lat (die k : Nat) (b : Mbox) (h : Hub) : (setMbox die k b h).lat = h.lat := rfl
@[simp] theorem setMbox_latDone (die k : Nat) (b : Mbox) (h : Hub) : (setMbox die k b h).latDone = h.latDone := rfl
@[simp] theorem setMbox_occ (die k : Nat) (b : Mbox) (h : Hub) : (setMbox die k b h).occ = h.occ := rfl
@[simp] theorem setMbox_occDone (die k : Nat) (b : Mbox) (h : Hub) : (setMbox die k b h).occDone = h.occDone := rfl
@[simp] theorem setMbox_rounds (die k : Nat) (b : Mbox) (h : Hub) : (setMbox die k b h).rounds = h.rounds := rfl
@[simp] theorem setMbox_slotUse (die k : Nat) (b : Mbox) (h : Hub) : (setMbox die k b h).slotUse = h.slotUse := rfl
@[simp] theorem setMbox_integ (die k : Nat) (b : Mbox) (h : Hub) : (setMbox die k b h).integ = h.integ := rfl
@[simp] theorem setMbox_bt (die k : Nat) (b : Mbox) (h : Hub) : (setMbox die k b h).bt = h.bt := rfl
@[simp] theorem setMbox_side (die k : Nat) (b : Mbox) (h : Hub) : (setMbox die k b h).side = h.side := rfl
@[simp] theorem setMbox_undef (die k : Nat) (b : Mbox) (h : Hub) : (setMbox die k b h).undef = h.undef := rfl

/-! ### setLid -/

@[simp] theorem setLid_now (die : Nat) (f : Lid → Lid) (h : Hub) : (setLid die f h).now = h.now := rfl
@[simp] theorem setLid_free (die : Nat) (f : Lid → Lid) (h : Hub) : (setLid die f h).free = h.free := rfl
@[simp] theorem setLid_regs (die : Nat) (f : Lid → Lid) (h : Hub) : (setLid die f h).regs = h.regs := rfl
@[simp] theorem setLid_life (die : Nat) (f : Lid → Lid) (h : Hub) : (setLid die f h).life = h.life := rfl
@[simp] theorem setLid_led (die : Nat) (f : Lid → Lid) (h : Hub) : (setLid die f h).led = h.led := rfl
@[simp] theorem setLid_rmap (die : Nat) (f : Lid → Lid) (h : Hub) : (setLid die f h).rmap = h.rmap := rfl
@[simp] theorem setLid_mem (die : Nat) (f : Lid → Lid) (h : Hub) : (setLid die f h).mem = h.mem := rfl
@[simp] theorem setLid_cache (die : Nat) (f : Lid → Lid) (h : Hub) : (setLid die f h).cache = h.cache := rfl
@[simp] theorem setLid_sieve (die : Nat) (f : Lid → Lid) (h : Hub) : (setLid die f h).sieve = h.sieve := rfl
@[simp] theorem setLid_recov (die : Nat) (f : Lid → Lid) (h : Hub) : (setLid die f h).recov = h.recov := rfl
@[simp] theorem setLid_txns (die : Nat) (f : Lid → Lid) (h : Hub) : (setLid die f h).txns = h.txns := rfl
@[simp] theorem setLid_nextId (die : Nat) (f : Lid → Lid) (h : Hub) : (setLid die f h).nextId = h.nextId := rfl
@[simp] theorem setLid_snps (die : Nat) (f : Lid → Lid) (h : Hub) : (setLid die f h).snps = h.snps := rfl
@[simp] theorem setLid_orphans (die : Nat) (f : Lid → Lid) (h : Hub) : (setLid die f h).orphans = h.orphans := rfl
@[simp] theorem setLid_waiting (die : Nat) (f : Lid → Lid) (h : Hub) : (setLid die f h).waiting = h.waiting := rfl
@[simp] theorem setLid_wbs (die : Nat) (f : Lid → Lid) (h : Hub) : (setLid die f h).wbs = h.wbs := rfl
@[simp] theorem setLid_tongs (die : Nat) (f : Lid → Lid) (h : Hub) : (setLid die f h).tongs = h.tongs := rfl
@[simp] theorem setLid_ladle (die : Nat) (f : Lid → Lid) (h : Hub) : (setLid die f h).ladle = h.ladle := rfl
@[simp] theorem setLid_pfSkip (die : Nat) (f : Lid → Lid) (h : Hub) : (setLid die f h).pfSkip = h.pfSkip := rfl
@[simp] theorem setLid_dets (die : Nat) (f : Lid → Lid) (h : Hub) : (setLid die f h).dets = h.dets := rfl
@[simp] theorem setLid_mons (die : Nat) (f : Lid → Lid) (h : Hub) : (setLid die f h).mons = h.mons := rfl
@[simp] theorem setLid_links (die : Nat) (f : Lid → Lid) (h : Hub) : (setLid die f h).links = h.links := rfl
@[simp] theorem setLid_twin (die : Nat) (f : Lid → Lid) (h : Hub) : (setLid die f h).twin = h.twin := rfl
@[simp] theorem setLid_parts (die : Nat) (f : Lid → Lid) (h : Hub) : (setLid die f h).parts = h.parts := rfl
@[simp] theorem setLid_wins (die : Nat) (f : Lid → Lid) (h : Hub) : (setLid die f h).wins = h.wins := rfl
@[simp] theorem setLid_mgrs (die : Nat) (f : Lid → Lid) (h : Hub) : (setLid die f h).mgrs = h.mgrs := rfl
@[simp] theorem setLid_heavy (die : Nat) (f : Lid → Lid) (h : Hub) : (setLid die f h).heavy = h.heavy := rfl
@[simp] theorem setLid_walks (die : Nat) (f : Lid → Lid) (h : Hub) : (setLid die f h).walks = h.walks := rfl
@[simp] theorem setLid_shadows (die : Nat) (f : Lid → Lid) (h : Hub) : (setLid die f h).shadows = h.shadows := rfl
@[simp] theorem setLid_images (die : Nat) (f : Lid → Lid) (h : Hub) : (setLid die f h).images = h.images := rfl
@[simp] theorem setLid_warm (die : Nat) (f : Lid → Lid) (h : Hub) : (setLid die f h).warm = h.warm := rfl
@[simp] theorem setLid_warmAt (die : Nat) (f : Lid → Lid) (h : Hub) : (setLid die f h).warmAt = h.warmAt := rfl
@[simp] theorem setLid_stage (die : Nat) (f : Lid → Lid) (h : Hub) : (setLid die f h).stage = h.stage := rfl
@[simp] theorem setLid_movs (die : Nat) (f : Lid → Lid) (h : Hub) : (setLid die f h).movs = h.movs := rfl
@[simp] theorem setLid_fs (die : Nat) (f : Lid → Lid) (h : Hub) : (setLid die f h).fs = h.fs := rfl
@[simp] theorem setLid_col (die : Nat) (f : Lid → Lid) (h : Hub) : (setLid die f h).col = h.col := rfl
@[simp] theorem setLid_mbox (die : Nat) (f : Lid → Lid) (h : Hub) : (setLid die f h).mbox = h.mbox := rfl
@[simp] theorem setLid_pmu (die : Nat) (f : Lid → Lid) (h : Hub) : (setLid die f h).pmu = h.pmu := rfl
@[simp] theorem setLid_bwLeft (die : Nat) (f : Lid → Lid) (h : Hub) : (setLid die f h).bwLeft = h.bwLeft := rfl
@[simp] theorem setLid_bwLat (die : Nat) (f : Lid → Lid) (h : Hub) : (setLid die f h).bwLat = h.bwLat := rfl
@[simp] theorem setLid_lat (die : Nat) (f : Lid → Lid) (h : Hub) : (setLid die f h).lat = h.lat := rfl
@[simp] theorem setLid_latDone (die : Nat) (f : Lid → Lid) (h : Hub) : (setLid die f h).latDone = h.latDone := rfl
@[simp] theorem setLid_occ (die : Nat) (f : Lid → Lid) (h : Hub) : (setLid die f h).occ = h.occ := rfl
@[simp] theorem setLid_occDone (die : Nat) (f : Lid → Lid) (h : Hub) : (setLid die f h).occDone = h.occDone := rfl
@[simp] theorem setLid_rounds (die : Nat) (f : Lid → Lid) (h : Hub) : (setLid die f h).rounds = h.rounds := rfl
@[simp] theorem setLid_slotUse (die : Nat) (f : Lid → Lid) (h : Hub) : (setLid die f h).slotUse = h.slotUse := rfl
@[simp] theorem setLid_integ (die : Nat) (f : Lid → Lid) (h : Hub) : (setLid die f h).integ = h.integ := rfl
@[simp] theorem setLid_bt (die : Nat) (f : Lid → Lid) (h : Hub) : (setLid die f h).bt = h.bt := rfl
@[simp] theorem setLid_side (die : Nat) (f : Lid → Lid) (h : Hub) : (setLid die f h).side = h.side := rfl
@[simp] theorem setLid_undef (die : Nat) (f : Lid → Lid) (h : Hub) : (setLid die f h).undef = h.undef := rfl

/-! ### updTxn -/

@[simp] theorem updTxn_now (id : Nat) (f : Txn → Txn) (h : Hub) : (updTxn id f h).now = h.now := rfl
@[simp] theorem updTxn_free (id : Nat) (f : Txn → Txn) (h : Hub) : (updTxn id f h).free = h.free := rfl
@[simp] theorem updTxn_regs (id : Nat) (f : Txn → Txn) (h : Hub) : (updTxn id f h).regs = h.regs := rfl
@[simp] theorem updTxn_life (id : Nat) (f : Txn → Txn) (h : Hub) : (updTxn id f h).life = h.life := rfl
@[simp] theorem updTxn_led (id : Nat) (f : Txn → Txn) (h : Hub) : (updTxn id f h).led = h.led := rfl
@[simp] theorem updTxn_rmap (id : Nat) (f : Txn → Txn) (h : Hub) : (updTxn id f h).rmap = h.rmap := rfl
@[simp] theorem updTxn_mem (id : Nat) (f : Txn → Txn) (h : Hub) : (updTxn id f h).mem = h.mem := rfl
@[simp] theorem updTxn_cache (id : Nat) (f : Txn → Txn) (h : Hub) : (updTxn id f h).cache = h.cache := rfl
@[simp] theorem updTxn_sieve (id : Nat) (f : Txn → Txn) (h : Hub) : (updTxn id f h).sieve = h.sieve := rfl
@[simp] theorem updTxn_recov (id : Nat) (f : Txn → Txn) (h : Hub) : (updTxn id f h).recov = h.recov := rfl
@[simp] theorem updTxn_nextId (id : Nat) (f : Txn → Txn) (h : Hub) : (updTxn id f h).nextId = h.nextId := rfl
@[simp] theorem updTxn_snps (id : Nat) (f : Txn → Txn) (h : Hub) : (updTxn id f h).snps = h.snps := rfl
@[simp] theorem updTxn_orphans (id : Nat) (f : Txn → Txn) (h : Hub) : (updTxn id f h).orphans = h.orphans := rfl
@[simp] theorem updTxn_waiting (id : Nat) (f : Txn → Txn) (h : Hub) : (updTxn id f h).waiting = h.waiting := rfl
@[simp] theorem updTxn_wbs (id : Nat) (f : Txn → Txn) (h : Hub) : (updTxn id f h).wbs = h.wbs := rfl
@[simp] theorem updTxn_tongs (id : Nat) (f : Txn → Txn) (h : Hub) : (updTxn id f h).tongs = h.tongs := rfl
@[simp] theorem updTxn_ladle (id : Nat) (f : Txn → Txn) (h : Hub) : (updTxn id f h).ladle = h.ladle := rfl
@[simp] theorem updTxn_pfSkip (id : Nat) (f : Txn → Txn) (h : Hub) : (updTxn id f h).pfSkip = h.pfSkip := rfl
@[simp] theorem updTxn_dets (id : Nat) (f : Txn → Txn) (h : Hub) : (updTxn id f h).dets = h.dets := rfl
@[simp] theorem updTxn_mons (id : Nat) (f : Txn → Txn) (h : Hub) : (updTxn id f h).mons = h.mons := rfl
@[simp] theorem updTxn_links (id : Nat) (f : Txn → Txn) (h : Hub) : (updTxn id f h).links = h.links := rfl
@[simp] theorem updTxn_twin (id : Nat) (f : Txn → Txn) (h : Hub) : (updTxn id f h).twin = h.twin := rfl
@[simp] theorem updTxn_parts (id : Nat) (f : Txn → Txn) (h : Hub) : (updTxn id f h).parts = h.parts := rfl
@[simp] theorem updTxn_wins (id : Nat) (f : Txn → Txn) (h : Hub) : (updTxn id f h).wins = h.wins := rfl
@[simp] theorem updTxn_mgrs (id : Nat) (f : Txn → Txn) (h : Hub) : (updTxn id f h).mgrs = h.mgrs := rfl
@[simp] theorem updTxn_heavy (id : Nat) (f : Txn → Txn) (h : Hub) : (updTxn id f h).heavy = h.heavy := rfl
@[simp] theorem updTxn_walks (id : Nat) (f : Txn → Txn) (h : Hub) : (updTxn id f h).walks = h.walks := rfl
@[simp] theorem updTxn_shadows (id : Nat) (f : Txn → Txn) (h : Hub) : (updTxn id f h).shadows = h.shadows := rfl
@[simp] theorem updTxn_images (id : Nat) (f : Txn → Txn) (h : Hub) : (updTxn id f h).images = h.images := rfl
@[simp] theorem updTxn_warm (id : Nat) (f : Txn → Txn) (h : Hub) : (updTxn id f h).warm = h.warm := rfl
@[simp] theorem updTxn_warmAt (id : Nat) (f : Txn → Txn) (h : Hub) : (updTxn id f h).warmAt = h.warmAt := rfl
@[simp] theorem updTxn_stage (id : Nat) (f : Txn → Txn) (h : Hub) : (updTxn id f h).stage = h.stage := rfl
@[simp] theorem updTxn_movs (id : Nat) (f : Txn → Txn) (h : Hub) : (updTxn id f h).movs = h.movs := rfl
@[simp] theorem updTxn_fs (id : Nat) (f : Txn → Txn) (h : Hub) : (updTxn id f h).fs = h.fs := rfl
@[simp] theorem updTxn_col (id : Nat) (f : Txn → Txn) (h : Hub) : (updTxn id f h).col = h.col := rfl
@[simp] theorem updTxn_lid (id : Nat) (f : Txn → Txn) (h : Hub) : (updTxn id f h).lid = h.lid := rfl
@[simp] theorem updTxn_mbox (id : Nat) (f : Txn → Txn) (h : Hub) : (updTxn id f h).mbox = h.mbox := rfl
@[simp] theorem updTxn_pmu (id : Nat) (f : Txn → Txn) (h : Hub) : (updTxn id f h).pmu = h.pmu := rfl
@[simp] theorem updTxn_bwLeft (id : Nat) (f : Txn → Txn) (h : Hub) : (updTxn id f h).bwLeft = h.bwLeft := rfl
@[simp] theorem updTxn_bwLat (id : Nat) (f : Txn → Txn) (h : Hub) : (updTxn id f h).bwLat = h.bwLat := rfl
@[simp] theorem updTxn_lat (id : Nat) (f : Txn → Txn) (h : Hub) : (updTxn id f h).lat = h.lat := rfl
@[simp] theorem updTxn_latDone (id : Nat) (f : Txn → Txn) (h : Hub) : (updTxn id f h).latDone = h.latDone := rfl
@[simp] theorem updTxn_occ (id : Nat) (f : Txn → Txn) (h : Hub) : (updTxn id f h).occ = h.occ := rfl
@[simp] theorem updTxn_occDone (id : Nat) (f : Txn → Txn) (h : Hub) : (updTxn id f h).occDone = h.occDone := rfl
@[simp] theorem updTxn_rounds (id : Nat) (f : Txn → Txn) (h : Hub) : (updTxn id f h).rounds = h.rounds := rfl
@[simp] theorem updTxn_slotUse (id : Nat) (f : Txn → Txn) (h : Hub) : (updTxn id f h).slotUse = h.slotUse := rfl
@[simp] theorem updTxn_integ (id : Nat) (f : Txn → Txn) (h : Hub) : (updTxn id f h).integ = h.integ := rfl
@[simp] theorem updTxn_bt (id : Nat) (f : Txn → Txn) (h : Hub) : (updTxn id f h).bt = h.bt := rfl
@[simp] theorem updTxn_side (id : Nat) (f : Txn → Txn) (h : Hub) : (updTxn id f h).side = h.side := rfl
@[simp] theorem updTxn_undef (id : Nat) (f : Txn → Txn) (h : Hub) : (updTxn id f h).undef = h.undef := rfl

/-! ### dropTxn -/

@[simp] theorem dropTxn_now (id : Nat) (h : Hub) : (dropTxn id h).now = h.now := rfl
@[simp] theorem dropTxn_free (id : Nat) (h : Hub) : (dropTxn id h).free = h.free := rfl
@[simp] theorem dropTxn_regs (id : Nat) (h : Hub) : (dropTxn id h).regs = h.regs := rfl
@[simp] theorem dropTxn_life (id : Nat) (h : Hub) : (dropTxn id h).life = h.life := rfl
@[simp] theorem dropTxn_led (id : Nat) (h : Hub) : (dropTxn id h).led = h.led := rfl
@[simp] theorem dropTxn_rmap (id : Nat) (h : Hub) : (dropTxn id h).rmap = h.rmap := rfl
@[simp] theorem dropTxn_mem (id : Nat) (h : Hub) : (dropTxn id h).mem = h.mem := rfl
@[simp] theorem dropTxn_cache (id : Nat) (h : Hub) : (dropTxn id h).cache = h.cache := rfl
@[simp] theorem dropTxn_sieve (id : Nat) (h : Hub) : (dropTxn id h).sieve = h.sieve := rfl
@[simp] theorem dropTxn_recov (id : Nat) (h : Hub) : (dropTxn id h).recov = h.recov := rfl
@[simp] theorem dropTxn_nextId (id : Nat) (h : Hub) : (dropTxn id h).nextId = h.nextId := rfl
@[simp] theorem dropTxn_snps (id : Nat) (h : Hub) : (dropTxn id h).snps = h.snps := rfl
@[simp] theorem dropTxn_orphans (id : Nat) (h : Hub) : (dropTxn id h).orphans = h.orphans := rfl
@[simp] theorem dropTxn_waiting (id : Nat) (h : Hub) : (dropTxn id h).waiting = h.waiting := rfl
@[simp] theorem dropTxn_wbs (id : Nat) (h : Hub) : (dropTxn id h).wbs = h.wbs := rfl
@[simp] theorem dropTxn_tongs (id : Nat) (h : Hub) : (dropTxn id h).tongs = h.tongs := rfl
@[simp] theorem dropTxn_ladle (id : Nat) (h : Hub) : (dropTxn id h).ladle = h.ladle := rfl
@[simp] theorem dropTxn_pfSkip (id : Nat) (h : Hub) : (dropTxn id h).pfSkip = h.pfSkip := rfl
@[simp] theorem dropTxn_dets (id : Nat) (h : Hub) : (dropTxn id h).dets = h.dets := rfl
@[simp] theorem dropTxn_mons (id : Nat) (h : Hub) : (dropTxn id h).mons = h.mons := rfl
@[simp] theorem dropTxn_links (id : Nat) (h : Hub) : (dropTxn id h).links = h.links := rfl
@[simp] theorem dropTxn_twin (id : Nat) (h : Hub) : (dropTxn id h).twin = h.twin := rfl
@[simp] theorem dropTxn_parts (id : Nat) (h : Hub) : (dropTxn id h).parts = h.parts := rfl
@[simp] theorem dropTxn_wins (id : Nat) (h : Hub) : (dropTxn id h).wins = h.wins := rfl
@[simp] theorem dropTxn_mgrs (id : Nat) (h : Hub) : (dropTxn id h).mgrs = h.mgrs := rfl
@[simp] theorem dropTxn_heavy (id : Nat) (h : Hub) : (dropTxn id h).heavy = h.heavy := rfl
@[simp] theorem dropTxn_walks (id : Nat) (h : Hub) : (dropTxn id h).walks = h.walks := rfl
@[simp] theorem dropTxn_shadows (id : Nat) (h : Hub) : (dropTxn id h).shadows = h.shadows := rfl
@[simp] theorem dropTxn_images (id : Nat) (h : Hub) : (dropTxn id h).images = h.images := rfl
@[simp] theorem dropTxn_warm (id : Nat) (h : Hub) : (dropTxn id h).warm = h.warm := rfl
@[simp] theorem dropTxn_warmAt (id : Nat) (h : Hub) : (dropTxn id h).warmAt = h.warmAt := rfl
@[simp] theorem dropTxn_stage (id : Nat) (h : Hub) : (dropTxn id h).stage = h.stage := rfl
@[simp] theorem dropTxn_movs (id : Nat) (h : Hub) : (dropTxn id h).movs = h.movs := rfl
@[simp] theorem dropTxn_fs (id : Nat) (h : Hub) : (dropTxn id h).fs = h.fs := rfl
@[simp] theorem dropTxn_col (id : Nat) (h : Hub) : (dropTxn id h).col = h.col := rfl
@[simp] theorem dropTxn_lid (id : Nat) (h : Hub) : (dropTxn id h).lid = h.lid := rfl
@[simp] theorem dropTxn_mbox (id : Nat) (h : Hub) : (dropTxn id h).mbox = h.mbox := rfl
@[simp] theorem dropTxn_pmu (id : Nat) (h : Hub) : (dropTxn id h).pmu = h.pmu := rfl
@[simp] theorem dropTxn_bwLeft (id : Nat) (h : Hub) : (dropTxn id h).bwLeft = h.bwLeft := rfl
@[simp] theorem dropTxn_bwLat (id : Nat) (h : Hub) : (dropTxn id h).bwLat = h.bwLat := rfl
@[simp] theorem dropTxn_lat (id : Nat) (h : Hub) : (dropTxn id h).lat = h.lat := rfl
@[simp] theorem dropTxn_latDone (id : Nat) (h : Hub) : (dropTxn id h).latDone = h.latDone := rfl
@[simp] theorem dropTxn_occ (id : Nat) (h : Hub) : (dropTxn id h).occ = h.occ := rfl
@[simp] theorem dropTxn_occDone (id : Nat) (h : Hub) : (dropTxn id h).occDone = h.occDone := rfl
@[simp] theorem dropTxn_rounds (id : Nat) (h : Hub) : (dropTxn id h).rounds = h.rounds := rfl
@[simp] theorem dropTxn_slotUse (id : Nat) (h : Hub) : (dropTxn id h).slotUse = h.slotUse := rfl
@[simp] theorem dropTxn_integ (id : Nat) (h : Hub) : (dropTxn id h).integ = h.integ := rfl
@[simp] theorem dropTxn_bt (id : Nat) (h : Hub) : (dropTxn id h).bt = h.bt := rfl
@[simp] theorem dropTxn_side (id : Nat) (h : Hub) : (dropTxn id h).side = h.side := rfl
@[simp] theorem dropTxn_undef (id : Nat) (h : Hub) : (dropTxn id h).undef = h.undef := rfl

/-! ### updSnp -/

@[simp] theorem updSnp_now (s : Snp) (f : Snp → Snp) (h : Hub) : (updSnp s f h).now = h.now := rfl
@[simp] theorem updSnp_free (s : Snp) (f : Snp → Snp) (h : Hub) : (updSnp s f h).free = h.free := rfl
@[simp] theorem updSnp_regs (s : Snp) (f : Snp → Snp) (h : Hub) : (updSnp s f h).regs = h.regs := rfl
@[simp] theorem updSnp_life (s : Snp) (f : Snp → Snp) (h : Hub) : (updSnp s f h).life = h.life := rfl
@[simp] theorem updSnp_led (s : Snp) (f : Snp → Snp) (h : Hub) : (updSnp s f h).led = h.led := rfl
@[simp] theorem updSnp_rmap (s : Snp) (f : Snp → Snp) (h : Hub) : (updSnp s f h).rmap = h.rmap := rfl
@[simp] theorem updSnp_mem (s : Snp) (f : Snp → Snp) (h : Hub) : (updSnp s f h).mem = h.mem := rfl
@[simp] theorem updSnp_cache (s : Snp) (f : Snp → Snp) (h : Hub) : (updSnp s f h).cache = h.cache := rfl
@[simp] theorem updSnp_sieve (s : Snp) (f : Snp → Snp) (h : Hub) : (updSnp s f h).sieve = h.sieve := rfl
@[simp] theorem updSnp_recov (s : Snp) (f : Snp → Snp) (h : Hub) : (updSnp s f h).recov = h.recov := rfl
@[simp] theorem updSnp_txns (s : Snp) (f : Snp → Snp) (h : Hub) : (updSnp s f h).txns = h.txns := rfl
@[simp] theorem updSnp_nextId (s : Snp) (f : Snp → Snp) (h : Hub) : (updSnp s f h).nextId = h.nextId := rfl
@[simp] theorem updSnp_orphans (s : Snp) (f : Snp → Snp) (h : Hub) : (updSnp s f h).orphans = h.orphans := rfl
@[simp] theorem updSnp_waiting (s : Snp) (f : Snp → Snp) (h : Hub) : (updSnp s f h).waiting = h.waiting := rfl
@[simp] theorem updSnp_wbs (s : Snp) (f : Snp → Snp) (h : Hub) : (updSnp s f h).wbs = h.wbs := rfl
@[simp] theorem updSnp_tongs (s : Snp) (f : Snp → Snp) (h : Hub) : (updSnp s f h).tongs = h.tongs := rfl
@[simp] theorem updSnp_ladle (s : Snp) (f : Snp → Snp) (h : Hub) : (updSnp s f h).ladle = h.ladle := rfl
@[simp] theorem updSnp_pfSkip (s : Snp) (f : Snp → Snp) (h : Hub) : (updSnp s f h).pfSkip = h.pfSkip := rfl
@[simp] theorem updSnp_dets (s : Snp) (f : Snp → Snp) (h : Hub) : (updSnp s f h).dets = h.dets := rfl
@[simp] theorem updSnp_mons (s : Snp) (f : Snp → Snp) (h : Hub) : (updSnp s f h).mons = h.mons := rfl
@[simp] theorem updSnp_links (s : Snp) (f : Snp → Snp) (h : Hub) : (updSnp s f h).links = h.links := rfl
@[simp] theorem updSnp_twin (s : Snp) (f : Snp → Snp) (h : Hub) : (updSnp s f h).twin = h.twin := rfl
@[simp] theorem updSnp_parts (s : Snp) (f : Snp → Snp) (h : Hub) : (updSnp s f h).parts = h.parts := rfl
@[simp] theorem updSnp_wins (s : Snp) (f : Snp → Snp) (h : Hub) : (updSnp s f h).wins = h.wins := rfl
@[simp] theorem updSnp_mgrs (s : Snp) (f : Snp → Snp) (h : Hub) : (updSnp s f h).mgrs = h.mgrs := rfl
@[simp] theorem updSnp_heavy (s : Snp) (f : Snp → Snp) (h : Hub) : (updSnp s f h).heavy = h.heavy := rfl
@[simp] theorem updSnp_walks (s : Snp) (f : Snp → Snp) (h : Hub) : (updSnp s f h).walks = h.walks := rfl
@[simp] theorem updSnp_shadows (s : Snp) (f : Snp → Snp) (h : Hub) : (updSnp s f h).shadows = h.shadows := rfl
@[simp] theorem updSnp_images (s : Snp) (f : Snp → Snp) (h : Hub) : (updSnp s f h).images = h.images := rfl
@[simp] theorem updSnp_warm (s : Snp) (f : Snp → Snp) (h : Hub) : (updSnp s f h).warm = h.warm := rfl
@[simp] theorem updSnp_warmAt (s : Snp) (f : Snp → Snp) (h : Hub) : (updSnp s f h).warmAt = h.warmAt := rfl
@[simp] theorem updSnp_stage (s : Snp) (f : Snp → Snp) (h : Hub) : (updSnp s f h).stage = h.stage := rfl
@[simp] theorem updSnp_movs (s : Snp) (f : Snp → Snp) (h : Hub) : (updSnp s f h).movs = h.movs := rfl
@[simp] theorem updSnp_fs (s : Snp) (f : Snp → Snp) (h : Hub) : (updSnp s f h).fs = h.fs := rfl
@[simp] theorem updSnp_col (s : Snp) (f : Snp → Snp) (h : Hub) : (updSnp s f h).col = h.col := rfl
@[simp] theorem updSnp_lid (s : Snp) (f : Snp → Snp) (h : Hub) : (updSnp s f h).lid = h.lid := rfl
@[simp] theorem updSnp_mbox (s : Snp) (f : Snp → Snp) (h : Hub) : (updSnp s f h).mbox = h.mbox := rfl
@[simp] theorem updSnp_pmu (s : Snp) (f : Snp → Snp) (h : Hub) : (updSnp s f h).pmu = h.pmu := rfl
@[simp] theorem updSnp_bwLeft (s : Snp) (f : Snp → Snp) (h : Hub) : (updSnp s f h).bwLeft = h.bwLeft := rfl
@[simp] theorem updSnp_bwLat (s : Snp) (f : Snp → Snp) (h : Hub) : (updSnp s f h).bwLat = h.bwLat := rfl
@[simp] theorem updSnp_lat (s : Snp) (f : Snp → Snp) (h : Hub) : (updSnp s f h).lat = h.lat := rfl
@[simp] theorem updSnp_latDone (s : Snp) (f : Snp → Snp) (h : Hub) : (updSnp s f h).latDone = h.latDone := rfl
@[simp] theorem updSnp_occ (s : Snp) (f : Snp → Snp) (h : Hub) : (updSnp s f h).occ = h.occ := rfl
@[simp] theorem updSnp_occDone (s : Snp) (f : Snp → Snp) (h : Hub) : (updSnp s f h).occDone = h.occDone := rfl
@[simp] theorem updSnp_rounds (s : Snp) (f : Snp → Snp) (h : Hub) : (updSnp s f h).rounds = h.rounds := rfl
@[simp] theorem updSnp_slotUse (s : Snp) (f : Snp → Snp) (h : Hub) : (updSnp s f h).slotUse = h.slotUse := rfl
@[simp] theorem updSnp_integ (s : Snp) (f : Snp → Snp) (h : Hub) : (updSnp s f h).integ = h.integ := rfl
@[simp] theorem updSnp_bt (s : Snp) (f : Snp → Snp) (h : Hub) : (updSnp s f h).bt = h.bt := rfl
@[simp] theorem updSnp_side (s : Snp) (f : Snp → Snp) (h : Hub) : (updSnp s f h).side = h.side := rfl
@[simp] theorem updSnp_undef (s : Snp) (f : Snp → Snp) (h : Hub) : (updSnp s f h).undef = h.undef := rfl

/-! ### setFs -/

@[simp] theorem setFs_now (f : FrameSeq → FrameSeq) (h : Hub) : (setFs f h).now = h.now := rfl
@[simp] theorem setFs_free (f : FrameSeq → FrameSeq) (h : Hub) : (setFs f h).free = h.free := rfl
@[simp] theorem setFs_regs (f : FrameSeq → FrameSeq) (h : Hub) : (setFs f h).regs = h.regs := rfl
@[simp] theorem setFs_life (f : FrameSeq → FrameSeq) (h : Hub) : (setFs f h).life = h.life := rfl
@[simp] theorem setFs_led (f : FrameSeq → FrameSeq) (h : Hub) : (setFs f h).led = h.led := rfl
@[simp] theorem setFs_rmap (f : FrameSeq → FrameSeq) (h : Hub) : (setFs f h).rmap = h.rmap := rfl
@[simp] theorem setFs_mem (f : FrameSeq → FrameSeq) (h : Hub) : (setFs f h).mem = h.mem := rfl
@[simp] theorem setFs_cache (f : FrameSeq → FrameSeq) (h : Hub) : (setFs f h).cache = h.cache := rfl
@[simp] theorem setFs_sieve (f : FrameSeq → FrameSeq) (h : Hub) : (setFs f h).sieve = h.sieve := rfl
@[simp] theorem setFs_recov (f : FrameSeq → FrameSeq) (h : Hub) : (setFs f h).recov = h.recov := rfl
@[simp] theorem setFs_txns (f : FrameSeq → FrameSeq) (h : Hub) : (setFs f h).txns = h.txns := rfl
@[simp] theorem setFs_nextId (f : FrameSeq → FrameSeq) (h : Hub) : (setFs f h).nextId = h.nextId := rfl
@[simp] theorem setFs_snps (f : FrameSeq → FrameSeq) (h : Hub) : (setFs f h).snps = h.snps := rfl
@[simp] theorem setFs_orphans (f : FrameSeq → FrameSeq) (h : Hub) : (setFs f h).orphans = h.orphans := rfl
@[simp] theorem setFs_waiting (f : FrameSeq → FrameSeq) (h : Hub) : (setFs f h).waiting = h.waiting := rfl
@[simp] theorem setFs_wbs (f : FrameSeq → FrameSeq) (h : Hub) : (setFs f h).wbs = h.wbs := rfl
@[simp] theorem setFs_tongs (f : FrameSeq → FrameSeq) (h : Hub) : (setFs f h).tongs = h.tongs := rfl
@[simp] theorem setFs_ladle (f : FrameSeq → FrameSeq) (h : Hub) : (setFs f h).ladle = h.ladle := rfl
@[simp] theorem setFs_pfSkip (f : FrameSeq → FrameSeq) (h : Hub) : (setFs f h).pfSkip = h.pfSkip := rfl
@[simp] theorem setFs_dets (f : FrameSeq → FrameSeq) (h : Hub) : (setFs f h).dets = h.dets := rfl
@[simp] theorem setFs_mons (f : FrameSeq → FrameSeq) (h : Hub) : (setFs f h).mons = h.mons := rfl
@[simp] theorem setFs_links (f : FrameSeq → FrameSeq) (h : Hub) : (setFs f h).links = h.links := rfl
@[simp] theorem setFs_twin (f : FrameSeq → FrameSeq) (h : Hub) : (setFs f h).twin = h.twin := rfl
@[simp] theorem setFs_parts (f : FrameSeq → FrameSeq) (h : Hub) : (setFs f h).parts = h.parts := rfl
@[simp] theorem setFs_wins (f : FrameSeq → FrameSeq) (h : Hub) : (setFs f h).wins = h.wins := rfl
@[simp] theorem setFs_mgrs (f : FrameSeq → FrameSeq) (h : Hub) : (setFs f h).mgrs = h.mgrs := rfl
@[simp] theorem setFs_heavy (f : FrameSeq → FrameSeq) (h : Hub) : (setFs f h).heavy = h.heavy := rfl
@[simp] theorem setFs_walks (f : FrameSeq → FrameSeq) (h : Hub) : (setFs f h).walks = h.walks := rfl
@[simp] theorem setFs_shadows (f : FrameSeq → FrameSeq) (h : Hub) : (setFs f h).shadows = h.shadows := rfl
@[simp] theorem setFs_images (f : FrameSeq → FrameSeq) (h : Hub) : (setFs f h).images = h.images := rfl
@[simp] theorem setFs_warm (f : FrameSeq → FrameSeq) (h : Hub) : (setFs f h).warm = h.warm := rfl
@[simp] theorem setFs_warmAt (f : FrameSeq → FrameSeq) (h : Hub) : (setFs f h).warmAt = h.warmAt := rfl
@[simp] theorem setFs_stage (f : FrameSeq → FrameSeq) (h : Hub) : (setFs f h).stage = h.stage := rfl
@[simp] theorem setFs_movs (f : FrameSeq → FrameSeq) (h : Hub) : (setFs f h).movs = h.movs := rfl
@[simp] theorem setFs_col (f : FrameSeq → FrameSeq) (h : Hub) : (setFs f h).col = h.col := rfl
@[simp] theorem setFs_lid (f : FrameSeq → FrameSeq) (h : Hub) : (setFs f h).lid = h.lid := rfl
@[simp] theorem setFs_mbox (f : FrameSeq → FrameSeq) (h : Hub) : (setFs f h).mbox = h.mbox := rfl
@[simp] theorem setFs_pmu (f : FrameSeq → FrameSeq) (h : Hub) : (setFs f h).pmu = h.pmu := rfl
@[simp] theorem setFs_bwLeft (f : FrameSeq → FrameSeq) (h : Hub) : (setFs f h).bwLeft = h.bwLeft := rfl
@[simp] theorem setFs_bwLat (f : FrameSeq → FrameSeq) (h : Hub) : (setFs f h).bwLat = h.bwLat := rfl
@[simp] theorem setFs_lat (f : FrameSeq → FrameSeq) (h : Hub) : (setFs f h).lat = h.lat := rfl
@[simp] theorem setFs_latDone (f : FrameSeq → FrameSeq) (h : Hub) : (setFs f h).latDone = h.latDone := rfl
@[simp] theorem setFs_occ (f : FrameSeq → FrameSeq) (h : Hub) : (setFs f h).occ = h.occ := rfl
@[simp] theorem setFs_occDone (f : FrameSeq → FrameSeq) (h : Hub) : (setFs f h).occDone = h.occDone := rfl
@[simp] theorem setFs_rounds (f : FrameSeq → FrameSeq) (h : Hub) : (setFs f h).rounds = h.rounds := rfl
@[simp] theorem setFs_slotUse (f : FrameSeq → FrameSeq) (h : Hub) : (setFs f h).slotUse = h.slotUse := rfl
@[simp] theorem setFs_integ (f : FrameSeq → FrameSeq) (h : Hub) : (setFs f h).integ = h.integ := rfl
@[simp] theorem setFs_bt (f : FrameSeq → FrameSeq) (h : Hub) : (setFs f h).bt = h.bt := rfl
@[simp] theorem setFs_side (f : FrameSeq → FrameSeq) (h : Hub) : (setFs f h).side = h.side := rfl
@[simp] theorem setFs_undef (f : FrameSeq → FrameSeq) (h : Hub) : (setFs f h).undef = h.undef := rfl

/-! ### setLife -/

@[simp] theorem setLife_now (f : Life → Life) (h : Hub) : (setLife f h).now = h.now := rfl
@[simp] theorem setLife_free (f : Life → Life) (h : Hub) : (setLife f h).free = h.free := rfl
@[simp] theorem setLife_regs (f : Life → Life) (h : Hub) : (setLife f h).regs = h.regs := rfl
@[simp] theorem setLife_led (f : Life → Life) (h : Hub) : (setLife f h).led = h.led := rfl
@[simp] theorem setLife_rmap (f : Life → Life) (h : Hub) : (setLife f h).rmap = h.rmap := rfl
@[simp] theorem setLife_mem (f : Life → Life) (h : Hub) : (setLife f h).mem = h.mem := rfl
@[simp] theorem setLife_cache (f : Life → Life) (h : Hub) : (setLife f h).cache = h.cache := rfl
@[simp] theorem setLife_sieve (f : Life → Life) (h : Hub) : (setLife f h).sieve = h.sieve := rfl
@[simp] theorem setLife_recov (f : Life → Life) (h : Hub) : (setLife f h).recov = h.recov := rfl
@[simp] theorem setLife_txns (f : Life → Life) (h : Hub) : (setLife f h).txns = h.txns := rfl
@[simp] theorem setLife_nextId (f : Life → Life) (h : Hub) : (setLife f h).nextId = h.nextId := rfl
@[simp] theorem setLife_snps (f : Life → Life) (h : Hub) : (setLife f h).snps = h.snps := rfl
@[simp] theorem setLife_orphans (f : Life → Life) (h : Hub) : (setLife f h).orphans = h.orphans := rfl
@[simp] theorem setLife_waiting (f : Life → Life) (h : Hub) : (setLife f h).waiting = h.waiting := rfl
@[simp] theorem setLife_wbs (f : Life → Life) (h : Hub) : (setLife f h).wbs = h.wbs := rfl
@[simp] theorem setLife_tongs (f : Life → Life) (h : Hub) : (setLife f h).tongs = h.tongs := rfl
@[simp] theorem setLife_ladle (f : Life → Life) (h : Hub) : (setLife f h).ladle = h.ladle := rfl
@[simp] theorem setLife_pfSkip (f : Life → Life) (h : Hub) : (setLife f h).pfSkip = h.pfSkip := rfl
@[simp] theorem setLife_dets (f : Life → Life) (h : Hub) : (setLife f h).dets = h.dets := rfl
@[simp] theorem setLife_mons (f : Life → Life) (h : Hub) : (setLife f h).mons = h.mons := rfl
@[simp] theorem setLife_links (f : Life → Life) (h : Hub) : (setLife f h).links = h.links := rfl
@[simp] theorem setLife_twin (f : Life → Life) (h : Hub) : (setLife f h).twin = h.twin := rfl
@[simp] theorem setLife_parts (f : Life → Life) (h : Hub) : (setLife f h).parts = h.parts := rfl
@[simp] theorem setLife_wins (f : Life → Life) (h : Hub) : (setLife f h).wins = h.wins := rfl
@[simp] theorem setLife_mgrs (f : Life → Life) (h : Hub) : (setLife f h).mgrs = h.mgrs := rfl
@[simp] theorem setLife_heavy (f : Life → Life) (h : Hub) : (setLife f h).heavy = h.heavy := rfl
@[simp] theorem setLife_walks (f : Life → Life) (h : Hub) : (setLife f h).walks = h.walks := rfl
@[simp] theorem setLife_shadows (f : Life → Life) (h : Hub) : (setLife f h).shadows = h.shadows := rfl
@[simp] theorem setLife_images (f : Life → Life) (h : Hub) : (setLife f h).images = h.images := rfl
@[simp] theorem setLife_warm (f : Life → Life) (h : Hub) : (setLife f h).warm = h.warm := rfl
@[simp] theorem setLife_warmAt (f : Life → Life) (h : Hub) : (setLife f h).warmAt = h.warmAt := rfl
@[simp] theorem setLife_stage (f : Life → Life) (h : Hub) : (setLife f h).stage = h.stage := rfl
@[simp] theorem setLife_movs (f : Life → Life) (h : Hub) : (setLife f h).movs = h.movs := rfl
@[simp] theorem setLife_fs (f : Life → Life) (h : Hub) : (setLife f h).fs = h.fs := rfl
@[simp] theorem setLife_col (f : Life → Life) (h : Hub) : (setLife f h).col = h.col := rfl
@[simp] theorem setLife_lid (f : Life → Life) (h : Hub) : (setLife f h).lid = h.lid := rfl
@[simp] theorem setLife_mbox (f : Life → Life) (h : Hub) : (setLife f h).mbox = h.mbox := rfl
@[simp] theorem setLife_pmu (f : Life → Life) (h : Hub) : (setLife f h).pmu = h.pmu := rfl
@[simp] theorem setLife_bwLeft (f : Life → Life) (h : Hub) : (setLife f h).bwLeft = h.bwLeft := rfl
@[simp] theorem setLife_bwLat (f : Life → Life) (h : Hub) : (setLife f h).bwLat = h.bwLat := rfl
@[simp] theorem setLife_lat (f : Life → Life) (h : Hub) : (setLife f h).lat = h.lat := rfl
@[simp] theorem setLife_latDone (f : Life → Life) (h : Hub) : (setLife f h).latDone = h.latDone := rfl
@[simp] theorem setLife_occ (f : Life → Life) (h : Hub) : (setLife f h).occ = h.occ := rfl
@[simp] theorem setLife_occDone (f : Life → Life) (h : Hub) : (setLife f h).occDone = h.occDone := rfl
@[simp] theorem setLife_rounds (f : Life → Life) (h : Hub) : (setLife f h).rounds = h.rounds := rfl
@[simp] theorem setLife_slotUse (f : Life → Life) (h : Hub) : (setLife f h).slotUse = h.slotUse := rfl
@[simp] theorem setLife_integ (f : Life → Life) (h : Hub) : (setLife f h).integ = h.integ := rfl
@[simp] theorem setLife_bt (f : Life → Life) (h : Hub) : (setLife f h).bt = h.bt := rfl
@[simp] theorem setLife_side (f : Life → Life) (h : Hub) : (setLife f h).side = h.side := rfl
@[simp] theorem setLife_undef (f : Life → Life) (h : Hub) : (setLife f h).undef = h.undef := rfl

/-! ### setSide -/

@[simp] theorem setSide_now (f : Side → Side) (h : Hub) : (setSide f h).now = h.now := rfl
@[simp] theorem setSide_free (f : Side → Side) (h : Hub) : (setSide f h).free = h.free := rfl
@[simp] theorem setSide_regs (f : Side → Side) (h : Hub) : (setSide f h).regs = h.regs := rfl
@[simp] theorem setSide_life (f : Side → Side) (h : Hub) : (setSide f h).life = h.life := rfl
@[simp] theorem setSide_led (f : Side → Side) (h : Hub) : (setSide f h).led = h.led := rfl
@[simp] theorem setSide_rmap (f : Side → Side) (h : Hub) : (setSide f h).rmap = h.rmap := rfl
@[simp] theorem setSide_mem (f : Side → Side) (h : Hub) : (setSide f h).mem = h.mem := rfl
@[simp] theorem setSide_cache (f : Side → Side) (h : Hub) : (setSide f h).cache = h.cache := rfl
@[simp] theorem setSide_sieve (f : Side → Side) (h : Hub) : (setSide f h).sieve = h.sieve := rfl
@[simp] theorem setSide_recov (f : Side → Side) (h : Hub) : (setSide f h).recov = h.recov := rfl
@[simp] theorem setSide_txns (f : Side → Side) (h : Hub) : (setSide f h).txns = h.txns := rfl
@[simp] theorem setSide_nextId (f : Side → Side) (h : Hub) : (setSide f h).nextId = h.nextId := rfl
@[simp] theorem setSide_snps (f : Side → Side) (h : Hub) : (setSide f h).snps = h.snps := rfl
@[simp] theorem setSide_orphans (f : Side → Side) (h : Hub) : (setSide f h).orphans = h.orphans := rfl
@[simp] theorem setSide_waiting (f : Side → Side) (h : Hub) : (setSide f h).waiting = h.waiting := rfl
@[simp] theorem setSide_wbs (f : Side → Side) (h : Hub) : (setSide f h).wbs = h.wbs := rfl
@[simp] theorem setSide_tongs (f : Side → Side) (h : Hub) : (setSide f h).tongs = h.tongs := rfl
@[simp] theorem setSide_ladle (f : Side → Side) (h : Hub) : (setSide f h).ladle = h.ladle := rfl
@[simp] theorem setSide_pfSkip (f : Side → Side) (h : Hub) : (setSide f h).pfSkip = h.pfSkip := rfl
@[simp] theorem setSide_dets (f : Side → Side) (h : Hub) : (setSide f h).dets = h.dets := rfl
@[simp] theorem setSide_mons (f : Side → Side) (h : Hub) : (setSide f h).mons = h.mons := rfl
@[simp] theorem setSide_links (f : Side → Side) (h : Hub) : (setSide f h).links = h.links := rfl
@[simp] theorem setSide_twin (f : Side → Side) (h : Hub) : (setSide f h).twin = h.twin := rfl
@[simp] theorem setSide_parts (f : Side → Side) (h : Hub) : (setSide f h).parts = h.parts := rfl
@[simp] theorem setSide_wins (f : Side → Side) (h : Hub) : (setSide f h).wins = h.wins := rfl
@[simp] theorem setSide_mgrs (f : Side → Side) (h : Hub) : (setSide f h).mgrs = h.mgrs := rfl
@[simp] theorem setSide_heavy (f : Side → Side) (h : Hub) : (setSide f h).heavy = h.heavy := rfl
@[simp] theorem setSide_walks (f : Side → Side) (h : Hub) : (setSide f h).walks = h.walks := rfl
@[simp] theorem setSide_shadows (f : Side → Side) (h : Hub) : (setSide f h).shadows = h.shadows := rfl
@[simp] theorem setSide_images (f : Side → Side) (h : Hub) : (setSide f h).images = h.images := rfl
@[simp] theorem setSide_warm (f : Side → Side) (h : Hub) : (setSide f h).warm = h.warm := rfl
@[simp] theorem setSide_warmAt (f : Side → Side) (h : Hub) : (setSide f h).warmAt = h.warmAt := rfl
@[simp] theorem setSide_stage (f : Side → Side) (h : Hub) : (setSide f h).stage = h.stage := rfl
@[simp] theorem setSide_movs (f : Side → Side) (h : Hub) : (setSide f h).movs = h.movs := rfl
@[simp] theorem setSide_fs (f : Side → Side) (h : Hub) : (setSide f h).fs = h.fs := rfl
@[simp] theorem setSide_col (f : Side → Side) (h : Hub) : (setSide f h).col = h.col := rfl
@[simp] theorem setSide_lid (f : Side → Side) (h : Hub) : (setSide f h).lid = h.lid := rfl
@[simp] theorem setSide_mbox (f : Side → Side) (h : Hub) : (setSide f h).mbox = h.mbox := rfl
@[simp] theorem setSide_pmu (f : Side → Side) (h : Hub) : (setSide f h).pmu = h.pmu := rfl
@[simp] theorem setSide_bwLeft (f : Side → Side) (h : Hub) : (setSide f h).bwLeft = h.bwLeft := rfl
@[simp] theorem setSide_bwLat (f : Side → Side) (h : Hub) : (setSide f h).bwLat = h.bwLat := rfl
@[simp] theorem setSide_lat (f : Side → Side) (h : Hub) : (setSide f h).lat = h.lat := rfl
@[simp] theorem setSide_latDone (f : Side → Side) (h : Hub) : (setSide f h).latDone = h.latDone := rfl
@[simp] theorem setSide_occ (f : Side → Side) (h : Hub) : (setSide f h).occ = h.occ := rfl
@[simp] theorem setSide_occDone (f : Side → Side) (h : Hub) : (setSide f h).occDone = h.occDone := rfl
@[simp] theorem setSide_rounds (f : Side → Side) (h : Hub) : (setSide f h).rounds = h.rounds := rfl
@[simp] theorem setSide_slotUse (f : Side → Side) (h : Hub) : (setSide f h).slotUse = h.slotUse := rfl
@[simp] theorem setSide_integ (f : Side → Side) (h : Hub) : (setSide f h).integ = h.integ := rfl
@[simp] theorem setSide_bt (f : Side → Side) (h : Hub) : (setSide f h).bt = h.bt := rfl
@[simp] theorem setSide_undef (f : Side → Side) (h : Hub) : (setSide f h).undef = h.undef := rfl

/-! ### oweCredit -/

@[simp] theorem oweCredit_now (l uid pool slots : Nat) (h : Hub) : (oweCredit l uid pool slots h).now = h.now := rfl
@[simp] theorem oweCredit_free (l uid pool slots : Nat) (h : Hub) : (oweCredit l uid pool slots h).free = h.free := rfl
@[simp] theorem oweCredit_regs (l uid pool slots : Nat) (h : Hub) : (oweCredit l uid pool slots h).regs = h.regs := rfl
@[simp] theorem oweCredit_life (l uid pool slots : Nat) (h : Hub) : (oweCredit l uid pool slots h).life = h.life := rfl
@[simp] theorem oweCredit_led (l uid pool slots : Nat) (h : Hub) : (oweCredit l uid pool slots h).led = h.led := rfl
@[simp] theorem oweCredit_rmap (l uid pool slots : Nat) (h : Hub) : (oweCredit l uid pool slots h).rmap = h.rmap := rfl
@[simp] theorem oweCredit_mem (l uid pool slots : Nat) (h : Hub) : (oweCredit l uid pool slots h).mem = h.mem := rfl
@[simp] theorem oweCredit_cache (l uid pool slots : Nat) (h : Hub) : (oweCredit l uid pool slots h).cache = h.cache := rfl
@[simp] theorem oweCredit_sieve (l uid pool slots : Nat) (h : Hub) : (oweCredit l uid pool slots h).sieve = h.sieve := rfl
@[simp] theorem oweCredit_recov (l uid pool slots : Nat) (h : Hub) : (oweCredit l uid pool slots h).recov = h.recov := rfl
@[simp] theorem oweCredit_txns (l uid pool slots : Nat) (h : Hub) : (oweCredit l uid pool slots h).txns = h.txns := rfl
@[simp] theorem oweCredit_nextId (l uid pool slots : Nat) (h : Hub) : (oweCredit l uid pool slots h).nextId = h.nextId := rfl
@[simp] theorem oweCredit_snps (l uid pool slots : Nat) (h : Hub) : (oweCredit l uid pool slots h).snps = h.snps := rfl
@[simp] theorem oweCredit_orphans (l uid pool slots : Nat) (h : Hub) : (oweCredit l uid pool slots h).orphans = h.orphans := rfl
@[simp] theorem oweCredit_waiting (l uid pool slots : Nat) (h : Hub) : (oweCredit l uid pool slots h).waiting = h.waiting := rfl
@[simp] theorem oweCredit_wbs (l uid pool slots : Nat) (h : Hub) : (oweCredit l uid pool slots h).wbs = h.wbs := rfl
@[simp] theorem oweCredit_tongs (l uid pool slots : Nat) (h : Hub) : (oweCredit l uid pool slots h).tongs = h.tongs := rfl
@[simp] theorem oweCredit_ladle (l uid pool slots : Nat) (h : Hub) : (oweCredit l uid pool slots h).ladle = h.ladle := rfl
@[simp] theorem oweCredit_pfSkip (l uid pool slots : Nat) (h : Hub) : (oweCredit l uid pool slots h).pfSkip = h.pfSkip := rfl
@[simp] theorem oweCredit_dets (l uid pool slots : Nat) (h : Hub) : (oweCredit l uid pool slots h).dets = h.dets := rfl
@[simp] theorem oweCredit_mons (l uid pool slots : Nat) (h : Hub) : (oweCredit l uid pool slots h).mons = h.mons := rfl
@[simp] theorem oweCredit_twin (l uid pool slots : Nat) (h : Hub) : (oweCredit l uid pool slots h).twin = h.twin := rfl
@[simp] theorem oweCredit_parts (l uid pool slots : Nat) (h : Hub) : (oweCredit l uid pool slots h).parts = h.parts := rfl
@[simp] theorem oweCredit_wins (l uid pool slots : Nat) (h : Hub) : (oweCredit l uid pool slots h).wins = h.wins := rfl
@[simp] theorem oweCredit_mgrs (l uid pool slots : Nat) (h : Hub) : (oweCredit l uid pool slots h).mgrs = h.mgrs := rfl
@[simp] theorem oweCredit_heavy (l uid pool slots : Nat) (h : Hub) : (oweCredit l uid pool slots h).heavy = h.heavy := rfl
@[simp] theorem oweCredit_walks (l uid pool slots : Nat) (h : Hub) : (oweCredit l uid pool slots h).walks = h.walks := rfl
@[simp] theorem oweCredit_shadows (l uid pool slots : Nat) (h : Hub) : (oweCredit l uid pool slots h).shadows = h.shadows := rfl
@[simp] theorem oweCredit_images (l uid pool slots : Nat) (h : Hub) : (oweCredit l uid pool slots h).images = h.images := rfl
@[simp] theorem oweCredit_warm (l uid pool slots : Nat) (h : Hub) : (oweCredit l uid pool slots h).warm = h.warm := rfl
@[simp] theorem oweCredit_warmAt (l uid pool slots : Nat) (h : Hub) : (oweCredit l uid pool slots h).warmAt = h.warmAt := rfl
@[simp] theorem oweCredit_stage (l uid pool slots : Nat) (h : Hub) : (oweCredit l uid pool slots h).stage = h.stage := rfl
@[simp] theorem oweCredit_movs (l uid pool slots : Nat) (h : Hub) : (oweCredit l uid pool slots h).movs = h.movs := rfl
@[simp] theorem oweCredit_fs (l uid pool slots : Nat) (h : Hub) : (oweCredit l uid pool slots h).fs = h.fs := rfl
@[simp] theorem oweCredit_col (l uid pool slots : Nat) (h : Hub) : (oweCredit l uid pool slots h).col = h.col := rfl
@[simp] theorem oweCredit_lid (l uid pool slots : Nat) (h : Hub) : (oweCredit l uid pool slots h).lid = h.lid := rfl
@[simp] theorem oweCredit_mbox (l uid pool slots : Nat) (h : Hub) : (oweCredit l uid pool slots h).mbox = h.mbox := rfl
@[simp] theorem oweCredit_pmu (l uid pool slots : Nat) (h : Hub) : (oweCredit l uid pool slots h).pmu = h.pmu := rfl
@[simp] theorem oweCredit_bwLeft (l uid pool slots : Nat) (h : Hub) : (oweCredit l uid pool slots h).bwLeft = h.bwLeft := rfl
@[simp] theorem oweCredit_bwLat (l uid pool slots : Nat) (h : Hub) : (oweCredit l uid pool slots h).bwLat = h.bwLat := rfl
@[simp] theorem oweCredit_lat (l uid pool slots : Nat) (h : Hub) : (oweCredit l uid pool slots h).lat = h.lat := rfl
@[simp] theorem oweCredit_latDone (l uid pool slots : Nat) (h : Hub) : (oweCredit l uid pool slots h).latDone = h.latDone := rfl
@[simp] theorem oweCredit_occ (l uid pool slots : Nat) (h : Hub) : (oweCredit l uid pool slots h).occ = h.occ := rfl
@[simp] theorem oweCredit_occDone (l uid pool slots : Nat) (h : Hub) : (oweCredit l uid pool slots h).occDone = h.occDone := rfl
@[simp] theorem oweCredit_rounds (l uid pool slots : Nat) (h : Hub) : (oweCredit l uid pool slots h).rounds = h.rounds := rfl
@[simp] theorem oweCredit_slotUse (l uid pool slots : Nat) (h : Hub) : (oweCredit l uid pool slots h).slotUse = h.slotUse := rfl
@[simp] theorem oweCredit_integ (l uid pool slots : Nat) (h : Hub) : (oweCredit l uid pool slots h).integ = h.integ := rfl
@[simp] theorem oweCredit_bt (l uid pool slots : Nat) (h : Hub) : (oweCredit l uid pool slots h).bt = h.bt := rfl
@[simp] theorem oweCredit_side (l uid pool slots : Nat) (h : Hub) : (oweCredit l uid pool slots h).side = h.side := rfl
@[simp] theorem oweCredit_undef (l uid pool slots : Nat) (h : Hub) : (oweCredit l uid pool slots h).undef = h.undef := rfl

/-! ### What they write -/

@[simp] theorem setLink_links (h : Hub) (l : Nat) (f : Link → Link) : (setLink h l f).links = bupd h.links l {} f := rfl
@[simp] theorem setPart_parts (h : Hub) (p : Nat) (f : Part → Part) : (setPart h p f).parts = bupd h.parts p {} f := rfl
@[simp] theorem setWin_wins (h : Hub) (n : Nat) (f : Win → Win) : (setWin h n f).wins = bupd h.wins n {} f := rfl
@[simp] theorem setMgr_mgrs (h : Hub) (m : Nat) (f : Mgr → Mgr) : (setMgr h m f).mgrs = bupd h.mgrs m {} f := rfl
@[simp] theorem setMbox_mbox (die k : Nat) (b : Mbox) (h : Hub) : (setMbox die k b h).mbox = bset h.mbox (4 * die + k) b := rfl
@[simp] theorem setLid_lid (die : Nat) (f : Lid → Lid) (h : Hub) : (setLid die f h).lid = bupd h.lid die {} f := rfl
@[simp] theorem updTxn_txns (id : Nat) (f : Txn → Txn) (h : Hub) : (updTxn id f h).txns = h.txns.map (fun t => if t.id == id then f t else t) := rfl
@[simp] theorem dropTxn_txns (id : Nat) (h : Hub) : (dropTxn id h).txns = h.txns.filter (fun t => t.id != id) := rfl
@[simp] theorem setFs_fs (f : FrameSeq → FrameSeq) (h : Hub) : (setFs f h).fs = f h.fs := rfl
@[simp] theorem setLife_life (f : Life → Life) (h : Hub) : (setLife f h).life = f h.life := rfl
@[simp] theorem setSide_side (f : Side → Side) (h : Hub) : (setSide f h).side = f h.side := rfl

end Sys2Proof.Machine
end

