-- ==== Sys2Proof/Laws/Report.lean ====
section
/-! SUPPORT. What the operations that report and count leave: register words, messages, interrupts, records, PMU events, counter pages. Each lemma
says that one field of the hub is not touched. -/

namespace Sys2Proof.Machine

/-! ### regPut -/

@[simp] theorem regPut_now (h : Hub) (die off v : Nat) : (regPut h die off v).now = h.now := by unfold regPut; split <;> rfl
@[simp] theorem regPut_free (h : Hub) (die off v : Nat) : (regPut h die off v).free = h.free := by unfold regPut; split <;> rfl
@[simp] theorem regPut_life (h : Hub) (die off v : Nat) : (regPut h die off v).life = h.life := by unfold regPut; split <;> rfl
@[simp] theorem regPut_led (h : Hub) (die off v : Nat) : (regPut h die off v).led = h.led := by unfold regPut; split <;> rfl
@[simp] theorem regPut_rmap (h : Hub) (die off v : Nat) : (regPut h die off v).rmap = h.rmap := by unfold regPut; split <;> rfl
@[simp] theorem regPut_mem (h : Hub) (die off v : Nat) : (regPut h die off v).mem = h.mem := by unfold regPut; split <;> rfl
@[simp] theorem regPut_cache (h : Hub) (die off v : Nat) : (regPut h die off v).cache = h.cache := by unfold regPut; split <;> rfl
@[simp] theorem regPut_sieve (h : Hub) (die off v : Nat) : (regPut h die off v).sieve = h.sieve := by unfold regPut; split <;> rfl
@[simp] theorem regPut_recov (h : Hub) (die off v : Nat) : (regPut h die off v).recov = h.recov := by unfold regPut; split <;> rfl
@[simp] theorem regPut_txns (h : Hub) (die off v : Nat) : (regPut h die off v).txns = h.txns := by unfold regPut; split <;> rfl
@[simp] theorem regPut_nextId (h : Hub) (die off v : Nat) : (regPut h die off v).nextId = h.nextId := by unfold regPut; split <;> rfl
@[simp] theorem regPut_snps (h : Hub) (die off v : Nat) : (regPut h die off v).snps = h.snps := by unfold regPut; split <;> rfl
@[simp] theorem regPut_orphans (h : Hub) (die off v : Nat) : (regPut h die off v).orphans = h.orphans := by unfold regPut; split <;> rfl
@[simp] theorem regPut_waiting (h : Hub) (die off v : Nat) : (regPut h die off v).waiting = h.waiting := by unfold regPut; split <;> rfl
@[simp] theorem regPut_wbs (h : Hub) (die off v : Nat) : (regPut h die off v).wbs = h.wbs := by unfold regPut; split <;> rfl
@[simp] theorem regPut_tongs (h : Hub) (die off v : Nat) : (regPut h die off v).tongs = h.tongs := by unfold regPut; split <;> rfl
@[simp] theorem regPut_ladle (h : Hub) (die off v : Nat) : (regPut h die off v).ladle = h.ladle := by unfold regPut; split <;> rfl
@[simp] theorem regPut_pfSkip (h : Hub) (die off v : Nat) : (regPut h die off v).pfSkip = h.pfSkip := by unfold regPut; split <;> rfl
@[simp] theorem regPut_dets (h : Hub) (die off v : Nat) : (regPut h die off v).dets = h.dets := by unfold regPut; split <;> rfl
@[simp] theorem regPut_mons (h : Hub) (die off v : Nat) : (regPut h die off v).mons = h.mons := by unfold regPut; split <;> rfl
@[simp] theorem regPut_links (h : Hub) (die off v : Nat) : (regPut h die off v).links = h.links := by unfold regPut; split <;> rfl
@[simp] theorem regPut_twin (h : Hub) (die off v : Nat) : (regPut h die off v).twin = h.twin := by unfold regPut; split <;> rfl
@[simp] theorem regPut_parts (h : Hub) (die off v : Nat) : (regPut h die off v).parts = h.parts := by unfold regPut; split <;> rfl
@[simp] theorem regPut_wins (h : Hub) (die off v : Nat) : (regPut h die off v).wins = h.wins := by unfold regPut; split <;> rfl
@[simp] theorem regPut_mgrs (h : Hub) (die off v : Nat) : (regPut h die off v).mgrs = h.mgrs := by unfold regPut; split <;> rfl
@[simp] theorem regPut_heavy (h : Hub) (die off v : Nat) : (regPut h die off v).heavy = h.heavy := by unfold regPut; split <;> rfl
@[simp] theorem regPut_walks (h : Hub) (die off v : Nat) : (regPut h die off v).walks = h.walks := by unfold regPut; split <;> rfl
@[simp] theorem regPut_shadows (h : Hub) (die off v : Nat) : (regPut h die off v).shadows = h.shadows := by unfold regPut; split <;> rfl
@[simp] theorem regPut_images (h : Hub) (die off v : Nat) : (regPut h die off v).images = h.images := by unfold regPut; split <;> rfl
@[simp] theorem regPut_warm (h : Hub) (die off v : Nat) : (regPut h die off v).warm = h.warm := by unfold regPut; split <;> rfl
@[simp] theorem regPut_warmAt (h : Hub) (die off v : Nat) : (regPut h die off v).warmAt = h.warmAt := by unfold regPut; split <;> rfl
@[simp] theorem regPut_stage (h : Hub) (die off v : Nat) : (regPut h die off v).stage = h.stage := by unfold regPut; split <;> rfl
@[simp] theorem regPut_movs (h : Hub) (die off v : Nat) : (regPut h die off v).movs = h.movs := by unfold regPut; split <;> rfl
@[simp] theorem regPut_fs (h : Hub) (die off v : Nat) : (regPut h die off v).fs = h.fs := by unfold regPut; split <;> rfl
@[simp] theorem regPut_col (h : Hub) (die off v : Nat) : (regPut h die off v).col = h.col := by unfold regPut; split <;> rfl
@[simp] theorem regPut_lid (h : Hub) (die off v : Nat) : (regPut h die off v).lid = h.lid := by unfold regPut; split <;> rfl
@[simp] theorem regPut_mbox (h : Hub) (die off v : Nat) : (regPut h die off v).mbox = h.mbox := by unfold regPut; split <;> rfl
@[simp] theorem regPut_pmu (h : Hub) (die off v : Nat) : (regPut h die off v).pmu = h.pmu := by unfold regPut; split <;> rfl
@[simp] theorem regPut_bwLeft (h : Hub) (die off v : Nat) : (regPut h die off v).bwLeft = h.bwLeft := by unfold regPut; split <;> rfl
@[simp] theorem regPut_bwLat (h : Hub) (die off v : Nat) : (regPut h die off v).bwLat = h.bwLat := by unfold regPut; split <;> rfl
@[simp] theorem regPut_lat (h : Hub) (die off v : Nat) : (regPut h die off v).lat = h.lat := by unfold regPut; split <;> rfl
@[simp] theorem regPut_latDone (h : Hub) (die off v : Nat) : (regPut h die off v).latDone = h.latDone := by unfold regPut; split <;> rfl
@[simp] theorem regPut_occ (h : Hub) (die off v : Nat) : (regPut h die off v).occ = h.occ := by unfold regPut; split <;> rfl
@[simp] theorem regPut_occDone (h : Hub) (die off v : Nat) : (regPut h die off v).occDone = h.occDone := by unfold regPut; split <;> rfl
@[simp] theorem regPut_rounds (h : Hub) (die off v : Nat) : (regPut h die off v).rounds = h.rounds := by unfold regPut; split <;> rfl
@[simp] theorem regPut_slotUse (h : Hub) (die off v : Nat) : (regPut h die off v).slotUse = h.slotUse := by unfold regPut; split <;> rfl
@[simp] theorem regPut_integ (h : Hub) (die off v : Nat) : (regPut h die off v).integ = h.integ := by unfold regPut; split <;> rfl
@[simp] theorem regPut_bt (h : Hub) (die off v : Nat) : (regPut h die off v).bt = h.bt := by unfold regPut; split <;> rfl
@[simp] theorem regPut_side (h : Hub) (die off v : Nat) : (regPut h die off v).side = h.side := by unfold regPut; split <;> rfl
@[simp] theorem regPut_undef (h : Hub) (die off v : Nat) : (regPut h die off v).undef = h.undef := by unfold regPut; split <;> rfl

/-! ### regSetField -/

@[simp] theorem regSetField_now (h : Hub) (die off hi lo x : Nat) : (regSetField h die off hi lo x).now = h.now := by unfold regSetField; simp
@[simp] theorem regSetField_free (h : Hub) (die off hi lo x : Nat) : (regSetField h die off hi lo x).free = h.free := by unfold regSetField; simp
@[simp] theorem regSetField_life (h : Hub) (die off hi lo x : Nat) : (regSetField h die off hi lo x).life = h.life := by unfold regSetField; simp
@[simp] theorem regSetField_led (h : Hub) (die off hi lo x : Nat) : (regSetField h die off hi lo x).led = h.led := by unfold regSetField; simp
@[simp] theorem regSetField_rmap (h : Hub) (die off hi lo x : Nat) : (regSetField h die off hi lo x).rmap = h.rmap := by unfold regSetField; simp
@[simp] theorem regSetField_mem (h : Hub) (die off hi lo x : Nat) : (regSetField h die off hi lo x).mem = h.mem := by unfold regSetField; simp
@[simp] theorem regSetField_cache (h : Hub) (die off hi lo x : Nat) : (regSetField h die off hi lo x).cache = h.cache := by unfold regSetField; simp
@[simp] theorem regSetField_sieve (h : Hub) (die off hi lo x : Nat) : (regSetField h die off hi lo x).sieve = h.sieve := by unfold regSetField; simp
@[simp] theorem regSetField_recov (h : Hub) (die off hi lo x : Nat) : (regSetField h die off hi lo x).recov = h.recov := by unfold regSetField; simp
@[simp] theorem regSetField_txns (h : Hub) (die off hi lo x : Nat) : (regSetField h die off hi lo x).txns = h.txns := by unfold regSetField; simp
@[simp] theorem regSetField_nextId (h : Hub) (die off hi lo x : Nat) : (regSetField h die off hi lo x).nextId = h.nextId := by unfold regSetField; simp
@[simp] theorem regSetField_snps (h : Hub) (die off hi lo x : Nat) : (regSetField h die off hi lo x).snps = h.snps := by unfold regSetField; simp
@[simp] theorem regSetField_orphans (h : Hub) (die off hi lo x : Nat) : (regSetField h die off hi lo x).orphans = h.orphans := by unfold regSetField; simp
@[simp] theorem regSetField_waiting (h : Hub) (die off hi lo x : Nat) : (regSetField h die off hi lo x).waiting = h.waiting := by unfold regSetField; simp
@[simp] theorem regSetField_wbs (h : Hub) (die off hi lo x : Nat) : (regSetField h die off hi lo x).wbs = h.wbs := by unfold regSetField; simp
@[simp] theorem regSetField_tongs (h : Hub) (die off hi lo x : Nat) : (regSetField h die off hi lo x).tongs = h.tongs := by unfold regSetField; simp
@[simp] theorem regSetField_ladle (h : Hub) (die off hi lo x : Nat) : (regSetField h die off hi lo x).ladle = h.ladle := by unfold regSetField; simp
@[simp] theorem regSetField_pfSkip (h : Hub) (die off hi lo x : Nat) : (regSetField h die off hi lo x).pfSkip = h.pfSkip := by unfold regSetField; simp
@[simp] theorem regSetField_dets (h : Hub) (die off hi lo x : Nat) : (regSetField h die off hi lo x).dets = h.dets := by unfold regSetField; simp
@[simp] theorem regSetField_mons (h : Hub) (die off hi lo x : Nat) : (regSetField h die off hi lo x).mons = h.mons := by unfold regSetField; simp
@[simp] theorem regSetField_links (h : Hub) (die off hi lo x : Nat) : (regSetField h die off hi lo x).links = h.links := by unfold regSetField; simp
@[simp] theorem regSetField_twin (h : Hub) (die off hi lo x : Nat) : (regSetField h die off hi lo x).twin = h.twin := by unfold regSetField; simp
@[simp] theorem regSetField_parts (h : Hub) (die off hi lo x : Nat) : (regSetField h die off hi lo x).parts = h.parts := by unfold regSetField; simp
@[simp] theorem regSetField_wins (h : Hub) (die off hi lo x : Nat) : (regSetField h die off hi lo x).wins = h.wins := by unfold regSetField; simp
@[simp] theorem regSetField_mgrs (h : Hub) (die off hi lo x : Nat) : (regSetField h die off hi lo x).mgrs = h.mgrs := by unfold regSetField; simp
@[simp] theorem regSetField_heavy (h : Hub) (die off hi lo x : Nat) : (regSetField h die off hi lo x).heavy = h.heavy := by unfold regSetField; simp
@[simp] theorem regSetField_walks (h : Hub) (die off hi lo x : Nat) : (regSetField h die off hi lo x).walks = h.walks := by unfold regSetField; simp
@[simp] theorem regSetField_shadows (h : Hub) (die off hi lo x : Nat) : (regSetField h die off hi lo x).shadows = h.shadows := by unfold regSetField; simp
@[simp] theorem regSetField_images (h : Hub) (die off hi lo x : Nat) : (regSetField h die off hi lo x).images = h.images := by unfold regSetField; simp
@[simp] theorem regSetField_warm (h : Hub) (die off hi lo x : Nat) : (regSetField h die off hi lo x).warm = h.warm := by unfold regSetField; simp
@[simp] theorem regSetField_warmAt (h : Hub) (die off hi lo x : Nat) : (regSetField h die off hi lo x).warmAt = h.warmAt := by unfold regSetField; simp
@[simp] theorem regSetField_stage (h : Hub) (die off hi lo x : Nat) : (regSetField h die off hi lo x).stage = h.stage := by unfold regSetField; simp
@[simp] theorem regSetField_movs (h : Hub) (die off hi lo x : Nat) : (regSetField h die off hi lo x).movs = h.movs := by unfold regSetField; simp
@[simp] theorem regSetField_fs (h : Hub) (die off hi lo x : Nat) : (regSetField h die off hi lo x).fs = h.fs := by unfold regSetField; simp
@[simp] theorem regSetField_col (h : Hub) (die off hi lo x : Nat) : (regSetField h die off hi lo x).col = h.col := by unfold regSetField; simp
@[simp] theorem regSetField_lid (h : Hub) (die off hi lo x : Nat) : (regSetField h die off hi lo x).lid = h.lid := by unfold regSetField; simp
@[simp] theorem regSetField_mbox (h : Hub) (die off hi lo x : Nat) : (regSetField h die off hi lo x).mbox = h.mbox := by unfold regSetField; simp
@[simp] theorem regSetField_pmu (h : Hub) (die off hi lo x : Nat) : (regSetField h die off hi lo x).pmu = h.pmu := by unfold regSetField; simp
@[simp] theorem regSetField_bwLeft (h : Hub) (die off hi lo x : Nat) : (regSetField h die off hi lo x).bwLeft = h.bwLeft := by unfold regSetField; simp
@[simp] theorem regSetField_bwLat (h : Hub) (die off hi lo x : Nat) : (regSetField h die off hi lo x).bwLat = h.bwLat := by unfold regSetField; simp
@[simp] theorem regSetField_lat (h : Hub) (die off hi lo x : Nat) : (regSetField h die off hi lo x).lat = h.lat := by unfold regSetField; simp
@[simp] theorem regSetField_latDone (h : Hub) (die off hi lo x : Nat) : (regSetField h die off hi lo x).latDone = h.latDone := by unfold regSetField; simp
@[simp] theorem regSetField_occ (h : Hub) (die off hi lo x : Nat) : (regSetField h die off hi lo x).occ = h.occ := by unfold regSetField; simp
@[simp] theorem regSetField_occDone (h : Hub) (die off hi lo x : Nat) : (regSetField h die off hi lo x).occDone = h.occDone := by unfold regSetField; simp
@[simp] theorem regSetField_rounds (h : Hub) (die off hi lo x : Nat) : (regSetField h die off hi lo x).rounds = h.rounds := by unfold regSetField; simp
@[simp] theorem regSetField_slotUse (h : Hub) (die off hi lo x : Nat) : (regSetField h die off hi lo x).slotUse = h.slotUse := by unfold regSetField; simp
@[simp] theorem regSetField_integ (h : Hub) (die off hi lo x : Nat) : (regSetField h die off hi lo x).integ = h.integ := by unfold regSetField; simp
@[simp] theorem regSetField_bt (h : Hub) (die off hi lo x : Nat) : (regSetField h die off hi lo x).bt = h.bt := by unfold regSetField; simp
@[simp] theorem regSetField_side (h : Hub) (die off hi lo x : Nat) : (regSetField h die off hi lo x).side = h.side := by unfold regSetField; simp
@[simp] theorem regSetField_undef (h : Hub) (die off hi lo x : Nat) : (regSetField h die off hi lo x).undef = h.undef := by unfold regSetField; simp

/-! ### sendMsg -/

@[simp] theorem sendMsg_now (l : Nat) (m : Msg) (h : Hub) : (sendMsg l m h).now = h.now := by unfold sendMsg; split <;> rfl
@[simp] theorem sendMsg_free (l : Nat) (m : Msg) (h : Hub) : (sendMsg l m h).free = h.free := by unfold sendMsg; split <;> rfl
@[simp] theorem sendMsg_regs (l : Nat) (m : Msg) (h : Hub) : (sendMsg l m h).regs = h.regs := by unfold sendMsg; split <;> rfl
@[simp] theorem sendMsg_life (l : Nat) (m : Msg) (h : Hub) : (sendMsg l m h).life = h.life := by unfold sendMsg; split <;> rfl
@[simp] theorem sendMsg_led (l : Nat) (m : Msg) (h : Hub) : (sendMsg l m h).led = h.led := by unfold sendMsg; split <;> rfl
@[simp] theorem sendMsg_rmap (l : Nat) (m : Msg) (h : Hub) : (sendMsg l m h).rmap = h.rmap := by unfold sendMsg; split <;> rfl
@[simp] theorem sendMsg_mem (l : Nat) (m : Msg) (h : Hub) : (sendMsg l m h).mem = h.mem := by unfold sendMsg; split <;> rfl
@[simp] theorem sendMsg_cache (l : Nat) (m : Msg) (h : Hub) : (sendMsg l m h).cache = h.cache := by unfold sendMsg; split <;> rfl
@[simp] theorem sendMsg_sieve (l : Nat) (m : Msg) (h : Hub) : (sendMsg l m h).sieve = h.sieve := by unfold sendMsg; split <;> rfl
@[simp] theorem sendMsg_recov (l : Nat) (m : Msg) (h : Hub) : (sendMsg l m h).recov = h.recov := by unfold sendMsg; split <;> rfl
@[simp] theorem sendMsg_txns (l : Nat) (m : Msg) (h : Hub) : (sendMsg l m h).txns = h.txns := by unfold sendMsg; split <;> rfl
@[simp] theorem sendMsg_nextId (l : Nat) (m : Msg) (h : Hub) : (sendMsg l m h).nextId = h.nextId := by unfold sendMsg; split <;> rfl
@[simp] theorem sendMsg_snps (l : Nat) (m : Msg) (h : Hub) : (sendMsg l m h).snps = h.snps := by unfold sendMsg; split <;> rfl
@[simp] theorem sendMsg_orphans (l : Nat) (m : Msg) (h : Hub) : (sendMsg l m h).orphans = h.orphans := by unfold sendMsg; split <;> rfl
@[simp] theorem sendMsg_waiting (l : Nat) (m : Msg) (h : Hub) : (sendMsg l m h).waiting = h.waiting := by unfold sendMsg; split <;> rfl
@[simp] theorem sendMsg_wbs (l : Nat) (m : Msg) (h : Hub) : (sendMsg l m h).wbs = h.wbs := by unfold sendMsg; split <;> rfl
@[simp] theorem sendMsg_tongs (l : Nat) (m : Msg) (h : Hub) : (sendMsg l m h).tongs = h.tongs := by unfold sendMsg; split <;> rfl
@[simp] theorem sendMsg_ladle (l : Nat) (m : Msg) (h : Hub) : (sendMsg l m h).ladle = h.ladle := by unfold sendMsg; split <;> rfl
@[simp] theorem sendMsg_pfSkip (l : Nat) (m : Msg) (h : Hub) : (sendMsg l m h).pfSkip = h.pfSkip := by unfold sendMsg; split <;> rfl
@[simp] theorem sendMsg_dets (l : Nat) (m : Msg) (h : Hub) : (sendMsg l m h).dets = h.dets := by unfold sendMsg; split <;> rfl
@[simp] theorem sendMsg_mons (l : Nat) (m : Msg) (h : Hub) : (sendMsg l m h).mons = h.mons := by unfold sendMsg; split <;> rfl
@[simp] theorem sendMsg_twin (l : Nat) (m : Msg) (h : Hub) : (sendMsg l m h).twin = h.twin := by unfold sendMsg; split <;> rfl
@[simp] theorem sendMsg_parts (l : Nat) (m : Msg) (h : Hub) : (sendMsg l m h).parts = h.parts := by unfold sendMsg; split <;> rfl
@[simp] theorem sendMsg_wins (l : Nat) (m : Msg) (h : Hub) : (sendMsg l m h).wins = h.wins := by unfold sendMsg; split <;> rfl
@[simp] theorem sendMsg_mgrs (l : Nat) (m : Msg) (h : Hub) : (sendMsg l m h).mgrs = h.mgrs := by unfold sendMsg; split <;> rfl
@[simp] theorem sendMsg_heavy (l : Nat) (m : Msg) (h : Hub) : (sendMsg l m h).heavy = h.heavy := by unfold sendMsg; split <;> rfl
@[simp] theorem sendMsg_walks (l : Nat) (m : Msg) (h : Hub) : (sendMsg l m h).walks = h.walks := by unfold sendMsg; split <;> rfl
@[simp] theorem sendMsg_shadows (l : Nat) (m : Msg) (h : Hub) : (sendMsg l m h).shadows = h.shadows := by unfold sendMsg; split <;> rfl
@[simp] theorem sendMsg_images (l : Nat) (m : Msg) (h : Hub) : (sendMsg l m h).images = h.images := by unfold sendMsg; split <;> rfl
@[simp] theorem sendMsg_warm (l : Nat) (m : Msg) (h : Hub) : (sendMsg l m h).warm = h.warm := by unfold sendMsg; split <;> rfl
@[simp] theorem sendMsg_warmAt (l : Nat) (m : Msg) (h : Hub) : (sendMsg l m h).warmAt = h.warmAt := by unfold sendMsg; split <;> rfl
@[simp] theorem sendMsg_stage (l : Nat) (m : Msg) (h : Hub) : (sendMsg l m h).stage = h.stage := by unfold sendMsg; split <;> rfl
@[simp] theorem sendMsg_movs (l : Nat) (m : Msg) (h : Hub) : (sendMsg l m h).movs = h.movs := by unfold sendMsg; split <;> rfl
@[simp] theorem sendMsg_fs (l : Nat) (m : Msg) (h : Hub) : (sendMsg l m h).fs = h.fs := by unfold sendMsg; split <;> rfl
@[simp] theorem sendMsg_col (l : Nat) (m : Msg) (h : Hub) : (sendMsg l m h).col = h.col := by unfold sendMsg; split <;> rfl
@[simp] theorem sendMsg_lid (l : Nat) (m : Msg) (h : Hub) : (sendMsg l m h).lid = h.lid := by unfold sendMsg; split <;> rfl
@[simp] theorem sendMsg_mbox (l : Nat) (m : Msg) (h : Hub) : (sendMsg l m h).mbox = h.mbox := by unfold sendMsg; split <;> rfl
@[simp] theorem sendMsg_pmu (l : Nat) (m : Msg) (h : Hub) : (sendMsg l m h).pmu = h.pmu := by unfold sendMsg; split <;> rfl
@[simp] theorem sendMsg_bwLeft (l : Nat) (m : Msg) (h : Hub) : (sendMsg l m h).bwLeft = h.bwLeft := by unfold sendMsg; split <;> rfl
@[simp] theorem sendMsg_bwLat (l : Nat) (m : Msg) (h : Hub) : (sendMsg l m h).bwLat = h.bwLat := by unfold sendMsg; split <;> rfl
@[simp] theorem sendMsg_lat (l : Nat) (m : Msg) (h : Hub) : (sendMsg l m h).lat = h.lat := by unfold sendMsg; split <;> rfl
@[simp] theorem sendMsg_latDone (l : Nat) (m : Msg) (h : Hub) : (sendMsg l m h).latDone = h.latDone := by unfold sendMsg; split <;> rfl
@[simp] theorem sendMsg_occ (l : Nat) (m : Msg) (h : Hub) : (sendMsg l m h).occ = h.occ := by unfold sendMsg; split <;> rfl
@[simp] theorem sendMsg_occDone (l : Nat) (m : Msg) (h : Hub) : (sendMsg l m h).occDone = h.occDone := by unfold sendMsg; split <;> rfl
@[simp] theorem sendMsg_rounds (l : Nat) (m : Msg) (h : Hub) : (sendMsg l m h).rounds = h.rounds := by unfold sendMsg; split <;> rfl
@[simp] theorem sendMsg_slotUse (l : Nat) (m : Msg) (h : Hub) : (sendMsg l m h).slotUse = h.slotUse := by unfold sendMsg; split <;> rfl
@[simp] theorem sendMsg_integ (l : Nat) (m : Msg) (h : Hub) : (sendMsg l m h).integ = h.integ := by unfold sendMsg; split <;> rfl
@[simp] theorem sendMsg_bt (l : Nat) (m : Msg) (h : Hub) : (sendMsg l m h).bt = h.bt := by unfold sendMsg; split <;> rfl
@[simp] theorem sendMsg_side (l : Nat) (m : Msg) (h : Hub) : (sendMsg l m h).side = h.side := by unfold sendMsg; split <;> rfl
@[simp] theorem sendMsg_undef (l : Nat) (m : Msg) (h : Hub) : (sendMsg l m h).undef = h.undef := by unfold sendMsg; split <;> rfl

/-! ### sendIntr -/

@[simp] theorem sendIntr_now (m : Nat) (h : Hub) : (sendIntr m h).now = h.now := by unfold sendIntr; dsimp only; split <;> simp
@[simp] theorem sendIntr_free (m : Nat) (h : Hub) : (sendIntr m h).free = h.free := by unfold sendIntr; dsimp only; split <;> simp
@[simp] theorem sendIntr_regs (m : Nat) (h : Hub) : (sendIntr m h).regs = h.regs := by unfold sendIntr; dsimp only; split <;> simp
@[simp] theorem sendIntr_life (m : Nat) (h : Hub) : (sendIntr m h).life = h.life := by unfold sendIntr; dsimp only; split <;> simp
@[simp] theorem sendIntr_led (m : Nat) (h : Hub) : (sendIntr m h).led = h.led := by unfold sendIntr; dsimp only; split <;> simp
@[simp] theorem sendIntr_rmap (m : Nat) (h : Hub) : (sendIntr m h).rmap = h.rmap := by unfold sendIntr; dsimp only; split <;> simp
@[simp] theorem sendIntr_mem (m : Nat) (h : Hub) : (sendIntr m h).mem = h.mem := by unfold sendIntr; dsimp only; split <;> simp
@[simp] theorem sendIntr_cache (m : Nat) (h : Hub) : (sendIntr m h).cache = h.cache := by unfold sendIntr; dsimp only; split <;> simp
@[simp] theorem sendIntr_sieve (m : Nat) (h : Hub) : (sendIntr m h).sieve = h.sieve := by unfold sendIntr; dsimp only; split <;> simp
@[simp] theorem sendIntr_recov (m : Nat) (h : Hub) : (sendIntr m h).recov = h.recov := by unfold sendIntr; dsimp only; split <;> simp
@[simp] theorem sendIntr_txns (m : Nat) (h : Hub) : (sendIntr m h).txns = h.txns := by unfold sendIntr; dsimp only; split <;> simp
@[simp] theorem sendIntr_nextId (m : Nat) (h : Hub) : (sendIntr m h).nextId = h.nextId := by unfold sendIntr; dsimp only; split <;> simp
@[simp] theorem sendIntr_snps (m : Nat) (h : Hub) : (sendIntr m h).snps = h.snps := by unfold sendIntr; dsimp only; split <;> simp
@[simp] theorem sendIntr_orphans (m : Nat) (h : Hub) : (sendIntr m h).orphans = h.orphans := by unfold sendIntr; dsimp only; split <;> simp
@[simp] theorem sendIntr_waiting (m : Nat) (h : Hub) : (sendIntr m h).waiting = h.waiting := by unfold sendIntr; dsimp only; split <;> simp
@[simp] theorem sendIntr_wbs (m : Nat) (h : Hub) : (sendIntr m h).wbs = h.wbs := by unfold sendIntr; dsimp only; split <;> simp
@[simp] theorem sendIntr_tongs (m : Nat) (h : Hub) : (sendIntr m h).tongs = h.tongs := by unfold sendIntr; dsimp only; split <;> simp
@[simp] theorem sendIntr_ladle (m : Nat) (h : Hub) : (sendIntr m h).ladle = h.ladle := by unfold sendIntr; dsimp only; split <;> simp
@[simp] theorem sendIntr_pfSkip (m : Nat) (h : Hub) : (sendIntr m h).pfSkip = h.pfSkip := by unfold sendIntr; dsimp only; split <;> simp
@[simp] theorem sendIntr_dets (m : Nat) (h : Hub) : (sendIntr m h).dets = h.dets := by unfold sendIntr; dsimp only; split <;> simp
@[simp] theorem sendIntr_mons (m : Nat) (h : Hub) : (sendIntr m h).mons = h.mons := by unfold sendIntr; dsimp only; split <;> simp
@[simp] theorem sendIntr_twin (m : Nat) (h : Hub) : (sendIntr m h).twin = h.twin := by unfold sendIntr; dsimp only; split <;> simp
@[simp] theorem sendIntr_parts (m : Nat) (h : Hub) : (sendIntr m h).parts = h.parts := by unfold sendIntr; dsimp only; split <;> simp
@[simp] theorem sendIntr_wins (m : Nat) (h : Hub) : (sendIntr m h).wins = h.wins := by unfold sendIntr; dsimp only; split <;> simp
@[simp] theorem sendIntr_mgrs (m : Nat) (h : Hub) : (sendIntr m h).mgrs = h.mgrs := by unfold sendIntr; dsimp only; split <;> simp
@[simp] theorem sendIntr_heavy (m : Nat) (h : Hub) : (sendIntr m h).heavy = h.heavy := by unfold sendIntr; dsimp only; split <;> simp
@[simp] theorem sendIntr_walks (m : Nat) (h : Hub) : (sendIntr m h).walks = h.walks := by unfold sendIntr; dsimp only; split <;> simp
@[simp] theorem sendIntr_shadows (m : Nat) (h : Hub) : (sendIntr m h).shadows = h.shadows := by unfold sendIntr; dsimp only; split <;> simp
@[simp] theorem sendIntr_images (m : Nat) (h : Hub) : (sendIntr m h).images = h.images := by unfold sendIntr; dsimp only; split <;> simp
@[simp] theorem sendIntr_warm (m : Nat) (h : Hub) : (sendIntr m h).warm = h.warm := by unfold sendIntr; dsimp only; split <;> simp
@[simp] theorem sendIntr_warmAt (m : Nat) (h : Hub) : (sendIntr m h).warmAt = h.warmAt := by unfold sendIntr; dsimp only; split <;> simp
@[simp] theorem sendIntr_stage (m : Nat) (h : Hub) : (sendIntr m h).stage = h.stage := by unfold sendIntr; dsimp only; split <;> simp
@[simp] theorem sendIntr_movs (m : Nat) (h : Hub) : (sendIntr m h).movs = h.movs := by unfold sendIntr; dsimp only; split <;> simp
@[simp] theorem sendIntr_fs (m : Nat) (h : Hub) : (sendIntr m h).fs = h.fs := by unfold sendIntr; dsimp only; split <;> simp
@[simp] theorem sendIntr_col (m : Nat) (h : Hub) : (sendIntr m h).col = h.col := by unfold sendIntr; dsimp only; split <;> simp
@[simp] theorem sendIntr_lid (m : Nat) (h : Hub) : (sendIntr m h).lid = h.lid := by unfold sendIntr; dsimp only; split <;> simp
@[simp] theorem sendIntr_mbox (m : Nat) (h : Hub) : (sendIntr m h).mbox = h.mbox := by unfold sendIntr; dsimp only; split <;> simp
@[simp] theorem sendIntr_pmu (m : Nat) (h : Hub) : (sendIntr m h).pmu = h.pmu := by unfold sendIntr; dsimp only; split <;> simp
@[simp] theorem sendIntr_bwLeft (m : Nat) (h : Hub) : (sendIntr m h).bwLeft = h.bwLeft := by unfold sendIntr; dsimp only; split <;> simp
@[simp] theorem sendIntr_bwLat (m : Nat) (h : Hub) : (sendIntr m h).bwLat = h.bwLat := by unfold sendIntr; dsimp only; split <;> simp
@[simp] theorem sendIntr_lat (m : Nat) (h : Hub) : (sendIntr m h).lat = h.lat := by unfold sendIntr; dsimp only; split <;> simp
@[simp] theorem sendIntr_latDone (m : Nat) (h : Hub) : (sendIntr m h).latDone = h.latDone := by unfold sendIntr; dsimp only; split <;> simp
@[simp] theorem sendIntr_occ (m : Nat) (h : Hub) : (sendIntr m h).occ = h.occ := by unfold sendIntr; dsimp only; split <;> simp
@[simp] theorem sendIntr_occDone (m : Nat) (h : Hub) : (sendIntr m h).occDone = h.occDone := by unfold sendIntr; dsimp only; split <;> simp
@[simp] theorem sendIntr_rounds (m : Nat) (h : Hub) : (sendIntr m h).rounds = h.rounds := by unfold sendIntr; dsimp only; split <;> simp
@[simp] theorem sendIntr_slotUse (m : Nat) (h : Hub) : (sendIntr m h).slotUse = h.slotUse := by unfold sendIntr; dsimp only; split <;> simp
@[simp] theorem sendIntr_integ (m : Nat) (h : Hub) : (sendIntr m h).integ = h.integ := by unfold sendIntr; dsimp only; split <;> simp
@[simp] theorem sendIntr_bt (m : Nat) (h : Hub) : (sendIntr m h).bt = h.bt := by unfold sendIntr; dsimp only; split <;> simp
@[simp] theorem sendIntr_side (m : Nat) (h : Hub) : (sendIntr m h).side = h.side := by unfold sendIntr; dsimp only; split <;> simp
@[simp] theorem sendIntr_undef (m : Nat) (h : Hub) : (sendIntr m h).undef = h.undef := by unfold sendIntr; dsimp only; split <;> simp

/-! ### setIntPins -/

@[simp] theorem setIntPins_now (h : Hub) : (setIntPins h).now = h.now := rfl
@[simp] theorem setIntPins_free (h : Hub) : (setIntPins h).free = h.free := rfl
@[simp] theorem setIntPins_regs (h : Hub) : (setIntPins h).regs = h.regs := rfl
@[simp] theorem setIntPins_led (h : Hub) : (setIntPins h).led = h.led := rfl
@[simp] theorem setIntPins_rmap (h : Hub) : (setIntPins h).rmap = h.rmap := rfl
@[simp] theorem setIntPins_mem (h : Hub) : (setIntPins h).mem = h.mem := rfl
@[simp] theorem setIntPins_cache (h : Hub) : (setIntPins h).cache = h.cache := rfl
@[simp] theorem setIntPins_sieve (h : Hub) : (setIntPins h).sieve = h.sieve := rfl
@[simp] theorem setIntPins_recov (h : Hub) : (setIntPins h).recov = h.recov := rfl
@[simp] theorem setIntPins_txns (h : Hub) : (setIntPins h).txns = h.txns := rfl
@[simp] theorem setIntPins_nextId (h : Hub) : (setIntPins h).nextId = h.nextId := rfl
@[simp] theorem setIntPins_snps (h : Hub) : (setIntPins h).snps = h.snps := rfl
@[simp] theorem setIntPins_orphans (h : Hub) : (setIntPins h).orphans = h.orphans := rfl
@[simp] theorem setIntPins_waiting (h : Hub) : (setIntPins h).waiting = h.waiting := rfl
@[simp] theorem setIntPins_wbs (h : Hub) : (setIntPins h).wbs = h.wbs := rfl
@[simp] theorem setIntPins_tongs (h : Hub) : (setIntPins h).tongs = h.tongs := rfl
@[simp] theorem setIntPins_ladle (h : Hub) : (setIntPins h).ladle = h.ladle := rfl
@[simp] theorem setIntPins_pfSkip (h : Hub) : (setIntPins h).pfSkip = h.pfSkip := rfl
@[simp] theorem setIntPins_dets (h : Hub) : (setIntPins h).dets = h.dets := rfl
@[simp] theorem setIntPins_mons (h : Hub) : (setIntPins h).mons = h.mons := rfl
@[simp] theorem setIntPins_links (h : Hub) : (setIntPins h).links = h.links := rfl
@[simp] theorem setIntPins_twin (h : Hub) : (setIntPins h).twin = h.twin := rfl
@[simp] theorem setIntPins_parts (h : Hub) : (setIntPins h).parts = h.parts := rfl
@[simp] theorem setIntPins_wins (h : Hub) : (setIntPins h).wins = h.wins := rfl
@[simp] theorem setIntPins_mgrs (h : Hub) : (setIntPins h).mgrs = h.mgrs := rfl
@[simp] theorem setIntPins_heavy (h : Hub) : (setIntPins h).heavy = h.heavy := rfl
@[simp] theorem setIntPins_walks (h : Hub) : (setIntPins h).walks = h.walks := rfl
@[simp] theorem setIntPins_shadows (h : Hub) : (setIntPins h).shadows = h.shadows := rfl
@[simp] theorem setIntPins_images (h : Hub) : (setIntPins h).images = h.images := rfl
@[simp] theorem setIntPins_warm (h : Hub) : (setIntPins h).warm = h.warm := rfl
@[simp] theorem setIntPins_warmAt (h : Hub) : (setIntPins h).warmAt = h.warmAt := rfl
@[simp] theorem setIntPins_stage (h : Hub) : (setIntPins h).stage = h.stage := rfl
@[simp] theorem setIntPins_movs (h : Hub) : (setIntPins h).movs = h.movs := rfl
@[simp] theorem setIntPins_fs (h : Hub) : (setIntPins h).fs = h.fs := rfl
@[simp] theorem setIntPins_col (h : Hub) : (setIntPins h).col = h.col := rfl
@[simp] theorem setIntPins_lid (h : Hub) : (setIntPins h).lid = h.lid := rfl
@[simp] theorem setIntPins_mbox (h : Hub) : (setIntPins h).mbox = h.mbox := rfl
@[simp] theorem setIntPins_pmu (h : Hub) : (setIntPins h).pmu = h.pmu := rfl
@[simp] theorem setIntPins_bwLeft (h : Hub) : (setIntPins h).bwLeft = h.bwLeft := rfl
@[simp] theorem setIntPins_bwLat (h : Hub) : (setIntPins h).bwLat = h.bwLat := rfl
@[simp] theorem setIntPins_lat (h : Hub) : (setIntPins h).lat = h.lat := rfl
@[simp] theorem setIntPins_latDone (h : Hub) : (setIntPins h).latDone = h.latDone := rfl
@[simp] theorem setIntPins_occ (h : Hub) : (setIntPins h).occ = h.occ := rfl
@[simp] theorem setIntPins_occDone (h : Hub) : (setIntPins h).occDone = h.occDone := rfl
@[simp] theorem setIntPins_rounds (h : Hub) : (setIntPins h).rounds = h.rounds := rfl
@[simp] theorem setIntPins_slotUse (h : Hub) : (setIntPins h).slotUse = h.slotUse := rfl
@[simp] theorem setIntPins_integ (h : Hub) : (setIntPins h).integ = h.integ := rfl
@[simp] theorem setIntPins_bt (h : Hub) : (setIntPins h).bt = h.bt := rfl
@[simp] theorem setIntPins_side (h : Hub) : (setIntPins h).side = h.side := rfl
@[simp] theorem setIntPins_undef (h : Hub) : (setIntPins h).undef = h.undef := rfl

/-! ### raiseCause -/

@[simp] theorem raiseCause_now (b : Nat) (h : Hub) : (raiseCause b h).now = h.now := by
  unfold raiseCause; dsimp only; split
  · rfl
  · split <;> simp [forEach_keeps (fun h => h.now)]
@[simp] theorem raiseCause_free (b : Nat) (h : Hub) : (raiseCause b h).free = h.free := by
  unfold raiseCause; dsimp only; split
  · rfl
  · split <;> simp [forEach_keeps (fun h => h.free)]
@[simp] theorem raiseCause_led (b : Nat) (h : Hub) : (raiseCause b h).led = h.led := by
  unfold raiseCause; dsimp only; split
  · rfl
  · split <;> simp [forEach_keeps (fun h => h.led)]
@[simp] theorem raiseCause_rmap (b : Nat) (h : Hub) : (raiseCause b h).rmap = h.rmap := by
  unfold raiseCause; dsimp only; split
  · rfl
  · split <;> simp [forEach_keeps (fun h => h.rmap)]
@[simp] theorem raiseCause_mem (b : Nat) (h : Hub) : (raiseCause b h).mem = h.mem := by
  unfold raiseCause; dsimp only; split
  · rfl
  · split <;> simp [forEach_keeps (fun h => h.mem)]
@[simp] theorem raiseCause_cache (b : Nat) (h : Hub) : (raiseCause b h).cache = h.cache := by
  unfold raiseCause; dsimp only; split
  · rfl
  · split <;> simp [forEach_keeps (fun h => h.cache)]
@[simp] theorem raiseCause_sieve (b : Nat) (h : Hub) : (raiseCause b h).sieve = h.sieve := by
  unfold raiseCause; dsimp only; split
  · rfl
  · split <;> simp [forEach_keeps (fun h => h.sieve)]
@[simp] theorem raiseCause_recov (b : Nat) (h : Hub) : (raiseCause b h).recov = h.recov := by
  unfold raiseCause; dsimp only; split
  · rfl
  · split <;> simp [forEach_keeps (fun h => h.recov)]
@[simp] theorem raiseCause_txns (b : Nat) (h : Hub) : (raiseCause b h).txns = h.txns := by
  unfold raiseCause; dsimp only; split
  · rfl
  · split <;> simp [forEach_keeps (fun h => h.txns)]
@[simp] theorem raiseCause_nextId (b : Nat) (h : Hub) : (raiseCause b h).nextId = h.nextId := by
  unfold raiseCause; dsimp only; split
  · rfl
  · split <;> simp [forEach_keeps (fun h => h.nextId)]
@[simp] theorem raiseCause_snps (b : Nat) (h : Hub) : (raiseCause b h).snps = h.snps := by
  unfold raiseCause; dsimp only; split
  · rfl
  · split <;> simp [forEach_keeps (fun h => h.snps)]
@[simp] theorem raiseCause_orphans (b : Nat) (h : Hub) : (raiseCause b h).orphans = h.orphans := by
  unfold raiseCause; dsimp only; split
  · rfl
  · split <;> simp [forEach_keeps (fun h => h.orphans)]
@[simp] theorem raiseCause_waiting (b : Nat) (h : Hub) : (raiseCause b h).waiting = h.waiting := by
  unfold raiseCause; dsimp only; split
  · rfl
  · split <;> simp [forEach_keeps (fun h => h.waiting)]
@[simp] theorem raiseCause_wbs (b : Nat) (h : Hub) : (raiseCause b h).wbs = h.wbs := by
  unfold raiseCause; dsimp only; split
  · rfl
  · split <;> simp [forEach_keeps (fun h => h.wbs)]
@[simp] theorem raiseCause_tongs (b : Nat) (h : Hub) : (raiseCause b h).tongs = h.tongs := by
  unfold raiseCause; dsimp only; split
  · rfl
  · split <;> simp [forEach_keeps (fun h => h.tongs)]
@[simp] theorem raiseCause_ladle (b : Nat) (h : Hub) : (raiseCause b h).ladle = h.ladle := by
  unfold raiseCause; dsimp only; split
  · rfl
  · split <;> simp [forEach_keeps (fun h => h.ladle)]
@[simp] theorem raiseCause_pfSkip (b : Nat) (h : Hub) : (raiseCause b h).pfSkip = h.pfSkip := by
  unfold raiseCause; dsimp only; split
  · rfl
  · split <;> simp [forEach_keeps (fun h => h.pfSkip)]
@[simp] theorem raiseCause_dets (b : Nat) (h : Hub) : (raiseCause b h).dets = h.dets := by
  unfold raiseCause; dsimp only; split
  · rfl
  · split <;> simp [forEach_keeps (fun h => h.dets)]
@[simp] theorem raiseCause_mons (b : Nat) (h : Hub) : (raiseCause b h).mons = h.mons := by
  unfold raiseCause; dsimp only; split
  · rfl
  · split <;> simp [forEach_keeps (fun h => h.mons)]
@[simp] theorem raiseCause_twin (b : Nat) (h : Hub) : (raiseCause b h).twin = h.twin := by
  unfold raiseCause; dsimp only; split
  · rfl
  · split <;> simp [forEach_keeps (fun h => h.twin)]
@[simp] theorem raiseCause_parts (b : Nat) (h : Hub) : (raiseCause b h).parts = h.parts := by
  unfold raiseCause; dsimp only; split
  · rfl
  · split <;> simp [forEach_keeps (fun h => h.parts)]
@[simp] theorem raiseCause_wins (b : Nat) (h : Hub) : (raiseCause b h).wins = h.wins := by
  unfold raiseCause; dsimp only; split
  · rfl
  · split <;> simp [forEach_keeps (fun h => h.wins)]
@[simp] theorem raiseCause_mgrs (b : Nat) (h : Hub) : (raiseCause b h).mgrs = h.mgrs := by
  unfold raiseCause; dsimp only; split
  · rfl
  · split <;> simp [forEach_keeps (fun h => h.mgrs)]
@[simp] theorem raiseCause_heavy (b : Nat) (h : Hub) : (raiseCause b h).heavy = h.heavy := by
  unfold raiseCause; dsimp only; split
  · rfl
  · split <;> simp [forEach_keeps (fun h => h.heavy)]
@[simp] theorem raiseCause_walks (b : Nat) (h : Hub) : (raiseCause b h).walks = h.walks := by
  unfold raiseCause; dsimp only; split
  · rfl
  · split <;> simp [forEach_keeps (fun h => h.walks)]
@[simp] theorem raiseCause_shadows (b : Nat) (h : Hub) : (raiseCause b h).shadows = h.shadows := by
  unfold raiseCause; dsimp only; split
  · rfl
  · split <;> simp [forEach_keeps (fun h => h.shadows)]
@[simp] theorem raiseCause_images (b : Nat) (h : Hub) : (raiseCause b h).images = h.images := by
  unfold raiseCause; dsimp only; split
  · rfl
  · split <;> simp [forEach_keeps (fun h => h.images)]
@[simp] theorem raiseCause_warm (b : Nat) (h : Hub) : (raiseCause b h).warm = h.warm := by
  unfold raiseCause; dsimp only; split
  · rfl
  · split <;> simp [forEach_keeps (fun h => h.warm)]
@[simp] theorem raiseCause_warmAt (b : Nat) (h : Hub) : (raiseCause b h).warmAt = h.warmAt := by
  unfold raiseCause; dsimp only; split
  · rfl
  · split <;> simp [forEach_keeps (fun h => h.warmAt)]
@[simp] theorem raiseCause_stage (b : Nat) (h : Hub) : (raiseCause b h).stage = h.stage := by
  unfold raiseCause; dsimp only; split
  · rfl
  · split <;> simp [forEach_keeps (fun h => h.stage)]
@[simp] theorem raiseCause_movs (b : Nat) (h : Hub) : (raiseCause b h).movs = h.movs := by
  unfold raiseCause; dsimp only; split
  · rfl
  · split <;> simp [forEach_keeps (fun h => h.movs)]
@[simp] theorem raiseCause_fs (b : Nat) (h : Hub) : (raiseCause b h).fs = h.fs := by
  unfold raiseCause; dsimp only; split
  · rfl
  · split <;> simp [forEach_keeps (fun h => h.fs)]
@[simp] theorem raiseCause_col (b : Nat) (h : Hub) : (raiseCause b h).col = h.col := by
  unfold raiseCause; dsimp only; split
  · rfl
  · split <;> simp [forEach_keeps (fun h => h.col)]
@[simp] theorem raiseCause_lid (b : Nat) (h : Hub) : (raiseCause b h).lid = h.lid := by
  unfold raiseCause; dsimp only; split
  · rfl
  · split <;> simp [forEach_keeps (fun h => h.lid)]
@[simp] theorem raiseCause_mbox (b : Nat) (h : Hub) : (raiseCause b h).mbox = h.mbox := by
  unfold raiseCause; dsimp only; split
  · rfl
  · split <;> simp [forEach_keeps (fun h => h.mbox)]
@[simp] theorem raiseCause_pmu (b : Nat) (h : Hub) : (raiseCause b h).pmu = h.pmu := by
  unfold raiseCause; dsimp only; split
  · rfl
  · split <;> simp [forEach_keeps (fun h => h.pmu)]
@[simp] theorem raiseCause_bwLeft (b : Nat) (h : Hub) : (raiseCause b h).bwLeft = h.bwLeft := by
  unfold raiseCause; dsimp only; split
  · rfl
  · split <;> simp [forEach_keeps (fun h => h.bwLeft)]
@[simp] theorem raiseCause_bwLat (b : Nat) (h : Hub) : (raiseCause b h).bwLat = h.bwLat := by
  unfold raiseCause; dsimp only; split
  · rfl
  · split <;> simp [forEach_keeps (fun h => h.bwLat)]
@[simp] theorem raiseCause_lat (b : Nat) (h : Hub) : (raiseCause b h).lat = h.lat := by
  unfold raiseCause; dsimp only; split
  · rfl
  · split <;> simp [forEach_keeps (fun h => h.lat)]
@[simp] theorem raiseCause_latDone (b : Nat) (h : Hub) : (raiseCause b h).latDone = h.latDone := by
  unfold raiseCause; dsimp only; split
  · rfl
  · split <;> simp [forEach_keeps (fun h => h.latDone)]
@[simp] theorem raiseCause_occ (b : Nat) (h : Hub) : (raiseCause b h).occ = h.occ := by
  unfold raiseCause; dsimp only; split
  · rfl
  · split <;> simp [forEach_keeps (fun h => h.occ)]
@[simp] theorem raiseCause_occDone (b : Nat) (h : Hub) : (raiseCause b h).occDone = h.occDone := by
  unfold raiseCause; dsimp only; split
  · rfl
  · split <;> simp [forEach_keeps (fun h => h.occDone)]
@[simp] theorem raiseCause_rounds (b : Nat) (h : Hub) : (raiseCause b h).rounds = h.rounds := by
  unfold raiseCause; dsimp only; split
  · rfl
  · split <;> simp [forEach_keeps (fun h => h.rounds)]
@[simp] theorem raiseCause_slotUse (b : Nat) (h : Hub) : (raiseCause b h).slotUse = h.slotUse := by
  unfold raiseCause; dsimp only; split
  · rfl
  · split <;> simp [forEach_keeps (fun h => h.slotUse)]
@[simp] theorem raiseCause_integ (b : Nat) (h : Hub) : (raiseCause b h).integ = h.integ := by
  unfold raiseCause; dsimp only; split
  · rfl
  · split <;> simp [forEach_keeps (fun h => h.integ)]
@[simp] theorem raiseCause_bt (b : Nat) (h : Hub) : (raiseCause b h).bt = h.bt := by
  unfold raiseCause; dsimp only; split
  · rfl
  · split <;> simp [forEach_keeps (fun h => h.bt)]
@[simp] theorem raiseCause_side (b : Nat) (h : Hub) : (raiseCause b h).side = h.side := by
  unfold raiseCause; dsimp only; split
  · rfl
  · split <;> simp [forEach_keeps (fun h => h.side)]
@[simp] theorem raiseCause_undef (b : Nat) (h : Hub) : (raiseCause b h).undef = h.undef := by
  unfold raiseCause; dsimp only; split
  · rfl
  · split <;> simp [forEach_keeps (fun h => h.undef)]

/-! ### raiseEvt -/

@[simp] theorem raiseEvt_now (die : Nat) (h : Hub) : (raiseEvt die h).now = h.now := by simp [raiseEvt]
@[simp] theorem raiseEvt_free (die : Nat) (h : Hub) : (raiseEvt die h).free = h.free := by simp [raiseEvt]
@[simp] theorem raiseEvt_led (die : Nat) (h : Hub) : (raiseEvt die h).led = h.led := by simp [raiseEvt]
@[simp] theorem raiseEvt_rmap (die : Nat) (h : Hub) : (raiseEvt die h).rmap = h.rmap := by simp [raiseEvt]
@[simp] theorem raiseEvt_mem (die : Nat) (h : Hub) : (raiseEvt die h).mem = h.mem := by simp [raiseEvt]
@[simp] theorem raiseEvt_cache (die : Nat) (h : Hub) : (raiseEvt die h).cache = h.cache := by simp [raiseEvt]
@[simp] theorem raiseEvt_sieve (die : Nat) (h : Hub) : (raiseEvt die h).sieve = h.sieve := by simp [raiseEvt]
@[simp] theorem raiseEvt_recov (die : Nat) (h : Hub) : (raiseEvt die h).recov = h.recov := by simp [raiseEvt]
@[simp] theorem raiseEvt_txns (die : Nat) (h : Hub) : (raiseEvt die h).txns = h.txns := by simp [raiseEvt]
@[simp] theorem raiseEvt_nextId (die : Nat) (h : Hub) : (raiseEvt die h).nextId = h.nextId := by simp [raiseEvt]
@[simp] theorem raiseEvt_snps (die : Nat) (h : Hub) : (raiseEvt die h).snps = h.snps := by simp [raiseEvt]
@[simp] theorem raiseEvt_orphans (die : Nat) (h : Hub) : (raiseEvt die h).orphans = h.orphans := by simp [raiseEvt]
@[simp] theorem raiseEvt_waiting (die : Nat) (h : Hub) : (raiseEvt die h).waiting = h.waiting := by simp [raiseEvt]
@[simp] theorem raiseEvt_wbs (die : Nat) (h : Hub) : (raiseEvt die h).wbs = h.wbs := by simp [raiseEvt]
@[simp] theorem raiseEvt_tongs (die : Nat) (h : Hub) : (raiseEvt die h).tongs = h.tongs := by simp [raiseEvt]
@[simp] theorem raiseEvt_ladle (die : Nat) (h : Hub) : (raiseEvt die h).ladle = h.ladle := by simp [raiseEvt]
@[simp] theorem raiseEvt_pfSkip (die : Nat) (h : Hub) : (raiseEvt die h).pfSkip = h.pfSkip := by simp [raiseEvt]
@[simp] theorem raiseEvt_dets (die : Nat) (h : Hub) : (raiseEvt die h).dets = h.dets := by simp [raiseEvt]
@[simp] theorem raiseEvt_mons (die : Nat) (h : Hub) : (raiseEvt die h).mons = h.mons := by simp [raiseEvt]
@[simp] theorem raiseEvt_twin (die : Nat) (h : Hub) : (raiseEvt die h).twin = h.twin := by simp [raiseEvt]
@[simp] theorem raiseEvt_parts (die : Nat) (h : Hub) : (raiseEvt die h).parts = h.parts := by simp [raiseEvt]
@[simp] theorem raiseEvt_wins (die : Nat) (h : Hub) : (raiseEvt die h).wins = h.wins := by simp [raiseEvt]
@[simp] theorem raiseEvt_mgrs (die : Nat) (h : Hub) : (raiseEvt die h).mgrs = h.mgrs := by simp [raiseEvt]
@[simp] theorem raiseEvt_heavy (die : Nat) (h : Hub) : (raiseEvt die h).heavy = h.heavy := by simp [raiseEvt]
@[simp] theorem raiseEvt_walks (die : Nat) (h : Hub) : (raiseEvt die h).walks = h.walks := by simp [raiseEvt]
@[simp] theorem raiseEvt_shadows (die : Nat) (h : Hub) : (raiseEvt die h).shadows = h.shadows := by simp [raiseEvt]
@[simp] theorem raiseEvt_images (die : Nat) (h : Hub) : (raiseEvt die h).images = h.images := by simp [raiseEvt]
@[simp] theorem raiseEvt_warm (die : Nat) (h : Hub) : (raiseEvt die h).warm = h.warm := by simp [raiseEvt]
@[simp] theorem raiseEvt_warmAt (die : Nat) (h : Hub) : (raiseEvt die h).warmAt = h.warmAt := by simp [raiseEvt]
@[simp] theorem raiseEvt_stage (die : Nat) (h : Hub) : (raiseEvt die h).stage = h.stage := by simp [raiseEvt]
@[simp] theorem raiseEvt_movs (die : Nat) (h : Hub) : (raiseEvt die h).movs = h.movs := by simp [raiseEvt]
@[simp] theorem raiseEvt_fs (die : Nat) (h : Hub) : (raiseEvt die h).fs = h.fs := by simp [raiseEvt]
@[simp] theorem raiseEvt_col (die : Nat) (h : Hub) : (raiseEvt die h).col = h.col := by simp [raiseEvt]
@[simp] theorem raiseEvt_lid (die : Nat) (h : Hub) : (raiseEvt die h).lid = h.lid := by simp [raiseEvt]
@[simp] theorem raiseEvt_mbox (die : Nat) (h : Hub) : (raiseEvt die h).mbox = h.mbox := by simp [raiseEvt]
@[simp] theorem raiseEvt_pmu (die : Nat) (h : Hub) : (raiseEvt die h).pmu = h.pmu := by simp [raiseEvt]
@[simp] theorem raiseEvt_bwLeft (die : Nat) (h : Hub) : (raiseEvt die h).bwLeft = h.bwLeft := by simp [raiseEvt]
@[simp] theorem raiseEvt_bwLat (die : Nat) (h : Hub) : (raiseEvt die h).bwLat = h.bwLat := by simp [raiseEvt]
@[simp] theorem raiseEvt_lat (die : Nat) (h : Hub) : (raiseEvt die h).lat = h.lat := by simp [raiseEvt]
@[simp] theorem raiseEvt_latDone (die : Nat) (h : Hub) : (raiseEvt die h).latDone = h.latDone := by simp [raiseEvt]
@[simp] theorem raiseEvt_occ (die : Nat) (h : Hub) : (raiseEvt die h).occ = h.occ := by simp [raiseEvt]
@[simp] theorem raiseEvt_occDone (die : Nat) (h : Hub) : (raiseEvt die h).occDone = h.occDone := by simp [raiseEvt]
@[simp] theorem raiseEvt_rounds (die : Nat) (h : Hub) : (raiseEvt die h).rounds = h.rounds := by simp [raiseEvt]
@[simp] theorem raiseEvt_slotUse (die : Nat) (h : Hub) : (raiseEvt die h).slotUse = h.slotUse := by simp [raiseEvt]
@[simp] theorem raiseEvt_integ (die : Nat) (h : Hub) : (raiseEvt die h).integ = h.integ := by simp [raiseEvt]
@[simp] theorem raiseEvt_bt (die : Nat) (h : Hub) : (raiseEvt die h).bt = h.bt := by simp [raiseEvt]
@[simp] theorem raiseEvt_side (die : Nat) (h : Hub) : (raiseEvt die h).side = h.side := by simp [raiseEvt]
@[simp] theorem raiseEvt_undef (die : Nat) (h : Hub) : (raiseEvt die h).undef = h.undef := by simp [raiseEvt]

/-! ### countType -/

@[simp] theorem countType_now (typ : Nat) (h : Hub) : (countType typ h).now = h.now := rfl
@[simp] theorem countType_free (typ : Nat) (h : Hub) : (countType typ h).free = h.free := rfl
@[simp] theorem countType_regs (typ : Nat) (h : Hub) : (countType typ h).regs = h.regs := rfl
@[simp] theorem countType_life (typ : Nat) (h : Hub) : (countType typ h).life = h.life := rfl
@[simp] theorem countType_rmap (typ : Nat) (h : Hub) : (countType typ h).rmap = h.rmap := rfl
@[simp] theorem countType_mem (typ : Nat) (h : Hub) : (countType typ h).mem = h.mem := rfl
@[simp] theorem countType_cache (typ : Nat) (h : Hub) : (countType typ h).cache = h.cache := rfl
@[simp] theorem countType_sieve (typ : Nat) (h : Hub) : (countType typ h).sieve = h.sieve := rfl
@[simp] theorem countType_recov (typ : Nat) (h : Hub) : (countType typ h).recov = h.recov := rfl
@[simp] theorem countType_txns (typ : Nat) (h : Hub) : (countType typ h).txns = h.txns := rfl
@[simp] theorem countType_nextId (typ : Nat) (h : Hub) : (countType typ h).nextId = h.nextId := rfl
@[simp] theorem countType_snps (typ : Nat) (h : Hub) : (countType typ h).snps = h.snps := rfl
@[simp] theorem countType_orphans (typ : Nat) (h : Hub) : (countType typ h).orphans = h.orphans := rfl
@[simp] theorem countType_waiting (typ : Nat) (h : Hub) : (countType typ h).waiting = h.waiting := rfl
@[simp] theorem countType_wbs (typ : Nat) (h : Hub) : (countType typ h).wbs = h.wbs := rfl
@[simp] theorem countType_tongs (typ : Nat) (h : Hub) : (countType typ h).tongs = h.tongs := rfl
@[simp] theorem countType_ladle (typ : Nat) (h : Hub) : (countType typ h).ladle = h.ladle := rfl
@[simp] theorem countType_pfSkip (typ : Nat) (h : Hub) : (countType typ h).pfSkip = h.pfSkip := rfl
@[simp] theorem countType_dets (typ : Nat) (h : Hub) : (countType typ h).dets = h.dets := rfl
@[simp] theorem countType_mons (typ : Nat) (h : Hub) : (countType typ h).mons = h.mons := rfl
@[simp] theorem countType_links (typ : Nat) (h : Hub) : (countType typ h).links = h.links := rfl
@[simp] theorem countType_twin (typ : Nat) (h : Hub) : (countType typ h).twin = h.twin := rfl
@[simp] theorem countType_parts (typ : Nat) (h : Hub) : (countType typ h).parts = h.parts := rfl
@[simp] theorem countType_wins (typ : Nat) (h : Hub) : (countType typ h).wins = h.wins := rfl
@[simp] theorem countType_mgrs (typ : Nat) (h : Hub) : (countType typ h).mgrs = h.mgrs := rfl
@[simp] theorem countType_heavy (typ : Nat) (h : Hub) : (countType typ h).heavy = h.heavy := rfl
@[simp] theorem countType_walks (typ : Nat) (h : Hub) : (countType typ h).walks = h.walks := rfl
@[simp] theorem countType_shadows (typ : Nat) (h : Hub) : (countType typ h).shadows = h.shadows := rfl
@[simp] theorem countType_images (typ : Nat) (h : Hub) : (countType typ h).images = h.images := rfl
@[simp] theorem countType_warm (typ : Nat) (h : Hub) : (countType typ h).warm = h.warm := rfl
@[simp] theorem countType_warmAt (typ : Nat) (h : Hub) : (countType typ h).warmAt = h.warmAt := rfl
@[simp] theorem countType_stage (typ : Nat) (h : Hub) : (countType typ h).stage = h.stage := rfl
@[simp] theorem countType_movs (typ : Nat) (h : Hub) : (countType typ h).movs = h.movs := rfl
@[simp] theorem countType_fs (typ : Nat) (h : Hub) : (countType typ h).fs = h.fs := rfl
@[simp] theorem countType_col (typ : Nat) (h : Hub) : (countType typ h).col = h.col := rfl
@[simp] theorem countType_lid (typ : Nat) (h : Hub) : (countType typ h).lid = h.lid := rfl
@[simp] theorem countType_mbox (typ : Nat) (h : Hub) : (countType typ h).mbox = h.mbox := rfl
@[simp] theorem countType_pmu (typ : Nat) (h : Hub) : (countType typ h).pmu = h.pmu := rfl
@[simp] theorem countType_bwLeft (typ : Nat) (h : Hub) : (countType typ h).bwLeft = h.bwLeft := rfl
@[simp] theorem countType_bwLat (typ : Nat) (h : Hub) : (countType typ h).bwLat = h.bwLat := rfl
@[simp] theorem countType_lat (typ : Nat) (h : Hub) : (countType typ h).lat = h.lat := rfl
@[simp] theorem countType_latDone (typ : Nat) (h : Hub) : (countType typ h).latDone = h.latDone := rfl
@[simp] theorem countType_occ (typ : Nat) (h : Hub) : (countType typ h).occ = h.occ := rfl
@[simp] theorem countType_occDone (typ : Nat) (h : Hub) : (countType typ h).occDone = h.occDone := rfl
@[simp] theorem countType_rounds (typ : Nat) (h : Hub) : (countType typ h).rounds = h.rounds := rfl
@[simp] theorem countType_slotUse (typ : Nat) (h : Hub) : (countType typ h).slotUse = h.slotUse := rfl
@[simp] theorem countType_integ (typ : Nat) (h : Hub) : (countType typ h).integ = h.integ := rfl
@[simp] theorem countType_bt (typ : Nat) (h : Hub) : (countType typ h).bt = h.bt := rfl
@[simp] theorem countType_side (typ : Nat) (h : Hub) : (countType typ h).side = h.side := rfl
@[simp] theorem countType_undef (typ : Nat) (h : Hub) : (countType typ h).undef = h.undef := rfl

/-! ### colGap -/

@[simp] theorem colGap_now (die : Nat) (h : Hub) : (colGap die h).now = h.now := by unfold colGap; dsimp only; split <;> simp
@[simp] theorem colGap_free (die : Nat) (h : Hub) : (colGap die h).free = h.free := by unfold colGap; dsimp only; split <;> simp
@[simp] theorem colGap_regs (die : Nat) (h : Hub) : (colGap die h).regs = h.regs := by unfold colGap; dsimp only; split <;> simp
@[simp] theorem colGap_life (die : Nat) (h : Hub) : (colGap die h).life = h.life := by unfold colGap; dsimp only; split <;> simp
@[simp] theorem colGap_rmap (die : Nat) (h : Hub) : (colGap die h).rmap = h.rmap := by unfold colGap; dsimp only; split <;> simp
@[simp] theorem colGap_mem (die : Nat) (h : Hub) : (colGap die h).mem = h.mem := by unfold colGap; dsimp only; split <;> simp
@[simp] theorem colGap_cache (die : Nat) (h : Hub) : (colGap die h).cache = h.cache := by unfold colGap; dsimp only; split <;> simp
@[simp] theorem colGap_sieve (die : Nat) (h : Hub) : (colGap die h).sieve = h.sieve := by unfold colGap; dsimp only; split <;> simp
@[simp] theorem colGap_recov (die : Nat) (h : Hub) : (colGap die h).recov = h.recov := by unfold colGap; dsimp only; split <;> simp
@[simp] theorem colGap_txns (die : Nat) (h : Hub) : (colGap die h).txns = h.txns := by unfold colGap; dsimp only; split <;> simp
@[simp] theorem colGap_nextId (die : Nat) (h : Hub) : (colGap die h).nextId = h.nextId := by unfold colGap; dsimp only; split <;> simp
@[simp] theorem colGap_snps (die : Nat) (h : Hub) : (colGap die h).snps = h.snps := by unfold colGap; dsimp only; split <;> simp
@[simp] theorem colGap_orphans (die : Nat) (h : Hub) : (colGap die h).orphans = h.orphans := by unfold colGap; dsimp only; split <;> simp
@[simp] theorem colGap_waiting (die : Nat) (h : Hub) : (colGap die h).waiting = h.waiting := by unfold colGap; dsimp only; split <;> simp
@[simp] theorem colGap_wbs (die : Nat) (h : Hub) : (colGap die h).wbs = h.wbs := by unfold colGap; dsimp only; split <;> simp
@[simp] theorem colGap_tongs (die : Nat) (h : Hub) : (colGap die h).tongs = h.tongs := by unfold colGap; dsimp only; split <;> simp
@[simp] theorem colGap_ladle (die : Nat) (h : Hub) : (colGap die h).ladle = h.ladle := by unfold colGap; dsimp only; split <;> simp
@[simp] theorem colGap_pfSkip (die : Nat) (h : Hub) : (colGap die h).pfSkip = h.pfSkip := by unfold colGap; dsimp only; split <;> simp
@[simp] theorem colGap_dets (die : Nat) (h : Hub) : (colGap die h).dets = h.dets := by unfold colGap; dsimp only; split <;> simp
@[simp] theorem colGap_mons (die : Nat) (h : Hub) : (colGap die h).mons = h.mons := by unfold colGap; dsimp only; split <;> simp
@[simp] theorem colGap_links (die : Nat) (h : Hub) : (colGap die h).links = h.links := by unfold colGap; dsimp only; split <;> simp
@[simp] theorem colGap_twin (die : Nat) (h : Hub) : (colGap die h).twin = h.twin := by unfold colGap; dsimp only; split <;> simp
@[simp] theorem colGap_parts (die : Nat) (h : Hub) : (colGap die h).parts = h.parts := by unfold colGap; dsimp only; split <;> simp
@[simp] theorem colGap_wins (die : Nat) (h : Hub) : (colGap die h).wins = h.wins := by unfold colGap; dsimp only; split <;> simp
@[simp] theorem colGap_mgrs (die : Nat) (h : Hub) : (colGap die h).mgrs = h.mgrs := by unfold colGap; dsimp only; split <;> simp
@[simp] theorem colGap_heavy (die : Nat) (h : Hub) : (colGap die h).heavy = h.heavy := by unfold colGap; dsimp only; split <;> simp
@[simp] theorem colGap_walks (die : Nat) (h : Hub) : (colGap die h).walks = h.walks := by unfold colGap; dsimp only; split <;> simp
@[simp] theorem colGap_shadows (die : Nat) (h : Hub) : (colGap die h).shadows = h.shadows := by unfold colGap; dsimp only; split <;> simp
@[simp] theorem colGap_images (die : Nat) (h : Hub) : (colGap die h).images = h.images := by unfold colGap; dsimp only; split <;> simp
@[simp] theorem colGap_warm (die : Nat) (h : Hub) : (colGap die h).warm = h.warm := by unfold colGap; dsimp only; split <;> simp
@[simp] theorem colGap_warmAt (die : Nat) (h : Hub) : (colGap die h).warmAt = h.warmAt := by unfold colGap; dsimp only; split <;> simp
@[simp] theorem colGap_stage (die : Nat) (h : Hub) : (colGap die h).stage = h.stage := by unfold colGap; dsimp only; split <;> simp
@[simp] theorem colGap_movs (die : Nat) (h : Hub) : (colGap die h).movs = h.movs := by unfold colGap; dsimp only; split <;> simp
@[simp] theorem colGap_fs (die : Nat) (h : Hub) : (colGap die h).fs = h.fs := by unfold colGap; dsimp only; split <;> simp
@[simp] theorem colGap_lid (die : Nat) (h : Hub) : (colGap die h).lid = h.lid := by unfold colGap; dsimp only; split <;> simp
@[simp] theorem colGap_mbox (die : Nat) (h : Hub) : (colGap die h).mbox = h.mbox := by unfold colGap; dsimp only; split <;> simp
@[simp] theorem colGap_pmu (die : Nat) (h : Hub) : (colGap die h).pmu = h.pmu := by unfold colGap; dsimp only; split <;> simp
@[simp] theorem colGap_bwLeft (die : Nat) (h : Hub) : (colGap die h).bwLeft = h.bwLeft := by unfold colGap; dsimp only; split <;> simp
@[simp] theorem colGap_bwLat (die : Nat) (h : Hub) : (colGap die h).bwLat = h.bwLat := by unfold colGap; dsimp only; split <;> simp
@[simp] theorem colGap_lat (die : Nat) (h : Hub) : (colGap die h).lat = h.lat := by unfold colGap; dsimp only; split <;> simp
@[simp] theorem colGap_latDone (die : Nat) (h : Hub) : (colGap die h).latDone = h.latDone := by unfold colGap; dsimp only; split <;> simp
@[simp] theorem colGap_occ (die : Nat) (h : Hub) : (colGap die h).occ = h.occ := by unfold colGap; dsimp only; split <;> simp
@[simp] theorem colGap_occDone (die : Nat) (h : Hub) : (colGap die h).occDone = h.occDone := by unfold colGap; dsimp only; split <;> simp
@[simp] theorem colGap_rounds (die : Nat) (h : Hub) : (colGap die h).rounds = h.rounds := by unfold colGap; dsimp only; split <;> simp
@[simp] theorem colGap_slotUse (die : Nat) (h : Hub) : (colGap die h).slotUse = h.slotUse := by unfold colGap; dsimp only; split <;> simp
@[simp] theorem colGap_integ (die : Nat) (h : Hub) : (colGap die h).integ = h.integ := by unfold colGap; dsimp only; split <;> simp
@[simp] theorem colGap_bt (die : Nat) (h : Hub) : (colGap die h).bt = h.bt := by unfold colGap; dsimp only; split <;> simp
@[simp] theorem colGap_side (die : Nat) (h : Hub) : (colGap die h).side = h.side := by unfold colGap; dsimp only; split <;> simp
@[simp] theorem colGap_undef (die : Nat) (h : Hub) : (colGap die h).undef = h.undef := by unfold colGap; dsimp only; split <;> simp

/-! ### offerRecord -/

@[simp] theorem offerRecord_now (die sev blk typ : Nat) (r : BitVec 128) (h : Hub) : (offerRecord die sev blk typ r h).now = h.now := by
  unfold offerRecord; dsimp only; (repeat' split) <;> simp
@[simp] theorem offerRecord_free (die sev blk typ : Nat) (r : BitVec 128) (h : Hub) : (offerRecord die sev blk typ r h).free = h.free := by
  unfold offerRecord; dsimp only; (repeat' split) <;> simp
@[simp] theorem offerRecord_life (die sev blk typ : Nat) (r : BitVec 128) (h : Hub) : (offerRecord die sev blk typ r h).life = h.life := by
  unfold offerRecord; dsimp only; (repeat' split) <;> simp
@[simp] theorem offerRecord_rmap (die sev blk typ : Nat) (r : BitVec 128) (h : Hub) : (offerRecord die sev blk typ r h).rmap = h.rmap := by
  unfold offerRecord; dsimp only; (repeat' split) <;> simp
@[simp] theorem offerRecord_mem (die sev blk typ : Nat) (r : BitVec 128) (h : Hub) : (offerRecord die sev blk typ r h).mem = h.mem := by
  unfold offerRecord; dsimp only; (repeat' split) <;> simp
@[simp] theorem offerRecord_cache (die sev blk typ : Nat) (r : BitVec 128) (h : Hub) : (offerRecord die sev blk typ r h).cache = h.cache := by
  unfold offerRecord; dsimp only; (repeat' split) <;> simp
@[simp] theorem offerRecord_sieve (die sev blk typ : Nat) (r : BitVec 128) (h : Hub) : (offerRecord die sev blk typ r h).sieve = h.sieve := by
  unfold offerRecord; dsimp only; (repeat' split) <;> simp
@[simp] theorem offerRecord_recov (die sev blk typ : Nat) (r : BitVec 128) (h : Hub) : (offerRecord die sev blk typ r h).recov = h.recov := by
  unfold offerRecord; dsimp only; (repeat' split) <;> simp
@[simp] theorem offerRecord_txns (die sev blk typ : Nat) (r : BitVec 128) (h : Hub) : (offerRecord die sev blk typ r h).txns = h.txns := by
  unfold offerRecord; dsimp only; (repeat' split) <;> simp
@[simp] theorem offerRecord_nextId (die sev blk typ : Nat) (r : BitVec 128) (h : Hub) : (offerRecord die sev blk typ r h).nextId = h.nextId := by
  unfold offerRecord; dsimp only; (repeat' split) <;> simp
@[simp] theorem offerRecord_snps (die sev blk typ : Nat) (r : BitVec 128) (h : Hub) : (offerRecord die sev blk typ r h).snps = h.snps := by
  unfold offerRecord; dsimp only; (repeat' split) <;> simp
@[simp] theorem offerRecord_orphans (die sev blk typ : Nat) (r : BitVec 128) (h : Hub) : (offerRecord die sev blk typ r h).orphans = h.orphans := by
  unfold offerRecord; dsimp only; (repeat' split) <;> simp
@[simp] theorem offerRecord_waiting (die sev blk typ : Nat) (r : BitVec 128) (h : Hub) : (offerRecord die sev blk typ r h).waiting = h.waiting := by
  unfold offerRecord; dsimp only; (repeat' split) <;> simp
@[simp] theorem offerRecord_wbs (die sev blk typ : Nat) (r : BitVec 128) (h : Hub) : (offerRecord die sev blk typ r h).wbs = h.wbs := by
  unfold offerRecord; dsimp only; (repeat' split) <;> simp
@[simp] theorem offerRecord_tongs (die sev blk typ : Nat) (r : BitVec 128) (h : Hub) : (offerRecord die sev blk typ r h).tongs = h.tongs := by
  unfold offerRecord; dsimp only; (repeat' split) <;> simp
@[simp] theorem offerRecord_ladle (die sev blk typ : Nat) (r : BitVec 128) (h : Hub) : (offerRecord die sev blk typ r h).ladle = h.ladle := by
  unfold offerRecord; dsimp only; (repeat' split) <;> simp
@[simp] theorem offerRecord_pfSkip (die sev blk typ : Nat) (r : BitVec 128) (h : Hub) : (offerRecord die sev blk typ r h).pfSkip = h.pfSkip := by
  unfold offerRecord; dsimp only; (repeat' split) <;> simp
@[simp] theorem offerRecord_dets (die sev blk typ : Nat) (r : BitVec 128) (h : Hub) : (offerRecord die sev blk typ r h).dets = h.dets := by
  unfold offerRecord; dsimp only; (repeat' split) <;> simp
@[simp] theorem offerRecord_mons (die sev blk typ : Nat) (r : BitVec 128) (h : Hub) : (offerRecord die sev blk typ r h).mons = h.mons := by
  unfold offerRecord; dsimp only; (repeat' split) <;> simp
@[simp] theorem offerRecord_links (die sev blk typ : Nat) (r : BitVec 128) (h : Hub) : (offerRecord die sev blk typ r h).links = h.links := by
  unfold offerRecord; dsimp only; (repeat' split) <;> simp
@[simp] theorem offerRecord_twin (die sev blk typ : Nat) (r : BitVec 128) (h : Hub) : (offerRecord die sev blk typ r h).twin = h.twin := by
  unfold offerRecord; dsimp only; (repeat' split) <;> simp
@[simp] theorem offerRecord_parts (die sev blk typ : Nat) (r : BitVec 128) (h : Hub) : (offerRecord die sev blk typ r h).parts = h.parts := by
  unfold offerRecord; dsimp only; (repeat' split) <;> simp
@[simp] theorem offerRecord_wins (die sev blk typ : Nat) (r : BitVec 128) (h : Hub) : (offerRecord die sev blk typ r h).wins = h.wins := by
  unfold offerRecord; dsimp only; (repeat' split) <;> simp
@[simp] theorem offerRecord_mgrs (die sev blk typ : Nat) (r : BitVec 128) (h : Hub) : (offerRecord die sev blk typ r h).mgrs = h.mgrs := by
  unfold offerRecord; dsimp only; (repeat' split) <;> simp
@[simp] theorem offerRecord_heavy (die sev blk typ : Nat) (r : BitVec 128) (h : Hub) : (offerRecord die sev blk typ r h).heavy = h.heavy := by
  unfold offerRecord; dsimp only; (repeat' split) <;> simp
@[simp] theorem offerRecord_walks (die sev blk typ : Nat) (r : BitVec 128) (h : Hub) : (offerRecord die sev blk typ r h).walks = h.walks := by
  unfold offerRecord; dsimp only; (repeat' split) <;> simp
@[simp] theorem offerRecord_shadows (die sev blk typ : Nat) (r : BitVec 128) (h : Hub) : (offerRecord die sev blk typ r h).shadows = h.shadows := by
  unfold offerRecord; dsimp only; (repeat' split) <;> simp
@[simp] theorem offerRecord_images (die sev blk typ : Nat) (r : BitVec 128) (h : Hub) : (offerRecord die sev blk typ r h).images = h.images := by
  unfold offerRecord; dsimp only; (repeat' split) <;> simp
@[simp] theorem offerRecord_warm (die sev blk typ : Nat) (r : BitVec 128) (h : Hub) : (offerRecord die sev blk typ r h).warm = h.warm := by
  unfold offerRecord; dsimp only; (repeat' split) <;> simp
@[simp] theorem offerRecord_warmAt (die sev blk typ : Nat) (r : BitVec 128) (h : Hub) : (offerRecord die sev blk typ r h).warmAt = h.warmAt := by
  unfold offerRecord; dsimp only; (repeat' split) <;> simp
@[simp] theorem offerRecord_stage (die sev blk typ : Nat) (r : BitVec 128) (h : Hub) : (offerRecord die sev blk typ r h).stage = h.stage := by
  unfold offerRecord; dsimp only; (repeat' split) <;> simp
@[simp] theorem offerRecord_movs (die sev blk typ : Nat) (r : BitVec 128) (h : Hub) : (offerRecord die sev blk typ r h).movs = h.movs := by
  unfold offerRecord; dsimp only; (repeat' split) <;> simp
@[simp] theorem offerRecord_fs (die sev blk typ : Nat) (r : BitVec 128) (h : Hub) : (offerRecord die sev blk typ r h).fs = h.fs := by
  unfold offerRecord; dsimp only; (repeat' split) <;> simp
@[simp] theorem offerRecord_lid (die sev blk typ : Nat) (r : BitVec 128) (h : Hub) : (offerRecord die sev blk typ r h).lid = h.lid := by
  unfold offerRecord; dsimp only; (repeat' split) <;> simp
@[simp] theorem offerRecord_mbox (die sev blk typ : Nat) (r : BitVec 128) (h : Hub) : (offerRecord die sev blk typ r h).mbox = h.mbox := by
  unfold offerRecord; dsimp only; (repeat' split) <;> simp
@[simp] theorem offerRecord_pmu (die sev blk typ : Nat) (r : BitVec 128) (h : Hub) : (offerRecord die sev blk typ r h).pmu = h.pmu := by
  unfold offerRecord; dsimp only; (repeat' split) <;> simp
@[simp] theorem offerRecord_bwLeft (die sev blk typ : Nat) (r : BitVec 128) (h : Hub) : (offerRecord die sev blk typ r h).bwLeft = h.bwLeft := by
  unfold offerRecord; dsimp only; (repeat' split) <;> simp
@[simp] theorem offerRecord_bwLat (die sev blk typ : Nat) (r : BitVec 128) (h : Hub) : (offerRecord die sev blk typ r h).bwLat = h.bwLat := by
  unfold offerRecord; dsimp only; (repeat' split) <;> simp
@[simp] theorem offerRecord_lat (die sev blk typ : Nat) (r : BitVec 128) (h : Hub) : (offerRecord die sev blk typ r h).lat = h.lat := by
  unfold offerRecord; dsimp only; (repeat' split) <;> simp
@[simp] theorem offerRecord_latDone (die sev blk typ : Nat) (r : BitVec 128) (h : Hub) : (offerRecord die sev blk typ r h).latDone = h.latDone := by
  unfold offerRecord; dsimp only; (repeat' split) <;> simp
@[simp] theorem offerRecord_occ (die sev blk typ : Nat) (r : BitVec 128) (h : Hub) : (offerRecord die sev blk typ r h).occ = h.occ := by
  unfold offerRecord; dsimp only; (repeat' split) <;> simp
@[simp] theorem offerRecord_occDone (die sev blk typ : Nat) (r : BitVec 128) (h : Hub) : (offerRecord die sev blk typ r h).occDone = h.occDone := by
  unfold offerRecord; dsimp only; (repeat' split) <;> simp
@[simp] theorem offerRecord_rounds (die sev blk typ : Nat) (r : BitVec 128) (h : Hub) : (offerRecord die sev blk typ r h).rounds = h.rounds := by
  unfold offerRecord; dsimp only; (repeat' split) <;> simp
@[simp] theorem offerRecord_slotUse (die sev blk typ : Nat) (r : BitVec 128) (h : Hub) : (offerRecord die sev blk typ r h).slotUse = h.slotUse := by
  unfold offerRecord; dsimp only; (repeat' split) <;> simp
@[simp] theorem offerRecord_integ (die sev blk typ : Nat) (r : BitVec 128) (h : Hub) : (offerRecord die sev blk typ r h).integ = h.integ := by
  unfold offerRecord; dsimp only; (repeat' split) <;> simp
@[simp] theorem offerRecord_bt (die sev blk typ : Nat) (r : BitVec 128) (h : Hub) : (offerRecord die sev blk typ r h).bt = h.bt := by
  unfold offerRecord; dsimp only; (repeat' split) <;> simp
@[simp] theorem offerRecord_side (die sev blk typ : Nat) (r : BitVec 128) (h : Hub) : (offerRecord die sev blk typ r h).side = h.side := by
  unfold offerRecord; dsimp only; (repeat' split) <;> simp
@[simp] theorem offerRecord_undef (die sev blk typ : Nat) (r : BitVec 128) (h : Hub) : (offerRecord die sev blk typ r h).undef = h.undef := by
  unfold offerRecord; dsimp only; (repeat' split) <;> simp

/-! ### recordInj -/

@[simp] theorem recordInj_now (typ sev blk die pid : Nat) (inj : Bool) (payload : Nat) (h : Hub) : (recordInj typ sev blk die pid inj payload h).now = h.now := by simp [recordInj]
@[simp] theorem recordInj_free (typ sev blk die pid : Nat) (inj : Bool) (payload : Nat) (h : Hub) : (recordInj typ sev blk die pid inj payload h).free = h.free := by simp [recordInj]
@[simp] theorem recordInj_life (typ sev blk die pid : Nat) (inj : Bool) (payload : Nat) (h : Hub) : (recordInj typ sev blk die pid inj payload h).life = h.life := by simp [recordInj]
@[simp] theorem recordInj_rmap (typ sev blk die pid : Nat) (inj : Bool) (payload : Nat) (h : Hub) : (recordInj typ sev blk die pid inj payload h).rmap = h.rmap := by simp [recordInj]
@[simp] theorem recordInj_mem (typ sev blk die pid : Nat) (inj : Bool) (payload : Nat) (h : Hub) : (recordInj typ sev blk die pid inj payload h).mem = h.mem := by simp [recordInj]
@[simp] theorem recordInj_cache (typ sev blk die pid : Nat) (inj : Bool) (payload : Nat) (h : Hub) : (recordInj typ sev blk die pid inj payload h).cache = h.cache := by simp [recordInj]
@[simp] theorem recordInj_sieve (typ sev blk die pid : Nat) (inj : Bool) (payload : Nat) (h : Hub) : (recordInj typ sev blk die pid inj payload h).sieve = h.sieve := by simp [recordInj]
@[simp] theorem recordInj_recov (typ sev blk die pid : Nat) (inj : Bool) (payload : Nat) (h : Hub) : (recordInj typ sev blk die pid inj payload h).recov = h.recov := by simp [recordInj]
@[simp] theorem recordInj_txns (typ sev blk die pid : Nat) (inj : Bool) (payload : Nat) (h : Hub) : (recordInj typ sev blk die pid inj payload h).txns = h.txns := by simp [recordInj]
@[simp] theorem recordInj_nextId (typ sev blk die pid : Nat) (inj : Bool) (payload : Nat) (h : Hub) : (recordInj typ sev blk die pid inj payload h).nextId = h.nextId := by simp [recordInj]
@[simp] theorem recordInj_snps (typ sev blk die pid : Nat) (inj : Bool) (payload : Nat) (h : Hub) : (recordInj typ sev blk die pid inj payload h).snps = h.snps := by simp [recordInj]
@[simp] theorem recordInj_orphans (typ sev blk die pid : Nat) (inj : Bool) (payload : Nat) (h : Hub) : (recordInj typ sev blk die pid inj payload h).orphans = h.orphans := by simp [recordInj]
@[simp] theorem recordInj_waiting (typ sev blk die pid : Nat) (inj : Bool) (payload : Nat) (h : Hub) : (recordInj typ sev blk die pid inj payload h).waiting = h.waiting := by simp [recordInj]
@[simp] theorem recordInj_wbs (typ sev blk die pid : Nat) (inj : Bool) (payload : Nat) (h : Hub) : (recordInj typ sev blk die pid inj payload h).wbs = h.wbs := by simp [recordInj]
@[simp] theorem recordInj_tongs (typ sev blk die pid : Nat) (inj : Bool) (payload : Nat) (h : Hub) : (recordInj typ sev blk die pid inj payload h).tongs = h.tongs := by simp [recordInj]
@[simp] theorem recordInj_ladle (typ sev blk die pid : Nat) (inj : Bool) (payload : Nat) (h : Hub) : (recordInj typ sev blk die pid inj payload h).ladle = h.ladle := by simp [recordInj]
@[simp] theorem recordInj_pfSkip (typ sev blk die pid : Nat) (inj : Bool) (payload : Nat) (h : Hub) : (recordInj typ sev blk die pid inj payload h).pfSkip = h.pfSkip := by simp [recordInj]
@[simp] theorem recordInj_dets (typ sev blk die pid : Nat) (inj : Bool) (payload : Nat) (h : Hub) : (recordInj typ sev blk die pid inj payload h).dets = h.dets := by simp [recordInj]
@[simp] theorem recordInj_mons (typ sev blk die pid : Nat) (inj : Bool) (payload : Nat) (h : Hub) : (recordInj typ sev blk die pid inj payload h).mons = h.mons := by simp [recordInj]
@[simp] theorem recordInj_links (typ sev blk die pid : Nat) (inj : Bool) (payload : Nat) (h : Hub) : (recordInj typ sev blk die pid inj payload h).links = h.links := by simp [recordInj]
@[simp] theorem recordInj_twin (typ sev blk die pid : Nat) (inj : Bool) (payload : Nat) (h : Hub) : (recordInj typ sev blk die pid inj payload h).twin = h.twin := by simp [recordInj]
@[simp] theorem recordInj_parts (typ sev blk die pid : Nat) (inj : Bool) (payload : Nat) (h : Hub) : (recordInj typ sev blk die pid inj payload h).parts = h.parts := by simp [recordInj]
@[simp] theorem recordInj_wins (typ sev blk die pid : Nat) (inj : Bool) (payload : Nat) (h : Hub) : (recordInj typ sev blk die pid inj payload h).wins = h.wins := by simp [recordInj]
@[simp] theorem recordInj_mgrs (typ sev blk die pid : Nat) (inj : Bool) (payload : Nat) (h : Hub) : (recordInj typ sev blk die pid inj payload h).mgrs = h.mgrs := by simp [recordInj]
@[simp] theorem recordInj_heavy (typ sev blk die pid : Nat) (inj : Bool) (payload : Nat) (h : Hub) : (recordInj typ sev blk die pid inj payload h).heavy = h.heavy := by simp [recordInj]
@[simp] theorem recordInj_walks (typ sev blk die pid : Nat) (inj : Bool) (payload : Nat) (h : Hub) : (recordInj typ sev blk die pid inj payload h).walks = h.walks := by simp [recordInj]
@[simp] theorem recordInj_shadows (typ sev blk die pid : Nat) (inj : Bool) (payload : Nat) (h : Hub) : (recordInj typ sev blk die pid inj payload h).shadows = h.shadows := by simp [recordInj]
@[simp] theorem recordInj_images (typ sev blk die pid : Nat) (inj : Bool) (payload : Nat) (h : Hub) : (recordInj typ sev blk die pid inj payload h).images = h.images := by simp [recordInj]
@[simp] theorem recordInj_warm (typ sev blk die pid : Nat) (inj : Bool) (payload : Nat) (h : Hub) : (recordInj typ sev blk die pid inj payload h).warm = h.warm := by simp [recordInj]
@[simp] theorem recordInj_warmAt (typ sev blk die pid : Nat) (inj : Bool) (payload : Nat) (h : Hub) : (recordInj typ sev blk die pid inj payload h).warmAt = h.warmAt := by simp [recordInj]
@[simp] theorem recordInj_stage (typ sev blk die pid : Nat) (inj : Bool) (payload : Nat) (h : Hub) : (recordInj typ sev blk die pid inj payload h).stage = h.stage := by simp [recordInj]
@[simp] theorem recordInj_movs (typ sev blk die pid : Nat) (inj : Bool) (payload : Nat) (h : Hub) : (recordInj typ sev blk die pid inj payload h).movs = h.movs := by simp [recordInj]
@[simp] theorem recordInj_fs (typ sev blk die pid : Nat) (inj : Bool) (payload : Nat) (h : Hub) : (recordInj typ sev blk die pid inj payload h).fs = h.fs := by simp [recordInj]
@[simp] theorem recordInj_lid (typ sev blk die pid : Nat) (inj : Bool) (payload : Nat) (h : Hub) : (recordInj typ sev blk die pid inj payload h).lid = h.lid := by simp [recordInj]
@[simp] theorem recordInj_mbox (typ sev blk die pid : Nat) (inj : Bool) (payload : Nat) (h : Hub) : (recordInj typ sev blk die pid inj payload h).mbox = h.mbox := by simp [recordInj]
@[simp] theorem recordInj_pmu (typ sev blk die pid : Nat) (inj : Bool) (payload : Nat) (h : Hub) : (recordInj typ sev blk die pid inj payload h).pmu = h.pmu := by simp [recordInj]
@[simp] theorem recordInj_bwLeft (typ sev blk die pid : Nat) (inj : Bool) (payload : Nat) (h : Hub) : (recordInj typ sev blk die pid inj payload h).bwLeft = h.bwLeft := by simp [recordInj]
@[simp] theorem recordInj_bwLat (typ sev blk die pid : Nat) (inj : Bool) (payload : Nat) (h : Hub) : (recordInj typ sev blk die pid inj payload h).bwLat = h.bwLat := by simp [recordInj]
@[simp] theorem recordInj_lat (typ sev blk die pid : Nat) (inj : Bool) (payload : Nat) (h : Hub) : (recordInj typ sev blk die pid inj payload h).lat = h.lat := by simp [recordInj]
@[simp] theorem recordInj_latDone (typ sev blk die pid : Nat) (inj : Bool) (payload : Nat) (h : Hub) : (recordInj typ sev blk die pid inj payload h).latDone = h.latDone := by simp [recordInj]
@[simp] theorem recordInj_occ (typ sev blk die pid : Nat) (inj : Bool) (payload : Nat) (h : Hub) : (recordInj typ sev blk die pid inj payload h).occ = h.occ := by simp [recordInj]
@[simp] theorem recordInj_occDone (typ sev blk die pid : Nat) (inj : Bool) (payload : Nat) (h : Hub) : (recordInj typ sev blk die pid inj payload h).occDone = h.occDone := by simp [recordInj]
@[simp] theorem recordInj_rounds (typ sev blk die pid : Nat) (inj : Bool) (payload : Nat) (h : Hub) : (recordInj typ sev blk die pid inj payload h).rounds = h.rounds := by simp [recordInj]
@[simp] theorem recordInj_slotUse (typ sev blk die pid : Nat) (inj : Bool) (payload : Nat) (h : Hub) : (recordInj typ sev blk die pid inj payload h).slotUse = h.slotUse := by simp [recordInj]
@[simp] theorem recordInj_integ (typ sev blk die pid : Nat) (inj : Bool) (payload : Nat) (h : Hub) : (recordInj typ sev blk die pid inj payload h).integ = h.integ := by simp [recordInj]
@[simp] theorem recordInj_bt (typ sev blk die pid : Nat) (inj : Bool) (payload : Nat) (h : Hub) : (recordInj typ sev blk die pid inj payload h).bt = h.bt := by simp [recordInj]
@[simp] theorem recordInj_side (typ sev blk die pid : Nat) (inj : Bool) (payload : Nat) (h : Hub) : (recordInj typ sev blk die pid inj payload h).side = h.side := by simp [recordInj]
@[simp] theorem recordInj_undef (typ sev blk die pid : Nat) (inj : Bool) (payload : Nat) (h : Hub) : (recordInj typ sev blk die pid inj payload h).undef = h.undef := by simp [recordInj]

/-! ### record -/

@[simp] theorem record_now (typ sev blk die pid payload : Nat) (h : Hub) : (record typ sev blk die pid payload h).now = h.now := by simp [record]
@[simp] theorem record_free (typ sev blk die pid payload : Nat) (h : Hub) : (record typ sev blk die pid payload h).free = h.free := by simp [record]
@[simp] theorem record_life (typ sev blk die pid payload : Nat) (h : Hub) : (record typ sev blk die pid payload h).life = h.life := by simp [record]
@[simp] theorem record_rmap (typ sev blk die pid payload : Nat) (h : Hub) : (record typ sev blk die pid payload h).rmap = h.rmap := by simp [record]
@[simp] theorem record_mem (typ sev blk die pid payload : Nat) (h : Hub) : (record typ sev blk die pid payload h).mem = h.mem := by simp [record]
@[simp] theorem record_cache (typ sev blk die pid payload : Nat) (h : Hub) : (record typ sev blk die pid payload h).cache = h.cache := by simp [record]
@[simp] theorem record_sieve (typ sev blk die pid payload : Nat) (h : Hub) : (record typ sev blk die pid payload h).sieve = h.sieve := by simp [record]
@[simp] theorem record_recov (typ sev blk die pid payload : Nat) (h : Hub) : (record typ sev blk die pid payload h).recov = h.recov := by simp [record]
@[simp] theorem record_txns (typ sev blk die pid payload : Nat) (h : Hub) : (record typ sev blk die pid payload h).txns = h.txns := by simp [record]
@[simp] theorem record_nextId (typ sev blk die pid payload : Nat) (h : Hub) : (record typ sev blk die pid payload h).nextId = h.nextId := by simp [record]
@[simp] theorem record_snps (typ sev blk die pid payload : Nat) (h : Hub) : (record typ sev blk die pid payload h).snps = h.snps := by simp [record]
@[simp] theorem record_orphans (typ sev blk die pid payload : Nat) (h : Hub) : (record typ sev blk die pid payload h).orphans = h.orphans := by simp [record]
@[simp] theorem record_waiting (typ sev blk die pid payload : Nat) (h : Hub) : (record typ sev blk die pid payload h).waiting = h.waiting := by simp [record]
@[simp] theorem record_wbs (typ sev blk die pid payload : Nat) (h : Hub) : (record typ sev blk die pid payload h).wbs = h.wbs := by simp [record]
@[simp] theorem record_tongs (typ sev blk die pid payload : Nat) (h : Hub) : (record typ sev blk die pid payload h).tongs = h.tongs := by simp [record]
@[simp] theorem record_ladle (typ sev blk die pid payload : Nat) (h : Hub) : (record typ sev blk die pid payload h).ladle = h.ladle := by simp [record]
@[simp] theorem record_pfSkip (typ sev blk die pid payload : Nat) (h : Hub) : (record typ sev blk die pid payload h).pfSkip = h.pfSkip := by simp [record]
@[simp] theorem record_dets (typ sev blk die pid payload : Nat) (h : Hub) : (record typ sev blk die pid payload h).dets = h.dets := by simp [record]
@[simp] theorem record_mons (typ sev blk die pid payload : Nat) (h : Hub) : (record typ sev blk die pid payload h).mons = h.mons := by simp [record]
@[simp] theorem record_links (typ sev blk die pid payload : Nat) (h : Hub) : (record typ sev blk die pid payload h).links = h.links := by simp [record]
@[simp] theorem record_twin (typ sev blk die pid payload : Nat) (h : Hub) : (record typ sev blk die pid payload h).twin = h.twin := by simp [record]
@[simp] theorem record_parts (typ sev blk die pid payload : Nat) (h : Hub) : (record typ sev blk die pid payload h).parts = h.parts := by simp [record]
@[simp] theorem record_wins (typ sev blk die pid payload : Nat) (h : Hub) : (record typ sev blk die pid payload h).wins = h.wins := by simp [record]
@[simp] theorem record_mgrs (typ sev blk die pid payload : Nat) (h : Hub) : (record typ sev blk die pid payload h).mgrs = h.mgrs := by simp [record]
@[simp] theorem record_heavy (typ sev blk die pid payload : Nat) (h : Hub) : (record typ sev blk die pid payload h).heavy = h.heavy := by simp [record]
@[simp] theorem record_walks (typ sev blk die pid payload : Nat) (h : Hub) : (record typ sev blk die pid payload h).walks = h.walks := by simp [record]
@[simp] theorem record_shadows (typ sev blk die pid payload : Nat) (h : Hub) : (record typ sev blk die pid payload h).shadows = h.shadows := by simp [record]
@[simp] theorem record_images (typ sev blk die pid payload : Nat) (h : Hub) : (record typ sev blk die pid payload h).images = h.images := by simp [record]
@[simp] theorem record_warm (typ sev blk die pid payload : Nat) (h : Hub) : (record typ sev blk die pid payload h).warm = h.warm := by simp [record]
@[simp] theorem record_warmAt (typ sev blk die pid payload : Nat) (h : Hub) : (record typ sev blk die pid payload h).warmAt = h.warmAt := by simp [record]
@[simp] theorem record_stage (typ sev blk die pid payload : Nat) (h : Hub) : (record typ sev blk die pid payload h).stage = h.stage := by simp [record]
@[simp] theorem record_movs (typ sev blk die pid payload : Nat) (h : Hub) : (record typ sev blk die pid payload h).movs = h.movs := by simp [record]
@[simp] theorem record_fs (typ sev blk die pid payload : Nat) (h : Hub) : (record typ sev blk die pid payload h).fs = h.fs := by simp [record]
@[simp] theorem record_lid (typ sev blk die pid payload : Nat) (h : Hub) : (record typ sev blk die pid payload h).lid = h.lid := by simp [record]
@[simp] theorem record_mbox (typ sev blk die pid payload : Nat) (h : Hub) : (record typ sev blk die pid payload h).mbox = h.mbox := by simp [record]
@[simp] theorem record_pmu (typ sev blk die pid payload : Nat) (h : Hub) : (record typ sev blk die pid payload h).pmu = h.pmu := by simp [record]
@[simp] theorem record_bwLeft (typ sev blk die pid payload : Nat) (h : Hub) : (record typ sev blk die pid payload h).bwLeft = h.bwLeft := by simp [record]
@[simp] theorem record_bwLat (typ sev blk die pid payload : Nat) (h : Hub) : (record typ sev blk die pid payload h).bwLat = h.bwLat := by simp [record]
@[simp] theorem record_lat (typ sev blk die pid payload : Nat) (h : Hub) : (record typ sev blk die pid payload h).lat = h.lat := by simp [record]
@[simp] theorem record_latDone (typ sev blk die pid payload : Nat) (h : Hub) : (record typ sev blk die pid payload h).latDone = h.latDone := by simp [record]
@[simp] theorem record_occ (typ sev blk die pid payload : Nat) (h : Hub) : (record typ sev blk die pid payload h).occ = h.occ := by simp [record]
@[simp] theorem record_occDone (typ sev blk die pid payload : Nat) (h : Hub) : (record typ sev blk die pid payload h).occDone = h.occDone := by simp [record]
@[simp] theorem record_rounds (typ sev blk die pid payload : Nat) (h : Hub) : (record typ sev blk die pid payload h).rounds = h.rounds := by simp [record]
@[simp] theorem record_slotUse (typ sev blk die pid payload : Nat) (h : Hub) : (record typ sev blk die pid payload h).slotUse = h.slotUse := by simp [record]
@[simp] theorem record_integ (typ sev blk die pid payload : Nat) (h : Hub) : (record typ sev blk die pid payload h).integ = h.integ := by simp [record]
@[simp] theorem record_bt (typ sev blk die pid payload : Nat) (h : Hub) : (record typ sev blk die pid payload h).bt = h.bt := by simp [record]
@[simp] theorem record_side (typ sev blk die pid payload : Nat) (h : Hub) : (record typ sev blk die pid payload h).side = h.side := by simp [record]
@[simp] theorem record_undef (typ sev blk die pid payload : Nat) (h : Hub) : (record typ sev blk die pid payload h).undef = h.undef := by simp [record]

/-! ### pmuOverflow -/

@[simp] theorem pmuOverflow_now (die b : Nat) (h : Hub) : (pmuOverflow die b h).now = h.now := by
  unfold pmuOverflow; dsimp only; (repeat' split) <;> simp
@[simp] theorem pmuOverflow_free (die b : Nat) (h : Hub) : (pmuOverflow die b h).free = h.free := by
  unfold pmuOverflow; dsimp only; (repeat' split) <;> simp
@[simp] theorem pmuOverflow_led (die b : Nat) (h : Hub) : (pmuOverflow die b h).led = h.led := by
  unfold pmuOverflow; dsimp only; (repeat' split) <;> simp
@[simp] theorem pmuOverflow_rmap (die b : Nat) (h : Hub) : (pmuOverflow die b h).rmap = h.rmap := by
  unfold pmuOverflow; dsimp only; (repeat' split) <;> simp
@[simp] theorem pmuOverflow_mem (die b : Nat) (h : Hub) : (pmuOverflow die b h).mem = h.mem := by
  unfold pmuOverflow; dsimp only; (repeat' split) <;> simp
@[simp] theorem pmuOverflow_cache (die b : Nat) (h : Hub) : (pmuOverflow die b h).cache = h.cache := by
  unfold pmuOverflow; dsimp only; (repeat' split) <;> simp
@[simp] theorem pmuOverflow_sieve (die b : Nat) (h : Hub) : (pmuOverflow die b h).sieve = h.sieve := by
  unfold pmuOverflow; dsimp only; (repeat' split) <;> simp
@[simp] theorem pmuOverflow_recov (die b : Nat) (h : Hub) : (pmuOverflow die b h).recov = h.recov := by
  unfold pmuOverflow; dsimp only; (repeat' split) <;> simp
@[simp] theorem pmuOverflow_txns (die b : Nat) (h : Hub) : (pmuOverflow die b h).txns = h.txns := by
  unfold pmuOverflow; dsimp only; (repeat' split) <;> simp
@[simp] theorem pmuOverflow_nextId (die b : Nat) (h : Hub) : (pmuOverflow die b h).nextId = h.nextId := by
  unfold pmuOverflow; dsimp only; (repeat' split) <;> simp
@[simp] theorem pmuOverflow_snps (die b : Nat) (h : Hub) : (pmuOverflow die b h).snps = h.snps := by
  unfold pmuOverflow; dsimp only; (repeat' split) <;> simp
@[simp] theorem pmuOverflow_orphans (die b : Nat) (h : Hub) : (pmuOverflow die b h).orphans = h.orphans := by
  unfold pmuOverflow; dsimp only; (repeat' split) <;> simp
@[simp] theorem pmuOverflow_waiting (die b : Nat) (h : Hub) : (pmuOverflow die b h).waiting = h.waiting := by
  unfold pmuOverflow; dsimp only; (repeat' split) <;> simp
@[simp] theorem pmuOverflow_wbs (die b : Nat) (h : Hub) : (pmuOverflow die b h).wbs = h.wbs := by
  unfold pmuOverflow; dsimp only; (repeat' split) <;> simp
@[simp] theorem pmuOverflow_tongs (die b : Nat) (h : Hub) : (pmuOverflow die b h).tongs = h.tongs := by
  unfold pmuOverflow; dsimp only; (repeat' split) <;> simp
@[simp] theorem pmuOverflow_ladle (die b : Nat) (h : Hub) : (pmuOverflow die b h).ladle = h.ladle := by
  unfold pmuOverflow; dsimp only; (repeat' split) <;> simp
@[simp] theorem pmuOverflow_pfSkip (die b : Nat) (h : Hub) : (pmuOverflow die b h).pfSkip = h.pfSkip := by
  unfold pmuOverflow; dsimp only; (repeat' split) <;> simp
@[simp] theorem pmuOverflow_dets (die b : Nat) (h : Hub) : (pmuOverflow die b h).dets = h.dets := by
  unfold pmuOverflow; dsimp only; (repeat' split) <;> simp
@[simp] theorem pmuOverflow_mons (die b : Nat) (h : Hub) : (pmuOverflow die b h).mons = h.mons := by
  unfold pmuOverflow; dsimp only; (repeat' split) <;> simp
@[simp] theorem pmuOverflow_twin (die b : Nat) (h : Hub) : (pmuOverflow die b h).twin = h.twin := by
  unfold pmuOverflow; dsimp only; (repeat' split) <;> simp
@[simp] theorem pmuOverflow_parts (die b : Nat) (h : Hub) : (pmuOverflow die b h).parts = h.parts := by
  unfold pmuOverflow; dsimp only; (repeat' split) <;> simp
@[simp] theorem pmuOverflow_wins (die b : Nat) (h : Hub) : (pmuOverflow die b h).wins = h.wins := by
  unfold pmuOverflow; dsimp only; (repeat' split) <;> simp
@[simp] theorem pmuOverflow_mgrs (die b : Nat) (h : Hub) : (pmuOverflow die b h).mgrs = h.mgrs := by
  unfold pmuOverflow; dsimp only; (repeat' split) <;> simp
@[simp] theorem pmuOverflow_heavy (die b : Nat) (h : Hub) : (pmuOverflow die b h).heavy = h.heavy := by
  unfold pmuOverflow; dsimp only; (repeat' split) <;> simp
@[simp] theorem pmuOverflow_walks (die b : Nat) (h : Hub) : (pmuOverflow die b h).walks = h.walks := by
  unfold pmuOverflow; dsimp only; (repeat' split) <;> simp
@[simp] theorem pmuOverflow_shadows (die b : Nat) (h : Hub) : (pmuOverflow die b h).shadows = h.shadows := by
  unfold pmuOverflow; dsimp only; (repeat' split) <;> simp
@[simp] theorem pmuOverflow_images (die b : Nat) (h : Hub) : (pmuOverflow die b h).images = h.images := by
  unfold pmuOverflow; dsimp only; (repeat' split) <;> simp
@[simp] theorem pmuOverflow_warm (die b : Nat) (h : Hub) : (pmuOverflow die b h).warm = h.warm := by
  unfold pmuOverflow; dsimp only; (repeat' split) <;> simp
@[simp] theorem pmuOverflow_warmAt (die b : Nat) (h : Hub) : (pmuOverflow die b h).warmAt = h.warmAt := by
  unfold pmuOverflow; dsimp only; (repeat' split) <;> simp
@[simp] theorem pmuOverflow_stage (die b : Nat) (h : Hub) : (pmuOverflow die b h).stage = h.stage := by
  unfold pmuOverflow; dsimp only; (repeat' split) <;> simp
@[simp] theorem pmuOverflow_movs (die b : Nat) (h : Hub) : (pmuOverflow die b h).movs = h.movs := by
  unfold pmuOverflow; dsimp only; (repeat' split) <;> simp
@[simp] theorem pmuOverflow_fs (die b : Nat) (h : Hub) : (pmuOverflow die b h).fs = h.fs := by
  unfold pmuOverflow; dsimp only; (repeat' split) <;> simp
@[simp] theorem pmuOverflow_col (die b : Nat) (h : Hub) : (pmuOverflow die b h).col = h.col := by
  unfold pmuOverflow; dsimp only; (repeat' split) <;> simp
@[simp] theorem pmuOverflow_lid (die b : Nat) (h : Hub) : (pmuOverflow die b h).lid = h.lid := by
  unfold pmuOverflow; dsimp only; (repeat' split) <;> simp
@[simp] theorem pmuOverflow_mbox (die b : Nat) (h : Hub) : (pmuOverflow die b h).mbox = h.mbox := by
  unfold pmuOverflow; dsimp only; (repeat' split) <;> simp
@[simp] theorem pmuOverflow_bwLeft (die b : Nat) (h : Hub) : (pmuOverflow die b h).bwLeft = h.bwLeft := by
  unfold pmuOverflow; dsimp only; (repeat' split) <;> simp
@[simp] theorem pmuOverflow_bwLat (die b : Nat) (h : Hub) : (pmuOverflow die b h).bwLat = h.bwLat := by
  unfold pmuOverflow; dsimp only; (repeat' split) <;> simp
@[simp] theorem pmuOverflow_lat (die b : Nat) (h : Hub) : (pmuOverflow die b h).lat = h.lat := by
  unfold pmuOverflow; dsimp only; (repeat' split) <;> simp
@[simp] theorem pmuOverflow_latDone (die b : Nat) (h : Hub) : (pmuOverflow die b h).latDone = h.latDone := by
  unfold pmuOverflow; dsimp only; (repeat' split) <;> simp
@[simp] theorem pmuOverflow_occ (die b : Nat) (h : Hub) : (pmuOverflow die b h).occ = h.occ := by
  unfold pmuOverflow; dsimp only; (repeat' split) <;> simp
@[simp] theorem pmuOverflow_occDone (die b : Nat) (h : Hub) : (pmuOverflow die b h).occDone = h.occDone := by
  unfold pmuOverflow; dsimp only; (repeat' split) <;> simp
@[simp] theorem pmuOverflow_rounds (die b : Nat) (h : Hub) : (pmuOverflow die b h).rounds = h.rounds := by
  unfold pmuOverflow; dsimp only; (repeat' split) <;> simp
@[simp] theorem pmuOverflow_slotUse (die b : Nat) (h : Hub) : (pmuOverflow die b h).slotUse = h.slotUse := by
  unfold pmuOverflow; dsimp only; (repeat' split) <;> simp
@[simp] theorem pmuOverflow_integ (die b : Nat) (h : Hub) : (pmuOverflow die b h).integ = h.integ := by
  unfold pmuOverflow; dsimp only; (repeat' split) <;> simp
@[simp] theorem pmuOverflow_bt (die b : Nat) (h : Hub) : (pmuOverflow die b h).bt = h.bt := by
  unfold pmuOverflow; dsimp only; (repeat' split) <;> simp
@[simp] theorem pmuOverflow_side (die b : Nat) (h : Hub) : (pmuOverflow die b h).side = h.side := by
  unfold pmuOverflow; dsimp only; (repeat' split) <;> simp
@[simp] theorem pmuOverflow_undef (die b : Nat) (h : Hub) : (pmuOverflow die b h).undef = h.undef := by
  unfold pmuOverflow; dsimp only; (repeat' split) <;> simp

/-! ### pmuAdd -/

@[simp] theorem pmuAdd_now (die n x : Nat) (h : Hub) : (pmuAdd die n x h).now = h.now := by unfold pmuAdd; dsimp only; split <;> simp
@[simp] theorem pmuAdd_free (die n x : Nat) (h : Hub) : (pmuAdd die n x h).free = h.free := by unfold pmuAdd; dsimp only; split <;> simp
@[simp] theorem pmuAdd_led (die n x : Nat) (h : Hub) : (pmuAdd die n x h).led = h.led := by unfold pmuAdd; dsimp only; split <;> simp
@[simp] theorem pmuAdd_rmap (die n x : Nat) (h : Hub) : (pmuAdd die n x h).rmap = h.rmap := by unfold pmuAdd; dsimp only; split <;> simp
@[simp] theorem pmuAdd_mem (die n x : Nat) (h : Hub) : (pmuAdd die n x h).mem = h.mem := by unfold pmuAdd; dsimp only; split <;> simp
@[simp] theorem pmuAdd_cache (die n x : Nat) (h : Hub) : (pmuAdd die n x h).cache = h.cache := by unfold pmuAdd; dsimp only; split <;> simp
@[simp] theorem pmuAdd_sieve (die n x : Nat) (h : Hub) : (pmuAdd die n x h).sieve = h.sieve := by unfold pmuAdd; dsimp only; split <;> simp
@[simp] theorem pmuAdd_recov (die n x : Nat) (h : Hub) : (pmuAdd die n x h).recov = h.recov := by unfold pmuAdd; dsimp only; split <;> simp
@[simp] theorem pmuAdd_txns (die n x : Nat) (h : Hub) : (pmuAdd die n x h).txns = h.txns := by unfold pmuAdd; dsimp only; split <;> simp
@[simp] theorem pmuAdd_nextId (die n x : Nat) (h : Hub) : (pmuAdd die n x h).nextId = h.nextId := by unfold pmuAdd; dsimp only; split <;> simp
@[simp] theorem pmuAdd_snps (die n x : Nat) (h : Hub) : (pmuAdd die n x h).snps = h.snps := by unfold pmuAdd; dsimp only; split <;> simp
@[simp] theorem pmuAdd_orphans (die n x : Nat) (h : Hub) : (pmuAdd die n x h).orphans = h.orphans := by unfold pmuAdd; dsimp only; split <;> simp
@[simp] theorem pmuAdd_waiting (die n x : Nat) (h : Hub) : (pmuAdd die n x h).waiting = h.waiting := by unfold pmuAdd; dsimp only; split <;> simp
@[simp] theorem pmuAdd_wbs (die n x : Nat) (h : Hub) : (pmuAdd die n x h).wbs = h.wbs := by unfold pmuAdd; dsimp only; split <;> simp
@[simp] theorem pmuAdd_tongs (die n x : Nat) (h : Hub) : (pmuAdd die n x h).tongs = h.tongs := by unfold pmuAdd; dsimp only; split <;> simp
@[simp] theorem pmuAdd_ladle (die n x : Nat) (h : Hub) : (pmuAdd die n x h).ladle = h.ladle := by unfold pmuAdd; dsimp only; split <;> simp
@[simp] theorem pmuAdd_pfSkip (die n x : Nat) (h : Hub) : (pmuAdd die n x h).pfSkip = h.pfSkip := by unfold pmuAdd; dsimp only; split <;> simp
@[simp] theorem pmuAdd_dets (die n x : Nat) (h : Hub) : (pmuAdd die n x h).dets = h.dets := by unfold pmuAdd; dsimp only; split <;> simp
@[simp] theorem pmuAdd_mons (die n x : Nat) (h : Hub) : (pmuAdd die n x h).mons = h.mons := by unfold pmuAdd; dsimp only; split <;> simp
@[simp] theorem pmuAdd_twin (die n x : Nat) (h : Hub) : (pmuAdd die n x h).twin = h.twin := by unfold pmuAdd; dsimp only; split <;> simp
@[simp] theorem pmuAdd_parts (die n x : Nat) (h : Hub) : (pmuAdd die n x h).parts = h.parts := by unfold pmuAdd; dsimp only; split <;> simp
@[simp] theorem pmuAdd_wins (die n x : Nat) (h : Hub) : (pmuAdd die n x h).wins = h.wins := by unfold pmuAdd; dsimp only; split <;> simp
@[simp] theorem pmuAdd_mgrs (die n x : Nat) (h : Hub) : (pmuAdd die n x h).mgrs = h.mgrs := by unfold pmuAdd; dsimp only; split <;> simp
@[simp] theorem pmuAdd_heavy (die n x : Nat) (h : Hub) : (pmuAdd die n x h).heavy = h.heavy := by unfold pmuAdd; dsimp only; split <;> simp
@[simp] theorem pmuAdd_walks (die n x : Nat) (h : Hub) : (pmuAdd die n x h).walks = h.walks := by unfold pmuAdd; dsimp only; split <;> simp
@[simp] theorem pmuAdd_shadows (die n x : Nat) (h : Hub) : (pmuAdd die n x h).shadows = h.shadows := by unfold pmuAdd; dsimp only; split <;> simp
@[simp] theorem pmuAdd_images (die n x : Nat) (h : Hub) : (pmuAdd die n x h).images = h.images := by unfold pmuAdd; dsimp only; split <;> simp
@[simp] theorem pmuAdd_warm (die n x : Nat) (h : Hub) : (pmuAdd die n x h).warm = h.warm := by unfold pmuAdd; dsimp only; split <;> simp
@[simp] theorem pmuAdd_warmAt (die n x : Nat) (h : Hub) : (pmuAdd die n x h).warmAt = h.warmAt := by unfold pmuAdd; dsimp only; split <;> simp
@[simp] theorem pmuAdd_stage (die n x : Nat) (h : Hub) : (pmuAdd die n x h).stage = h.stage := by unfold pmuAdd; dsimp only; split <;> simp
@[simp] theorem pmuAdd_movs (die n x : Nat) (h : Hub) : (pmuAdd die n x h).movs = h.movs := by unfold pmuAdd; dsimp only; split <;> simp
@[simp] theorem pmuAdd_fs (die n x : Nat) (h : Hub) : (pmuAdd die n x h).fs = h.fs := by unfold pmuAdd; dsimp only; split <;> simp
@[simp] theorem pmuAdd_col (die n x : Nat) (h : Hub) : (pmuAdd die n x h).col = h.col := by unfold pmuAdd; dsimp only; split <;> simp
@[simp] theorem pmuAdd_lid (die n x : Nat) (h : Hub) : (pmuAdd die n x h).lid = h.lid := by unfold pmuAdd; dsimp only; split <;> simp
@[simp] theorem pmuAdd_mbox (die n x : Nat) (h : Hub) : (pmuAdd die n x h).mbox = h.mbox := by unfold pmuAdd; dsimp only; split <;> simp
@[simp] theorem pmuAdd_bwLeft (die n x : Nat) (h : Hub) : (pmuAdd die n x h).bwLeft = h.bwLeft := by unfold pmuAdd; dsimp only; split <;> simp
@[simp] theorem pmuAdd_bwLat (die n x : Nat) (h : Hub) : (pmuAdd die n x h).bwLat = h.bwLat := by unfold pmuAdd; dsimp only; split <;> simp
@[simp] theorem pmuAdd_lat (die n x : Nat) (h : Hub) : (pmuAdd die n x h).lat = h.lat := by unfold pmuAdd; dsimp only; split <;> simp
@[simp] theorem pmuAdd_latDone (die n x : Nat) (h : Hub) : (pmuAdd die n x h).latDone = h.latDone := by unfold pmuAdd; dsimp only; split <;> simp
@[simp] theorem pmuAdd_occ (die n x : Nat) (h : Hub) : (pmuAdd die n x h).occ = h.occ := by unfold pmuAdd; dsimp only; split <;> simp
@[simp] theorem pmuAdd_occDone (die n x : Nat) (h : Hub) : (pmuAdd die n x h).occDone = h.occDone := by unfold pmuAdd; dsimp only; split <;> simp
@[simp] theorem pmuAdd_rounds (die n x : Nat) (h : Hub) : (pmuAdd die n x h).rounds = h.rounds := by unfold pmuAdd; dsimp only; split <;> simp
@[simp] theorem pmuAdd_slotUse (die n x : Nat) (h : Hub) : (pmuAdd die n x h).slotUse = h.slotUse := by unfold pmuAdd; dsimp only; split <;> simp
@[simp] theorem pmuAdd_integ (die n x : Nat) (h : Hub) : (pmuAdd die n x h).integ = h.integ := by unfold pmuAdd; dsimp only; split <;> simp
@[simp] theorem pmuAdd_bt (die n x : Nat) (h : Hub) : (pmuAdd die n x h).bt = h.bt := by unfold pmuAdd; dsimp only; split <;> simp
@[simp] theorem pmuAdd_side (die n x : Nat) (h : Hub) : (pmuAdd die n x h).side = h.side := by unfold pmuAdd; dsimp only; split <;> simp
@[simp] theorem pmuAdd_undef (die n x : Nat) (h : Hub) : (pmuAdd die n x h).undef = h.undef := by unfold pmuAdd; dsimp only; split <;> simp

/-! ### pmu -/

@[simp] theorem pmu_now (ev die x : Nat) (a : Attr) (h : Hub) : (pmu ev die x a h).now = h.now := by
  unfold pmu; apply forEach_keeps (fun h => h.now); intro n h; split
  · rfl
  · exact ite_keeps (fun h => h.now) (by simp) rfl
@[simp] theorem pmu_free (ev die x : Nat) (a : Attr) (h : Hub) : (pmu ev die x a h).free = h.free := by
  unfold pmu; apply forEach_keeps (fun h => h.free); intro n h; split
  · rfl
  · exact ite_keeps (fun h => h.free) (by simp) rfl
@[simp] theorem pmu_led (ev die x : Nat) (a : Attr) (h : Hub) : (pmu ev die x a h).led = h.led := by
  unfold pmu; apply forEach_keeps (fun h => h.led); intro n h; split
  · rfl
  · exact ite_keeps (fun h => h.led) (by simp) rfl
@[simp] theorem pmu_rmap (ev die x : Nat) (a : Attr) (h : Hub) : (pmu ev die x a h).rmap = h.rmap := by
  unfold pmu; apply forEach_keeps (fun h => h.rmap); intro n h; split
  · rfl
  · exact ite_keeps (fun h => h.rmap) (by simp) rfl
@[simp] theorem pmu_mem (ev die x : Nat) (a : Attr) (h : Hub) : (pmu ev die x a h).mem = h.mem := by
  unfold pmu; apply forEach_keeps (fun h => h.mem); intro n h; split
  · rfl
  · exact ite_keeps (fun h => h.mem) (by simp) rfl
@[simp] theorem pmu_cache (ev die x : Nat) (a : Attr) (h : Hub) : (pmu ev die x a h).cache = h.cache := by
  unfold pmu; apply forEach_keeps (fun h => h.cache); intro n h; split
  · rfl
  · exact ite_keeps (fun h => h.cache) (by simp) rfl
@[simp] theorem pmu_sieve (ev die x : Nat) (a : Attr) (h : Hub) : (pmu ev die x a h).sieve = h.sieve := by
  unfold pmu; apply forEach_keeps (fun h => h.sieve); intro n h; split
  · rfl
  · exact ite_keeps (fun h => h.sieve) (by simp) rfl
@[simp] theorem pmu_recov (ev die x : Nat) (a : Attr) (h : Hub) : (pmu ev die x a h).recov = h.recov := by
  unfold pmu; apply forEach_keeps (fun h => h.recov); intro n h; split
  · rfl
  · exact ite_keeps (fun h => h.recov) (by simp) rfl
@[simp] theorem pmu_txns (ev die x : Nat) (a : Attr) (h : Hub) : (pmu ev die x a h).txns = h.txns := by
  unfold pmu; apply forEach_keeps (fun h => h.txns); intro n h; split
  · rfl
  · exact ite_keeps (fun h => h.txns) (by simp) rfl
@[simp] theorem pmu_nextId (ev die x : Nat) (a : Attr) (h : Hub) : (pmu ev die x a h).nextId = h.nextId := by
  unfold pmu; apply forEach_keeps (fun h => h.nextId); intro n h; split
  · rfl
  · exact ite_keeps (fun h => h.nextId) (by simp) rfl
@[simp] theorem pmu_snps (ev die x : Nat) (a : Attr) (h : Hub) : (pmu ev die x a h).snps = h.snps := by
  unfold pmu; apply forEach_keeps (fun h => h.snps); intro n h; split
  · rfl
  · exact ite_keeps (fun h => h.snps) (by simp) rfl
@[simp] theorem pmu_orphans (ev die x : Nat) (a : Attr) (h : Hub) : (pmu ev die x a h).orphans = h.orphans := by
  unfold pmu; apply forEach_keeps (fun h => h.orphans); intro n h; split
  · rfl
  · exact ite_keeps (fun h => h.orphans) (by simp) rfl
@[simp] theorem pmu_waiting (ev die x : Nat) (a : Attr) (h : Hub) : (pmu ev die x a h).waiting = h.waiting := by
  unfold pmu; apply forEach_keeps (fun h => h.waiting); intro n h; split
  · rfl
  · exact ite_keeps (fun h => h.waiting) (by simp) rfl
@[simp] theorem pmu_wbs (ev die x : Nat) (a : Attr) (h : Hub) : (pmu ev die x a h).wbs = h.wbs := by
  unfold pmu; apply forEach_keeps (fun h => h.wbs); intro n h; split
  · rfl
  · exact ite_keeps (fun h => h.wbs) (by simp) rfl
@[simp] theorem pmu_tongs (ev die x : Nat) (a : Attr) (h : Hub) : (pmu ev die x a h).tongs = h.tongs := by
  unfold pmu; apply forEach_keeps (fun h => h.tongs); intro n h; split
  · rfl
  · exact ite_keeps (fun h => h.tongs) (by simp) rfl
@[simp] theorem pmu_ladle (ev die x : Nat) (a : Attr) (h : Hub) : (pmu ev die x a h).ladle = h.ladle := by
  unfold pmu; apply forEach_keeps (fun h => h.ladle); intro n h; split
  · rfl
  · exact ite_keeps (fun h => h.ladle) (by simp) rfl
@[simp] theorem pmu_pfSkip (ev die x : Nat) (a : Attr) (h : Hub) : (pmu ev die x a h).pfSkip = h.pfSkip := by
  unfold pmu; apply forEach_keeps (fun h => h.pfSkip); intro n h; split
  · rfl
  · exact ite_keeps (fun h => h.pfSkip) (by simp) rfl
@[simp] theorem pmu_dets (ev die x : Nat) (a : Attr) (h : Hub) : (pmu ev die x a h).dets = h.dets := by
  unfold pmu; apply forEach_keeps (fun h => h.dets); intro n h; split
  · rfl
  · exact ite_keeps (fun h => h.dets) (by simp) rfl
@[simp] theorem pmu_mons (ev die x : Nat) (a : Attr) (h : Hub) : (pmu ev die x a h).mons = h.mons := by
  unfold pmu; apply forEach_keeps (fun h => h.mons); intro n h; split
  · rfl
  · exact ite_keeps (fun h => h.mons) (by simp) rfl
@[simp] theorem pmu_twin (ev die x : Nat) (a : Attr) (h : Hub) : (pmu ev die x a h).twin = h.twin := by
  unfold pmu; apply forEach_keeps (fun h => h.twin); intro n h; split
  · rfl
  · exact ite_keeps (fun h => h.twin) (by simp) rfl
@[simp] theorem pmu_parts (ev die x : Nat) (a : Attr) (h : Hub) : (pmu ev die x a h).parts = h.parts := by
  unfold pmu; apply forEach_keeps (fun h => h.parts); intro n h; split
  · rfl
  · exact ite_keeps (fun h => h.parts) (by simp) rfl
@[simp] theorem pmu_wins (ev die x : Nat) (a : Attr) (h : Hub) : (pmu ev die x a h).wins = h.wins := by
  unfold pmu; apply forEach_keeps (fun h => h.wins); intro n h; split
  · rfl
  · exact ite_keeps (fun h => h.wins) (by simp) rfl
@[simp] theorem pmu_mgrs (ev die x : Nat) (a : Attr) (h : Hub) : (pmu ev die x a h).mgrs = h.mgrs := by
  unfold pmu; apply forEach_keeps (fun h => h.mgrs); intro n h; split
  · rfl
  · exact ite_keeps (fun h => h.mgrs) (by simp) rfl
@[simp] theorem pmu_heavy (ev die x : Nat) (a : Attr) (h : Hub) : (pmu ev die x a h).heavy = h.heavy := by
  unfold pmu; apply forEach_keeps (fun h => h.heavy); intro n h; split
  · rfl
  · exact ite_keeps (fun h => h.heavy) (by simp) rfl
@[simp] theorem pmu_walks (ev die x : Nat) (a : Attr) (h : Hub) : (pmu ev die x a h).walks = h.walks := by
  unfold pmu; apply forEach_keeps (fun h => h.walks); intro n h; split
  · rfl
  · exact ite_keeps (fun h => h.walks) (by simp) rfl
@[simp] theorem pmu_shadows (ev die x : Nat) (a : Attr) (h : Hub) : (pmu ev die x a h).shadows = h.shadows := by
  unfold pmu; apply forEach_keeps (fun h => h.shadows); intro n h; split
  · rfl
  · exact ite_keeps (fun h => h.shadows) (by simp) rfl
@[simp] theorem pmu_images (ev die x : Nat) (a : Attr) (h : Hub) : (pmu ev die x a h).images = h.images := by
  unfold pmu; apply forEach_keeps (fun h => h.images); intro n h; split
  · rfl
  · exact ite_keeps (fun h => h.images) (by simp) rfl
@[simp] theorem pmu_warm (ev die x : Nat) (a : Attr) (h : Hub) : (pmu ev die x a h).warm = h.warm := by
  unfold pmu; apply forEach_keeps (fun h => h.warm); intro n h; split
  · rfl
  · exact ite_keeps (fun h => h.warm) (by simp) rfl
@[simp] theorem pmu_warmAt (ev die x : Nat) (a : Attr) (h : Hub) : (pmu ev die x a h).warmAt = h.warmAt := by
  unfold pmu; apply forEach_keeps (fun h => h.warmAt); intro n h; split
  · rfl
  · exact ite_keeps (fun h => h.warmAt) (by simp) rfl
@[simp] theorem pmu_stage (ev die x : Nat) (a : Attr) (h : Hub) : (pmu ev die x a h).stage = h.stage := by
  unfold pmu; apply forEach_keeps (fun h => h.stage); intro n h; split
  · rfl
  · exact ite_keeps (fun h => h.stage) (by simp) rfl
@[simp] theorem pmu_movs (ev die x : Nat) (a : Attr) (h : Hub) : (pmu ev die x a h).movs = h.movs := by
  unfold pmu; apply forEach_keeps (fun h => h.movs); intro n h; split
  · rfl
  · exact ite_keeps (fun h => h.movs) (by simp) rfl
@[simp] theorem pmu_fs (ev die x : Nat) (a : Attr) (h : Hub) : (pmu ev die x a h).fs = h.fs := by
  unfold pmu; apply forEach_keeps (fun h => h.fs); intro n h; split
  · rfl
  · exact ite_keeps (fun h => h.fs) (by simp) rfl
@[simp] theorem pmu_col (ev die x : Nat) (a : Attr) (h : Hub) : (pmu ev die x a h).col = h.col := by
  unfold pmu; apply forEach_keeps (fun h => h.col); intro n h; split
  · rfl
  · exact ite_keeps (fun h => h.col) (by simp) rfl
@[simp] theorem pmu_lid (ev die x : Nat) (a : Attr) (h : Hub) : (pmu ev die x a h).lid = h.lid := by
  unfold pmu; apply forEach_keeps (fun h => h.lid); intro n h; split
  · rfl
  · exact ite_keeps (fun h => h.lid) (by simp) rfl
@[simp] theorem pmu_mbox (ev die x : Nat) (a : Attr) (h : Hub) : (pmu ev die x a h).mbox = h.mbox := by
  unfold pmu; apply forEach_keeps (fun h => h.mbox); intro n h; split
  · rfl
  · exact ite_keeps (fun h => h.mbox) (by simp) rfl
@[simp] theorem pmu_bwLeft (ev die x : Nat) (a : Attr) (h : Hub) : (pmu ev die x a h).bwLeft = h.bwLeft := by
  unfold pmu; apply forEach_keeps (fun h => h.bwLeft); intro n h; split
  · rfl
  · exact ite_keeps (fun h => h.bwLeft) (by simp) rfl
@[simp] theorem pmu_bwLat (ev die x : Nat) (a : Attr) (h : Hub) : (pmu ev die x a h).bwLat = h.bwLat := by
  unfold pmu; apply forEach_keeps (fun h => h.bwLat); intro n h; split
  · rfl
  · exact ite_keeps (fun h => h.bwLat) (by simp) rfl
@[simp] theorem pmu_lat (ev die x : Nat) (a : Attr) (h : Hub) : (pmu ev die x a h).lat = h.lat := by
  unfold pmu; apply forEach_keeps (fun h => h.lat); intro n h; split
  · rfl
  · exact ite_keeps (fun h => h.lat) (by simp) rfl
@[simp] theorem pmu_latDone (ev die x : Nat) (a : Attr) (h : Hub) : (pmu ev die x a h).latDone = h.latDone := by
  unfold pmu; apply forEach_keeps (fun h => h.latDone); intro n h; split
  · rfl
  · exact ite_keeps (fun h => h.latDone) (by simp) rfl
@[simp] theorem pmu_occ (ev die x : Nat) (a : Attr) (h : Hub) : (pmu ev die x a h).occ = h.occ := by
  unfold pmu; apply forEach_keeps (fun h => h.occ); intro n h; split
  · rfl
  · exact ite_keeps (fun h => h.occ) (by simp) rfl
@[simp] theorem pmu_occDone (ev die x : Nat) (a : Attr) (h : Hub) : (pmu ev die x a h).occDone = h.occDone := by
  unfold pmu; apply forEach_keeps (fun h => h.occDone); intro n h; split
  · rfl
  · exact ite_keeps (fun h => h.occDone) (by simp) rfl
@[simp] theorem pmu_rounds (ev die x : Nat) (a : Attr) (h : Hub) : (pmu ev die x a h).rounds = h.rounds := by
  unfold pmu; apply forEach_keeps (fun h => h.rounds); intro n h; split
  · rfl
  · exact ite_keeps (fun h => h.rounds) (by simp) rfl
@[simp] theorem pmu_slotUse (ev die x : Nat) (a : Attr) (h : Hub) : (pmu ev die x a h).slotUse = h.slotUse := by
  unfold pmu; apply forEach_keeps (fun h => h.slotUse); intro n h; split
  · rfl
  · exact ite_keeps (fun h => h.slotUse) (by simp) rfl
@[simp] theorem pmu_integ (ev die x : Nat) (a : Attr) (h : Hub) : (pmu ev die x a h).integ = h.integ := by
  unfold pmu; apply forEach_keeps (fun h => h.integ); intro n h; split
  · rfl
  · exact ite_keeps (fun h => h.integ) (by simp) rfl
@[simp] theorem pmu_bt (ev die x : Nat) (a : Attr) (h : Hub) : (pmu ev die x a h).bt = h.bt := by
  unfold pmu; apply forEach_keeps (fun h => h.bt); intro n h; split
  · rfl
  · exact ite_keeps (fun h => h.bt) (by simp) rfl
@[simp] theorem pmu_side (ev die x : Nat) (a : Attr) (h : Hub) : (pmu ev die x a h).side = h.side := by
  unfold pmu; apply forEach_keeps (fun h => h.side); intro n h; split
  · rfl
  · exact ite_keeps (fun h => h.side) (by simp) rfl
@[simp] theorem pmu_undef (ev die x : Nat) (a : Attr) (h : Hub) : (pmu ev die x a h).undef = h.undef := by
  unfold pmu; apply forEach_keeps (fun h => h.undef); intro n h; split
  · rfl
  · exact ite_keeps (fun h => h.undef) (by simp) rfl

/-! ### pageAdd -/

@[simp] theorem pageAdd_now (pid i x : Nat) (h : Hub) : (pageAdd pid i x h).now = h.now := by
  unfold pageAdd; (repeat' split) <;> rfl
@[simp] theorem pageAdd_free (pid i x : Nat) (h : Hub) : (pageAdd pid i x h).free = h.free := by
  unfold pageAdd; (repeat' split) <;> rfl
@[simp] theorem pageAdd_regs (pid i x : Nat) (h : Hub) : (pageAdd pid i x h).regs = h.regs := by
  unfold pageAdd; (repeat' split) <;> rfl
@[simp] theorem pageAdd_life (pid i x : Nat) (h : Hub) : (pageAdd pid i x h).life = h.life := by
  unfold pageAdd; (repeat' split) <;> rfl
@[simp] theorem pageAdd_led (pid i x : Nat) (h : Hub) : (pageAdd pid i x h).led = h.led := by
  unfold pageAdd; (repeat' split) <;> rfl
@[simp] theorem pageAdd_rmap (pid i x : Nat) (h : Hub) : (pageAdd pid i x h).rmap = h.rmap := by
  unfold pageAdd; (repeat' split) <;> rfl
@[simp] theorem pageAdd_mem (pid i x : Nat) (h : Hub) : (pageAdd pid i x h).mem = h.mem := by
  unfold pageAdd; (repeat' split) <;> rfl
@[simp] theorem pageAdd_cache (pid i x : Nat) (h : Hub) : (pageAdd pid i x h).cache = h.cache := by
  unfold pageAdd; (repeat' split) <;> rfl
@[simp] theorem pageAdd_sieve (pid i x : Nat) (h : Hub) : (pageAdd pid i x h).sieve = h.sieve := by
  unfold pageAdd; (repeat' split) <;> rfl
@[simp] theorem pageAdd_recov (pid i x : Nat) (h : Hub) : (pageAdd pid i x h).recov = h.recov := by
  unfold pageAdd; (repeat' split) <;> rfl
@[simp] theorem pageAdd_txns (pid i x : Nat) (h : Hub) : (pageAdd pid i x h).txns = h.txns := by
  unfold pageAdd; (repeat' split) <;> rfl
@[simp] theorem pageAdd_nextId (pid i x : Nat) (h : Hub) : (pageAdd pid i x h).nextId = h.nextId := by
  unfold pageAdd; (repeat' split) <;> rfl
@[simp] theorem pageAdd_snps (pid i x : Nat) (h : Hub) : (pageAdd pid i x h).snps = h.snps := by
  unfold pageAdd; (repeat' split) <;> rfl
@[simp] theorem pageAdd_orphans (pid i x : Nat) (h : Hub) : (pageAdd pid i x h).orphans = h.orphans := by
  unfold pageAdd; (repeat' split) <;> rfl
@[simp] theorem pageAdd_waiting (pid i x : Nat) (h : Hub) : (pageAdd pid i x h).waiting = h.waiting := by
  unfold pageAdd; (repeat' split) <;> rfl
@[simp] theorem pageAdd_wbs (pid i x : Nat) (h : Hub) : (pageAdd pid i x h).wbs = h.wbs := by
  unfold pageAdd; (repeat' split) <;> rfl
@[simp] theorem pageAdd_tongs (pid i x : Nat) (h : Hub) : (pageAdd pid i x h).tongs = h.tongs := by
  unfold pageAdd; (repeat' split) <;> rfl
@[simp] theorem pageAdd_ladle (pid i x : Nat) (h : Hub) : (pageAdd pid i x h).ladle = h.ladle := by
  unfold pageAdd; (repeat' split) <;> rfl
@[simp] theorem pageAdd_pfSkip (pid i x : Nat) (h : Hub) : (pageAdd pid i x h).pfSkip = h.pfSkip := by
  unfold pageAdd; (repeat' split) <;> rfl
@[simp] theorem pageAdd_dets (pid i x : Nat) (h : Hub) : (pageAdd pid i x h).dets = h.dets := by
  unfold pageAdd; (repeat' split) <;> rfl
@[simp] theorem pageAdd_mons (pid i x : Nat) (h : Hub) : (pageAdd pid i x h).mons = h.mons := by
  unfold pageAdd; (repeat' split) <;> rfl
@[simp] theorem pageAdd_links (pid i x : Nat) (h : Hub) : (pageAdd pid i x h).links = h.links := by
  unfold pageAdd; (repeat' split) <;> rfl
@[simp] theorem pageAdd_twin (pid i x : Nat) (h : Hub) : (pageAdd pid i x h).twin = h.twin := by
  unfold pageAdd; (repeat' split) <;> rfl
@[simp] theorem pageAdd_wins (pid i x : Nat) (h : Hub) : (pageAdd pid i x h).wins = h.wins := by
  unfold pageAdd; (repeat' split) <;> rfl
@[simp] theorem pageAdd_mgrs (pid i x : Nat) (h : Hub) : (pageAdd pid i x h).mgrs = h.mgrs := by
  unfold pageAdd; (repeat' split) <;> rfl
@[simp] theorem pageAdd_heavy (pid i x : Nat) (h : Hub) : (pageAdd pid i x h).heavy = h.heavy := by
  unfold pageAdd; (repeat' split) <;> rfl
@[simp] theorem pageAdd_walks (pid i x : Nat) (h : Hub) : (pageAdd pid i x h).walks = h.walks := by
  unfold pageAdd; (repeat' split) <;> rfl
@[simp] theorem pageAdd_shadows (pid i x : Nat) (h : Hub) : (pageAdd pid i x h).shadows = h.shadows := by
  unfold pageAdd; (repeat' split) <;> rfl
@[simp] theorem pageAdd_images (pid i x : Nat) (h : Hub) : (pageAdd pid i x h).images = h.images := by
  unfold pageAdd; (repeat' split) <;> rfl
@[simp] theorem pageAdd_warm (pid i x : Nat) (h : Hub) : (pageAdd pid i x h).warm = h.warm := by
  unfold pageAdd; (repeat' split) <;> rfl
@[simp] theorem pageAdd_warmAt (pid i x : Nat) (h : Hub) : (pageAdd pid i x h).warmAt = h.warmAt := by
  unfold pageAdd; (repeat' split) <;> rfl
@[simp] theorem pageAdd_stage (pid i x : Nat) (h : Hub) : (pageAdd pid i x h).stage = h.stage := by
  unfold pageAdd; (repeat' split) <;> rfl
@[simp] theorem pageAdd_movs (pid i x : Nat) (h : Hub) : (pageAdd pid i x h).movs = h.movs := by
  unfold pageAdd; (repeat' split) <;> rfl
@[simp] theorem pageAdd_fs (pid i x : Nat) (h : Hub) : (pageAdd pid i x h).fs = h.fs := by
  unfold pageAdd; (repeat' split) <;> rfl
@[simp] theorem pageAdd_col (pid i x : Nat) (h : Hub) : (pageAdd pid i x h).col = h.col := by
  unfold pageAdd; (repeat' split) <;> rfl
@[simp] theorem pageAdd_lid (pid i x : Nat) (h : Hub) : (pageAdd pid i x h).lid = h.lid := by
  unfold pageAdd; (repeat' split) <;> rfl
@[simp] theorem pageAdd_mbox (pid i x : Nat) (h : Hub) : (pageAdd pid i x h).mbox = h.mbox := by
  unfold pageAdd; (repeat' split) <;> rfl
@[simp] theorem pageAdd_pmu (pid i x : Nat) (h : Hub) : (pageAdd pid i x h).pmu = h.pmu := by
  unfold pageAdd; (repeat' split) <;> rfl
@[simp] theorem pageAdd_bwLeft (pid i x : Nat) (h : Hub) : (pageAdd pid i x h).bwLeft = h.bwLeft := by
  unfold pageAdd; (repeat' split) <;> rfl
@[simp] theorem pageAdd_bwLat (pid i x : Nat) (h : Hub) : (pageAdd pid i x h).bwLat = h.bwLat := by
  unfold pageAdd; (repeat' split) <;> rfl
@[simp] theorem pageAdd_lat (pid i x : Nat) (h : Hub) : (pageAdd pid i x h).lat = h.lat := by
  unfold pageAdd; (repeat' split) <;> rfl
@[simp] theorem pageAdd_latDone (pid i x : Nat) (h : Hub) : (pageAdd pid i x h).latDone = h.latDone := by
  unfold pageAdd; (repeat' split) <;> rfl
@[simp] theorem pageAdd_occ (pid i x : Nat) (h : Hub) : (pageAdd pid i x h).occ = h.occ := by
  unfold pageAdd; (repeat' split) <;> rfl
@[simp] theorem pageAdd_occDone (pid i x : Nat) (h : Hub) : (pageAdd pid i x h).occDone = h.occDone := by
  unfold pageAdd; (repeat' split) <;> rfl
@[simp] theorem pageAdd_rounds (pid i x : Nat) (h : Hub) : (pageAdd pid i x h).rounds = h.rounds := by
  unfold pageAdd; (repeat' split) <;> rfl
@[simp] theorem pageAdd_slotUse (pid i x : Nat) (h : Hub) : (pageAdd pid i x h).slotUse = h.slotUse := by
  unfold pageAdd; (repeat' split) <;> rfl
@[simp] theorem pageAdd_integ (pid i x : Nat) (h : Hub) : (pageAdd pid i x h).integ = h.integ := by
  unfold pageAdd; (repeat' split) <;> rfl
@[simp] theorem pageAdd_bt (pid i x : Nat) (h : Hub) : (pageAdd pid i x h).bt = h.bt := by
  unfold pageAdd; (repeat' split) <;> rfl
@[simp] theorem pageAdd_side (pid i x : Nat) (h : Hub) : (pageAdd pid i x h).side = h.side := by
  unfold pageAdd; (repeat' split) <;> rfl
@[simp] theorem pageAdd_undef (pid i x : Nat) (h : Hub) : (pageAdd pid i x h).undef = h.undef := by
  unfold pageAdd; (repeat' split) <;> rfl

/-! ### linkCount -/

@[simp] theorem linkCount_now (l hi lo : Nat) (h : Hub) : (linkCount l hi lo h).now = h.now := by unfold linkCount; simp
@[simp] theorem linkCount_free (l hi lo : Nat) (h : Hub) : (linkCount l hi lo h).free = h.free := by unfold linkCount; simp
@[simp] theorem linkCount_life (l hi lo : Nat) (h : Hub) : (linkCount l hi lo h).life = h.life := by unfold linkCount; simp
@[simp] theorem linkCount_led (l hi lo : Nat) (h : Hub) : (linkCount l hi lo h).led = h.led := by unfold linkCount; simp
@[simp] theorem linkCount_rmap (l hi lo : Nat) (h : Hub) : (linkCount l hi lo h).rmap = h.rmap := by unfold linkCount; simp
@[simp] theorem linkCount_mem (l hi lo : Nat) (h : Hub) : (linkCount l hi lo h).mem = h.mem := by unfold linkCount; simp
@[simp] theorem linkCount_cache (l hi lo : Nat) (h : Hub) : (linkCount l hi lo h).cache = h.cache := by unfold linkCount; simp
@[simp] theorem linkCount_sieve (l hi lo : Nat) (h : Hub) : (linkCount l hi lo h).sieve = h.sieve := by unfold linkCount; simp
@[simp] theorem linkCount_recov (l hi lo : Nat) (h : Hub) : (linkCount l hi lo h).recov = h.recov := by unfold linkCount; simp
@[simp] theorem linkCount_txns (l hi lo : Nat) (h : Hub) : (linkCount l hi lo h).txns = h.txns := by unfold linkCount; simp
@[simp] theorem linkCount_nextId (l hi lo : Nat) (h : Hub) : (linkCount l hi lo h).nextId = h.nextId := by unfold linkCount; simp
@[simp] theorem linkCount_snps (l hi lo : Nat) (h : Hub) : (linkCount l hi lo h).snps = h.snps := by unfold linkCount; simp
@[simp] theorem linkCount_orphans (l hi lo : Nat) (h : Hub) : (linkCount l hi lo h).orphans = h.orphans := by unfold linkCount; simp
@[simp] theorem linkCount_waiting (l hi lo : Nat) (h : Hub) : (linkCount l hi lo h).waiting = h.waiting := by unfold linkCount; simp
@[simp] theorem linkCount_wbs (l hi lo : Nat) (h : Hub) : (linkCount l hi lo h).wbs = h.wbs := by unfold linkCount; simp
@[simp] theorem linkCount_tongs (l hi lo : Nat) (h : Hub) : (linkCount l hi lo h).tongs = h.tongs := by unfold linkCount; simp
@[simp] theorem linkCount_ladle (l hi lo : Nat) (h : Hub) : (linkCount l hi lo h).ladle = h.ladle := by unfold linkCount; simp
@[simp] theorem linkCount_pfSkip (l hi lo : Nat) (h : Hub) : (linkCount l hi lo h).pfSkip = h.pfSkip := by unfold linkCount; simp
@[simp] theorem linkCount_dets (l hi lo : Nat) (h : Hub) : (linkCount l hi lo h).dets = h.dets := by unfold linkCount; simp
@[simp] theorem linkCount_mons (l hi lo : Nat) (h : Hub) : (linkCount l hi lo h).mons = h.mons := by unfold linkCount; simp
@[simp] theorem linkCount_links (l hi lo : Nat) (h : Hub) : (linkCount l hi lo h).links = h.links := by unfold linkCount; simp
@[simp] theorem linkCount_twin (l hi lo : Nat) (h : Hub) : (linkCount l hi lo h).twin = h.twin := by unfold linkCount; simp
@[simp] theorem linkCount_parts (l hi lo : Nat) (h : Hub) : (linkCount l hi lo h).parts = h.parts := by unfold linkCount; simp
@[simp] theorem linkCount_wins (l hi lo : Nat) (h : Hub) : (linkCount l hi lo h).wins = h.wins := by unfold linkCount; simp
@[simp] theorem linkCount_mgrs (l hi lo : Nat) (h : Hub) : (linkCount l hi lo h).mgrs = h.mgrs := by unfold linkCount; simp
@[simp] theorem linkCount_heavy (l hi lo : Nat) (h : Hub) : (linkCount l hi lo h).heavy = h.heavy := by unfold linkCount; simp
@[simp] theorem linkCount_walks (l hi lo : Nat) (h : Hub) : (linkCount l hi lo h).walks = h.walks := by unfold linkCount; simp
@[simp] theorem linkCount_shadows (l hi lo : Nat) (h : Hub) : (linkCount l hi lo h).shadows = h.shadows := by unfold linkCount; simp
@[simp] theorem linkCount_images (l hi lo : Nat) (h : Hub) : (linkCount l hi lo h).images = h.images := by unfold linkCount; simp
@[simp] theorem linkCount_warm (l hi lo : Nat) (h : Hub) : (linkCount l hi lo h).warm = h.warm := by unfold linkCount; simp
@[simp] theorem linkCount_warmAt (l hi lo : Nat) (h : Hub) : (linkCount l hi lo h).warmAt = h.warmAt := by unfold linkCount; simp
@[simp] theorem linkCount_stage (l hi lo : Nat) (h : Hub) : (linkCount l hi lo h).stage = h.stage := by unfold linkCount; simp
@[simp] theorem linkCount_movs (l hi lo : Nat) (h : Hub) : (linkCount l hi lo h).movs = h.movs := by unfold linkCount; simp
@[simp] theorem linkCount_fs (l hi lo : Nat) (h : Hub) : (linkCount l hi lo h).fs = h.fs := by unfold linkCount; simp
@[simp] theorem linkCount_col (l hi lo : Nat) (h : Hub) : (linkCount l hi lo h).col = h.col := by unfold linkCount; simp
@[simp] theorem linkCount_lid (l hi lo : Nat) (h : Hub) : (linkCount l hi lo h).lid = h.lid := by unfold linkCount; simp
@[simp] theorem linkCount_mbox (l hi lo : Nat) (h : Hub) : (linkCount l hi lo h).mbox = h.mbox := by unfold linkCount; simp
@[simp] theorem linkCount_pmu (l hi lo : Nat) (h : Hub) : (linkCount l hi lo h).pmu = h.pmu := by unfold linkCount; simp
@[simp] theorem linkCount_bwLeft (l hi lo : Nat) (h : Hub) : (linkCount l hi lo h).bwLeft = h.bwLeft := by unfold linkCount; simp
@[simp] theorem linkCount_bwLat (l hi lo : Nat) (h : Hub) : (linkCount l hi lo h).bwLat = h.bwLat := by unfold linkCount; simp
@[simp] theorem linkCount_lat (l hi lo : Nat) (h : Hub) : (linkCount l hi lo h).lat = h.lat := by unfold linkCount; simp
@[simp] theorem linkCount_latDone (l hi lo : Nat) (h : Hub) : (linkCount l hi lo h).latDone = h.latDone := by unfold linkCount; simp
@[simp] theorem linkCount_occ (l hi lo : Nat) (h : Hub) : (linkCount l hi lo h).occ = h.occ := by unfold linkCount; simp
@[simp] theorem linkCount_occDone (l hi lo : Nat) (h : Hub) : (linkCount l hi lo h).occDone = h.occDone := by unfold linkCount; simp
@[simp] theorem linkCount_rounds (l hi lo : Nat) (h : Hub) : (linkCount l hi lo h).rounds = h.rounds := by unfold linkCount; simp
@[simp] theorem linkCount_slotUse (l hi lo : Nat) (h : Hub) : (linkCount l hi lo h).slotUse = h.slotUse := by unfold linkCount; simp
@[simp] theorem linkCount_integ (l hi lo : Nat) (h : Hub) : (linkCount l hi lo h).integ = h.integ := by unfold linkCount; simp
@[simp] theorem linkCount_bt (l hi lo : Nat) (h : Hub) : (linkCount l hi lo h).bt = h.bt := by unfold linkCount; simp
@[simp] theorem linkCount_side (l hi lo : Nat) (h : Hub) : (linkCount l hi lo h).side = h.side := by unfold linkCount; simp
@[simp] theorem linkCount_undef (l hi lo : Nat) (h : Hub) : (linkCount l hi lo h).undef = h.undef := by unfold linkCount; simp

/-! ### countDeny -/

@[simp] theorem countDeny_now (pid : Nat) (h : Hub) : (countDeny pid h).now = h.now := by unfold countDeny; dsimp only; split <;> simp
@[simp] theorem countDeny_free (pid : Nat) (h : Hub) : (countDeny pid h).free = h.free := by unfold countDeny; dsimp only; split <;> simp
@[simp] theorem countDeny_life (pid : Nat) (h : Hub) : (countDeny pid h).life = h.life := by unfold countDeny; dsimp only; split <;> simp
@[simp] theorem countDeny_led (pid : Nat) (h : Hub) : (countDeny pid h).led = h.led := by unfold countDeny; dsimp only; split <;> simp
@[simp] theorem countDeny_rmap (pid : Nat) (h : Hub) : (countDeny pid h).rmap = h.rmap := by unfold countDeny; dsimp only; split <;> simp
@[simp] theorem countDeny_mem (pid : Nat) (h : Hub) : (countDeny pid h).mem = h.mem := by unfold countDeny; dsimp only; split <;> simp
@[simp] theorem countDeny_cache (pid : Nat) (h : Hub) : (countDeny pid h).cache = h.cache := by unfold countDeny; dsimp only; split <;> simp
@[simp] theorem countDeny_sieve (pid : Nat) (h : Hub) : (countDeny pid h).sieve = h.sieve := by unfold countDeny; dsimp only; split <;> simp
@[simp] theorem countDeny_recov (pid : Nat) (h : Hub) : (countDeny pid h).recov = h.recov := by unfold countDeny; dsimp only; split <;> simp
@[simp] theorem countDeny_txns (pid : Nat) (h : Hub) : (countDeny pid h).txns = h.txns := by unfold countDeny; dsimp only; split <;> simp
@[simp] theorem countDeny_nextId (pid : Nat) (h : Hub) : (countDeny pid h).nextId = h.nextId := by unfold countDeny; dsimp only; split <;> simp
@[simp] theorem countDeny_snps (pid : Nat) (h : Hub) : (countDeny pid h).snps = h.snps := by unfold countDeny; dsimp only; split <;> simp
@[simp] theorem countDeny_orphans (pid : Nat) (h : Hub) : (countDeny pid h).orphans = h.orphans := by unfold countDeny; dsimp only; split <;> simp
@[simp] theorem countDeny_waiting (pid : Nat) (h : Hub) : (countDeny pid h).waiting = h.waiting := by unfold countDeny; dsimp only; split <;> simp
@[simp] theorem countDeny_wbs (pid : Nat) (h : Hub) : (countDeny pid h).wbs = h.wbs := by unfold countDeny; dsimp only; split <;> simp
@[simp] theorem countDeny_tongs (pid : Nat) (h : Hub) : (countDeny pid h).tongs = h.tongs := by unfold countDeny; dsimp only; split <;> simp
@[simp] theorem countDeny_ladle (pid : Nat) (h : Hub) : (countDeny pid h).ladle = h.ladle := by unfold countDeny; dsimp only; split <;> simp
@[simp] theorem countDeny_pfSkip (pid : Nat) (h : Hub) : (countDeny pid h).pfSkip = h.pfSkip := by unfold countDeny; dsimp only; split <;> simp
@[simp] theorem countDeny_dets (pid : Nat) (h : Hub) : (countDeny pid h).dets = h.dets := by unfold countDeny; dsimp only; split <;> simp
@[simp] theorem countDeny_mons (pid : Nat) (h : Hub) : (countDeny pid h).mons = h.mons := by unfold countDeny; dsimp only; split <;> simp
@[simp] theorem countDeny_links (pid : Nat) (h : Hub) : (countDeny pid h).links = h.links := by unfold countDeny; dsimp only; split <;> simp
@[simp] theorem countDeny_twin (pid : Nat) (h : Hub) : (countDeny pid h).twin = h.twin := by unfold countDeny; dsimp only; split <;> simp
@[simp] theorem countDeny_parts (pid : Nat) (h : Hub) : (countDeny pid h).parts = h.parts := by unfold countDeny; dsimp only; split <;> simp
@[simp] theorem countDeny_wins (pid : Nat) (h : Hub) : (countDeny pid h).wins = h.wins := by unfold countDeny; dsimp only; split <;> simp
@[simp] theorem countDeny_mgrs (pid : Nat) (h : Hub) : (countDeny pid h).mgrs = h.mgrs := by unfold countDeny; dsimp only; split <;> simp
@[simp] theorem countDeny_heavy (pid : Nat) (h : Hub) : (countDeny pid h).heavy = h.heavy := by unfold countDeny; dsimp only; split <;> simp
@[simp] theorem countDeny_walks (pid : Nat) (h : Hub) : (countDeny pid h).walks = h.walks := by unfold countDeny; dsimp only; split <;> simp
@[simp] theorem countDeny_shadows (pid : Nat) (h : Hub) : (countDeny pid h).shadows = h.shadows := by unfold countDeny; dsimp only; split <;> simp
@[simp] theorem countDeny_images (pid : Nat) (h : Hub) : (countDeny pid h).images = h.images := by unfold countDeny; dsimp only; split <;> simp
@[simp] theorem countDeny_warm (pid : Nat) (h : Hub) : (countDeny pid h).warm = h.warm := by unfold countDeny; dsimp only; split <;> simp
@[simp] theorem countDeny_warmAt (pid : Nat) (h : Hub) : (countDeny pid h).warmAt = h.warmAt := by unfold countDeny; dsimp only; split <;> simp
@[simp] theorem countDeny_stage (pid : Nat) (h : Hub) : (countDeny pid h).stage = h.stage := by unfold countDeny; dsimp only; split <;> simp
@[simp] theorem countDeny_movs (pid : Nat) (h : Hub) : (countDeny pid h).movs = h.movs := by unfold countDeny; dsimp only; split <;> simp
@[simp] theorem countDeny_fs (pid : Nat) (h : Hub) : (countDeny pid h).fs = h.fs := by unfold countDeny; dsimp only; split <;> simp
@[simp] theorem countDeny_col (pid : Nat) (h : Hub) : (countDeny pid h).col = h.col := by unfold countDeny; dsimp only; split <;> simp
@[simp] theorem countDeny_lid (pid : Nat) (h : Hub) : (countDeny pid h).lid = h.lid := by unfold countDeny; dsimp only; split <;> simp
@[simp] theorem countDeny_mbox (pid : Nat) (h : Hub) : (countDeny pid h).mbox = h.mbox := by unfold countDeny; dsimp only; split <;> simp
@[simp] theorem countDeny_pmu (pid : Nat) (h : Hub) : (countDeny pid h).pmu = h.pmu := by unfold countDeny; dsimp only; split <;> simp
@[simp] theorem countDeny_bwLeft (pid : Nat) (h : Hub) : (countDeny pid h).bwLeft = h.bwLeft := by unfold countDeny; dsimp only; split <;> simp
@[simp] theorem countDeny_bwLat (pid : Nat) (h : Hub) : (countDeny pid h).bwLat = h.bwLat := by unfold countDeny; dsimp only; split <;> simp
@[simp] theorem countDeny_lat (pid : Nat) (h : Hub) : (countDeny pid h).lat = h.lat := by unfold countDeny; dsimp only; split <;> simp
@[simp] theorem countDeny_latDone (pid : Nat) (h : Hub) : (countDeny pid h).latDone = h.latDone := by unfold countDeny; dsimp only; split <;> simp
@[simp] theorem countDeny_occ (pid : Nat) (h : Hub) : (countDeny pid h).occ = h.occ := by unfold countDeny; dsimp only; split <;> simp
@[simp] theorem countDeny_occDone (pid : Nat) (h : Hub) : (countDeny pid h).occDone = h.occDone := by unfold countDeny; dsimp only; split <;> simp
@[simp] theorem countDeny_rounds (pid : Nat) (h : Hub) : (countDeny pid h).rounds = h.rounds := by unfold countDeny; dsimp only; split <;> simp
@[simp] theorem countDeny_slotUse (pid : Nat) (h : Hub) : (countDeny pid h).slotUse = h.slotUse := by unfold countDeny; dsimp only; split <;> simp
@[simp] theorem countDeny_integ (pid : Nat) (h : Hub) : (countDeny pid h).integ = h.integ := by unfold countDeny; dsimp only; split <;> simp
@[simp] theorem countDeny_bt (pid : Nat) (h : Hub) : (countDeny pid h).bt = h.bt := by unfold countDeny; dsimp only; split <;> simp
@[simp] theorem countDeny_side (pid : Nat) (h : Hub) : (countDeny pid h).side = h.side := by unfold countDeny; dsimp only; split <;> simp
@[simp] theorem countDeny_undef (pid : Nat) (h : Hub) : (countDeny pid h).undef = h.undef := by unfold countDeny; dsimp only; split <;> simp

/-! ### useSlot -/

@[simp] theorem useSlot_now (r : Req) (lost : Bool) (h : Hub) : (useSlot r lost h).now = h.now := rfl
@[simp] theorem useSlot_free (r : Req) (lost : Bool) (h : Hub) : (useSlot r lost h).free = h.free := rfl
@[simp] theorem useSlot_regs (r : Req) (lost : Bool) (h : Hub) : (useSlot r lost h).regs = h.regs := rfl
@[simp] theorem useSlot_life (r : Req) (lost : Bool) (h : Hub) : (useSlot r lost h).life = h.life := rfl
@[simp] theorem useSlot_led (r : Req) (lost : Bool) (h : Hub) : (useSlot r lost h).led = h.led := rfl
@[simp] theorem useSlot_rmap (r : Req) (lost : Bool) (h : Hub) : (useSlot r lost h).rmap = h.rmap := rfl
@[simp] theorem useSlot_mem (r : Req) (lost : Bool) (h : Hub) : (useSlot r lost h).mem = h.mem := rfl
@[simp] theorem useSlot_cache (r : Req) (lost : Bool) (h : Hub) : (useSlot r lost h).cache = h.cache := rfl
@[simp] theorem useSlot_sieve (r : Req) (lost : Bool) (h : Hub) : (useSlot r lost h).sieve = h.sieve := rfl
@[simp] theorem useSlot_recov (r : Req) (lost : Bool) (h : Hub) : (useSlot r lost h).recov = h.recov := rfl
@[simp] theorem useSlot_txns (r : Req) (lost : Bool) (h : Hub) : (useSlot r lost h).txns = h.txns := rfl
@[simp] theorem useSlot_nextId (r : Req) (lost : Bool) (h : Hub) : (useSlot r lost h).nextId = h.nextId := rfl
@[simp] theorem useSlot_snps (r : Req) (lost : Bool) (h : Hub) : (useSlot r lost h).snps = h.snps := rfl
@[simp] theorem useSlot_orphans (r : Req) (lost : Bool) (h : Hub) : (useSlot r lost h).orphans = h.orphans := rfl
@[simp] theorem useSlot_waiting (r : Req) (lost : Bool) (h : Hub) : (useSlot r lost h).waiting = h.waiting := rfl
@[simp] theorem useSlot_wbs (r : Req) (lost : Bool) (h : Hub) : (useSlot r lost h).wbs = h.wbs := rfl
@[simp] theorem useSlot_tongs (r : Req) (lost : Bool) (h : Hub) : (useSlot r lost h).tongs = h.tongs := rfl
@[simp] theorem useSlot_ladle (r : Req) (lost : Bool) (h : Hub) : (useSlot r lost h).ladle = h.ladle := rfl
@[simp] theorem useSlot_pfSkip (r : Req) (lost : Bool) (h : Hub) : (useSlot r lost h).pfSkip = h.pfSkip := rfl
@[simp] theorem useSlot_dets (r : Req) (lost : Bool) (h : Hub) : (useSlot r lost h).dets = h.dets := rfl
@[simp] theorem useSlot_mons (r : Req) (lost : Bool) (h : Hub) : (useSlot r lost h).mons = h.mons := rfl
@[simp] theorem useSlot_links (r : Req) (lost : Bool) (h : Hub) : (useSlot r lost h).links = h.links := rfl
@[simp] theorem useSlot_twin (r : Req) (lost : Bool) (h : Hub) : (useSlot r lost h).twin = h.twin := rfl
@[simp] theorem useSlot_parts (r : Req) (lost : Bool) (h : Hub) : (useSlot r lost h).parts = h.parts := rfl
@[simp] theorem useSlot_wins (r : Req) (lost : Bool) (h : Hub) : (useSlot r lost h).wins = h.wins := rfl
@[simp] theorem useSlot_mgrs (r : Req) (lost : Bool) (h : Hub) : (useSlot r lost h).mgrs = h.mgrs := rfl
@[simp] theorem useSlot_heavy (r : Req) (lost : Bool) (h : Hub) : (useSlot r lost h).heavy = h.heavy := rfl
@[simp] theorem useSlot_walks (r : Req) (lost : Bool) (h : Hub) : (useSlot r lost h).walks = h.walks := rfl
@[simp] theorem useSlot_shadows (r : Req) (lost : Bool) (h : Hub) : (useSlot r lost h).shadows = h.shadows := rfl
@[simp] theorem useSlot_images (r : Req) (lost : Bool) (h : Hub) : (useSlot r lost h).images = h.images := rfl
@[simp] theorem useSlot_warm (r : Req) (lost : Bool) (h : Hub) : (useSlot r lost h).warm = h.warm := rfl
@[simp] theorem useSlot_warmAt (r : Req) (lost : Bool) (h : Hub) : (useSlot r lost h).warmAt = h.warmAt := rfl
@[simp] theorem useSlot_stage (r : Req) (lost : Bool) (h : Hub) : (useSlot r lost h).stage = h.stage := rfl
@[simp] theorem useSlot_movs (r : Req) (lost : Bool) (h : Hub) : (useSlot r lost h).movs = h.movs := rfl
@[simp] theorem useSlot_fs (r : Req) (lost : Bool) (h : Hub) : (useSlot r lost h).fs = h.fs := rfl
@[simp] theorem useSlot_col (r : Req) (lost : Bool) (h : Hub) : (useSlot r lost h).col = h.col := rfl
@[simp] theorem useSlot_lid (r : Req) (lost : Bool) (h : Hub) : (useSlot r lost h).lid = h.lid := rfl
@[simp] theorem useSlot_mbox (r : Req) (lost : Bool) (h : Hub) : (useSlot r lost h).mbox = h.mbox := rfl
@[simp] theorem useSlot_pmu (r : Req) (lost : Bool) (h : Hub) : (useSlot r lost h).pmu = h.pmu := rfl
@[simp] theorem useSlot_bwLeft (r : Req) (lost : Bool) (h : Hub) : (useSlot r lost h).bwLeft = h.bwLeft := rfl
@[simp] theorem useSlot_bwLat (r : Req) (lost : Bool) (h : Hub) : (useSlot r lost h).bwLat = h.bwLat := rfl
@[simp] theorem useSlot_lat (r : Req) (lost : Bool) (h : Hub) : (useSlot r lost h).lat = h.lat := rfl
@[simp] theorem useSlot_latDone (r : Req) (lost : Bool) (h : Hub) : (useSlot r lost h).latDone = h.latDone := rfl
@[simp] theorem useSlot_occ (r : Req) (lost : Bool) (h : Hub) : (useSlot r lost h).occ = h.occ := rfl
@[simp] theorem useSlot_occDone (r : Req) (lost : Bool) (h : Hub) : (useSlot r lost h).occDone = h.occDone := rfl
@[simp] theorem useSlot_rounds (r : Req) (lost : Bool) (h : Hub) : (useSlot r lost h).rounds = h.rounds := rfl
@[simp] theorem useSlot_integ (r : Req) (lost : Bool) (h : Hub) : (useSlot r lost h).integ = h.integ := rfl
@[simp] theorem useSlot_bt (r : Req) (lost : Bool) (h : Hub) : (useSlot r lost h).bt = h.bt := rfl
@[simp] theorem useSlot_side (r : Req) (lost : Bool) (h : Hub) : (useSlot r lost h).side = h.side := rfl
@[simp] theorem useSlot_undef (r : Req) (lost : Bool) (h : Hub) : (useSlot r lost h).undef = h.undef := rfl

/-! ### hkBytes -/

@[simp] theorem hkBytes_now (a bytes : Nat) (h : Hub) : (hkBytes a bytes h).now = h.now := by simp [hkBytes]
@[simp] theorem hkBytes_free (a bytes : Nat) (h : Hub) : (hkBytes a bytes h).free = h.free := by simp [hkBytes]
@[simp] theorem hkBytes_led (a bytes : Nat) (h : Hub) : (hkBytes a bytes h).led = h.led := by simp [hkBytes]
@[simp] theorem hkBytes_rmap (a bytes : Nat) (h : Hub) : (hkBytes a bytes h).rmap = h.rmap := by simp [hkBytes]
@[simp] theorem hkBytes_mem (a bytes : Nat) (h : Hub) : (hkBytes a bytes h).mem = h.mem := by simp [hkBytes]
@[simp] theorem hkBytes_cache (a bytes : Nat) (h : Hub) : (hkBytes a bytes h).cache = h.cache := by simp [hkBytes]
@[simp] theorem hkBytes_sieve (a bytes : Nat) (h : Hub) : (hkBytes a bytes h).sieve = h.sieve := by simp [hkBytes]
@[simp] theorem hkBytes_recov (a bytes : Nat) (h : Hub) : (hkBytes a bytes h).recov = h.recov := by simp [hkBytes]
@[simp] theorem hkBytes_txns (a bytes : Nat) (h : Hub) : (hkBytes a bytes h).txns = h.txns := by simp [hkBytes]
@[simp] theorem hkBytes_nextId (a bytes : Nat) (h : Hub) : (hkBytes a bytes h).nextId = h.nextId := by simp [hkBytes]
@[simp] theorem hkBytes_snps (a bytes : Nat) (h : Hub) : (hkBytes a bytes h).snps = h.snps := by simp [hkBytes]
@[simp] theorem hkBytes_orphans (a bytes : Nat) (h : Hub) : (hkBytes a bytes h).orphans = h.orphans := by simp [hkBytes]
@[simp] theorem hkBytes_waiting (a bytes : Nat) (h : Hub) : (hkBytes a bytes h).waiting = h.waiting := by simp [hkBytes]
@[simp] theorem hkBytes_wbs (a bytes : Nat) (h : Hub) : (hkBytes a bytes h).wbs = h.wbs := by simp [hkBytes]
@[simp] theorem hkBytes_tongs (a bytes : Nat) (h : Hub) : (hkBytes a bytes h).tongs = h.tongs := by simp [hkBytes]
@[simp] theorem hkBytes_ladle (a bytes : Nat) (h : Hub) : (hkBytes a bytes h).ladle = h.ladle := by simp [hkBytes]
@[simp] theorem hkBytes_pfSkip (a bytes : Nat) (h : Hub) : (hkBytes a bytes h).pfSkip = h.pfSkip := by simp [hkBytes]
@[simp] theorem hkBytes_dets (a bytes : Nat) (h : Hub) : (hkBytes a bytes h).dets = h.dets := by simp [hkBytes]
@[simp] theorem hkBytes_mons (a bytes : Nat) (h : Hub) : (hkBytes a bytes h).mons = h.mons := by simp [hkBytes]
@[simp] theorem hkBytes_twin (a bytes : Nat) (h : Hub) : (hkBytes a bytes h).twin = h.twin := by simp [hkBytes]
@[simp] theorem hkBytes_parts (a bytes : Nat) (h : Hub) : (hkBytes a bytes h).parts = h.parts := by simp [hkBytes]
@[simp] theorem hkBytes_wins (a bytes : Nat) (h : Hub) : (hkBytes a bytes h).wins = h.wins := by simp [hkBytes]
@[simp] theorem hkBytes_mgrs (a bytes : Nat) (h : Hub) : (hkBytes a bytes h).mgrs = h.mgrs := by simp [hkBytes]
@[simp] theorem hkBytes_heavy (a bytes : Nat) (h : Hub) : (hkBytes a bytes h).heavy = h.heavy := by simp [hkBytes]
@[simp] theorem hkBytes_walks (a bytes : Nat) (h : Hub) : (hkBytes a bytes h).walks = h.walks := by simp [hkBytes]
@[simp] theorem hkBytes_shadows (a bytes : Nat) (h : Hub) : (hkBytes a bytes h).shadows = h.shadows := by simp [hkBytes]
@[simp] theorem hkBytes_images (a bytes : Nat) (h : Hub) : (hkBytes a bytes h).images = h.images := by simp [hkBytes]
@[simp] theorem hkBytes_warm (a bytes : Nat) (h : Hub) : (hkBytes a bytes h).warm = h.warm := by simp [hkBytes]
@[simp] theorem hkBytes_warmAt (a bytes : Nat) (h : Hub) : (hkBytes a bytes h).warmAt = h.warmAt := by simp [hkBytes]
@[simp] theorem hkBytes_stage (a bytes : Nat) (h : Hub) : (hkBytes a bytes h).stage = h.stage := by simp [hkBytes]
@[simp] theorem hkBytes_movs (a bytes : Nat) (h : Hub) : (hkBytes a bytes h).movs = h.movs := by simp [hkBytes]
@[simp] theorem hkBytes_fs (a bytes : Nat) (h : Hub) : (hkBytes a bytes h).fs = h.fs := by simp [hkBytes]
@[simp] theorem hkBytes_col (a bytes : Nat) (h : Hub) : (hkBytes a bytes h).col = h.col := by simp [hkBytes]
@[simp] theorem hkBytes_lid (a bytes : Nat) (h : Hub) : (hkBytes a bytes h).lid = h.lid := by simp [hkBytes]
@[simp] theorem hkBytes_mbox (a bytes : Nat) (h : Hub) : (hkBytes a bytes h).mbox = h.mbox := by simp [hkBytes]
@[simp] theorem hkBytes_bwLeft (a bytes : Nat) (h : Hub) : (hkBytes a bytes h).bwLeft = h.bwLeft := by simp [hkBytes]
@[simp] theorem hkBytes_bwLat (a bytes : Nat) (h : Hub) : (hkBytes a bytes h).bwLat = h.bwLat := by simp [hkBytes]
@[simp] theorem hkBytes_lat (a bytes : Nat) (h : Hub) : (hkBytes a bytes h).lat = h.lat := by simp [hkBytes]
@[simp] theorem hkBytes_latDone (a bytes : Nat) (h : Hub) : (hkBytes a bytes h).latDone = h.latDone := by simp [hkBytes]
@[simp] theorem hkBytes_occ (a bytes : Nat) (h : Hub) : (hkBytes a bytes h).occ = h.occ := by simp [hkBytes]
@[simp] theorem hkBytes_occDone (a bytes : Nat) (h : Hub) : (hkBytes a bytes h).occDone = h.occDone := by simp [hkBytes]
@[simp] theorem hkBytes_rounds (a bytes : Nat) (h : Hub) : (hkBytes a bytes h).rounds = h.rounds := by simp [hkBytes]
@[simp] theorem hkBytes_slotUse (a bytes : Nat) (h : Hub) : (hkBytes a bytes h).slotUse = h.slotUse := by simp [hkBytes]
@[simp] theorem hkBytes_integ (a bytes : Nat) (h : Hub) : (hkBytes a bytes h).integ = h.integ := by simp [hkBytes]
@[simp] theorem hkBytes_bt (a bytes : Nat) (h : Hub) : (hkBytes a bytes h).bt = h.bt := by simp [hkBytes]
@[simp] theorem hkBytes_side (a bytes : Nat) (h : Hub) : (hkBytes a bytes h).side = h.side := by simp [hkBytes]
@[simp] theorem hkBytes_undef (a bytes : Nat) (h : Hub) : (hkBytes a bytes h).undef = h.undef := by simp [hkBytes]

/-! ### countVcErr -/

@[simp] theorem countVcErr_now (l : Nat) (m : Msg) (h : Hub) : (countVcErr l m h).now = h.now := by unfold countVcErr; split <;> simp
@[simp] theorem countVcErr_free (l : Nat) (m : Msg) (h : Hub) : (countVcErr l m h).free = h.free := by unfold countVcErr; split <;> simp
@[simp] theorem countVcErr_life (l : Nat) (m : Msg) (h : Hub) : (countVcErr l m h).life = h.life := by unfold countVcErr; split <;> simp
@[simp] theorem countVcErr_led (l : Nat) (m : Msg) (h : Hub) : (countVcErr l m h).led = h.led := by unfold countVcErr; split <;> simp
@[simp] theorem countVcErr_rmap (l : Nat) (m : Msg) (h : Hub) : (countVcErr l m h).rmap = h.rmap := by unfold countVcErr; split <;> simp
@[simp] theorem countVcErr_mem (l : Nat) (m : Msg) (h : Hub) : (countVcErr l m h).mem = h.mem := by unfold countVcErr; split <;> simp
@[simp] theorem countVcErr_cache (l : Nat) (m : Msg) (h : Hub) : (countVcErr l m h).cache = h.cache := by unfold countVcErr; split <;> simp
@[simp] theorem countVcErr_sieve (l : Nat) (m : Msg) (h : Hub) : (countVcErr l m h).sieve = h.sieve := by unfold countVcErr; split <;> simp
@[simp] theorem countVcErr_recov (l : Nat) (m : Msg) (h : Hub) : (countVcErr l m h).recov = h.recov := by unfold countVcErr; split <;> simp
@[simp] theorem countVcErr_txns (l : Nat) (m : Msg) (h : Hub) : (countVcErr l m h).txns = h.txns := by unfold countVcErr; split <;> simp
@[simp] theorem countVcErr_nextId (l : Nat) (m : Msg) (h : Hub) : (countVcErr l m h).nextId = h.nextId := by unfold countVcErr; split <;> simp
@[simp] theorem countVcErr_snps (l : Nat) (m : Msg) (h : Hub) : (countVcErr l m h).snps = h.snps := by unfold countVcErr; split <;> simp
@[simp] theorem countVcErr_orphans (l : Nat) (m : Msg) (h : Hub) : (countVcErr l m h).orphans = h.orphans := by unfold countVcErr; split <;> simp
@[simp] theorem countVcErr_waiting (l : Nat) (m : Msg) (h : Hub) : (countVcErr l m h).waiting = h.waiting := by unfold countVcErr; split <;> simp
@[simp] theorem countVcErr_wbs (l : Nat) (m : Msg) (h : Hub) : (countVcErr l m h).wbs = h.wbs := by unfold countVcErr; split <;> simp
@[simp] theorem countVcErr_tongs (l : Nat) (m : Msg) (h : Hub) : (countVcErr l m h).tongs = h.tongs := by unfold countVcErr; split <;> simp
@[simp] theorem countVcErr_ladle (l : Nat) (m : Msg) (h : Hub) : (countVcErr l m h).ladle = h.ladle := by unfold countVcErr; split <;> simp
@[simp] theorem countVcErr_pfSkip (l : Nat) (m : Msg) (h : Hub) : (countVcErr l m h).pfSkip = h.pfSkip := by unfold countVcErr; split <;> simp
@[simp] theorem countVcErr_dets (l : Nat) (m : Msg) (h : Hub) : (countVcErr l m h).dets = h.dets := by unfold countVcErr; split <;> simp
@[simp] theorem countVcErr_mons (l : Nat) (m : Msg) (h : Hub) : (countVcErr l m h).mons = h.mons := by unfold countVcErr; split <;> simp
@[simp] theorem countVcErr_links (l : Nat) (m : Msg) (h : Hub) : (countVcErr l m h).links = h.links := by unfold countVcErr; split <;> simp
@[simp] theorem countVcErr_twin (l : Nat) (m : Msg) (h : Hub) : (countVcErr l m h).twin = h.twin := by unfold countVcErr; split <;> simp
@[simp] theorem countVcErr_parts (l : Nat) (m : Msg) (h : Hub) : (countVcErr l m h).parts = h.parts := by unfold countVcErr; split <;> simp
@[simp] theorem countVcErr_wins (l : Nat) (m : Msg) (h : Hub) : (countVcErr l m h).wins = h.wins := by unfold countVcErr; split <;> simp
@[simp] theorem countVcErr_mgrs (l : Nat) (m : Msg) (h : Hub) : (countVcErr l m h).mgrs = h.mgrs := by unfold countVcErr; split <;> simp
@[simp] theorem countVcErr_heavy (l : Nat) (m : Msg) (h : Hub) : (countVcErr l m h).heavy = h.heavy := by unfold countVcErr; split <;> simp
@[simp] theorem countVcErr_walks (l : Nat) (m : Msg) (h : Hub) : (countVcErr l m h).walks = h.walks := by unfold countVcErr; split <;> simp
@[simp] theorem countVcErr_shadows (l : Nat) (m : Msg) (h : Hub) : (countVcErr l m h).shadows = h.shadows := by unfold countVcErr; split <;> simp
@[simp] theorem countVcErr_images (l : Nat) (m : Msg) (h : Hub) : (countVcErr l m h).images = h.images := by unfold countVcErr; split <;> simp
@[simp] theorem countVcErr_warm (l : Nat) (m : Msg) (h : Hub) : (countVcErr l m h).warm = h.warm := by unfold countVcErr; split <;> simp
@[simp] theorem countVcErr_warmAt (l : Nat) (m : Msg) (h : Hub) : (countVcErr l m h).warmAt = h.warmAt := by unfold countVcErr; split <;> simp
@[simp] theorem countVcErr_stage (l : Nat) (m : Msg) (h : Hub) : (countVcErr l m h).stage = h.stage := by unfold countVcErr; split <;> simp
@[simp] theorem countVcErr_movs (l : Nat) (m : Msg) (h : Hub) : (countVcErr l m h).movs = h.movs := by unfold countVcErr; split <;> simp
@[simp] theorem countVcErr_fs (l : Nat) (m : Msg) (h : Hub) : (countVcErr l m h).fs = h.fs := by unfold countVcErr; split <;> simp
@[simp] theorem countVcErr_col (l : Nat) (m : Msg) (h : Hub) : (countVcErr l m h).col = h.col := by unfold countVcErr; split <;> simp
@[simp] theorem countVcErr_lid (l : Nat) (m : Msg) (h : Hub) : (countVcErr l m h).lid = h.lid := by unfold countVcErr; split <;> simp
@[simp] theorem countVcErr_mbox (l : Nat) (m : Msg) (h : Hub) : (countVcErr l m h).mbox = h.mbox := by unfold countVcErr; split <;> simp
@[simp] theorem countVcErr_pmu (l : Nat) (m : Msg) (h : Hub) : (countVcErr l m h).pmu = h.pmu := by unfold countVcErr; split <;> simp
@[simp] theorem countVcErr_bwLeft (l : Nat) (m : Msg) (h : Hub) : (countVcErr l m h).bwLeft = h.bwLeft := by unfold countVcErr; split <;> simp
@[simp] theorem countVcErr_bwLat (l : Nat) (m : Msg) (h : Hub) : (countVcErr l m h).bwLat = h.bwLat := by unfold countVcErr; split <;> simp
@[simp] theorem countVcErr_lat (l : Nat) (m : Msg) (h : Hub) : (countVcErr l m h).lat = h.lat := by unfold countVcErr; split <;> simp
@[simp] theorem countVcErr_latDone (l : Nat) (m : Msg) (h : Hub) : (countVcErr l m h).latDone = h.latDone := by unfold countVcErr; split <;> simp
@[simp] theorem countVcErr_occ (l : Nat) (m : Msg) (h : Hub) : (countVcErr l m h).occ = h.occ := by unfold countVcErr; split <;> simp
@[simp] theorem countVcErr_occDone (l : Nat) (m : Msg) (h : Hub) : (countVcErr l m h).occDone = h.occDone := by unfold countVcErr; split <;> simp
@[simp] theorem countVcErr_rounds (l : Nat) (m : Msg) (h : Hub) : (countVcErr l m h).rounds = h.rounds := by unfold countVcErr; split <;> simp
@[simp] theorem countVcErr_slotUse (l : Nat) (m : Msg) (h : Hub) : (countVcErr l m h).slotUse = h.slotUse := by unfold countVcErr; split <;> simp
@[simp] theorem countVcErr_integ (l : Nat) (m : Msg) (h : Hub) : (countVcErr l m h).integ = h.integ := by unfold countVcErr; split <;> simp
@[simp] theorem countVcErr_bt (l : Nat) (m : Msg) (h : Hub) : (countVcErr l m h).bt = h.bt := by unfold countVcErr; split <;> simp
@[simp] theorem countVcErr_side (l : Nat) (m : Msg) (h : Hub) : (countVcErr l m h).side = h.side := by unfold countVcErr; split <;> simp
@[simp] theorem countVcErr_undef (l : Nat) (m : Msg) (h : Hub) : (countVcErr l m h).undef = h.undef := by unfold countVcErr; split <;> simp

end Sys2Proof.Machine
end

