-- ==== Sys2Proof/Laws/Registers.lean ====
section
/-! SUPPORT. Laws of bit fields and register words: what a write leaves in its own field, in the other bits, and in other words. -/

namespace Sys2Proof.Machine

theorem bits_lt (v hi lo : Nat) : bits v hi lo < 2 ^ (hi + 1 - lo) := Nat.mod_lt _ (by positivity)

/-- Bit `i` of a field. -/
theorem bits_testBit (v hi lo i : Nat) : (bits v hi lo).testBit i = (decide (i < hi + 1 - lo) && v.testBit (lo + i)) := by
  rw [bits, Nat.testBit_mod_two_pow, Nat.testBit_shiftRight]

/-- A number with a field replaced, as a sum of what is above it, the field and what is below it. -/
theorem putBits_eq (v hi lo x : Nat) :
    putBits v hi lo x = v / 2 ^ (lo + (hi + 1 - lo)) * 2 ^ (lo + (hi + 1 - lo)) + (x % 2 ^ (hi + 1 - lo)) * 2 ^ lo + v % 2 ^ lo := by
  have hb : bits v hi lo = v / 2 ^ lo % 2 ^ (hi + 1 - lo) := by simp [bits, Nat.shiftRight_eq_div_pow]
  have h1 := Nat.div_add_mod v (2 ^ lo)
  have h2 := Nat.div_add_mod (v / 2 ^ lo) (2 ^ (hi + 1 - lo))
  have h3 : v / 2 ^ (lo + (hi + 1 - lo)) = v / 2 ^ lo / 2 ^ (hi + 1 - lo) := by rw [Nat.pow_add, Nat.div_div_eq_div_mul]
  have h4 : v = v / 2 ^ lo / 2 ^ (hi + 1 - lo) * 2 ^ (lo + (hi + 1 - lo)) + bits v hi lo * 2 ^ lo + v % 2 ^ lo := by
    rw [hb]
    conv_lhs => rw [← h1, ← h2]
    ring
  unfold putBits
  rw [h3]
  omega

/-- Bit `i` of a number with a field replaced. -/
theorem putBits_testBit (v hi lo x i : Nat) :
    (putBits v hi lo x).testBit i = if lo ≤ i ∧ i < lo + (hi + 1 - lo) then x.testBit (i - lo) else v.testBit i := by
  rw [putBits_eq]
  generalize hi + 1 - lo = w
  have e : v / 2 ^ (lo + w) * 2 ^ (lo + w) + x % 2 ^ w * 2 ^ lo + v % 2 ^ lo = 2 ^ lo * (2 ^ w * (v / 2 ^ (lo + w)) + x % 2 ^ w) + v % 2 ^ lo := by ring
  rw [e, Nat.testBit_two_pow_mul_add _ (Nat.mod_lt _ (by positivity))]
  split
  · next h =>
    rw [if_neg (by omega), Nat.testBit_mod_two_pow]
    simp [h]
  · next h =>
    rw [Nat.testBit_two_pow_mul_add _ (Nat.mod_lt _ (by positivity))]
    split
    · next h2 => rw [if_pos (by omega), Nat.testBit_mod_two_pow]; simp [h2]
    · next h2 =>
      rw [if_neg (by omega), Nat.testBit_div_two_pow]
      congr 1
      omega

/-- A field that was written holds what was written. -/
theorem bits_putBits_same (v hi lo x : Nat) : bits (putBits v hi lo x) hi lo = x % 2 ^ (hi + 1 - lo) := by
  apply Nat.eq_of_testBit_eq
  intro i
  rw [bits_testBit, putBits_testBit, Nat.testBit_mod_two_pow]
  by_cases h : i < hi + 1 - lo
  · rw [if_pos (by omega)]; simp [h]
  · simp [h]

/-- A field that shares no bit with the one written keeps its value. -/
theorem bits_putBits_other (v hi lo x hi' lo' : Nat) (h : hi' < lo ∨ hi < lo') : bits (putBits v hi lo x) hi' lo' = bits v hi' lo' := by
  apply Nat.eq_of_testBit_eq
  intro i
  rw [bits_testBit, bits_testBit, putBits_testBit]
  by_cases hi2 : i < hi' + 1 - lo'
  · rw [if_neg (by omega)]
  · simp [hi2]

theorem putBits_lt (v hi lo x n : Nat) (hv : v < 2 ^ n) (hn : hi < n) : putBits v hi lo x < 2 ^ n := by
  apply Nat.lt_pow_two_of_testBit
  intro i hi2
  rw [putBits_testBit]
  split
  · omega
  · exact Nat.testBit_lt_two_pow (lt_of_lt_of_le hv (Nat.pow_le_pow_right (by norm_num) hi2))

/-- A word of the table reads back what was written, 32 bits of it. -/
theorem regGet_regPut_same (h : Hub) (die off v : Nat) (hr : (findRow off).isSome = true) :
    regGet (regPut h die off v) die off = v % 2 ^ 32 := by
  obtain ⟨r, hr⟩ := Option.isSome_iff_exists.mp hr
  simp [regGet, regPut, hr]

/-- A write of one word leaves a word with another key. -/
theorem regGet_regPut_other (h : Hub) (die off v die' off' : Nat)
    (hk : ∀ r r', findRow off = some r → findRow off' = some r' → regKey r' die' off' ≠ regKey r die off) :
    regGet (regPut h die off v) die' off' = regGet h die' off' := by
  unfold regGet regPut
  cases h1 : findRow off with
  | none => rfl
  | some r =>
    cases h2 : findRow off' with
    | none => rfl
    | some r' => simp [bfind_bset_other _ _ _ _ (hk r r' h1 h2)]

/-- A field reads back what was written to it. -/
theorem regField_regSetField_same (h : Hub) (die off hi lo x : Nat) (hr : (findRow off).isSome = true) (hhi : hi < 32) :
    regField (regSetField h die off hi lo x) die off hi lo = x % 2 ^ (hi + 1 - lo) := by
  unfold regField regSetField
  rw [regGet_regPut_same _ _ _ _ hr]
  apply Nat.eq_of_testBit_eq
  intro i
  rw [bits_testBit, Nat.testBit_mod_two_pow, putBits_testBit, Nat.testBit_mod_two_pow]
  by_cases h : i < hi + 1 - lo
  · rw [if_pos (by omega)]
    simp [h]
    intro; omega
  · simp [h]

/-- A field that shares no bit with the one written keeps its value. -/
theorem regField_regSetField_other (h : Hub) (die off hi lo x hi' lo' : Nat) (hd : hi' < lo ∨ hi < lo') (hhi : hi' < 32) :
    regField (regSetField h die off hi lo x) die off hi' lo' = regField h die off hi' lo' := by
  unfold regField regSetField
  by_cases hr : (findRow off).isSome = true
  · rw [regGet_regPut_same _ _ _ _ hr]
    apply Nat.eq_of_testBit_eq
    intro i
    rw [bits_testBit, Nat.testBit_mod_two_pow, bits_testBit, putBits_testBit]
    by_cases h : i < hi' + 1 - lo'
    · rw [if_neg (by omega)]
      simp [h]
      intro; omega
    · simp [h]
  · have : findRow off = none := by simpa using hr
    simp [regGet, this]

end Sys2Proof.Machine
end

