-- ==== Sys2Proof/Laws/Links.lean ====
section
/-! SUPPORT. What reporting does to links and pins: messages wait at transmitters, and INT_N follows; nothing else of a link or of the life-cycle
state changes. -/

namespace Sys2Proof.Machine

/-- Links differ at most in the messages that wait at their transmitters. -/
def QueuesOnly (h h' : Hub) : Prop := ∀ l, ∃ q, link h' l = { link h l with q := q }

/-- The life-cycle state differs at most in the INT_N outputs. -/
def PinsOnly (h h' : Hub) : Prop := ∃ p, h'.life = { h.life with intN := p }

theorem QueuesOnly.refl (h : Hub) : QueuesOnly h h := fun _ => ⟨_, rfl⟩

theorem QueuesOnly.of_links {h h' : Hub} (e : h'.links = h.links) : QueuesOnly h h' := fun l => ⟨(link h l).q, by simp [link, e]⟩

theorem QueuesOnly.trans {a b c : Hub} (h1 : QueuesOnly a b) (h2 : QueuesOnly b c) : QueuesOnly a c := fun l => by
  obtain ⟨q, hq⟩ := h1 l
  obtain ⟨r, hr⟩ := h2 l
  exact ⟨r, by rw [hr, hq]⟩

theorem PinsOnly.refl (h : Hub) : PinsOnly h h := ⟨_, rfl⟩

theorem PinsOnly.of_life {h h' : Hub} (e : h'.life = h.life) : PinsOnly h h' := ⟨h.life.intN, by simp [e]⟩

theorem PinsOnly.trans {a b c : Hub} (h1 : PinsOnly a b) (h2 : PinsOnly b c) : PinsOnly a c := by
  obtain ⟨p, hp⟩ := h1
  obtain ⟨r, hr⟩ := h2
  exact ⟨r, by rw [hr, hp]⟩

theorem queuesOnly_forEach {α : Type} (f : α → Hub → Hub) (hf : ∀ x h, QueuesOnly h (f x h)) (l : List α) (h : Hub) : QueuesOnly h (forEach l f h) := by
  induction l generalizing h with
  | nil => exact .refl h
  | cons x r ih => exact (hf x h).trans (ih _)

theorem pinsOnly_forEach {α : Type} (f : α → Hub → Hub) (hf : ∀ x h, PinsOnly h (f x h)) (l : List α) (h : Hub) : PinsOnly h (forEach l f h) := by
  induction l generalizing h with
  | nil => exact .refl h
  | cons x r ih => exact (hf x h).trans (ih _)

/-- A link's state after it was changed. -/
@[simp] theorem link_setLink_same (h : Hub) (l : Nat) (f : Link → Link) : link (setLink h l f) l = f (link h l) := by simp [link]

theorem link_setLink_other (h : Hub) (l k : Nat) (f : Link → Link) (hk : k ≠ l) : link (setLink h l f) k = link h k := by
  simp [link, bget_bupd_other _ _ _ _ _ hk]

theorem sendMsg_queues (l : Nat) (m : Msg) (h : Hub) : QueuesOnly h (sendMsg l m h) := by
  intro k
  unfold sendMsg
  split
  · by_cases e : k = l
    · subst e; exact ⟨_, link_setLink_same _ _ _⟩
    · exact ⟨(link h k).q, by rw [link_setLink_other _ _ _ _ e]⟩
  · exact ⟨_, rfl⟩

theorem sendIntr_queues (m : Nat) (h : Hub) : QueuesOnly h (sendIntr m h) := by
  unfold sendIntr; dsimp only; split
  · exact sendMsg_queues _ _ _
  · exact .refl h

theorem raiseCause_queues (b : Nat) (h : Hub) : QueuesOnly h (raiseCause b h) := by
  unfold raiseCause; dsimp only; split
  · exact .refl h
  · refine (QueuesOnly.of_links (regSetField_links h 0 0x4480 b b 1)).trans (QueuesOnly.trans ?_ (QueuesOnly.of_links (setIntPins_links _)))
    split
    · exact sendIntr_queues _ _
    · exact queuesOnly_forEach _ (fun x h => sendIntr_queues x h) _ _

theorem raiseCause_pins (b : Nat) (h : Hub) : PinsOnly h (raiseCause b h) := by
  unfold raiseCause; dsimp only; split
  · exact .refl h
  · refine PinsOnly.trans (b := (if b < 4 then sendIntr b (regSetField h 0 0x4480 b b 1)
        else forEach (List.filter (fun m => bitOf (mgrCtl (regSetField h 0 0x4480 b b 1) m) 29) (List.range 4)) sendIntr (regSetField h 0 0x4480 b b 1))) ?_ ⟨_, rfl⟩
    apply PinsOnly.of_life
    split
    · simp
    · rw [forEach_keeps (fun h => h.life) _ (fun x h => sendIntr_life x h)]; simp

theorem raiseEvt_queues (die : Nat) (h : Hub) : QueuesOnly h (raiseEvt die h) := raiseCause_queues _ _

theorem raiseEvt_pins (die : Nat) (h : Hub) : PinsOnly h (raiseEvt die h) := raiseCause_pins _ _

theorem pmuOverflow_queues (die b : Nat) (h : Hub) : QueuesOnly h (pmuOverflow die b h) := by
  unfold pmuOverflow; dsimp only
  split
  · exact (QueuesOnly.of_links (by split <;> simp)).trans (raiseEvt_queues _ _)
  · exact QueuesOnly.of_links (by split <;> simp)

theorem pmuOverflow_pins (die b : Nat) (h : Hub) : PinsOnly h (pmuOverflow die b h) := by
  unfold pmuOverflow; dsimp only
  split
  · exact (PinsOnly.of_life (by split <;> simp)).trans (raiseEvt_pins _ _)
  · exact PinsOnly.of_life (by split <;> simp)

theorem pmuAdd_queues (die n x : Nat) (h : Hub) : QueuesOnly h (pmuAdd die n x h) := by
  unfold pmuAdd; dsimp only; split
  · exact QueuesOnly.trans (b := { h with pmu := _ }) (QueuesOnly.of_links rfl) (pmuOverflow_queues _ _ _)
  · exact QueuesOnly.of_links rfl

theorem pmuAdd_pins (die n x : Nat) (h : Hub) : PinsOnly h (pmuAdd die n x h) := by
  unfold pmuAdd; dsimp only; split
  · exact PinsOnly.trans (b := { h with pmu := _ }) (PinsOnly.of_life rfl) (pmuOverflow_pins _ _ _)
  · exact PinsOnly.of_life rfl

theorem pmu_queues (ev die x : Nat) (a : Attr) (h : Hub) : QueuesOnly h (pmu ev die x a h) := by
  unfold pmu; apply queuesOnly_forEach; intro n h; split
  · exact .refl h
  · show QueuesOnly h (if _ then _ else _)
    split_ifs
    · exact pmuAdd_queues _ _ _ _
    · exact .refl h

theorem pmu_pins (ev die x : Nat) (a : Attr) (h : Hub) : PinsOnly h (pmu ev die x a h) := by
  unfold pmu; apply pinsOnly_forEach; intro n h; split
  · exact .refl h
  · show PinsOnly h (if _ then _ else _)
    split_ifs
    · exact pmuAdd_pins _ _ _ _
    · exact .refl h

/-- Whether a link is trained depends on nothing that reporting changes. -/
theorem QueuesOnly.trained {h h' : Hub} (e : QueuesOnly h h') (l : Nat) : linkTrained h' l = linkTrained h l := by
  obtain ⟨q, hq⟩ := e l
  simp [linkTrained, hq]

end Sys2Proof.Machine
end

