-- ==== Sys2Proof/Laws/Settle.lean ====
section
/-! SUPPORT. What lets the transactions of a home go on does where nothing waits: nothing. -/

namespace Sys2Proof.Machine

/-- A pass over no transactions leaves the hub. -/
theorem settleLoop_no_txns (n : Nat) (h : Hub) (e : h.txns = []) : settleLoop n h = h := by
  cases n with
  | zero => rfl
  | succ n => simp [settleLoop, e, settlePass]

/-- Where no Tongs line is held, there is none to let go. -/
theorem tidyTongs_none (h : Hub) (e : h.tongs = []) : tidyTongs h = h := by
  cases h; cases e; rfl

/-- Where nothing waits at a home, settling changes nothing. -/
theorem settle_quiet (h : Hub) (e : h.quiet) : settle h = h := by
  obtain ⟨h1, -, h3, h4, h5⟩ := e
  have h6 : settleEvict h = h := by simp [settleEvict, h4]
  have h7 : settleEcho h = h := by simp [settleEcho, h5]
  unfold settle
  rw [tidyTongs_none h h3, h6, h7]
  exact settleLoop_no_txns _ _ h1

/-- Where nothing waits at a home, a slice has nothing to present again. -/
theorem retrySlice_quiet (sl : Nat) (h : Hub) (e : h.quiet) : retrySlice sl h = h := by
  simpa [retrySlice, e.2.1, turnOrder, presentWaiting] using settle_quiet h e

end Sys2Proof.Machine
end

