-- ==== Sys2Proof/Tests/Slice0.lean ====
section
/-! SUPPORT. Tests: well-formedness, examples of the spec, single steps, and a witness of every statement's hypotheses. -/

set_option Elab.async false

namespace Sys2Proof.Machine.Slice0

/-- A register list that leaves the PMU event selectors alone has no word at them. -/
theorem pmu_none (b : Bank Word32) (hr : ∀ e ∈ b, e.1 < 0x4910 ∨ (0x4950 ≤ e.1 ∧ e.1 < 0x104910) ∨ 0x104950 ≤ e.1) (d n : Nat) (hd : d < 2) (hn : n < 8) :
    bfind b (d * 0x100000 + 0x4910 + 8 * n) = none :=
  bfind_none _ _ (fun e he => by have := hr e he; omega)

/-- The claim of `Hub.idle`, from what can be decided. -/
theorem idle_of (h : Hub) (hd : ((h.txns = [] ∧ h.waiting = [] ∧ h.tongs = [] ∧ h.integ.evict = [] ∧ h.cache.echoDue = []) ∧ h.snps = [] ∧ h.recov = [] ∧ h.undef = [] ∧ h.wbs = [] ∧ (h.sieve.all fun e => !parityBad h e) = true ∧ h.life.warm = []
      ∧ h.life.phase = .run ∧ h.integ.pathErr = [] ∧ h.wins = [] ∧ h.mem.wf = true ∧ h.mem.ketErr = []))
    (hr : ∀ e ∈ h.regs, e.1 < 0x4910 ∨ (0x4950 ≤ e.1 ∧ e.1 < 0x104910) ∨ 0x104950 ≤ e.1) : h.idle := by
  obtain ⟨h1, h2, h3, h4, h5, h6, h7, h8, h9, h10, h11, h12⟩ := hd
  exact ⟨h1, h2, h3, h4, h5, h6, h7, h8, h9, h10, h11, h12, pmu_none h.regs hr⟩

/-- What `Hub.takes` asks of a request. -/
theorem takesReq_of (h : Hub) (l op : Nat) (r : ReqHdr) (d : List Byte) (e : REntry)
    (hd : linkTrained h l = true ∧ (link h l).inbox = [] ∧ listedOp h l op = true ∧ admitted h l r.pid.toNat r.stream.toNat = true
      ∧ (rmapFind h r.addr.toNat).map Prod.snd = some e ∧ e.here h = true
      ∧ formStatus h (reqOf l h.nextId (reqMsg op r d) h) r.len.toNat (ceilDiv d.length 16) = 0) : h.takes l op r d e := hd

/-- What `Hub.ringIn` asks of a manager's completion ring. -/
theorem ringIn_of (h : Hub) (m : Nat) (e : REntry)
    (hd : (rmapFind h (h.cplSlot m)).map Prod.snd = some e ∧ e.here h = true ∧ e.typ = .kettle ∧ (mgr h m).held = [] ∧ 0 < cplFree h m ∧ h.mons = []) :
    h.ringIn m e := hd

/-- A claim about the numbers below a bound, from its check. -/
theorem ball_of (n : Nat) (P : Nat → Prop) [DecidablePred P] (h : (List.range n).all (fun k => decide (P k)) = true) (k : Nat) (hk : k < n) : P k := by
  simp only [List.all_eq_true, List.mem_range, decide_eq_true_eq] at h
  exact h k hk

/-- A link of revision 1.1 that is up, with credits of its peer. -/
def wUp : Link := { st := .up, rev11 := true, credits := [255, 255, 255, 255, 255, 255, 255, 255], used := [0, 0, 0, 0, 0, 0, 0, 0], crIn := [0, 0, 0, 0, 0, 0, 0, 0], crOut := [0, 0, 0, 0, 0, 0, 0, 0] }
/-- A trained channel, and the eight of them. -/
def wChan : MemTrain := { trained := true, rate := 4, full := true }
def wChans : Bank MemTrain := (List.range 8).map (fun k => (k, wChan))
/-- A main-memory entry, an entry with ECC and mirror of each kind, and the Kettle's. -/
def wNwt : REntry := { base := 0, size := 1024, typ := .nwt, cls := 0 }
def wNnc : REntry := { base := 2048, size := 16, typ := .nnc, cls := 0, ecc := true, mirror := true, tbase := 2048 }
def wKet : REntry := { base := 32764, size := 2, typ := .kettle, cls := 1 }
def kett : Nat := 0xFFF800000
/-- A running package: two hosts on LL0 and LL1 of 64-byte granules, partition 1 ACTIVE, manager 0 with rings in the Kettle. -/
def wPart : Part := { st := .active, links := 0x7F#8, kcount := 64, wayMask := 0xFFFF#16, wayMax := 16, bud := [1000, 1000, 1000], budNow := [1000, 1000, 1000], monq := 4, share := 8, depth := 2 }
def wh : Hub :=
  { now := 10 ^ 9, nextId := 100,
    life := { phase := .run, resetLow := false, kettleLost := false, kettleUp := true, fullUp := true, chans := wChans, mainUnits := 8192, arrayPop := 2, arrayUp := true,
              lanes := { trained := true, rate := 2 }, laneTrain := (List.range 4).map (fun k => (k, { trained := true, rate := 2 })) },
    rmap := [(0, { base := 32767, size := 1, typ := .cfg }), (1, wKet), (2, wNwt), (3, wNnc)],
    regs := [(0x18, 0x7F000000#32), (0x4050, 0x01806200#32), (0x4054, 0x02806200#32), (0x4400, 0xE0007F01#32), (0x4408, 0x00000000#32), (0x440C, 0xFF800000#32), (0x4410, 0x0000000F#32)],
    links := [(0, wUp), (1, wUp)],
    parts := [(1, wPart)],
    mgrs := [(0, { head := 3, tail := 5 })],
    fs := { started := true, frame := 7, tickAt := 10 ^ 9 } }
/-- The same package as one of a twin pair: LL7 carries the link to the other hub. -/
def wt : Hub := { wh with links := [(0, wUp), (1, wUp), (7, { wUp with peerHub := true, peerId := true })] }
/-- A register access of partition 1 over LL0 to the West window. -/
def wa : RegAcc := { link := 0#3, vc := true, pid := 1#6, stream := 3#10, tag := 9#12, die := 0#1 }
/-- A request of partition 1 at an address, for 2^len bytes. -/
def wr (a len : Nat) : ReqHdr := { vc := true, cls := 0#2, pid := 1#6, stream := 3#10, tag := 5#12, addr := BitVec.ofNat 48 a, len := BitVec.ofNat 3 len, hway := 0#5, sub := 0#6 }
/-- Parameters that a peer hands over as a link comes up. -/
def wInfo : UpInfo := { width := 0#2, rate16 := false, lanes := 0#3, hubRole := false, revMax := 0x11#8, hubId := false, credits := List.replicate 8 255#8, proxyGeom := 0#32, rdMin := 1#4, rdMax := 1#4, wrMax := 1#4 }
/-- One structure entry of each kind. -/
def wLadle : LadleE := { cluster := 0, line := 2, pid := 1, cls := 0, inFlight := false, killed := false, data := [], frame := 5, seq := 3 }
def wMon : Mon := { id := 1, die := 0, granule := 0x1000, link := 0, stream := 3, pid := 1, at_ := 5 }
def wReq : Req := { op := 0x13, link := 0, host := 0, pid := 1, cls := 3, stream := 3, tag := 5, vc := true, addr := 0x100, size := 64, uid := 7, ent := wNwt }
def wTxn : Txn := { id := 4, req := wReq, ph := .perform, trk := true, since := 5 }
def wSnp : Snp := { id := 6, host := 1, link := 0, kind := 2, addr := 0x1000, size := 64, txn := 4, owner := false, vc := false, held := false, sent := 5 }
def wWb : WbLine := { id := 9, cluster := 0, line := 2, tgt := 0, off := 256, mirror := false, ecc := false, data := List.replicate 128 7#8, mask := List.replicate 64 true ++ List.replicate 64 false, poison := false }
def wOn : Cache := { cst := .on, size := 1, powered := 0xFFFF#16 }
def wSec : Sector := { slice := 0, set := 0, way := 1, addr := 0x4000, lines := [.clean, .invalid, .clean, .clean, .invalid, .invalid, .invalid, .clean], pid := 1, age := 0, echo := false }
def wWalk : Walk := { job := 50, kind := 2, op := 2, setMode := true }
def wWin : Win := { st := .sealing, pid := 1, base := 2048 * 2097152, lines := 1, writers := 0x7F#8 }
def wEnt : SEnt := { host := 0, set := 65, way := 0, addr := 0x1040, st := 3, seq := 1 }
def wUpg : Txn := { wTxn with req := { wReq with op := 0x15, addr := 0x1000 }, ph := .snoop, trk := false, upg := true, grant := 3 }
def wUni : Txn := { wTxn with req := { wReq with op := 0x12, addr := 0x1000 }, ph := .snoop, trk := false, grant := 3 }
def wRsp : RspHdr := { vc := false, lstat := 0#2, stream := 3#10, tag := 5#12, state := 0#3, reason := 0#3, declined := false, pass := false }
def wTw : TwinReq := { key := 3, ownTag := 4, req := wReq, addr := 0x100, size := 64, ph := 1 }
def wCastSec : Sector := { wSec with slice := homeSlice 0x1000, addr := 0x1000, set := 5, lines := [.filling, .invalid, .invalid, .invalid, .invalid, .invalid, .invalid, .invalid] }
def wCast : Txn := { wTxn with req := { wReq with op := 0x31, addr := 0x1000, size := 128 }, ph := .cast, slice := homeSlice 0x1000, slot := some (wCastSec.set, 1) }
/-- A command word of manager 0 that bears counter 1, and the word sealed with its manager's key. -/
def wc : CmdWord := { auth := true, irq := false, rsvdA := 0#6, tag := 0x33#16, pid := 0#6, rsvdB := 0#26, counter := 1#64, arg0 := 0#64, arg1 := 0#64, arg2 := 0#64, arg3 := 0#64, arg4 := 0#64, mac := 0#64 }
def sealCmd (h : Hub) (m op : Nat) (c : CmdWord) : CmdWord :=
  { c with mac := BitVec.ofNat 64 (ofBytes ((cmac64 (keyBytes ((bfind h.led.keys m).getD 0#128)) (macMessage h m op c)).map (BitVec.ofNat 8))) }
/-- The running package with a key loaded for manager 0; the same with the cache ON. -/
def wk : Hub := { wh with led := { keys := [(0, 0x2B7E151628AED2A6#128)] } }
def wkOn : Hub := { wk with cache := wOn }
def wHeavy : Heavy := { job := 50, mgr := 0, opcode := 2, tag := 8, irq := false, pid := 0 }
def wEnd : Walk := { wWalk with next := (List.range 32).map (fun k => (k, 4096)), done := 12 }
def wShadow : REntry := { base := 5000, size := 1, typ := .shadow, cls := 1, tbase := 0, src := 0 }
def wSaved : Part := { wPart with st := .frozen, busy := true, kcount := 0 }
def wImg : ImgJob := { job := 50, pid := 1, save := true, addr := 0x10000, level := 1, hot := false, image := [], arg0 := 0#64 }
def wSave : Hub := { wh with heavy := [{ wHeavy with opcode := 0x16, pid := 1 }], images := [wImg], parts := [(1, wSaved)], life := { wh.life with rdMin := 1, rdMax := 1, wrMax := 1 } }
def wReady : List Byte × List Nat × Hub := (imageReady wImg wSave).getD ([], [1], wSave)
def wStored : Hub := match storeRange 0 50 0x10000 wReady.1 wReady.2.2 with | .done _ g => g | _ => wSave
def wRest : Hub := { wSave with heavy := [{ wHeavy with opcode := 0x17, pid := 1 }], images := [{ wImg with save := false, image := List.replicate 12 0#8 ++ toBytes 4 80 ++ List.replicate 48 0#8 }] }
/-- A package whose partition 1 has a Mover ring of 16 slots in its Kettle blocks, with one descriptor posted. -/
def wMov : Hub := { wh with regs := wh.regs ++ [(0x5410, 0xFF801000#32), (0x5414, 0x0000000F#32)], parts := [(1, { wPart with movLog := 4, movTail := 1 })] }
def wDesc : MovDesc := { op := 0#4, cls := 1#2, irq := false, done := false, len := 64#25, rsvdA := 0#31, src := 0x8000#48, rsvdB := 0#16, dst := 0xA000#48, rsvdC := 0#16, pattern := 0#64 }
def wRun (d : MovDesc) : MovRun := { pid := 1, d := d, doneBytes := 0, crc := 0#64, firstDiff := none, stop := false, job := 60 }
/-- What `Hub.takesCmd` asks of a sealed command besides its MAC. -/
def takesB (h g : Hub) (m op : Nat) (c : CmdWord) : Bool :=
  decide (m < 4) && canTake h m && (match cmdSpec op with | some k => (!k.mgr0 || m == 0) && !reservedSet k c | none => false) && c.auth
    && (bfind h.led.keys m).isSome && bfind h.led.keys m == bfind g.led.keys m && h.life.hubId == g.life.hubId && !h.led.bad.contains (0x10 + m)
    && decide ((mgr h m).lastCtr < c.counter.toNat) && decide (c.counter.toNat < bget h.led.floor m 0 + 4096)

theorem macMessage_seal (h g : Hub) (m op : Nat) (c : CmdWord) (x : BitVec 64) (hi : h.life.hubId = g.life.hubId) :
    macMessage h m op { c with mac := x } = macMessage g m op c := by
  unfold macMessage
  rw [hi]
  rfl

/-- A command with a MAC put in is taken where the MAC is good. -/
theorem takes_mac (h g : Hub) (m op : Nat) (c : CmdWord) (x : BitVec 64) (hb : takesB h g m op c = true)
    (hx : ∀ k, bfind h.led.keys m = some k → x = BitVec.ofNat 64 (ofBytes ((cmac64 (keyBytes k) (macMessage g m op c)).map (BitVec.ofNat 8)))) :
    h.takesCmd m op { c with mac := x } := by
  simp only [takesB, Bool.and_eq_true, decide_eq_true_eq, beq_iff_eq, Bool.not_eq_true'] at hb
  obtain ⟨⟨⟨⟨⟨⟨⟨⟨⟨h1, h2⟩, h3⟩, h4⟩, h5⟩, h6⟩, h7⟩, h8⟩, h9⟩, h10⟩ := hb
  obtain ⟨k, hk⟩ := Option.isSome_iff_exists.1 h5
  refine ⟨h1, h2, ?_, Or.inr ⟨h4, ?_, macGood_of_mac h m op _ k hk h8 ?_, h9, h10⟩⟩
  · cases hs : cmdSpec op with
    | none => simp [hs] at h3
    | some s =>
      simp only [hs, Bool.and_eq_true, Bool.or_eq_true, Bool.not_eq_true', beq_iff_eq] at h3
      exact ⟨s, rfl, fun hm => h3.1.resolve_left (by simp [hm]), h3.2⟩
  · simp [keyLoaded, hk]
  · rw [macMessage_seal h g m op c _ h7]
    exact hx k hk

/-- A sealed command is taken. -/
theorem takes_of (h g : Hub) (m op : Nat) (c : CmdWord) (hb : takesB h g m op c = true) : h.takesCmd m op (sealCmd g m op c) := by
  unfold sealCmd
  refine takes_mac h g m op c _ hb (fun k hk => ?_)
  simp only [takesB, Bool.and_eq_true, beq_iff_eq] at hb
  rw [← hb.1.1.1.1.2, hk]
  rfl

/-! ### Well-formedness: each check refuses an ill-formed term -/

theorem test_wf_slots : Instr.wf (.wrLine 0 (wr 0 7) [1#8]) = false ∧ Instr.wf (.wrLine 0 (wr 0 7) (List.replicate 16 1#8)) = true := by decide +kernel
theorem test_wf_slots_many : Instr.wf (.wrPart 0 (wr 0 7) (List.replicate 512 1#8)) = false := by decide +kernel
theorem test_wf_flit : Instr.wf (.flitReceived 0 (List.replicate 255 0#8)) = false := by decide +kernel
theorem test_wf_up : Instr.wf (.linkUp 0 { wInfo with credits := [] }) = false ∧ Instr.wf (.linkUp 0 wInfo) = true := by decide +kernel
theorem test_wf_disturb_word : Instr.wf (.fillDataLands 1 { words := [(16, 1#72)], beats := [], crc := 0#32 }) = false := by decide +kernel
theorem test_wf_disturb_beat : Instr.wf (.fillDataLands 1 { words := [], beats := [(16, 1#128)], crc := 0#32 }) = false := by decide +kernel
theorem test_wf_whisk : Instr.wf (.whiskLapEnd 12#4) = false ∧ Instr.wf (.whiskLapEnd 11#4) = true := by decide +kernel
theorem test_wf_unit : Instr.wf (.memTrainBackoffExpiry 0 6) = false ∧ Instr.wf (.memTrainBackoffExpiry 0 5) = true := by decide +kernel
theorem test_wf_nop : Instr.wf (.nop 0 0x10#8 wc) = false ∧ Instr.wf (.nop 0 0x7F#8 wc) = true := by decide +kernel
theorem test_wf_pid : Instr.wf (.moverChunkDone 0) = false ∧ Instr.wf (.moverChunkDone 63) = true := by decide +kernel
theorem test_wf_host : Instr.wf (.cohHostGeomWrite wa 7 0#32) = false ∧ Instr.wf (.cohHostGeomWrite wa 6 0#32) = true := by decide +kernel
theorem test_wf_offset : Instr.wf (.registerWrite wa 0x4011#20 0#32) = false ∧ Instr.wf (.registerWrite wa 0x4010#20 0#32) = true := by decide +kernel

/-! ### The spec's examples and the standards' vectors -/

/-- R243: the check value of the line hash's CRC over "123456789". -/
theorem test_crc64_check_value : crc64 ((List.range 9).map (fun i => BitVec.ofNat 8 (0x31 + i))) = 0x6C40DF5F0B497347 := by decide +kernel
/-- R384: bit 7 of CB_ERR has its alias at 0x8_041C, bit 13 at 0x8_0434. -/
theorem test_alias_address : aliasReg ((0x41C) / 32) = 0x20 ∧ aliasBit (0x41C / 32) (0x41C % 32 / 4) = 7 ∧ aliasReg (0x434 / 32) = 0x20 ∧ aliasBit (0x434 / 32) (0x434 % 32 / 4) = 13 := by decide +kernel
/-- Worked race of spec/05: granule 0x0002_3456_7A80 is homed on slice 14 in RG1 on West. -/
theorem test_home_slice : homeSlice 0x234567A80 = 14 ∧ homeRg 0x234567A80 = 1 ∧ homeDie 0x234567A80 = 0 := by decide +kernel
/-- FIPS 197's block under the key 00 01 … 0F. -/
theorem test_aes : aesEnc (List.range 16) ((List.range 16).map (fun i => 0x11 * i)) = [0x69, 0xC4, 0xE0, 0xD8, 0x6A, 0x7B, 0x04, 0x30, 0xD8, 0xCD, 0xB7, 0x80, 0x70, 0xB4, 0xC5, 0x5A] := by decide +kernel
/-- The CMAC of SP 800-38B's 64-byte example, its first 8 bytes (R272). -/
theorem test_cmac : cmac64 ((toBytes 16 0x3C4FCF098815F7ABA6D2AE2816157E2B).map BitVec.toNat)
      ((toBytes 64 0x10376CE67B412BAD179B4FDF45249FF6EF520A1A19C1FBE511E45CA3461CC830518EAF45AC6FB79E9CAC031E578A2DAE2A179373117E3DE9969F402EE2BEC16B).map BitVec.toNat)
    = [0x51, 0xF0, 0xBE, 0xBF, 0x7E, 0x3B, 0x9D, 0x92] := by decide +kernel

/-! ### Steps -/

/-- The next state that an outcome answers. -/
def nextOf : Host.Outcome State Fault Refusal → Option State
  | .next t => some t
  | _ => none

/-- A step performs the front command and leaves the rest waiting. -/
theorem test_step_takes_the_front : (nextOf (step ⟨wh, [.bypass, .wake]⟩)).map (fun t => (t.pending, t.hub.side.tapInstr)) = some ([.wake], 1) := by decide +kernel
/-- On an empty queue one cycle passes. -/
theorem test_step_idles : (nextOf (step ⟨wh, []⟩)).map (fun t => (t.pending, t.hub.now)) = some ([], 10 ^ 9 + 1) := by decide +kernel
/-- A write of the Kettle is read back by the next request. -/
theorem test_write_then_read : ((nextOf (step ⟨wh, [.wrPart 0 (wr (kett + 64) 6) (List.replicate 16 255#8 ++ List.replicate 64 5#8), .rdOnce 0 (wr (kett + 64) 6)]⟩)).bind
      (fun s => nextOf (step s))).map (fun t => (link t.hub 0).q.map (fun o => (o.msg.op, o.msg.data))) = some [(0xA1, []), (0xA2, List.replicate 64 5#8)] := by decide +kernel
/-- A second KEY_LOAD for manager 0 is critical: without AUTH it completes AUTH_FAIL with MGR_INFO 2 (R270, R273). -/
theorem test_key_load_once : (nextOf (exec (.keyLoad 0 { wc with auth := false, arg1 := 5#64 }) ⟨wk, []⟩)).map (fun t => (memReadN t.hub.mem.kettle 0 4, t.hub.led.keys)) =
    some ([0x33#8, 0#8, 3#8, 0x30#8], wk.led.keys) := by decide +kernel

/-! ### Witnesses: for each statement with hypotheses, a state and operands that meet them together, clause by clause. The number is the clause's place in
its statement; a letter tells further witnesses of one clause. -/

theorem witness_headersReadBack_1 : ∃ (op : Nat) (d : List Byte), op < 64 ∧ d.length % 16 = 0 ∧ d.length ≤ 16 * 31 :=
  ⟨0x21, List.replicate 496 7#8, by decide +kernel, by decide +kernel, by decide +kernel⟩
theorem witness_headersReadBack_2 : ∃ op : Nat, 64 ≤ op ∧ op < 128 := ⟨64, by decide, by decide⟩
theorem witness_headersReadBack_3 : ∃ (op : Nat) (d : List Byte), 160 ≤ op ∧ op < 192 ∧ d.length % 16 = 0 ∧ d.length ≤ 16 * 31 :=
  ⟨191, [], by decide, by decide, by decide +kernel, by decide +kernel⟩
theorem witness_everyStepKeepsTheForm : ∃ (s t : State), step s = .next t ∧ s.queueOk ∧ s.memOk ∧ s.pending ≠ [] :=
  ⟨⟨wh, [.bypass]⟩, ⟨{ wh with side := { wh.side with tapInstr := 1, tapOut := some 0#32 } }, []⟩, rfl, rfl, rfl, by decide⟩
theorem witness_stepRunsTheFrontCommand : ∃ h : Hub, h.life.resetLow = true := ⟨{}, rfl⟩

theorem witness_coldResetLeaves_1 : ∃ (h : Hub) (i : Instr), (i = .coldReset ∨ i = .railOutOfRange true ∨ (i = .railOutOfRange false ∧ h.life.phase ≠ .parked ∧ h.life.resetLow = false)) :=
  ⟨wh, .railOutOfRange false, by decide +kernel⟩

theorem witness_coldResetLeaves_1_b : ∃ (h : Hub) (i : Instr), (i = .coldReset ∨ i = .railOutOfRange true ∨ (i = .railOutOfRange false ∧ h.life.phase ≠ .parked ∧ h.life.resetLow = false)) :=
  ⟨wh, .coldReset, by decide +kernel⟩

theorem witness_powerGoodStartsTheRom_1 : ∃ (h : Hub), h.life.resetLow = true :=
  ⟨{ wh with life := { wh.life with resetLow := true } }, by decide +kernel⟩

theorem witness_powerGoodStartsTheRom_2 : ∃ (h : Hub), h.life.resetLow = false :=
  ⟨wh, by decide +kernel⟩

theorem witness_romReadsTheSlots_1 : ∃ (h : Hub), romReads h = true :=
  ⟨{ wh with life := { wh.life with phase := .boot } }, by decide +kernel⟩

theorem witness_romReadsTheSlots_2 : ∃ (h : Hub), romReads h = true :=
  ⟨{ wh with life := { wh.life with phase := .boot } }, by decide +kernel⟩

theorem witness_romReadsTheSlots_3 : ∃ (h : Hub) (t0 : _), h.life.romFrom = some t0 ∧ t0 + h.life.romBackoff * 1250000 ≤ h.now :=
  ⟨{ wh with life := { wh.life with phase := .romService, romFrom := some 5, romBackoff := 1 } }, 5, by decide +kernel⟩

theorem witness_resumeFromRetention_1 : ∃ (h : Hub), h.life.phase = .boot ∧ h.life.waking = true ∧ h.life.arrayPop < 4 :=
  ⟨{ wh with life := { wh.life with phase := .boot, waking := true } }, by decide +kernel⟩

theorem witness_resumeFromRetention_2 : ∃ (h : Hub), h.life.phase = .boot ∧ h.life.waking = true :=
  ⟨{ wh with life := { wh.life with phase := .boot, waking := true } }, by decide +kernel⟩

theorem witness_wakeAndPowerWarning_1 : ∃ (h : Hub), h.life.phase = .parked ∧ h.life.pwrWarn = false :=
  ⟨{ wh with life := { wh.life with phase := .parked } }, by decide +kernel⟩

theorem witness_wakeAndPowerWarning_2 : ∃ (h : Hub), (h.life.phase = .parking ∨ (h.life.phase = .parked ∧ h.life.pwrWarn = true) ∨ (h.life.phase = .drain ∧ h.life.back = .parking)) :=
  ⟨{ wh with life := { wh.life with phase := .parking } }, by decide +kernel⟩

theorem witness_wakeAndPowerWarning_2_b : ∃ (h : Hub), (h.life.phase = .parking ∨ (h.life.phase = .parked ∧ h.life.pwrWarn = true) ∨ (h.life.phase = .drain ∧ h.life.back = .parking)) :=
  ⟨{ wh with life := { wh.life with phase := .drain, back := .parking } }, by decide +kernel⟩

theorem witness_wakeAndPowerWarning_3 : ∃ (h : Hub), h.life.phase = .parked ∧ h.life.pwrWarn = true ∧ h.life.wakeWait = true :=
  ⟨{ wh with life := { wh.life with phase := .parked, pwrWarn := true, wakeWait := true } }, by decide +kernel⟩

theorem witness_wakeAndPowerWarning_4 : ∃ (h : Hub), h.life.phase = .drain ∧ h.life.pwrWarn = true ∧ h.life.drainDone = false :=
  ⟨{ wh with life := { wh.life with phase := .drain, pwrWarn := true } }, by decide +kernel⟩

theorem witness_wakeAndPowerWarning_5 : ∃ (h : Hub), h.life.resetLow = false ∧ h.life.phase ≠ .parked ∧ h.life.phase ≠ .drain :=
  ⟨wh, by decide +kernel⟩

theorem witness_wakeAndPowerWarning_6 : ∃ (h : Hub), h.life.phase = .drain ∧ h.life.drainDone = false ∧ h.wbs = [] ∧ writesOpen h = false ∧ h.life.back ≠ .parking ∧ h.life.warnGone = false :=
  ⟨{ wh with life := { wh.life with phase := .drain, back := .run, pwrWarn := true } }, by decide +kernel⟩

theorem witness_wakeAndPowerWarning_7 : ∃ (h : Hub), h.quiet ∧ h.life.phase = .drain ∧ h.life.pwrWarn = true ∧ h.life.drainDone = true :=
  ⟨{ wh with life := { wh.life with phase := .drain, back := .run, pwrWarn := true, drainDone := true } }, ⟨rfl, rfl, rfl, rfl, rfl⟩, by decide +kernel⟩

theorem witness_wakeAndPowerWarning_8 : ∃ (h : Hub) (t0 : Nat) (x : Txn) (s : Snp) (e : REntry), Hub.idle { h with txns := [], snps := [], life := { h.life with phase := .run } } ∧ h.life.drainAt = some t0 ∧ h.life.phase = .drain ∧ t0 + 50000 ≤ h.now ∧ h.txns = [x] ∧ h.snps = [s] ∧ x.ph = .snoop ∧ x.req.op = 0x21 ∧ x.req.src = .link ∧ linkTrained h x.req.link = true ∧ x.req.ent = e ∧ e.typ = .nwt ∧ e.here h = true ∧ x.req.addr % 128 = 0 ∧ x.req.size = 128 ∧ x.req.data.length = 128 ∧ x.req.mask = List.replicate 128 true ∧ x.lo = x.req.addr ∧ x.n = 128 ∧ x.wb = false ∧ x.fwd = false ∧ s.txn = x.id ∧ s.kind = 2 ∧ s.owner = false ∧ s.held = false ∧ s.wb = false ∧ s.done = false ∧ s.passed = false ∧ h.cache.cst = .off ∧ h.cache.sectors = [] ∧ h.ladle = [] ∧ h.mons = [] ∧ h.twin.snps = [] ∧ memReadable h e x.req.addr = true ∧ 0 < wbFree h (homeCluster x.req.addr) :=
  ⟨{ wh with sieve := [{ host := 1, set := hostSet wh 1 0x10000, way := 0, addr := 0x10000, st := 1, seq := 2 }], snps := [{ id := 4, host := 1, link := 1, kind := 2, addr := 0x10000, size := 64, txn := 50, owner := false, vc := true, held := false, sent := 5 }], txns := [{ id := 50, req := { op := 0x21, link := 0, host := 0, pid := 1, stream := 3, tag := 5, vc := true, addr := 0x10000, data := List.replicate 128 7#8, mask := List.replicate 128 true, ent := wNwt }, slice := homeSlice 0x10000, ph := .snoop, lo := 0x10000 }], life := { wh.life with phase := .drain, back := .run, pwrWarn := true, drainAt := some 7 } }, 7, { id := 50, req := { op := 0x21, link := 0, host := 0, pid := 1, stream := 3, tag := 5, vc := true, addr := 0x10000, data := List.replicate 128 7#8, mask := List.replicate 128 true, ent := wNwt }, slice := homeSlice 0x10000, ph := .snoop, lo := 0x10000 }, { id := 4, host := 1, link := 1, kind := 2, addr := 0x10000, size := 64, txn := 50, owner := false, vc := true, held := false, sent := 5 }, wNwt, idle_of _ (by decide +kernel) (by decide +kernel), by decide +kernel⟩

theorem witness_parkKeepsWhatRetentionKeeps_1 : ∃ (h : Hub), h.quiet ∧ (∀ d, (col h d).stages = []) ∧ h.life.phase = .parking ∧ h.movs = [] ∧ h.wbs = [] ∧ h.cache.cst = .off ∧ (∀ e ∈ h.wins, e.2.st = .disarmed) ∧ h.life.wakeWait = false :=
  ⟨{ wh with life := { wh.life with phase := .parking } }, ⟨rfl, rfl, rfl, rfl, rfl⟩, (fun _ => rfl), by decide +kernel⟩

theorem witness_warmResetEnds_1 : ∃ (h : Hub) (d : BitVec 1) (cause : Nat), h.quiet ∧ bfind h.life.warm d.toNat = some cause ∧ dieBusy h d.toNat = false ∧ (col h d.toNat).stages = [] ∧ (col h d.toNat).drops = 0 ∧ (∀ l, 4 * d.toNat ≤ l → l < 4 * d.toNat + 4 → linkTrained h l = false) :=
  ⟨{ wh with links := [(5, wUp)], life := { wh.life with warm := [(0, 2)] } }, 0#1, 2, ⟨rfl, rfl, rfl, rfl, rfl⟩, by decide +kernel⟩

theorem witness_parkedScrubAndTherm_1 : ∃ (h : Hub), h.life.phase ≠ .parked :=
  ⟨wh, by decide +kernel⟩

theorem witness_parkedScrubAndTherm_2 : ∃ (h : Hub) (w : BitVec 19) (x : BitVec 72), (x = 0#72 ∨ ∃ i, i < 72 ∧ x = BitVec.ofNat 72 (2 ^ i)) ∧ h.life.phase = .parked ∧ bfind h.mem.ketErr w.toNat = none :=
  ⟨{ wh with life := { wh.life with phase := .parked } }, 0#19, 1#72, Or.inr ⟨0, by decide +kernel, rfl⟩, by decide +kernel⟩

theorem witness_channelTraining_1 : ∃ (h : Hub) (k : BitVec 3) (r : BitVec 4), trains h = true ∧ (chanOfMem h k.toNat).trained = false ∧ (chanOfMem h k.toNat).backoffFrom = none ∧ 0 < r.toNat ∧ r.toNat ≤ 4 :=
  ⟨{ wh with life := { wh.life with chans := [(1, wChan)] } }, 0#3, 4#4, by decide +kernel⟩

theorem witness_channelTraining_2 : ∃ (h : Hub) (k : BitVec 3) (r : BitVec 4), (chanOfMem h k.toNat).trained = true ∧ r.toNat ≤ 4 :=
  ⟨wh, 0#3, 2#4, by decide +kernel⟩

theorem witness_channelTraining_3 : ∃ (h : Hub) (k : BitVec 3) (die : BitVec 1) (j : BitVec 3), trains h = true ∧ j.toNat < 4 ∧ k.toNat = 4 * die.toNat + j.toNat ∧ (chanOfMem h k.toNat).trained = false ∧ (chanOfMem h k.toNat).backoffFrom = none :=
  ⟨{ wh with life := { wh.life with chans := [(1, wChan)] } }, 4#3, 1#1, 0#3, by decide +kernel⟩

theorem witness_channelTraining_4 : ∃ (h : Hub) (k : BitVec 3) (die : BitVec 1) (j : BitVec 3) (t0 : Nat), j.toNat < 4 ∧ k.toNat = 4 * die.toNat + j.toNat ∧ (chanOfMem h k.toNat).backoffFrom = some t0 :=
  ⟨{ wh with life := { wh.life with chans := [(5, { backoff := 2, backoffFrom := some 9 })] } }, 5#3, 1#1, 1#3, 9, by decide +kernel⟩

theorem witness_arrayEntersService_1 : ∃ (h : Hub) (r : BitVec 2), (∃ k, k < 8 ∧ chanTrained h k = true) ∧ (∀ n, n < 4 → (laneOfMem h n).backoffFrom = none) ∧ trains h = true ∧ h.life.lanes.trained = false ∧ r ≠ 0#2 ∧ h.life.arrayPop ≠ 0 :=
  ⟨{ wh with life := { wh.life with lanes := {}, laneTrain := [], arrayUp := false } }, 2#2, ⟨0, by decide +kernel, by decide +kernel⟩, ball_of _ _ (by decide +kernel), by decide +kernel⟩

theorem witness_arrayEntersService_2 : ∃ (h : Hub), h.life.zeroing = true ∧ h.life.lanes.trained = true ∧ trains h = true ∧ (∀ v ∈ h.heavy, v.opcode ≠ 0x07) :=
  ⟨{ wh with life := { wh.life with zeroing := true, arrayUp := false } }, by decide +kernel⟩

theorem witness_recoveryEntryOfARunningLink_1 : ∃ (h : Hub) (l : BitVec 3) (i : Instr), (i = .blockLockLoss l ∨ i = .peerRecoveryTrainingSets l) ∧ (link h l.toNat).st = .up :=
  ⟨wh, 0#3, .blockLockLoss 0, by decide +kernel⟩

theorem witness_recoveryEntryOfARunningLink_1_b : ∃ (h : Hub) (l : BitVec 3) (i : Instr), (i = .blockLockLoss l ∨ i = .peerRecoveryTrainingSets l) ∧ (link h l.toNat).st = .up :=
  ⟨wh, 0#3, .peerRecoveryTrainingSets 0, by decide +kernel⟩

theorem witness_trainingBackoff_1 : ∃ (h : Hub) (l : BitVec 3) (t0 : _), (link h l.toNat).backoffFrom = some t0 ∧ t0 + (link h l.toNat).backoff * 1250000 ≤ h.now :=
  ⟨{ wh with links := [(2, { st := .training, backoff := 1, backoffFrom := some 3 })] }, 2#3, 3, by decide +kernel⟩

theorem witness_trainingBackoff_2 : ∃ (h : Hub) (l : BitVec 3) (st : TrainStage), attempting h l.toNat = true ∧ st ≠ .eq :=
  ⟨{ wh with regs := [(0x4680, 0x80000000#32)], links := [(2, { st := .training })] }, 2#3, .lock, by decide +kernel⟩

theorem witness_linkUp_1 : ∃ (h : Hub) (l : BitVec 3) (u : UpInfo), u.width.toNat < 3 ∧ attempting h l.toNat = true ∧ paramRefusal h l.toNat u = none :=
  ⟨{ wh with regs := [(0x4680, 0x80000000#32)], links := [(2, { st := .training })] }, 2#3, wInfo, by decide +kernel⟩

theorem witness_linkUp_2 : ∃ (h : Hub) (l : BitVec 3) (u : UpInfo), u.width.toNat < 3 ∧ (link h l.toNat).st = .recovery ∧ h.now ≤ (link h l.toNat).recAt + 1250000 :=
  ⟨{ wh with links := [(2, { wUp with st := .recovery, recAt := 10 ^ 9 })] }, 2#3, wInfo, by decide +kernel⟩

theorem witness_linkErrorsAreReplayed_3 : ∃ (h : Hub) (l : BitVec 3), (link h l.toNat).st = .up ∧ (link h l.toNat).replay ≠ [] ∧ (link h l.toNat).replayAt = none ∧ (link h l.toNat).ackAt + 2500 ≤ h.now :=
  ⟨{ wh with links := [(0, { wUp with replay := [{ seq := 0, bytes := [] }] })] }, 0#3, by decide +kernel⟩

theorem witness_linkLost_1 : ∃ (h : Hub) (l : BitVec 3) (i : Instr), hostOfLink h l.toNat = 8 ∧ ((i = .linkDown l ∧ linkTrained h l.toNat = true) ∨ (i = .recoveryTimeout l ∧ (link h l.toNat).st = .recovery ∧ (link h l.toNat).recAt + 1250000 < h.now)) :=
  ⟨{ wh with regs := [], links := [(2, wUp)] }, 2#3, .linkDown 2, by decide +kernel⟩

theorem witness_linkLost_1_b : ∃ (h : Hub) (l : BitVec 3) (i : Instr), hostOfLink h l.toNat = 8 ∧ ((i = .linkDown l ∧ linkTrained h l.toNat = true) ∨ (i = .recoveryTimeout l ∧ (link h l.toNat).st = .recovery ∧ (link h l.toNat).recAt + 1250000 < h.now)) :=
  ⟨{ wh with regs := [], links := [(2, { wUp with st := .recovery, recAt := 5 })] }, 2#3, .recoveryTimeout 2, by decide +kernel⟩

theorem witness_flitTime_1 : ∃ (h : Hub) (l : BitVec 3) (i : _) (f : _), (link h l.toNat).st = .up ∧ (link h l.toNat).replayAt = some i ∧ (link h l.toNat).replay[i]? = some f :=
  ⟨{ wh with links := [(0, { wUp with replay := [{ seq := 4, bytes := List.replicate 244 7#8 }], replayAt := some 0 })] }, 0#3, 0, ({ seq := 4, bytes := List.replicate 244 7#8 } : SentFlit), by decide +kernel⟩

theorem witness_flitTime_2 : ∃ (h : Hub) (l : BitVec 3), (link h l.toNat).st = .up ∧ (link h l.toNat).replayAt = none ∧ (link h l.toNat).q = [] :=
  ⟨wh, 0#3, by decide +kernel⟩

theorem witness_flitTime_3 : ∃ (h : Hub) (l : BitVec 3) (o : _), (link h l.toNat).st = .up ∧ (link h l.toNat).replayAt = none ∧ (link h l.toNat).q = [o] ∧ o.sent = 0 ∧ o.slots = 1 ∧ o.lat = none ∧ o.msg.data = [] ∧ chanOf o.msg.op = 3 ∧ 1 ≤ creditOf (link h l.toNat) o.msg.pool ∧ (link h l.toNat).replay.length < 64 :=
  ⟨{ wh with links := [(0, { wUp with q := [{ msg := { op := 0xC1, frame := 7 }, slots := 1 }] })] }, 0#3, ({ msg := { op := 0xC1, frame := 7 }, slots := 1 } : Out), by decide +kernel⟩

theorem witness_flitCarriesARequest_1 : ∃ (h : Hub) (l : BitVec 3) (op : Nat) (ack : Nat) (d : List Byte), (link h l.toNat).st = .up ∧ (link h l.toNat).replay = [] ∧ (link h l.toNat).owedSlots = 0 ∧ op < 64 ∧ listedOp h l.toNat op = true ∧ d.length % 16 = 0 ∧ d.length ≤ 16 * 14 ∧ ack < 2 ^ 32 :=
  ⟨wh, 0#3, 0x13, 0, [], by decide +kernel⟩

theorem witness_flitCarriesARequest_1_b : ∃ (h : Hub) (l : BitVec 3) (op : Nat) (ack : Nat) (d : List Byte), (link h l.toNat).st = .up ∧ (link h l.toNat).replay = [] ∧ (link h l.toNat).owedSlots = 0 ∧ op < 64 ∧ listedOp h l.toNat op = true ∧ d.length % 16 = 0 ∧ d.length ≤ 16 * 14 ∧ ack < 2 ^ 32 :=
  ⟨wh, 0#3, 0x21, 2 ^ 32 - 1, List.replicate 128 5#8, by decide +kernel⟩

set_option maxRecDepth 100000 in
theorem witness_linkErrorsAreReplayed_1 : ∃ (h : Hub) (l : BitVec 3) (f : List Byte), (link h l.toNat).st = .up ∧ f.length = 256 ∧ crc64 (f.take 244 ++ f.drop 252) ≠ ofBytes (slice f 244 8).reverse :=
  ⟨wh, 0#3, List.replicate 256 1#8, by decide +kernel⟩

set_option maxRecDepth 100000 in
theorem witness_linkErrorsAreReplayed_2 : ∃ (h : Hub) (l : BitVec 3) (f : List Byte), (link h l.toNat).st = .up ∧ f.length = 256 ∧ crc64 (f.take 244 ++ f.drop 252) = ofBytes (slice f 244 8).reverse ∧ bits (ofBytes (f.take 4)) 11 10 = 0 ∧ bits (ofBytes (f.take 4)) 9 0 ≠ ((link h l.toNat).rxSeq + 1) % 1024 ∧ (link h l.toNat).replay = [] :=
  ⟨wh, 0#3, wholeFlit (flitBody 7 0 1 []) 0, by decide +kernel⟩

theorem witness_ticksAreGuardedAndReplaced_1 : ∃ (h : Hub) (i : Instr), ((∃ b f, i = .ftickEdge b f ∧ h.fs.srcNow = (if b then 1 else 0) ∧ h.fs.tickCtl.toNat.testBit 6 = f) ∨ (i = .internalTimerTick ∧ h.fs.srcNow = 3 ∧ h.fs.tickAt + h.fs.period * 1250 ≤ h.now)) ∧ h.fs.started = true ∧ h.fs.tickPend = 0 ∧ (h.fs.fresh = true ∨ h.fs.tickAt + max 4000 (h.fs.period / 2) * 1250 ≤ h.now) :=
  ⟨{ wh with fs := { wh.fs with srcNow := 3, tickAt := 5 } }, .internalTimerTick, Or.inr (by decide +kernel), by decide +kernel⟩

theorem witness_ticksAreGuardedAndReplaced_1_b : ∃ (h : Hub) (i : Instr), ((∃ b f, i = .ftickEdge b f ∧ h.fs.srcNow = (if b then 1 else 0) ∧ h.fs.tickCtl.toNat.testBit 6 = f) ∨ (i = .internalTimerTick ∧ h.fs.srcNow = 3 ∧ h.fs.tickAt + h.fs.period * 1250 ≤ h.now)) ∧ h.fs.started = true ∧ h.fs.tickPend = 0 ∧ (h.fs.fresh = true ∨ h.fs.tickAt + max 4000 (h.fs.period / 2) * 1250 ≤ h.now) :=
  ⟨{ wh with fs := { wh.fs with srcNow := 1, tickAt := 5 } }, .ftickEdge true false, Or.inl ⟨true, false, by decide +kernel⟩, by decide +kernel⟩

theorem witness_ticksAreGuardedAndReplaced_2 : ∃ (h : Hub) (i : Instr), ((∃ b f, i = .ftickEdge b f ∧ h.fs.srcNow = (if b then 1 else 0) ∧ h.fs.tickCtl.toNat.testBit 6 = f) ∨ (i = .internalTimerTick ∧ h.fs.srcNow = 3 ∧ h.fs.tickAt + h.fs.period * 1250 ≤ h.now)) ∧ h.fs.started = true ∧ h.fs.tickPend = 0 ∧ h.fs.fresh = false ∧ h.now < h.fs.tickAt + max 4000 (h.fs.period / 2) * 1250 :=
  ⟨{ wh with fs := { wh.fs with srcNow := 0, tickAt := 10 ^ 9 - 5 } }, .ftickEdge false false, Or.inl ⟨false, false, by decide +kernel⟩, by decide +kernel⟩

theorem witness_ticksAreGuardedAndReplaced_3 : ∃ (h : Hub), h.fs.started = true ∧ h.fs.tickPend = 0 ∧ h.fs.srcNow ≠ 3 ∧ h.fs.tickAt + h.fs.period * 5 / 4 * 1250 ≤ h.now :=
  ⟨{ wh with fs := { wh.fs with srcNow := 1, tickAt := 5 } }, by decide +kernel⟩

theorem witness_ticksAreGuardedAndReplaced_4 : ∃ (h : Hub), h.fs.srcNow = 3 :=
  ⟨wh, by decide +kernel⟩

theorem witness_ticksAreGuardedAndReplaced_5 : ∃ (h : Hub), 0 < bits h.fs.tickCtl.toNat 11 8 ∧ bits h.fs.tickCtl.toNat 11 8 ≤ h.fs.synthRun ∧ h.fs.srcNow ≠ bits h.fs.tickCtl.toNat 3 2 :=
  ⟨{ wh with fs := { wh.fs with srcNow := 1, synthRun := 3 } }, by decide +kernel⟩

theorem witness_frameTickBeginsAFrame_1 : ∃ (h : Hub), h.fs.tickPend ≠ 0 ∧ h.heavy = [] :=
  ⟨{ wh with fs := { wh.fs with tickPend := 2 } }, by decide +kernel⟩

theorem witness_stepReleasesBudget_1 : ∃ (h : Hub), h.fs.started = true ∧ h.fs.tickPend = 0 ∧ h.fs.step < 15 ∧ h.fs.decisions = [] ∧ h.fs.tickAt + (h.fs.step + 1) * h.fs.period / 16 * 1250 ≤ h.now ∧ (∀ e ∈ h.parts, e.1 < 64) :=
  ⟨{ wh with fs := { wh.fs with tickAt := 0 } }, by decide +kernel⟩

theorem witness_stewardPass_1 : ∃ (h : Hub) (f : Nat), h.fs.passFrame = some f ∧ h.fs.step < 8 ∧ h.life.phase = .run :=
  ⟨{ wh with fs := { wh.fs with passFrame := some 6 } }, 6, by decide +kernel⟩

theorem witness_stewardPass_2 : ∃ (h : Hub) (f : Nat), h.fs.passFrame = some f ∧ 8 ≤ h.fs.step :=
  ⟨{ wh with fs := { wh.fs with passFrame := some 6, step := 8 } }, 6, by decide +kernel⟩

theorem witness_windowsEnd_1 : ∃ (h : Hub) (die : _), die < 2 ∧ (pmuOf h die).winLeft = some 0 :=
  ⟨{ wh with pmu := [(1, { cnt := [(2, 9)], winLeft := some 0 })] }, 1, by decide +kernel⟩

theorem witness_windowsEnd_2 : ∃ (h : Hub), h.bwLeft = 1 :=
  ⟨{ wh with bwLeft := 1 }, by decide +kernel⟩

theorem witness_windowsEnd_3 : ∃ (h : Hub) (typ : _) (n : _), h.fs.started = true ∧ h.fs.frame % 1024 = 0 ∧ h.led.failing = [] ∧ h.led.typeNew = [(typ, n)] :=
  ⟨{ wh with fs := { wh.fs with frame := 1024 }, led := { typeNew := [(0x21, 4)] } }, (0x21 : Nat), (4 : Nat), by decide +kernel⟩

theorem witness_holdsAndWaitsEnd_1 : ∃ (h : Hub) (d : BitVec 1) (t0 : _), (lid h d.toNat).openAt = some t0 ∧ t0 + 256 ≤ h.now :=
  ⟨{ wh with lid := [(0, { openAt := some 6, pair := some (0x10, 1#32, 6) })] }, 0#1, 6, by decide +kernel⟩

theorem witness_holdsAndWaitsEnd_2 : ∃ (h : Hub) (d : BitVec 1) (off : _) (v : _) (t0 : _), (lid h d.toNat).pair = some (off, v, t0) ∧ t0 + 256 < h.now :=
  ⟨{ wh with lid := [(0, { openAt := some 6, pair := some (0x10, 1#32, 6) })] }, 0#1, (0x10 : Nat), (1#32 : Word32), 6, by decide +kernel⟩

theorem witness_ladleEntryExpires_1 : ∃ (h : Hub) (cl : BitVec 3) (line : BitVec 41) (e : LadleE), e ∈ h.ladle ∧ e.cluster = cl.toNat ∧ e.line = line.toNat ∧ e.inFlight = false ∧ (∀ x ∈ h.ladle, x.cluster = e.cluster → x.line = e.line → x = e) ∧ 0 < e.pid ∧ e.pid < 64 ∧ (part h e.pid).st ≠ .free ∧ 2 ≤ (h.fs.frame + 2 ^ 32 - e.frame) % 2 ^ 32 :=
  ⟨{ wh with ladle := [wLadle], fs := { wh.fs with frame := (wLadle.frame + 2) % 2 ^ 32 } }, 0#3, 2#41, wLadle, by decide +kernel⟩

theorem witness_ladleEntryExpires_2 : ∃ (h : Hub) (cl : BitVec 3) (line : BitVec 41) (e : LadleE), e ∈ h.ladle ∧ e.cluster = cl.toNat ∧ e.line = line.toNat ∧ e.inFlight = false ∧ (∀ x ∈ h.ladle, x.cluster = e.cluster → x.line = e.line → x = e) ∧ 0 < e.pid ∧ e.pid < 64 ∧ (part h e.pid).st ≠ .free ∧ (h.fs.frame + 2 ^ 32 - e.frame) % 2 ^ 32 < 2 :=
  ⟨{ wh with ladle := [wLadle], fs := { wh.fs with frame := (wLadle.frame + 1) % 2 ^ 32 } }, 0#3, 2#41, wLadle, by decide +kernel⟩

theorem witness_holdsAndWaitsEnd_3 : ∃ (h : Hub) (d : BitVec 1) (m : Mon), m ∈ h.mons ∧ m.die = d.toNat ∧ m.at_ + 12500 ≤ h.now ∧ (∀ x ∈ h.mons, x.id = m.id → x = m) :=
  ⟨{ wh with mons := [wMon] }, 0#1, wMon, by decide +kernel⟩

theorem witness_holdsAndWaitsEnd_4 : ∃ (h : Hub), h.txns = [] ∧ h.integ.evict = [] ∧ h.cache.echoDue = [] :=
  ⟨{ wh with tongs := [{ cluster := 0, line := 2, since := 5 }] }, by decide +kernel⟩

theorem witness_holdsAndWaitsEnd_6 : ∃ (h : Hub) (l : BitVec 3) (n : BitVec 12) (s : Snp), h.snps.find? (fun x => x.link == l.toNat && x.id == n.toNat) = some s ∧ s.done = false ∧ s.timedOut = false ∧ s.sent ≠ 0 ∧ s.sent + snpTimeout h ≤ h.now + 1 :=
  ⟨{ wh with snps := [wSnp], txns := [wTxn] }, 0#3, 6#12, wSnp, by decide +kernel⟩

theorem witness_memoryAnswers_1 : ∃ (h : Hub) (e : REntry) (k : Nat) (t : Txn), Hub.idle { h with txns := [] } ∧ e.typ = .nwt ∧ e.here h = true ∧ e.mirror = false ∧ h.mem.mainErr = [] ∧ chanTrained h k = true ∧ h.txns = [t] ∧ t.ph = .fill ∧ t.slot = none ∧ t.pieces = [] ∧ t.req.src = .link ∧ t.req.op ∈ [0x11, 0x12, 0x13, 0x14, 0x16] ∧ linkTrained h t.req.link = true ∧ t.req.size ∈ [1, 2, 4, 8, 16, 32, 64, 128] ∧ t.req.addr % t.req.size = 0 ∧ t.req.ent = e ∧ k = homeChannel t.req.addr :=
  ⟨{ wh with txns := [{ wTxn with ph := .fill, grant := 3 }] }, wNwt, 0, { wTxn with ph := .fill, grant := 3 }, idle_of _ (by decide +kernel) (by decide +kernel), by decide +kernel⟩

theorem witness_memoryAnswers_2 : ∃ (h : Hub) (e : REntry) (k : Nat) (le : LadleE) (c : BitVec 3) (line : BitVec 41), h.idle ∧ e.typ = .nwt ∧ e.here h = true ∧ e.mirror = false ∧ h.mem.mainErr = [] ∧ chanTrained h k = true ∧ h.ladle = [le] ∧ le.inFlight = true ∧ le.cluster = c.toNat ∧ le.line = line.toNat ∧ (rmapFind h (line.toNat * 128)).map Prod.snd = some e ∧ k = homeChannel (line.toNat * 128) :=
  ⟨{ wh with ladle := [{ wLadle with inFlight := true }] }, wNwt, 0, { wLadle with inFlight := true }, 0#3, 2#41, idle_of _ (by decide +kernel) (by decide +kernel), by decide +kernel⟩

theorem witness_memoryAnswers_2_b : ∃ (h : Hub) (e : REntry) (k : Nat) (le : LadleE) (c : BitVec 3) (line : BitVec 41), h.idle ∧ e.typ = .nwt ∧ e.here h = true ∧ e.mirror = false ∧ h.mem.mainErr = [] ∧ chanTrained h k = true ∧ h.ladle = [le] ∧ le.inFlight = true ∧ le.cluster = c.toNat ∧ le.line = line.toNat ∧ (rmapFind h (line.toNat * 128)).map Prod.snd = some e ∧ k = homeChannel (line.toNat * 128) :=
  ⟨{ wh with ladle := [{ wLadle with inFlight := true, killed := true }] }, wNwt, 0, { wLadle with inFlight := true, killed := true }, 0#3, 2#41, idle_of _ (by decide +kernel) (by decide +kernel), by decide +kernel⟩

theorem witness_memoryAnswers_3 : ∃ (h : Hub) (e : REntry) (k : Nat) (w : WbLine), Hub.idle { h with wbs := [] } ∧ e.typ = .nwt ∧ e.here h = true ∧ e.mirror = false ∧ h.mem.mainErr = [] ∧ chanTrained h k = true ∧ h.wbs = [w] ∧ w.tgt = 0 ∧ e.base * unit2M ≤ w.line * 128 ∧ w.poison = false ∧ w.entry = e ∧ w.data.length = 128 ∧ w.mask.length = 128 ∧ k = homeChannel (w.line * 128) ∧ h.cache.sectors = [] :=
  ⟨{ wh with wbs := [wWb] }, wWb.entry, 0, wWb, idle_of _ (by decide +kernel) (by decide +kernel), by decide +kernel⟩

theorem witness_lateRetries_1 : ∃ (h : Hub) (i : Instr) (sl : BitVec 5) (l : BitVec 3) (st : BitVec 10) (cl : BitVec 3), Hub.idle h ∧ (i = .trackerFreedRetry sl ∨ i = .streamMissRetry l st cl) :=
  ⟨wh, .trackerFreedRetry 0, 0#5, 0#3, 0#10, 0#3, idle_of _ (by decide +kernel) (by decide +kernel), by decide +kernel⟩

theorem witness_lateRetries_2 : ∃ (h : Hub) (i : Instr) (sl : BitVec 5) (l : BitVec 3) (st : BitVec 10) (cl : BitVec 3) (w : Waiting) (e : REntry), Hub.idle { h with waiting := [] } ∧ h.waiting = [w] ∧ w.req.src = .link ∧ w.req.op = 0x13 ∧ w.req.host < 7 ∧ ((i = .trackerFreedRetry sl ∧ w.slice = sl.toNat ∧ w.why = .resource) ∨ (i = .streamMissRetry l st cl ∧ w.why = .undone ∧ w.req.link = l.toNat ∧ w.req.stream = st.toNat ∧ homeCluster w.req.addr = cl.toNat)) ∧ w.req.ent = e ∧ e.typ = .nwt ∧ e.here h = true ∧ h.sieve = [] ∧ h.ladle = [] ∧ h.dets = [] ∧ h.cache.cst = .off ∧ h.cache.sectors = [] ∧ memReadable h e w.req.addr = true ∧ canTrk h (homeCluster w.req.addr) 3 = true ∧ canTrk h (homeCluster w.req.addr) w.req.cls = true :=
  ⟨{ wh with waiting := [{ req := wReq, slice := 0, why := .resource }] }, .trackerFreedRetry 0, 0#5, 0#3, 0#10, 0#3, { req := wReq, slice := 0, why := .resource }, wNwt, idle_of _ (by decide +kernel) (by decide +kernel), by decide +kernel⟩

theorem witness_lateRetries_2_b : ∃ (h : Hub) (i : Instr) (sl : BitVec 5) (l : BitVec 3) (st : BitVec 10) (cl : BitVec 3) (w : Waiting) (e : REntry), Hub.idle { h with waiting := [] } ∧ h.waiting = [w] ∧ w.req.src = .link ∧ w.req.op = 0x13 ∧ w.req.host < 7 ∧ ((i = .trackerFreedRetry sl ∧ w.slice = sl.toNat ∧ w.why = .resource) ∨ (i = .streamMissRetry l st cl ∧ w.why = .undone ∧ w.req.link = l.toNat ∧ w.req.stream = st.toNat ∧ homeCluster w.req.addr = cl.toNat)) ∧ w.req.ent = e ∧ e.typ = .nwt ∧ e.here h = true ∧ h.sieve = [] ∧ h.ladle = [] ∧ h.dets = [] ∧ h.cache.cst = .off ∧ h.cache.sectors = [] ∧ memReadable h e w.req.addr = true ∧ canTrk h (homeCluster w.req.addr) 3 = true ∧ canTrk h (homeCluster w.req.addr) w.req.cls = true :=
  ⟨{ wh with waiting := [{ req := wReq, slice := 0, why := .undone }] }, .streamMissRetry 0 3 0, 0#5, 0#3, 3#10, 0#3, { req := wReq, slice := 0, why := .undone }, wNwt, idle_of _ (by decide +kernel) (by decide +kernel), by decide +kernel⟩

theorem witness_walksAndTags_1 : ∃ (h : Hub) (sl : BitVec 5) (w : Walk) (s : Sector), h.idle ∧ h.walks = [w] ∧ w.ended h = false ∧ w.kind = 2 ∧ w.setMode = true ∧ bget w.next sl.toNat 0 < setsInUse h ∧ h.cache.sectors = [s] ∧ s.slice = sl.toNat ∧ s.set = bget w.next sl.toNat 0 ∧ s.way < 16 ∧ w.op = 2 ∧ s.lines.length = 8 ∧ (∀ x ∈ s.lines, x = .clean ∨ x = .invalid) ∧ s.echo = false ∧ s.cast = [] :=
  ⟨{ wh with cache := { wOn with sectors := [wSec] }, walks := [wWalk] }, 0#5, wWalk, wSec, idle_of _ (by decide +kernel) (by decide +kernel), by decide +kernel⟩

theorem witness_walksAndTags_2 : ∃ (h : Hub) (sl : BitVec 5) (set : BitVec 12) (s : Sector), h.idle ∧ h.cache.sectors = [s] ∧ s.slice = sl.toNat ∧ s.set = set.toNat ∧ s.way < 16 ∧ s.tagPar = true ∧ chipKill h = false ∧ h.cache.locks = [] ∧ s.cast = [] ∧ s.lines.length = 8 :=
  ⟨{ wh with cache := { wOn with sectors := [{ wSec with tagPar := true }] } }, 0#5, 0#12, { wSec with tagPar := true }, idle_of _ (by decide +kernel) (by decide +kernel), by decide +kernel⟩

theorem witness_walksAndTags_3 : ∃ (h : Hub) (p : BitVec 6) (a : Nat) (rest : List Nat), h.idle ∧ bget h.warm p.toNat [] = a :: rest ∧ rest ≠ [] ∧ (part h p.toNat).st = .active ∧ (h.warmAt = 0 ∨ h.warmAt + 64 ≤ h.now + 1) ∧ mappedHere h a = true :=
  ⟨{ wh with cache := wOn, warm := [(1, [0x4000, 0x8000])] }, 1#6, 0x4000, [0x8000], idle_of _ (by decide +kernel) (by decide +kernel), by decide +kernel⟩

theorem witness_upkeep_1 : ∃ (h : Hub) (r : BitVec 4) (line : Nat) (a : Nat) (i : Nat) (k : Nat) (e : REntry), h.idle ∧ 4 ≤ r.toNat ∧ r.toNat ≤ 11 ∧ whiskThere h r.toNat = true ∧ (whisk h r.toNat).lines < ceilLines h r.toNat ∧ scrubNext h r.toNat (whisk h r.toNat).next = some (line, .main e a) ∧ e.base * unit2M ≤ a ∧ e.typ = .nwt ∧ e.ecc = true ∧ e.mirror = false ∧ i < 16 ∧ k < 72 ∧ h.mem.mainErr = [] ∧ bget h.integ.corr (homeDie a) [] = [] ∧ h.integ.backs = [] :=
  ⟨{ wh with rmap := [(0, { wNwt with ecc := true })] }, 4#4, 0, 0, 3, 71, { wNwt with ecc := true }, idle_of _ (by decide +kernel) (by decide +kernel), by decide +kernel⟩

theorem witness_upkeep_2 : ∃ (h : Hub) (r : BitVec 4), h.idle ∧ r.toNat ≤ 11 ∧ whiskThere h r.toNat = true ∧ scrubNext h r.toNat (whisk h r.toNat).next = none :=
  ⟨{ wh with rmap := [], integ := { whisk := [(4, { next := 2 ^ 40, lines := 3, begun := true })] } }, 4#4, idle_of _ (by decide +kernel) (by decide +kernel), by decide +kernel⟩

theorem witness_upkeep_3 : ∃ (h : Hub) (d : BitVec 1) (st : BtStruct), h.idle ∧ (st = .buffers ∨ st = .sieve) ∧ (bget h.bt (d.toNat * 4 + btCode st) {}).steps < btMax h ∧ (bget h.bt (d.toNat * 4 + btCode st) {}).region < btRegions h (btCode st) ∧ h.led.failing.contains 0x80 = false :=
  ⟨wh, 0#1, .sieve, idle_of _ (by decide +kernel) (by decide +kernel), by decide +kernel⟩

theorem witness_upkeep_3_b : ∃ (h : Hub) (d : BitVec 1) (st : BtStruct), h.idle ∧ (st = .buffers ∨ st = .sieve) ∧ (bget h.bt (d.toNat * 4 + btCode st) {}).steps < btMax h ∧ (bget h.bt (d.toNat * 4 + btCode st) {}).region < btRegions h (btCode st) ∧ h.led.failing.contains 0x80 = false :=
  ⟨{ wh with led := { spares := [(0, 3, 9)] } }, 0#1, .buffers, idle_of _ (by decide +kernel) (by decide +kernel), by decide +kernel⟩

theorem witness_upkeep_4 : ∃ (h : Hub) (k : _), h.idle ∧ h.integ.rebuild = true ∧ k < 10 ∧ h.integ.failed.toNat % 1024 = 2 ^ k ∧ h.mem.beatErr = [] ∧ h.led.failing.contains 0x60 = false :=
  ⟨{ wh with integ := { rebuild := true, failed := 16#11 } }, 4, idle_of _ (by decide +kernel) (by decide +kernel), by decide +kernel⟩

theorem witness_upkeep_5 : ∃ (h : Hub) (lane : BitVec 2) (row : Nat), h.idle ∧ h.led.remap.any (fun r => r.lane == lane.toNat && r.row == row && !r.copied) = true ∧ h.mem.beatErr = [] ∧ h.mem.crcErr = [] ∧ (rowLines h lane.toNat row).filterMap (fun x => shadowOwned x.1 x.2 0 h) = [] :=
  ⟨{ wh with led := { remap := [{ lane := 0, row := 9, spare := 1, copied := false }] } }, 0#2, 9, idle_of _ (by decide +kernel) (by decide +kernel), by decide +kernel⟩

theorem witness_upkeep_6 : ∃ (h : Hub), h.idle :=
  ⟨{ wh with integ := { rebuildDue := true, failed := 16#11 } }, idle_of _ (by decide +kernel) (by decide +kernel)⟩

theorem witness_recordsAndSeals_1 : ∃ (h : Hub) (d : BitVec 1) (r : BitVec 128) (rest : List (BitVec 128)) (e : REntry) (a : Nat), h.idle ∧ h.mons = [] ∧ (col h d.toNat).stages = r :: rest ∧ (col h d.toNat).drops = 0 ∧ evtFree h d.toNat = true ∧ ((col h d.toNat).lastDrain = 0 ∨ (col h d.toNat).lastDrain + 8 ≤ h.now + 1) ∧ a = regField h d.toNat 0x4490 31 4 * 16 + regField h d.toNat 0x4494 15 0 * 2 ^ 32 + 16 * ((col h d.toNat).tail % evtSize h d.toNat) ∧ (rmapFind h a).map Prod.snd = some e ∧ e.typ = .kettle ∧ e.here h = true :=
  ⟨{ wh with regs := [(0x4490, 0xFF801001#32), (0x4494, 15#32)], col := [(0, { stages := [77#128, 5#128] })] }, 0#1, 77#128, [5#128], wKet, kett + 0x1000, idle_of _ (by decide +kernel) (by decide +kernel), by decide +kernel⟩

theorem witness_recordsAndSeals_2 : ∃ (h : Hub) (n : BitVec 4) (w : Win) (e : REntry), Hub.idle { h with wins := [] } ∧ h.wins = [(n.toNat, w)] ∧ w.st = .sealing ∧ w.lines = 1 ∧ w.restoreSig = none ∧ witPlaced h w.base 128 = true ∧ (rmapFind h w.base).map Prod.snd = some e ∧ e.typ = .nnc ∧ h.mem.mainErr = [] ∧ h.mem.mirrErr = [] ∧ chanTrained h (2 * homeRg w.base) = true ∧ w.base % 128 = 0 :=
  ⟨{ wh with wins := [(2, wWin)] }, 2#4, wWin, wNnc, idle_of _ (by decide +kernel) (by decide +kernel), by decide +kernel⟩

theorem witness_recordsAndSeals_3 : ∃ (h : Hub) (n : BitVec 4) (w : Win), Hub.idle { h with wins := [] } ∧ h.wins = [(n.toNat, w)] ∧ w.st = .sealing ∧ w.lines = 1 ∧ w.restoreSig = none ∧ witPlaced h w.base 128 = false :=
  ⟨{ wh with wins := [(2, { wWin with base := 0 })] }, 2#4, { wWin with base := 0 }, idle_of _ (by decide +kernel) (by decide +kernel), by decide +kernel⟩

theorem witness_kettleReadsAnswerTheBytes_1 : ∃ (h : Hub) (l : BitVec 3) (r : ReqHdr) (e : REntry) (i : Instr) (op : Nat), h.idle ∧ h.takes l.toNat op r [] e ∧ (i, op) ∈ [(Instr.rdShared l r, 0x11), (.rdUnique l r, 0x12), (.rdOnce l r, 0x13), (.rdNosnp l r, 0x14)] ∧ e.typ = .kettle :=
  ⟨{ wh with mem := { kettle := [(64, 7#8), (66, 9#8)] } }, 0#3, wr (kett + 64) 6, wKet, .rdShared 0 (wr (kett + 64) 6), 0x11, idle_of _ (by decide +kernel) (by decide +kernel), takesReq_of _ _ _ _ _ _ (by decide +kernel), by decide +kernel⟩

theorem witness_kettleReadsAnswerTheBytes_1_b : ∃ (h : Hub) (l : BitVec 3) (r : ReqHdr) (e : REntry) (i : Instr) (op : Nat), h.idle ∧ h.takes l.toNat op r [] e ∧ (i, op) ∈ [(Instr.rdShared l r, 0x11), (.rdUnique l r, 0x12), (.rdOnce l r, 0x13), (.rdNosnp l r, 0x14)] ∧ e.typ = .kettle :=
  ⟨wh, 0#3, wr (kett + 4) 2, wKet, .rdOnce 0 (wr (kett + 4) 2), 0x13, idle_of _ (by decide +kernel) (by decide +kernel), takesReq_of _ _ _ _ _ _ (by decide +kernel), by decide +kernel⟩

theorem witness_kettleWritesStoreTheBytes_1 : ∃ (h : Hub) (l : BitVec 3) (r : ReqHdr) (d : List Byte) (e : REntry) (i : Instr) (op : Nat), ((i, op) ∈ [(Instr.wrLine l r d, 0x21), (.wrPart l r d, 0x22), (.wrNosnp l r d, 0x23)] ∨ (i = .zeroLine l r ∧ op = 0x24 ∧ d = [])) ∧ h.idle ∧ h.takes l.toNat op r d e ∧ e.typ = .kettle ∧ kettleBars h e (reqOf l.toNat h.nextId (reqMsg op r d) h) = false :=
  ⟨{ wh with mem := { kettle := [(64, 7#8), (66, 9#8), (255, 1#8)] } }, 0#3, wr (kett + 64) 6, List.replicate 16 0x5A#8 ++ List.replicate 64 5#8, wKet, .wrPart 0 (wr (kett + 64) 6) (List.replicate 16 0x5A#8 ++ List.replicate 64 5#8), 0x22, Or.inl (by decide +kernel), idle_of _ (by decide +kernel) (by decide +kernel), takesReq_of _ _ _ _ _ _ (by decide +kernel), by decide +kernel⟩

theorem witness_kettleWritesStoreTheBytes_1_b : ∃ (h : Hub) (l : BitVec 3) (r : ReqHdr) (d : List Byte) (e : REntry) (i : Instr) (op : Nat), ((i, op) ∈ [(Instr.wrLine l r d, 0x21), (.wrPart l r d, 0x22), (.wrNosnp l r d, 0x23)] ∨ (i = .zeroLine l r ∧ op = 0x24 ∧ d = [])) ∧ h.idle ∧ h.takes l.toNat op r d e ∧ e.typ = .kettle ∧ kettleBars h e (reqOf l.toNat h.nextId (reqMsg op r d) h) = false :=
  ⟨{ wh with mem := { kettle := [(127, 7#8), (130, 9#8), (255, 1#8)] } }, 0#3, wr (kett + 128) 7, [], wKet, .zeroLine 0 (wr (kett + 128) 7), 0x24, Or.inr ⟨rfl, rfl, rfl⟩, idle_of _ (by decide +kernel) (by decide +kernel), takesReq_of _ _ _ _ _ _ (by decide +kernel), by decide +kernel⟩

theorem witness_kettleAtomic_1 : ∃ (h : Hub) (l : BitVec 3) (r : ReqHdr) (d : List Byte) (e : REntry), h.idle ∧ h.takes l.toNat 0x25 r d e ∧ e.typ = .kettle ∧ kettleBars h e (reqOf l.toNat h.nextId (reqMsg 0x25 r d) h) = false :=
  ⟨{ wh with mem := { kettle := [(8, 255#8), (15, 255#8)] } }, 0#3, wr (kett + 8) 3, List.replicate 16 2#8, wKet, idle_of _ (by decide +kernel) (by decide +kernel), takesReq_of _ _ _ _ _ _ (by decide +kernel), by decide +kernel⟩

theorem witness_reservationPair_1 : ∃ (h : Hub) (l : BitVec 3) (r : ReqHdr) (e : REntry), h.idle ∧ h.takes l.toNat 0x16 r [] e ∧ e.typ = .kettle ∧ 0 < (part h r.pid.toNat).monq ∧ h.mons = [] :=
  ⟨{ wh with mem := { kettle := [(8, 255#8), (15, 255#8)] } }, 0#3, wr kett 6, wKet, idle_of _ (by decide +kernel) (by decide +kernel), takesReq_of _ _ _ _ _ _ (by decide +kernel), by decide +kernel⟩

theorem witness_reservationPair_2 : ∃ (h : Hub) (l : BitVec 3) (r : ReqHdr) (d : List Byte) (e : REntry), h.idle ∧ h.takes l.toNat 0x26 r d e ∧ e.typ = .kettle ∧ kettleBars h e (reqOf l.toNat h.nextId (reqMsg 0x26 r d) h) = false :=
  ⟨{ wh with mons := [{ wMon with granule := kett }] }, 0#3, wr (kett + 8) 3, List.replicate 16 2#8, wKet, idle_of _ (by decide +kernel) (by decide +kernel), takesReq_of _ _ _ _ _ _ (by decide +kernel), by decide +kernel⟩

theorem witness_reservationPair_2_b : ∃ (h : Hub) (l : BitVec 3) (r : ReqHdr) (d : List Byte) (e : REntry), h.idle ∧ h.takes l.toNat 0x26 r d e ∧ e.typ = .kettle ∧ kettleBars h e (reqOf l.toNat h.nextId (reqMsg 0x26 r d) h) = false :=
  ⟨wh, 0#3, wr (kett + 8) 3, List.replicate 16 2#8, wKet, idle_of _ (by decide +kernel) (by decide +kernel), takesReq_of _ _ _ _ _ _ (by decide +kernel), by decide +kernel⟩

theorem witness_firstReadGrantsExclusive_1 : ∃ (h : Hub) (l : BitVec 3) (r : ReqHdr) (e : REntry) (i : Instr) (op : Nat), h.idle ∧ h.takes l.toNat op r [] e ∧ (i, op) ∈ [(Instr.rdShared l r, 0x11), (.rdUnique l r, 0x12), (.cleanUnique l r, 0x15)] ∧ e.typ = .nwt ∧ hostOfLink h l.toNat < 7 ∧ compressed h (hostOfLink h l.toNat) = false ∧ h.sieve = [] ∧ h.ladle = [] ∧ h.dets = [] ∧ h.cache.cst = .off ∧ h.cache.sectors = [] ∧ memReadable h e r.addr.toNat = true ∧ canTrk h (homeCluster r.addr.toNat) 3 = true :=
  ⟨wh, 0#3, wr 0x1000 6, wNwt, .rdShared 0 (wr 0x1000 6), 0x11, idle_of _ (by decide +kernel) (by decide +kernel), takesReq_of _ _ _ _ _ _ (by decide +kernel), by decide +kernel⟩

theorem witness_firstReadGrantsExclusive_1_b : ∃ (h : Hub) (l : BitVec 3) (r : ReqHdr) (e : REntry) (i : Instr) (op : Nat), h.idle ∧ h.takes l.toNat op r [] e ∧ (i, op) ∈ [(Instr.rdShared l r, 0x11), (.rdUnique l r, 0x12), (.cleanUnique l r, 0x15)] ∧ e.typ = .nwt ∧ hostOfLink h l.toNat < 7 ∧ compressed h (hostOfLink h l.toNat) = false ∧ h.sieve = [] ∧ h.ladle = [] ∧ h.dets = [] ∧ h.cache.cst = .off ∧ h.cache.sectors = [] ∧ memReadable h e r.addr.toNat = true ∧ canTrk h (homeCluster r.addr.toNat) 3 = true :=
  ⟨wh, 1#3, wr 0x1000 6, wNwt, .cleanUnique 1 (wr 0x1000 6), 0x15, idle_of _ (by decide +kernel) (by decide +kernel), takesReq_of _ _ _ _ _ _ (by decide +kernel), by decide +kernel⟩

theorem witness_upgradeWithoutData_1 : ∃ (h : Hub) (l : BitVec 3) (r : ReqHdr) (e : REntry), h.idle ∧ h.takes l.toNat 0x15 r [] e ∧ e.typ = .kettle :=
  ⟨wh, 0#3, (wr kett 6), wKet, idle_of _ (by decide +kernel) (by decide +kernel), takesReq_of _ _ _ _ _ _ (by decide +kernel), by decide +kernel⟩

theorem witness_upgradeWithoutData_2 : ∃ (h : Hub) (l : BitVec 3) (r : ReqHdr) (e : REntry) (s : _), h.idle ∧ h.takes l.toNat 0x15 r [] e ∧ e.typ = .nwt ∧ hostOfLink h l.toNat < 7 ∧ h.cache.cst = .off ∧ h.cache.sectors = [] ∧ h.ladle = [] ∧ canTrk h (homeCluster r.addr.toNat) 3 = true ∧ h.sieve = [s] ∧ s.host = hostOfLink h l.toNat ∧ s.addr = r.addr.toNat / granOf h (hostOfLink h l.toNat) * granOf h (hostOfLink h l.toNat) ∧ s.st = 1 :=
  ⟨{ wh with sieve := [{ wEnt with st := 1 }] }, 0#3, wr 0x1040 6, wNwt, ({ wEnt with st := 1 } : SEnt), idle_of _ (by decide +kernel) (by decide +kernel), takesReq_of _ _ _ _ _ _ (by decide +kernel), by decide +kernel⟩

theorem witness_noticesGiveUpTheGranule_1 : ∃ (h : Hub) (l : BitVec 3) (r : ReqHdr) (e : REntry), h.idle ∧ h.takes l.toNat 0x34 r [] e ∧ hostOfLink h l.toNat < 7 ∧ e.typ = .nwt ∧ hostSt h (hostOfLink h l.toNat) r.addr.toNat < 4 :=
  ⟨{ wh with sieve := [wEnt] }, 0#3, wr 0x1040 6, wNwt, idle_of _ (by decide +kernel) (by decide +kernel), takesReq_of _ _ _ _ _ _ (by decide +kernel), by decide +kernel⟩

theorem witness_noticesGiveUpTheGranule_2 : ∃ (h : Hub) (l : BitVec 3) (r : ReqHdr) (d : List Byte) (e : REntry), h.idle ∧ h.takes l.toNat 0x33 r d e ∧ hostOfLink h l.toNat < 7 ∧ e.typ = .nwt ∧ 3 ≤ hostSt h (hostOfLink h l.toNat) r.addr.toNat ∧ h.cache.cst = .off ∧ h.cache.sectors = [] ∧ h.ladle = [] ∧ h.mons = [] ∧ memReadable h e r.addr.toNat = true ∧ canWb h (homeCluster r.addr.toNat) 3 = true :=
  ⟨{ wh with sieve := [wEnt] }, 0#3, wr 0x1040 6, (List.range 64).map (BitVec.ofNat 8), wNwt, idle_of _ (by decide +kernel) (by decide +kernel), takesReq_of _ _ _ _ _ _ (by decide +kernel), by decide +kernel⟩

theorem witness_castoutIsTakenIn_1 : ∃ (h : Hub) (l : BitVec 3) (r : ReqHdr) (e : REntry), h.idle ∧ h.takes l.toNat 0x31 r [] e ∧ e.typ = .nwt ∧ hostOfLink h l.toNat < 7 ∧ h.cache.cst = .on ∧ (link h l.toNat).rev11 = true ∧ h.cache.sectors = [] ∧ h.cache.locks = [] ∧ h.cache.retired = [] ∧ h.cache.powered = 0xFFFF#16 ∧ h.cache.pending = 0#16 ∧ (part h r.pid.toNat).wayMask = 0xFFFF#16 ∧ 63 * (part h r.pid.toNat).castDen ≤ 64 * (part h r.pid.toNat).castFrac ∧ r.cls = 3#2 ∧ 0 < hostSt h (hostOfLink h l.toNat) r.addr.toNat ∧ hostSt h (hostOfLink h l.toNat) r.addr.toNat < 4 ∧ canTrk h (homeCluster r.addr.toNat) 3 = true ∧ bitOf (regGet h 0 0x4000) 8 = false :=
  ⟨{ wh with sieve := [wEnt], cache := wOn }, 0#3, { wr 0x1040 6 with cls := 3#2 }, wNwt, idle_of _ (by decide +kernel) (by decide +kernel), takesReq_of _ _ _ _ _ _ (by decide +kernel), by decide +kernel⟩

theorem witness_castoutIsTakenIn_2 : ∃ (h : Hub) (l : BitVec 3) (r : ReqHdr) (e : REntry) (d : List Byte) (x : Txn) (set : Nat) (way : Nat) (s : Sector), (∀ dd n, dd < 2 → n < 8 → bfind h.regs (dd * 0x100000 + 0x4910 + 8 * n) = none) ∧ e.typ = .nwt ∧ hostOfLink h l.toNat < 7 ∧ h.cache.cst = .on ∧ (link h l.toNat).rev11 = true ∧ linkTrained h l.toNat = true ∧ (link h l.toNat).inbox = [] ∧ d.length = 128 ∧ r.len = 7#3 ∧ r.addr.toNat % 128 = 0 ∧ admitted h l.toNat r.pid.toNat r.stream.toNat = true ∧ (rmapFind h r.addr.toNat).map Prod.snd = some e ∧ e.here h = true ∧ granOf h (hostOfLink h l.toNat) = 128 ∧ h.life.phase = .run ∧ h.life.warm = [] ∧ h.undef = [] ∧ h.snps = [] ∧ h.waiting = [] ∧ h.tongs = [] ∧ h.integ.evict = [] ∧ h.ladle = [] ∧ h.twin.reqs = [] ∧ h.txns = [x] ∧ x.req.op = 0x31 ∧ x.req.src = .link ∧ x.ph = .cast ∧ x.req.host = hostOfLink h l.toNat ∧ x.req.addr = r.addr.toNat ∧ x.req.size = 128 ∧ x.req.tag = r.tag.toNat ∧ x.req.link = l.toNat ∧ x.req.stream = r.stream.toNat ∧ x.req.vc = r.vc ∧ x.cancelled = false ∧ x.cnt = false ∧ x.slice = homeSlice r.addr.toNat ∧ x.slot = some (set, way) ∧ h.cache.sectors = [s] ∧ s.lines.length = 8 ∧ findSector h r.addr.toNat = some s ∧ s.slice = x.slice ∧ s.set = set ∧ s.way = way ∧ h.mem.wf = true :=
  ⟨{ wh with regs := [(0x18, 0x7F000000#32), (0x4050, 0x01C06200#32)], cache := { wOn with sectors := [wCastSec] }, txns := [wCast] }, 0#3, wr 0x1000 7, wNwt, (List.range 128).map (BitVec.ofNat 8), wCast, wCastSec.set, 1, wCastSec, pmu_none _ (by decide +kernel), by decide +kernel⟩

theorem witness_requestsWithoutData_1 : ∃ (h : Hub) (l : BitVec 3) (r : ReqHdr), h.idle ∧ linkTrained h l.toNat = true ∧ (link h l.toNat).inbox = [] ∧ h.twin.reqs = [] ∧ r.sub.toNat < 3 ∧ (r.sub.toNat = 2 → (link h l.toNat).rev11 = true) ∧ admitted h l.toNat r.pid.toNat r.stream.toNat = true :=
  ⟨wh, 0#3, wr 0 0, idle_of _ (by decide +kernel) (by decide +kernel), by decide +kernel⟩

theorem witness_requestsWithoutData_2 : ∃ (h : Hub) (l : BitVec 3) (r : ReqHdr), h.idle ∧ linkTrained h l.toNat = true ∧ (link h l.toNat).inbox = [] ∧ admitted h l.toNat r.pid.toNat r.stream.toNat = true :=
  ⟨{ wh with mons := [wMon] }, 0#3, { wr 0 0 with sub := 1#6 }, idle_of _ (by decide +kernel) (by decide +kernel), by decide +kernel⟩

theorem witness_requestsWithoutData_3 : ∃ (h : Hub) (l : BitVec 3) (r : ReqHdr) (e : _), h.idle ∧ h.takes l.toNat 0x3B r [] e ∧ linkTrained h l.toNat = true ∧ (link h l.toNat).inbox = [] ∧ e.typ = .nwt ∧ r.addr.toNat % 128 = 0 ∧ r.sub.toNat % 32 = 0 ∧ prefetchBarred h (r.addr.toNat / 128) r.pid.toNat (max r.cls.toNat e.cls) = false ∧ h.ladle = [] :=
  ⟨wh, 0#3, { wr 0x1000 0 with cls := 3#2 }, wNwt, idle_of _ (by decide +kernel) (by decide +kernel), takesReq_of _ _ _ _ _ _ (by decide +kernel), by decide +kernel⟩

theorem witness_refusedRequestsAreAnswered_1 : ∃ (h : Hub) (l : BitVec 3) (r : ReqHdr) (d : List Byte) (i : Instr) (op : Nat) (st : Nat), (i, op, st) ∈ [(Instr.rdShared l r, 0x11, 0xA2), (.rdUnique l r, 0x12, 0xA2), (.rdOnce l r, 0x13, 0xA2), (.rdNosnp l r, 0x14, 0xA2), (.cleanUnique l r, 0x15, 0xA1), (.rdResv l r, 0x16, 0xA2), (.zeroLine l r, 0x24, 0xA1)] ∧ d = [] ∧ linkTrained h l.toNat = true ∧ (link h l.toNat).inbox = [] ∧ h.undef = [] ∧ h.life.phase = .run ∧ r.cls = 0#2 ∧ formStatus h (reqOf l.toNat h.nextId (reqMsg op r d) h) r.len.toNat 0 ≠ 0 :=
  ⟨wh, 0#3, wr 0x1000 1, [], .rdShared 0 (wr 0x1000 1), 0x11, 0xA2, by decide +kernel⟩

theorem witness_refusedRequestsAreAnswered_1_b : ∃ (h : Hub) (l : BitVec 3) (r : ReqHdr) (d : List Byte) (i : Instr) (op : Nat) (st : Nat), (i, op, st) ∈ [(Instr.rdShared l r, 0x11, 0xA2), (.rdUnique l r, 0x12, 0xA2), (.rdOnce l r, 0x13, 0xA2), (.rdNosnp l r, 0x14, 0xA2), (.cleanUnique l r, 0x15, 0xA1), (.rdResv l r, 0x16, 0xA2), (.zeroLine l r, 0x24, 0xA1)] ∧ d = [] ∧ linkTrained h l.toNat = true ∧ (link h l.toNat).inbox = [] ∧ h.undef = [] ∧ h.life.phase = .run ∧ r.cls = 0#2 ∧ formStatus h (reqOf l.toNat h.nextId (reqMsg op r d) h) r.len.toNat 0 ≠ 0 :=
  ⟨wh, 0#3, wr 0x1001 7, [], .zeroLine 0 (wr 0x1001 7), 0x24, 0xA1, by decide +kernel⟩

theorem witness_refusedRequestsAreAnswered_2 : ∃ (h : Hub) (l : BitVec 3) (r : ReqHdr) (d : List Byte) (i : Instr) (op : Nat) (st : Nat), (i, op, st) ∈ [(Instr.rdShared l r, 0x11, 0xA2), (.rdUnique l r, 0x12, 0xA2), (.rdOnce l r, 0x13, 0xA2), (.rdNosnp l r, 0x14, 0xA2), (.cleanUnique l r, 0x15, 0xA1), (.rdResv l r, 0x16, 0xA2), (.zeroLine l r, 0x24, 0xA1)] ∧ d = [] ∧ linkTrained h l.toNat = true ∧ (link h l.toNat).inbox = [] ∧ h.undef = [] ∧ h.life.phase = .run ∧ r.cls = 0#2 ∧ formStatus h (reqOf l.toNat h.nextId (reqMsg op r d) h) r.len.toNat 0 = 0 ∧ admitted h l.toNat r.pid.toNat r.stream.toNat = true ∧ rmapFind h r.addr.toNat = none :=
  ⟨{ wh with rmap := [(2, wNwt)] }, 0#3, wr (0x500 * 2 ^ 21) 6, [], .cleanUnique 0 (wr (0x500 * 2 ^ 21) 6), 0x15, 0xA1, by decide +kernel⟩

theorem witness_refusedRequestsAreAnswered_3 : ∃ (h : Hub) (l : BitVec 3) (r : ReqHdr) (d : List Byte) (i : Instr) (op : Nat) (st : Nat), (i, op, st) ∈ [(Instr.rdShared l r, 0x11, 0xA2), (.rdUnique l r, 0x12, 0xA2), (.rdOnce l r, 0x13, 0xA2), (.rdNosnp l r, 0x14, 0xA2), (.cleanUnique l r, 0x15, 0xA1), (.rdResv l r, 0x16, 0xA2), (.zeroLine l r, 0x24, 0xA1)] ∧ d = [] ∧ linkTrained h l.toNat = true ∧ (link h l.toNat).inbox = [] ∧ h.undef = [] ∧ h.life.phase = .run ∧ r.cls = 0#2 ∧ formStatus h (reqOf l.toNat h.nextId (reqMsg op r d) h) r.len.toNat 0 = 0 ∧ admitted h l.toNat r.pid.toNat r.stream.toNat = false ∧ 0 < r.pid.toNat :=
  ⟨wh, 0#3, { wr 0x1000 6 with pid := 2#6 }, [], .rdResv 0 { wr 0x1000 6 with pid := 2#6 }, 0x16, 0xA2, by decide +kernel⟩

theorem witness_hostAnswers_1 : ∃ (h : Hub) (l : BitVec 3) (id : BitVec 12) (x : Txn) (s : Snp), Hub.idle { h with txns := [], snps := [] } ∧ h.twin.snps = [] ∧ h.twin.reqs = [] ∧ h.txns = [x] ∧ h.snps = [s] ∧ h.mons = [] ∧ linkTrained h l.toNat = true ∧ (link h l.toNat).inbox = [] ∧ linkTrained h x.req.link = true ∧ x.req.src = .link ∧ s.link = l.toNat ∧ s.host = hostOfLink h l.toNat ∧ s.host < 7 ∧ s.id = id.toNat ∧ s.held = false ∧ s.txn = x.id ∧ s.wb = false ∧ s.passed = false ∧ s.heldFor = 0 ∧ s.kind = 2 ∧ s.owner = false ∧ s.done = false ∧ x.ph = .snoop ∧ x.upg = true ∧ x.fwd = false ∧ x.req.op = 0x15 ∧ x.grant ≠ 0 ∧ (rmapFind h x.req.addr).map (fun e => e.2.typ) = some .nwt :=
  ⟨{ wh with txns := [wUpg], snps := [{ wSnp with link := 1 }] }, 1#3, 6#12, wUpg, { wSnp with link := 1 }, idle_of _ (by decide +kernel) (by decide +kernel), by decide +kernel⟩

theorem witness_hostAnswers_2 : ∃ (h : Hub) (l : BitVec 3) (id : BitVec 12) (x : Txn) (s : Snp) (o : SEnt), Hub.idle { h with txns := [], snps := [] } ∧ h.twin.snps = [] ∧ h.twin.reqs = [] ∧ h.txns = [x] ∧ h.snps = [s] ∧ h.mons = [] ∧ linkTrained h l.toNat = true ∧ (link h l.toNat).inbox = [] ∧ linkTrained h x.req.link = true ∧ x.req.src = .link ∧ s.link = l.toNat ∧ s.host = hostOfLink h l.toNat ∧ s.host < 7 ∧ s.id = id.toNat ∧ s.held = false ∧ s.txn = x.id ∧ s.wb = false ∧ s.passed = false ∧ s.heldFor = 0 ∧ s.kind = 4 ∧ s.owner = true ∧ s.done = false ∧ x.ph = .snoop ∧ x.req.op = 0x12 ∧ x.fwd = false ∧ x.upg = false ∧ h.sieve = [o] ∧ o.host = s.host ∧ o.addr = s.addr ∧ o.st = 3 ∧ x.req.host < 7 ∧ x.req.host ≠ s.host ∧ granOf h x.req.host = granOf h s.host ∧ x.req.addr / granOf h s.host * granOf h s.host = s.addr ∧ s.addr % granOf h s.host = 0 :=
  ⟨{ wh with txns := [wUni], snps := [{ wSnp with link := 1, kind := 4, owner := true }], sieve := [{ wEnt with host := 1, addr := 0x1000, set := 64 }] }, 1#3, 6#12, wUni, { wSnp with link := 1, kind := 4, owner := true }, ({ wEnt with host := 1, addr := 0x1000, set := 64 } : SEnt), idle_of _ (by decide +kernel) (by decide +kernel), by decide +kernel⟩

theorem witness_hostAnswers_2_b : ∃ (h : Hub) (l : BitVec 3) (id : BitVec 12) (x : Txn) (s : Snp) (o : SEnt), Hub.idle { h with txns := [], snps := [] } ∧ h.twin.snps = [] ∧ h.twin.reqs = [] ∧ h.txns = [x] ∧ h.snps = [s] ∧ h.mons = [] ∧ linkTrained h l.toNat = true ∧ (link h l.toNat).inbox = [] ∧ linkTrained h x.req.link = true ∧ x.req.src = .link ∧ s.link = l.toNat ∧ s.host = hostOfLink h l.toNat ∧ s.host < 7 ∧ s.id = id.toNat ∧ s.held = false ∧ s.txn = x.id ∧ s.wb = false ∧ s.passed = false ∧ s.heldFor = 0 ∧ s.kind = 4 ∧ s.owner = true ∧ s.done = false ∧ x.ph = .snoop ∧ x.req.op = 0x12 ∧ x.fwd = false ∧ x.upg = false ∧ h.sieve = [o] ∧ o.host = s.host ∧ o.addr = s.addr ∧ o.st = 3 ∧ x.req.host < 7 ∧ x.req.host ≠ s.host ∧ granOf h x.req.host = granOf h s.host ∧ x.req.addr / granOf h s.host * granOf h s.host = s.addr ∧ s.addr % granOf h s.host = 0 :=
  ⟨{ wh with txns := [wUni], snps := [{ wSnp with link := 1, kind := 4, owner := true, dataSeen := true }], sieve := [{ wEnt with host := 1, addr := 0x1000, set := 64 }] }, 1#3, 6#12, wUni, { wSnp with link := 1, kind := 4, owner := true, dataSeen := true }, ({ wEnt with host := 1, addr := 0x1000, set := 64 } : SEnt), idle_of _ (by decide +kernel) (by decide +kernel), by decide +kernel⟩

theorem witness_hostAnswers_3 : ∃ (h : Hub) (l : BitVec 3) (id : BitVec 12) (x : Txn) (s : Snp) (d : List Byte), Hub.idle { h with txns := [], snps := [] } ∧ (s.kind = 3 ∨ s.kind = 4) ∧ (s.done = true → x.ph = .closing) ∧ (s.done = false → x.ph = .snoop) ∧ h.twin.snps = [] ∧ h.twin.reqs = [] ∧ h.txns = [x] ∧ h.snps = [s] ∧ h.mons = [] ∧ linkTrained h l.toNat = true ∧ (link h l.toNat).inbox = [] ∧ linkTrained h x.req.link = true ∧ x.req.src = .link ∧ s.link = l.toNat ∧ s.host = hostOfLink h l.toNat ∧ s.host < 7 ∧ s.id = id.toNat ∧ s.held = false ∧ s.txn = x.id ∧ s.wb = false ∧ s.passed = false ∧ s.heldFor = 0 ∧ s.dataSeen = false ∧ d.length = s.size ∧ x.req.op = 0x12 :=
  ⟨{ wh with txns := [wUni], snps := [{ wSnp with link := 1, kind := 4, owner := true }] }, 1#3, 6#12, wUni, { wSnp with link := 1, kind := 4, owner := true }, (List.range 64).map (BitVec.ofNat 8), idle_of _ (by decide +kernel) (by decide +kernel), Or.inr rfl, (fun h => nomatch h), (fun _ => rfl), by decide +kernel⟩

theorem witness_hostAnswers_3_b : ∃ (h : Hub) (l : BitVec 3) (id : BitVec 12) (x : Txn) (s : Snp) (d : List Byte), Hub.idle { h with txns := [], snps := [] } ∧ (s.kind = 3 ∨ s.kind = 4) ∧ (s.done = true → x.ph = .closing) ∧ (s.done = false → x.ph = .snoop) ∧ h.twin.snps = [] ∧ h.twin.reqs = [] ∧ h.txns = [x] ∧ h.snps = [s] ∧ h.mons = [] ∧ linkTrained h l.toNat = true ∧ (link h l.toNat).inbox = [] ∧ linkTrained h x.req.link = true ∧ x.req.src = .link ∧ s.link = l.toNat ∧ s.host = hostOfLink h l.toNat ∧ s.host < 7 ∧ s.id = id.toNat ∧ s.held = false ∧ s.txn = x.id ∧ s.wb = false ∧ s.passed = false ∧ s.heldFor = 0 ∧ s.dataSeen = false ∧ d.length = s.size ∧ x.req.op = 0x12 :=
  ⟨{ wh with txns := [{ wUni with ph := .closing }], snps := [{ wSnp with link := 1, kind := 4, owner := true, done := true }] }, 1#3, 6#12, { wUni with ph := .closing }, { wSnp with link := 1, kind := 4, owner := true, done := true }, (List.range 64).map (BitVec.ofNat 8), idle_of _ (by decide +kernel) (by decide +kernel), Or.inr rfl, (fun _ => rfl), (fun h => nomatch h), by decide +kernel⟩

theorem witness_hostAnswers_4 : ∃ (h : Hub) (l : BitVec 3) (v : Recovery) (qid : Byte) (hset : BitVec 16), Hub.idle { h with recov := [] } ∧ h.recov = [v] ∧ h.twin.snps = [] ∧ h.twin.reqs = [] ∧ linkTrained h l.toNat = true ∧ (link h l.toNat).inbox = [] ∧ v.qid = qid.toNat ∧ v.link = l.toNat ∧ v.set = hset.toNat ∧ v.granules = [] ∧ v.held = [] ∧ compressed h v.host = false :=
  ⟨{ wh with recov := [{ qid := 5, host := 0, link := 0, set := 64, die := 0, granules := [], lost := 0, held := [] }], sieve := [wEnt] }, 0#3, { qid := 5, host := 0, link := 0, set := 64, die := 0, granules := [], lost := 0, held := [] }, 5#8, 64#16, idle_of _ (by decide +kernel) (by decide +kernel), by decide +kernel⟩

theorem witness_hostAnswers_5 : ∃ (h : Hub) (l : BitVec 3), linkTrained h l.toNat = true ∧ (link h l.toNat).inbox = [] ∧ h.fs.srcNow = 2 ∧ bits h.fs.tickCtl.toNat 14 12 = l.toNat ∧ h.fs.started = true ∧ h.fs.tickPend = 0 ∧ h.fs.fresh = false ∧ h.fs.tickAt + max 4000 (h.fs.period / 2) * 1250 ≤ h.now :=
  ⟨{ wh with fs := { wh.fs with srcNow := 2, tickAt := 5 } }, 0#3, by decide +kernel⟩

theorem witness_twinSnoopsAreAnswered_1 : ∃ (h : Hub) (l : BitVec 3) (x : SnpHdr) (i : Instr) (fwd : Bool), (i, fwd) ∈ [(Instr.snpShared l x, false), (.snpUnique l x, false), (.snpInval l x, false), (.snpFwdShared l x, true), (.snpFwdUnique l x, true)] ∧ linkTrained h l.toNat = true ∧ (link h l.toNat).inbox = [] ∧ isTwinLink h l.toNat = true ∧ h.twin.reqs = [] ∧ h.twin.snps = [] ∧ h.snps = [] ∧ h.sieve = [] ∧ x.addr.toNat % proxyGran h = 0 :=
  ⟨wt, 7#3, { vc := false, snpid := 9#12, addr := 0x20000#48, size128 := false }, .snpShared 7 { vc := false, snpid := 9#12, addr := 0x20000#48, size128 := false }, false, by decide +kernel⟩

theorem witness_twinSnoopsAreAnswered_1_b : ∃ (h : Hub) (l : BitVec 3) (x : SnpHdr) (i : Instr) (fwd : Bool), (i, fwd) ∈ [(Instr.snpShared l x, false), (.snpUnique l x, false), (.snpInval l x, false), (.snpFwdShared l x, true), (.snpFwdUnique l x, true)] ∧ linkTrained h l.toNat = true ∧ (link h l.toNat).inbox = [] ∧ isTwinLink h l.toNat = true ∧ h.twin.reqs = [] ∧ h.twin.snps = [] ∧ h.snps = [] ∧ h.sieve = [] ∧ x.addr.toNat % proxyGran h = 0 :=
  ⟨wt, 7#3, { vc := false, snpid := 9#12, addr := 0x20000#48, size128 := false }, .snpFwdUnique 7 { vc := false, snpid := 9#12, addr := 0x20000#48, size128 := false }, true, by decide +kernel⟩

theorem witness_twinSnoopsAreAnswered_2 : ∃ (h : Hub) (l : BitVec 3) (x : SnpHdr) (i : Instr) (fwd : Bool), (i, fwd) ∈ [(Instr.snpShared l x, false), (.snpUnique l x, false), (.snpInval l x, false), (.snpFwdShared l x, true), (.snpFwdUnique l x, true)] ∧ linkTrained h l.toNat = true ∧ (link h l.toNat).inbox = [] ∧ isTwinLink h l.toNat = false :=
  ⟨wh, 0#3, { vc := false, snpid := 9#12, addr := 0x20000#48, size128 := false }, .snpShared 0 { vc := false, snpid := 9#12, addr := 0x20000#48, size128 := false }, false, by decide +kernel⟩

theorem witness_twinAnswersArePassedOn_1 : ∃ (h : Hub) (r : RspHdr) (i : Instr) (op : Nat) (y : TwinReq), (y.req.op = 0x13 ∨ y.req.op = 0x14 → op = 0xA2) ∧ (∀ d n, d < 2 → n < 8 → bfind h.regs (d * 0x100000 + 0x4910 + 8 * n) = none) ∧ linkTrained h 7 = true ∧ (link h 7).inbox = [] ∧ isTwinLink h 7 = true ∧ (i, op) ∈ [(Instr.comp 7 r, 0xA1), (.compData 7 r [], 0xA2), (.wbAck 7 r, 0xA3), (.scResult 7 r, 0xA5), (.castDecline 7 r, 0xB2), (.castDone 7 r, 0xB3)] ∧ h.twin.reqs = [y] ∧ h.twin.snps = [] ∧ h.txns = [] ∧ h.waiting = [] ∧ h.tongs = [] ∧ h.integ.evict = [] ∧ h.cache.echoDue = [] ∧ y.ph = 1 ∧ y.req.src = .link ∧ y.ownTag = r.tag.toNat ∧ twinStream y.req = r.stream.toNat ∧ y.data = false ∧ y.req.op ∈ [0x13, 0x14, 0x21, 0x22, 0x24, 0x26, 0x31, 0x33] ∧ r.lstat = 0#2 ∧ linkTrained h y.req.link = true ∧ y.req.link ≠ 7 :=
  ⟨{ wt with twin := { reqs := [wTw] } }, { wRsp with tag := 4#12, stream := BitVec.ofNat 10 (twinStream wTw.req) }, .compData 7 { wRsp with tag := 4#12, stream := BitVec.ofNat 10 (twinStream wTw.req) } [], 0xA2, wTw, (fun _ => rfl), pmu_none _ (by decide +kernel), by decide +kernel⟩

theorem witness_twinAnswersArePassedOn_1_b : ∃ (h : Hub) (r : RspHdr) (i : Instr) (op : Nat) (y : TwinReq), (y.req.op = 0x13 ∨ y.req.op = 0x14 → op = 0xA2) ∧ (∀ d n, d < 2 → n < 8 → bfind h.regs (d * 0x100000 + 0x4910 + 8 * n) = none) ∧ linkTrained h 7 = true ∧ (link h 7).inbox = [] ∧ isTwinLink h 7 = true ∧ (i, op) ∈ [(Instr.comp 7 r, 0xA1), (.compData 7 r [], 0xA2), (.wbAck 7 r, 0xA3), (.scResult 7 r, 0xA5), (.castDecline 7 r, 0xB2), (.castDone 7 r, 0xB3)] ∧ h.twin.reqs = [y] ∧ h.twin.snps = [] ∧ h.txns = [] ∧ h.waiting = [] ∧ h.tongs = [] ∧ h.integ.evict = [] ∧ h.cache.echoDue = [] ∧ y.ph = 1 ∧ y.req.src = .link ∧ y.ownTag = r.tag.toNat ∧ twinStream y.req = r.stream.toNat ∧ y.data = false ∧ y.req.op ∈ [0x13, 0x14, 0x21, 0x22, 0x24, 0x26, 0x31, 0x33] ∧ r.lstat = 0#2 ∧ linkTrained h y.req.link = true ∧ y.req.link ≠ 7 :=
  ⟨{ wt with twin := { reqs := [{ wTw with req := { wTw.req with op := 0x21 } }] } }, { wRsp with tag := 4#12, stream := BitVec.ofNat 10 (twinStream wTw.req) }, .comp 7 { wRsp with tag := 4#12, stream := BitVec.ofNat 10 (twinStream wTw.req) }, 0xA1, { wTw with req := { wTw.req with op := 0x21 } }, (fun h => absurd h (by decide +kernel)), pmu_none _ (by decide +kernel), by decide +kernel⟩

theorem witness_twinAnswersArePassedOn_2 : ∃ (h : Hub) (r : RspHdr) (y : TwinReq), linkTrained h 7 = true ∧ (link h 7).inbox = [] ∧ isTwinLink h 7 = true ∧ h.twin.reqs = [y] ∧ y.ph = 1 ∧ y.req.src = .link ∧ y.ownTag = r.tag.toNat ∧ twinStream y.req = r.stream.toNat ∧ linkTrained h y.req.link = true ∧ y.req.op = 0x31 ∧ y.req.link ≠ 7 :=
  ⟨{ wt with twin := { reqs := [{ wTw with req := { wTw.req with op := 0x31 } }] } }, { wRsp with tag := 4#12, stream := BitVec.ofNat 10 (twinStream wTw.req) }, { wTw with req := { wTw.req with op := 0x31 } }, by decide +kernel⟩

theorem witness_twinAnswersArePassedOn_3 : ∃ (h : Hub) (r : RspHdr) (y : TwinReq) (x : Txn), (∀ d n, d < 2 → n < 8 → bfind h.regs (d * 0x100000 + 0x4910 + 8 * n) = none) ∧ linkTrained h 7 = true ∧ (link h 7).inbox = [] ∧ isTwinLink h 7 = true ∧ h.twin.reqs = [y] ∧ y.ph = 1 ∧ y.req.src = .link ∧ y.ownTag = r.tag.toNat ∧ twinStream y.req = r.stream.toNat ∧ linkTrained h y.req.link = true ∧ y.req.op ∈ [0x21, 0x22, 0x24] ∧ r.lstat = 0#2 ∧ y.data = false ∧ y.req.link ≠ 7 ∧ h.txns = [x] ∧ x.req.op = 0x39 ∧ x.req.src = .link ∧ x.req.link = y.req.link ∧ x.ph = .ready ∧ x.crossed = [y.req.uid] ∧ y.req.uid ≠ 0 ∧ (∀ k ∈ h.links, k.2.inbox = []) ∧ h.twin.snps = [] ∧ h.waiting = [] ∧ h.recov = [] ∧ h.snps = [] ∧ h.tongs = [] ∧ h.integ.evict = [] ∧ h.cache.echoDue = [] :=
  ⟨{ wt with twin := { reqs := [{ wTw with req := { wTw.req with op := 0x21 } }] }, txns := [{ wTxn with req := { wTw.req with op := 0x39, tag := 9, uid := 11 }, ph := .ready, crossed := [7], n := 0, trk := false }] }, { wRsp with tag := 4#12, stream := BitVec.ofNat 10 (twinStream { wTw.req with op := 0x21 }) }, { wTw with req := { wTw.req with op := 0x21 } }, { wTxn with req := { wTw.req with op := 0x39, tag := 9, uid := 11 }, ph := .ready, crossed := [7], n := 0, trk := false }, pmu_none _ (by decide +kernel), by decide +kernel⟩

theorem witness_twinAnswersArePassedOn_4 : ∃ (h : Hub) (r : RspHdr) (y : TwinReq) (d : List Byte) (w : Nat), (∀ d n, d < 2 → n < 8 → bfind h.regs (d * 0x100000 + 0x4910 + 8 * n) = none) ∧ linkTrained h 7 = true ∧ (link h 7).inbox = [] ∧ isTwinLink h 7 = true ∧ h.twin.reqs = [y] ∧ h.twin.snps = [] ∧ h.txns = [] ∧ h.waiting = [] ∧ h.tongs = [] ∧ h.integ.evict = [] ∧ h.cache.echoDue = [] ∧ h.sieve = [] ∧ y.ph = 1 ∧ y.req.src = .link ∧ y.ownTag = r.tag.toNat ∧ twinStream y.req = r.stream.toNat ∧ y.data = false ∧ y.req.op ∈ [0x11, 0x12] ∧ y.way = some w ∧ y.req.addr = y.addr ∧ y.req.size = y.size ∧ 16 ≤ y.size ∧ y.addr % proxyGran h = 0 ∧ d.length = y.size ∧ r.lstat = 0#2 ∧ r.state ∈ [1#3, 3#3, 5#3] ∧ linkTrained h y.req.link = true ∧ y.req.link ≠ 7 ∧ y.req.host < 7 ∧ (snoopLink h y.req.host).isSome = true :=
  ⟨{ wt with twin := { reqs := [{ wTw with way := some 2, req := { wTw.req with op := 0x12 } }] } }, { wRsp with tag := 4#12, state := 3#3, stream := BitVec.ofNat 10 (twinStream { wTw.req with op := 0x12 }) }, { wTw with way := some 2, req := { wTw.req with op := 0x12 } }, List.replicate 64 9#8, 2, pmu_none _ (by decide +kernel), by decide +kernel⟩

theorem witness_twinAnswersArePassedOn_5 : ∃ (h : Hub) (r : RspHdr) (i : Instr), linkTrained h 7 = true ∧ (link h 7).inbox = [] ∧ isTwinLink h 7 = true ∧ twinOf h r.stream.toNat r.tag.toNat = none ∧ i ∈ [Instr.comp 7 r, .compData 7 r [], .wbAck 7 r, .fenceAck 7 r, .scResult 7 r, .castAccept 7 r, .castDecline 7 r, .castDone 7 r] :=
  ⟨wt, wRsp, .fenceAck 7 wRsp, by decide +kernel⟩

theorem witness_twinAnswersArePassedOn_6 : ∃ (h : Hub), linkTrained h 7 = true ∧ (link h 7).inbox = [] ∧ isTwinLink h 7 = true :=
  ⟨{ wt with regs := [(0x406C, 0x00802000#32)], twin := { proxy := [{ wEnt with host := 7, set := 3, way := 1 }] } }, by decide +kernel⟩

theorem witness_lightCommandsComplete_1 : ∃ (h : Hub) (m : BitVec 2) (c : CmdWord) (e : REntry) (w : Win), Hub.idle { h with wins := [] } ∧ h.ringIn m.toNat e ∧ h.takesCmd m.toNat 0x21 c ∧ h.wins = [(bits c.arg0.toNat 3 0, w)] ∧ w.armed = true ∧ bitOf (regGet h 0 0x4300) 0 = false :=
  ⟨{ wk with wins := [(2, { wWin with st := .sealed, failed := true })] }, 0#2, sealCmd wk 0 0x21 { wc with arg0 := 2#64 }, wKet, { wWin with st := .sealed, failed := true }, idle_of _ (by decide +kernel) (by decide +kernel), ringIn_of _ _ _ (by decide +kernel), takes_of _ _ _ _ _ (by decide +kernel), by decide +kernel⟩

theorem witness_lightCommandsComplete_2 : ∃ (h : Hub) (m : BitVec 2) (c : CmdWord) (e : REntry), Hub.idle { h with wins := [] } ∧ h.ringIn m.toNat e ∧ h.takesCmd m.toNat 0 c ∧ h.wins = [] :=
  ⟨wh, 0#2, { wc with auth := false }, wKet, idle_of _ (by decide +kernel) (by decide +kernel), ringIn_of _ _ _ (by decide +kernel), ⟨by decide +kernel, by decide +kernel, ⟨_, rfl, by decide +kernel, by decide +kernel⟩, Or.inl ⟨rfl, by decide +kernel⟩⟩, by decide +kernel⟩

theorem witness_lightCommandsComplete_3 : ∃ (h : Hub) (m : BitVec 2) (e : REntry) (op : Byte), Hub.idle { h with wins := [] } ∧ h.ringIn m.toNat e ∧ h.wins = [] ∧ canTake h m.toNat = true ∧ op ≠ 0#8 ∧ cmdSpec op.toNat = none :=
  ⟨wh, 0#2, wKet, 0x7F#8, idle_of _ (by decide +kernel) (by decide +kernel), ringIn_of _ _ _ (by decide +kernel), by decide +kernel⟩

theorem witness_lightCommandsComplete_4 : ∃ (h : Hub) (m : BitVec 2) (c : CmdWord) (e : REntry), Hub.idle { h with wins := [] } ∧ h.ringIn m.toNat e ∧ h.takesCmd m.toNat 0x01 c ∧ h.wins = [] ∧ bits c.arg0.toNat 1 0 ≠ 0 ∧ h.cache.cst = .off ∧ h.life.arrayUp = true ∧ cacheClash h (bits c.arg0.toNat 1 0) = false :=
  ⟨wk, 0#2, sealCmd wk 0 0x01 { wc with arg0 := 1#64 }, wKet, idle_of _ (by decide +kernel) (by decide +kernel), ringIn_of _ _ _ (by decide +kernel), takes_of _ _ _ _ _ (by decide +kernel), by decide +kernel⟩

theorem witness_lightCommandsComplete_5 : ∃ (h : Hub) (m : BitVec 2) (c : CmdWord) (e : REntry), Hub.idle { h with wins := [] } ∧ h.ringIn m.toNat e ∧ h.takesCmd m.toNat 0x04 c ∧ h.wins = [] ∧ h.cache.cst = .on ∧ h.cache.sectors = [] ∧ bitOf c.arg0.toNat 16 = true ∧ BitVec.ofNat 16 c.arg0.toNat &&& h.cache.pending = 0#16 :=
  ⟨{ wkOn with cache := { wOn with powered := 0x00FF#16 } }, 0#2, sealCmd wkOn 0 0x04 { wc with arg0 := 0x10F00#64 }, wKet, idle_of _ (by decide +kernel) (by decide +kernel), ringIn_of _ _ _ (by decide +kernel), takes_of _ _ _ _ _ (by decide +kernel), by decide +kernel⟩

theorem witness_lightCommandsComplete_6 : ∃ (h : Hub) (m : BitVec 2) (c : CmdWord) (e : REntry) (n : REntry), Hub.idle { h with wins := [] } ∧ h.ringIn m.toNat e ∧ h.takesCmd m.toNat 0x06 c ∧ h.wins = [] ∧ bits c.arg1.toNat 42 27 ≠ 0 ∧ regionArgs c.arg1.toNat c.arg2.toNat = some n ∧ regionBad h n = false ∧ n.typ ≠ .nwb ∧ n.typ ≠ .shadow ∧ breaksShadow h (bits c.arg0.toNat 5 0) (some n) = false ∧ h.shadows = [] ∧ popHolds (popOf h) n.typ = true ∧ regionClash h (bits c.arg0.toNat 5 0) n = false ∧ (rmapFind { h with rmap := bset h.rmap (bits c.arg0.toNat 5 0) n } (h.cplSlot m.toNat)).map Prod.snd = some e :=
  ⟨wk, 0#2, sealCmd wk 0 0x06 { wc with arg0 := 9#64, arg1 := BitVec.ofNat 64 (3000 + 16 * 2 ^ 27 + 3 * 2 ^ 47), arg2 := 2560#64 }, wKet, ((regionArgs (3000 + 16 * 2 ^ 27 + 3 * 2 ^ 47) 2560).getD {}), idle_of _ (by decide +kernel) (by decide +kernel), ringIn_of _ _ _ (by decide +kernel), takes_of _ _ _ _ _ (by decide +kernel), by decide +kernel⟩

theorem witness_lightCommandsComplete_7 : ∃ (h : Hub) (m : BitVec 2) (c : CmdWord) (e : REntry), Hub.idle { h with wins := [] } ∧ h.ringIn m.toNat e ∧ h.takesCmd m.toNat 0x07 c ∧ h.wins = [] ∧ bits c.arg0.toNat 1 0 = h.life.arrayPop ∧ h.cache.cst = .off ∧ h.life.arrayUp = true ∧ h.led.failing.contains 0x20 = false ∧ h.rmap.any (fun f => f.2.valid && f.2.here h && !(popHolds h.life.arrayPop f.2.typ)) = false :=
  ⟨wk, 0#2, sealCmd wk 0 0x07 { wc with arg0 := 2#64 }, wKet, idle_of _ (by decide +kernel) (by decide +kernel), ringIn_of _ _ _ (by decide +kernel), takes_of _ _ _ _ _ (by decide +kernel), by decide +kernel⟩

theorem witness_lightCommandsComplete_8 : ∃ (h : Hub) (m : BitVec 2) (c : CmdWord) (e : REntry), Hub.idle { h with wins := [] } ∧ h.ringIn m.toNat e ∧ h.takesCmd m.toNat 0x20 c ∧ h.wins = [] ∧ armArgsBad h (armArgs c.pid.toNat c.arg0.toNat c.arg1.toNat c.arg2.toNat) c.arg2.toNat = false ∧ witPlaced h c.arg1.toNat c.arg2.toNat = true ∧ shownSt (part h c.pid.toNat) ≠ .free ∧ (part h c.pid.toNat).st ≠ .frozen ∧ 0 < (part h c.pid.toNat).witCnt :=
  ⟨{ wk with parts := [(1, { wPart with witCnt := 1 })] }, 0#2, sealCmd wk 0 0x20 { wc with pid := 1#6, arg0 := 0x7F02#64, arg1 := BitVec.ofNat 64 (2048 * 2 ^ 21), arg2 := 256#64 }, wKet, idle_of _ (by decide +kernel) (by decide +kernel), ringIn_of _ _ _ (by decide +kernel), takes_of _ _ _ _ _ (by decide +kernel), by decide +kernel⟩

theorem witness_lightCommandsComplete_9 : ∃ (h : Hub) (m : BitVec 2) (c : CmdWord) (e : REntry) (off : _) (bit : _), Hub.idle { h with wins := [] } ∧ h.ringIn m.toNat e ∧ h.takesCmd m.toNat 0x28 c ∧ (bitOf c.arg0.toNat 8 = false → expertHeld h (bits c.arg0.toNat 2 0) = false) ∧ h.wins = [] ∧ expertBit (bits c.arg0.toNat 2 0) = some (off, bit) ∧ bitOf (regGet h 0 off) bit ≠ bitOf c.arg0.toNat 8 :=
  ⟨wk, 0#2, sealCmd wk 0 0x28 { wc with arg0 := 0x101#64 }, wKet, 0x4024, 31, idle_of _ (by decide +kernel) (by decide +kernel), ringIn_of _ _ _ (by decide +kernel), takes_of _ _ _ _ _ (by decide +kernel), (fun h => absurd h (by decide +kernel)), by decide +kernel⟩

theorem witness_lightCommandsComplete_10 : ∃ (h : Hub) (m : BitVec 2) (c : CmdWord) (e : REntry), Hub.idle { h with wins := [] } ∧ h.ringIn m.toNat e ∧ h.takesCmd m.toNat 0x30 c ∧ h.wins = [] ∧ m = 0#2 ∧ c.auth = false ∧ c.arg3 = 0#64 ∧ h.led.failing.contains 0x10 = false :=
  ⟨wh, 0#2, { wc with auth := false, arg1 := 5#64, arg2 := 6#64 }, wKet, idle_of _ (by decide +kernel) (by decide +kernel), ringIn_of _ _ _ (by decide +kernel), ⟨by decide +kernel, by decide +kernel, ⟨_, rfl, by decide +kernel, by decide +kernel⟩, Or.inl ⟨rfl, by decide +kernel⟩⟩, by decide +kernel⟩

theorem witness_lightCommandsComplete_11 : ∃ (h : Hub) (m : BitVec 2) (c : CmdWord) (e : REntry) (k : BitVec 128) (new : List Nat), Hub.idle { h with wins := [] } ∧ h.ringIn m.toNat e ∧ h.takesCmd m.toNat 0x31 c ∧ h.wins = [] ∧ bfind h.led.keys m.toNat = some k ∧ keyUnwrap (keyBytes k) (wrappedKey c) = some new ∧ h.led.failing.contains (0x10 + m.toNat) = false :=
  ⟨{ wh with led := { keys := [(0, 0x0F0E0D0C0B0A09080706050403020100#128)] } }, 0#2, sealCmd { wh with led := { keys := [(0, 0x0F0E0D0C0B0A09080706050403020100#128)] } } 0 0x31 { wc with arg1 := 0x47B412810A8BA61F#64, arg2 := 0x827B5AFBD84BF3AE#64, arg3 := 0xE5CFD27123863E9D#64 }, wKet, 0x0F0E0D0C0B0A09080706050403020100#128, [0x00, 0x11, 0x22, 0x33, 0x44, 0x55, 0x66, 0x77, 0x88, 0x99, 0xAA, 0xBB, 0xCC, 0xDD, 0xEE, 0xFF], idle_of _ (by decide +kernel) (by decide +kernel), ringIn_of _ _ _ (by decide +kernel), takes_of _ _ _ _ _ (by decide +kernel), by decide +kernel⟩

theorem witness_lightCommandsComplete_12 : ∃ (h : Hub) (m : BitVec 2) (c : CmdWord) (e : REntry), Hub.idle { h with wins := [] } ∧ h.ringIn m.toNat e ∧ h.takesCmd m.toNat 0x39 c ∧ h.wins = [] ∧ bitOf c.arg0.toNat 0 ≠ h.life.fwSlot ∧ (fwSlot h (bitOf c.arg0.toNat 0)).valid = true ∧ (fwSlot h (bitOf c.arg0.toNat 0)).live = false ∧ h.life.handover = none ∧ h.stage = none ∧ h.led.failing.contains 0x30 = false :=
  ⟨{ wk with life := { wh.life with slotB := { valid := true } } }, 0#2, sealCmd wk 0 0x39 { wc with arg0 := 1#64 }, wKet, idle_of _ (by decide +kernel) (by decide +kernel), ringIn_of _ _ _ (by decide +kernel), takes_of _ _ _ _ _ (by decide +kernel), by decide +kernel⟩

theorem witness_lightCommandsComplete_13 : ∃ (h : Hub) (m : BitVec 2) (c : CmdWord) (e : REntry) (n : REntry), Hub.idle { h with wins := [] } ∧ h.ringIn m.toNat e ∧ h.takesCmd m.toNat 0x3A c ∧ h.wins = [] ∧ bits c.arg0.toNat 3 0 = 2 ∧ c.arg2 = 1#64 ∧ h.mem.mainErr = [] ∧ injectEntry h 2 (bits c.arg0.toNat 15 8) 1 c.arg1.toNat (bitOf c.arg0.toNat 16) = some n ∧ bitOf c.arg0.toNat 16 = false :=
  ⟨{ wk with rmap := [(1, wKet), (2, { wNwt with ecc := true })], regs := wh.regs }, 0#2, sealCmd wk 0 0x3A { wc with arg0 := 0x4702#64, arg1 := 0x2008#64, arg2 := 1#64 }, wKet, { wNwt with ecc := true }, idle_of _ (by decide +kernel) (by decide +kernel), ringIn_of _ _ _ (by decide +kernel), takes_of _ _ _ _ _ (by decide +kernel), by decide +kernel⟩

theorem witness_lightCommandsComplete_14 : ∃ (h : Hub) (m : BitVec 2) (c : CmdWord) (e : REntry), Hub.idle { h with wins := [] } ∧ h.ringIn m.toNat e ∧ h.takesCmd m.toNat 0x3B c ∧ (bits c.arg0.toNat 4 0 % 8 ≠ 0 → h.cache.cst = .off ∧ h.life.arrayUp = false) ∧ h.wins = [] ∧ bits c.arg0.toNat 4 0 ≠ 0 ∧ h.led.failing = [] :=
  ⟨{ wk with life := { wh.life with arrayUp := false }, led := { wk.led with retire := [5], failed := 3#11, training := [1], sev3 := [9#128] } }, 0#2, sealCmd wk 0 0x3B { wc with arg0 := 0x1F#64 }, wKet, idle_of _ (by decide +kernel) (by decide +kernel), ringIn_of _ _ _ (by decide +kernel), takes_of _ _ _ _ _ (by decide +kernel), (fun _ => ⟨rfl, rfl⟩), by decide +kernel⟩

theorem witness_partitionCommandsComplete_1 : ∃ (h : Hub) (m : BitVec 2) (c : CmdWord) (e : REntry), h.idle ∧ h.ringIn m.toNat e ∧ h.takesCmd m.toNat 0x10 c ∧ c.pid ≠ 0#6 ∧ grantsOk (grantsOf c.arg0.toNat) = true ∧ settingsBad h 31 (putSettings 31 c.arg1.toNat c.arg2.toNat c.arg3.toNat (grantsOf c.arg0.toNat)) = false ∧ (part h c.pid.toNat).st = .free ∧ poolsOk h c.pid.toNat (putSettings 31 c.arg1.toNat c.arg2.toNat c.arg3.toNat (grantsOf c.arg0.toNat)) = true :=
  ⟨{ wk with parts := [(1, { wPart with kcount := 4 })] }, 0#2, sealCmd wk 0 0x10 { wc with pid := 2#6, arg0 := 0x407000103#64 }, wKet, idle_of _ (by decide +kernel) (by decide +kernel), ringIn_of _ _ _ (by decide +kernel), takes_of _ _ _ _ _ (by decide +kernel), by decide +kernel⟩

theorem witness_partitionCommandsComplete_2 : ∃ (h : Hub) (m : BitVec 2) (c : CmdWord) (e : REntry), h.idle ∧ h.ringIn m.toNat e ∧ h.takesCmd m.toNat 0x11 c ∧ bits c.arg0.toNat 4 0 = 2 ∧ (part h c.pid.toNat).st = .active ∧ (part h c.pid.toNat).busy = false ∧ settingsBad h 2 (putSettings 2 0 c.arg2.toNat 0 (part h c.pid.toNat)) = false ∧ admitsWith h c.pid.toNat (putSettings 2 0 c.arg2.toNat 0 (part h c.pid.toNat)) = true ∧ waysShort h (putSettings 2 0 c.arg2.toNat 0 (part h c.pid.toNat)) = false :=
  ⟨{ wk with parts := [(1, { wPart with bmax := [16, 1, 0] })] }, 0#2, sealCmd wk 0 0x11 { wc with pid := 1#6, arg0 := 2#64, arg2 := 0x100010#64 }, wKet, idle_of _ (by decide +kernel) (by decide +kernel), ringIn_of _ _ _ (by decide +kernel), takes_of _ _ _ _ _ (by decide +kernel), by decide +kernel⟩

theorem witness_partitionCommandsComplete_3 : ∃ (h : Hub) (m : BitVec 2) (c : CmdWord) (e : REntry), h.idle ∧ h.ringIn m.toNat e ∧ h.takesCmd m.toNat 0x13 c ∧ (part h c.pid.toNat).busy = false ∧ ((part h c.pid.toNat).st = .created ∨ (part h c.pid.toNat).st = .quiesced) :=
  ⟨{ wk with parts := [(1, { wPart with st := .quiesced })] }, 0#2, sealCmd wk 0 0x13 { wc with pid := 1#6 }, wKet, idle_of _ (by decide +kernel) (by decide +kernel), ringIn_of _ _ _ (by decide +kernel), takes_of _ _ _ _ _ (by decide +kernel), by decide +kernel⟩

theorem witness_partitionCommandsComplete_4 : ∃ (h : Hub) (m : BitVec 2) (c : CmdWord) (e : REntry), h.idle ∧ h.ringIn m.toNat e ∧ h.takesCmd m.toNat 0x14 c ∧ (part h c.pid.toNat).busy = false ∧ (part h c.pid.toNat).st = .quiesced :=
  ⟨{ wk with parts := [(1, { wPart with st := .quiesced })] }, 0#2, sealCmd wk 0 0x14 { wc with pid := 1#6 }, wKet, idle_of _ (by decide +kernel) (by decide +kernel), ringIn_of _ _ _ (by decide +kernel), takes_of _ _ _ _ _ (by decide +kernel), by decide +kernel⟩

theorem witness_partitionCommandsComplete_5 : ∃ (h : Hub) (m : BitVec 2) (c : CmdWord) (e : REntry), h.idle ∧ h.ringIn m.toNat e ∧ h.takesCmd m.toNat 0x18 c ∧ (part h c.pid.toNat).busy = false ∧ (part h c.pid.toNat).st = .frozen ∧ (part h c.pid.toNat).kcount = 0 :=
  ⟨{ wk with parts := [(1, { wPart with st := .frozen, kcount := 0 })] }, 0#2, sealCmd wk 0 0x18 { wc with pid := 1#6 }, wKet, idle_of _ (by decide +kernel) (by decide +kernel), ringIn_of _ _ _ (by decide +kernel), takes_of _ _ _ _ _ (by decide +kernel), by decide +kernel⟩

theorem witness_heavyCommandsStart_1 : ∃ (h : Hub) (m : BitVec 2) (c : CmdWord), h.idle ∧ h.takesCmd m.toNat 0x02 c ∧ h.cache.cst = .on :=
  ⟨wkOn, 0#2, sealCmd wk 0 0x02 wc, idle_of _ (by decide +kernel) (by decide +kernel), takes_of _ _ _ _ _ (by decide +kernel), by decide +kernel⟩

theorem witness_heavyCommandsStart_2 : ∃ (h : Hub) (m : BitVec 2) (c : CmdWord), h.idle ∧ h.takesCmd m.toNat 0x03 c ∧ h.cache.cst = .on ∧ bits c.arg0.toNat 1 0 ≠ 3 ∧ rangeBad 128 c.arg1.toNat c.arg2.toNat = false :=
  ⟨wkOn, 0#2, { wc with auth := false, arg1 := 0x1000#64, arg2 := 0x800#64 }, idle_of _ (by decide +kernel) (by decide +kernel), ⟨by decide +kernel, by decide +kernel, ⟨_, rfl, by decide +kernel, by decide +kernel⟩, Or.inl ⟨rfl, by decide +kernel⟩⟩, by decide +kernel⟩

theorem witness_heavyCommandsStart_3 : ∃ (h : Hub) (m : BitVec 2) (c : CmdWord), h.idle ∧ h.takesCmd m.toNat 0x05 c ∧ h.cache.cst = .on ∧ bitOf c.arg0.toNat 0 = true ∧ rangeBad 1024 c.arg1.toNat c.arg2.toNat = false ∧ inCached h 192 c.arg1.toNat (c.arg1.toNat + c.arg2.toNat) = true ∧ shownSt (part h c.pid.toNat) = .active :=
  ⟨wkOn, 0#2, sealCmd wk 0 0x05 { wc with pid := 1#6, arg0 := 1#64, arg1 := 0x1000#64, arg2 := 0x800#64 }, idle_of _ (by decide +kernel) (by decide +kernel), takes_of _ _ _ _ _ (by decide +kernel), by decide +kernel⟩

theorem witness_heavyCommandsStart_4 : ∃ (h : Hub) (m : BitVec 2) (c : CmdWord), h.idle ∧ h.takesCmd m.toNat 0x12 c ∧ (part h c.pid.toNat).st = .active ∧ (part h c.pid.toNat).busy = false ∧ h.sieve = [] :=
  ⟨wk, 0#2, sealCmd wk 0 0x12 { wc with pid := 1#6 }, idle_of _ (by decide +kernel) (by decide +kernel), takes_of _ _ _ _ _ (by decide +kernel), by decide +kernel⟩

theorem witness_heavyCommandsStart_5 : ∃ (h : Hub) (m : BitVec 2) (c : CmdWord), h.idle ∧ h.takesCmd m.toNat 0x15 c ∧ (part h c.pid.toNat).st = .quiesced ∧ (part h c.pid.toNat).busy = false ∧ h.cache.cst = .on :=
  ⟨{ wkOn with parts := [(1, { wPart with st := .quiesced })] }, 0#2, sealCmd wk 0 0x15 { wc with pid := 1#6 }, idle_of _ (by decide +kernel) (by decide +kernel), takes_of _ _ _ _ _ (by decide +kernel), by decide +kernel⟩

theorem witness_heavyCommandsStart_6 : ∃ (h : Hub) (m : BitVec 2) (c : CmdWord), h.idle ∧ h.takesCmd m.toNat 0x16 c ∧ saveBad h c.pid.toNat h.life.wrMax c.arg1.toNat c.arg2.toNat = false ∧ bits c.arg0.toNat 4 0 = 0 ∧ (part h c.pid.toNat).st = .frozen ∧ (part h c.pid.toNat).busy = false ∧ imgLength h c.pid.toNat none ≤ c.arg2.toNat :=
  ⟨{ wk with parts := [(1, { wPart with st := .frozen, kcount := 0 })], life := { wh.life with rdMin := 1, rdMax := 1, wrMax := 1 } }, 0#2, sealCmd wk 0 0x16 { wc with pid := 1#6, arg1 := 0x10000#64, arg2 := 0x10000#64 }, idle_of _ (by decide +kernel) (by decide +kernel), takes_of _ _ _ _ _ (by decide +kernel), by decide +kernel⟩

theorem witness_heavyCommandsStart_7 : ∃ (h : Hub) (m : BitVec 2) (c : CmdWord), h.idle ∧ h.takesCmd m.toNat 0x38 c ∧ 128 ≤ c.arg2.toNat ∧ c.arg2.toNat ≤ 4194304 ∧ bitOf c.arg0.toNat 0 ≠ h.life.fwSlot ∧ h.stage = none :=
  ⟨wk, 0#2, sealCmd wk 0 0x38 { wc with arg0 := 1#64, arg1 := 0x10000#64, arg2 := 128#64 }, idle_of _ (by decide +kernel) (by decide +kernel), takes_of _ _ _ _ _ (by decide +kernel), by decide +kernel⟩

theorem witness_heavyCommandsEnd_1 : ∃ (h : Hub) (v : Heavy) (e : REntry) (w : Walk), h.idle ∧ h.ringIn v.mgr e ∧ h.heavy = [v] ∧ h.walks = [w] ∧ w.job = v.job ∧ w.ended h = true ∧ w.waits = [] ∧ w.kind = 2 ∧ h.cache.cst = .draining ∧ h.integ.degraded = false :=
  ⟨{ wk with cache := { wOn with cst := .draining }, heavy := [{ wHeavy with opcode := 0x02 }], walks := [wEnd] }, { wHeavy with opcode := 0x02 }, wKet, wEnd, idle_of _ (by decide +kernel) (by decide +kernel), ringIn_of _ _ _ (by decide +kernel), by decide +kernel⟩

theorem witness_heavyCommandsEnd_2 : ∃ (h : Hub) (v : Heavy) (e : REntry) (w : Walk), h.idle ∧ h.ringIn v.mgr e ∧ h.heavy = [v] ∧ h.walks = [w] ∧ w.job = v.job ∧ w.ended h = true ∧ w.waits = [] ∧ w.kind = 1 ∧ w.bad = 0 :=
  ⟨{ wk with cache := wOn, heavy := [{ wHeavy with opcode := 0x03 }], walks := [{ wEnd with kind := 1 }] }, { wHeavy with opcode := 0x03 }, wKet, { wEnd with kind := 1 }, idle_of _ (by decide +kernel) (by decide +kernel), ringIn_of _ _ _ (by decide +kernel), by decide +kernel⟩

theorem witness_heavyCommandsEnd_3 : ∃ (h : Hub) (v : Heavy) (e : REntry) (w : Walk), h.idle ∧ h.ringIn v.mgr e ∧ h.heavy = [v] ∧ h.walks = [w] ∧ w.job = v.job ∧ w.ended h = true ∧ w.waits = [] ∧ w.kind = 3 ∧ w.lastAt + 2500 ≤ h.now :=
  ⟨{ wk with cache := wOn, heavy := [{ wHeavy with opcode := 0x04 }], walks := [{ wEnd with kind := 3, mask := 0xF#16 }] }, { wHeavy with opcode := 0x04 }, wKet, { wEnd with kind := 3, mask := 0xF#16 }, idle_of _ (by decide +kernel) (by decide +kernel), ringIn_of _ _ _ (by decide +kernel), by decide +kernel⟩

theorem witness_heavyCommandsEnd_4 : ∃ (h : Hub) (v : Heavy) (e : REntry) (w : Walk), h.idle ∧ h.ringIn v.mgr e ∧ h.heavy = [v] ∧ h.walks = [w] ∧ w.job = v.job ∧ w.ended h = true ∧ w.waits = [] ∧ w.kind = 4 :=
  ⟨{ wk with cache := wOn, heavy := [{ wHeavy with opcode := 0x05 }], walks := [{ wEnd with kind := 4, missed := 1, count := 3 }] }, { wHeavy with opcode := 0x05 }, wKet, { wEnd with kind := 4, missed := 1, count := 3 }, idle_of _ (by decide +kernel) (by decide +kernel), ringIn_of _ _ _ (by decide +kernel), by decide +kernel⟩

theorem witness_heavyCommandsEnd_5 : ∃ (h : Hub) (v : Heavy) (e : REntry) (w : Walk) (p : BitVec 6), h.idle ∧ h.ringIn v.mgr e ∧ h.heavy = [v] ∧ h.walks = [w] ∧ w.job = v.job ∧ w.ended h = true ∧ w.waits = [] ∧ w.kind = 6 ∧ v.opcode = 0x15 ∧ v.pid = p.toNat ∧ w.bad = 0 :=
  ⟨{ wk with cache := wOn, heavy := [{ wHeavy with opcode := 0x15, pid := 1 }], walks := [{ wEnd with kind := 6 }], parts := [(1, { wPart with st := .quiesced, busy := true })] }, { wHeavy with opcode := 0x15, pid := 1 }, wKet, { wEnd with kind := 6 }, 1#6, idle_of _ (by decide +kernel) (by decide +kernel), ringIn_of _ _ _ (by decide +kernel), by decide +kernel⟩

theorem witness_heavyCommandsEnd_6 : ∃ (h : Hub) (v : Heavy) (e : REntry) (p : BitVec 6), h.idle ∧ h.ringIn v.mgr e ∧ h.heavy = [v] ∧ v.opcode = 0x12 ∧ v.pid = p.toNat ∧ (part h p.toNat).movLog = 0 ∧ quiesceWaits h p.toNat = false :=
  ⟨{ wk with heavy := [{ wHeavy with opcode := 0x12, pid := 1 }], parts := [(1, { wPart with st := .quiescing, busy := true })] }, { wHeavy with opcode := 0x12, pid := 1 }, wKet, 1#6, idle_of _ (by decide +kernel) (by decide +kernel), ringIn_of _ _ _ (by decide +kernel), by decide +kernel⟩

theorem witness_heavyCommandsEnd_7 : ∃ (h : Hub) (v : Heavy) (e : REntry) (s : Bool), h.idle ∧ h.ringIn v.mgr e ∧ h.heavy = [v] ∧ h.life.handover = some s ∧ h.life.handRun = true ∧ v.opcode = 0x39 ∧ h.led.failing.contains 0x30 = false :=
  ⟨{ wk with heavy := [{ wHeavy with opcode := 0x39 }], life := { wh.life with handover := some true, handRun := true } }, { wHeavy with opcode := 0x39 }, wKet, true, idle_of _ (by decide +kernel) (by decide +kernel), ringIn_of _ _ _ (by decide +kernel), by decide +kernel⟩

theorem witness_heavyCommandsEnd_8 : ∃ (h : Hub) (v : Heavy) (e : REntry), h.idle ∧ h.ringIn v.mgr e ∧ h.heavy = [v] ∧ h.life.handover.isSome = true ∧ h.life.handRun = false ∧ h.fs.frame ≠ h.life.handAt :=
  ⟨{ wk with heavy := [{ wHeavy with opcode := 0x39 }], life := { wh.life with handover := some true, handAt := 6 } }, { wHeavy with opcode := 0x39 }, wKet, idle_of _ (by decide +kernel) (by decide +kernel), ringIn_of _ _ _ (by decide +kernel), by decide +kernel⟩

theorem witness_imagesMove_1 : ∃ (h : Hub) (v : Heavy) (k : Nat) (n : REntry), h.heavy = [v] ∧ h.shadows = [(v.job, k, n)] ∧ v.job ≠ 0 ∧ h.txns = [] ∧ h.waiting = [] ∧ h.sieve = [] ∧ n.valid = true :=
  ⟨{ wh with heavy := [{ wHeavy with opcode := 0x06 }], shadows := [(50, 9, wShadow)] }, { wHeavy with opcode := 0x06 }, 9, wShadow, by decide +kernel⟩

set_option maxRecDepth 100000 in
theorem witness_imagesMove_2 : ∃ (h : Hub) (v : Heavy) (p : BitVec 6) (j : ImgJob) (img : List Byte) (g : Hub) (g' : Hub), imageReady j h = some (img, [], g) ∧ storeRange v.mgr j.job j.addr img g = .done 0 g' ∧ h.heavy = [v] ∧ h.images = [j] ∧ j.pid = p.toNat ∧ j.job = v.job ∧ j.save = true ∧ v.opcode = 0x16 ∧ v.pid = p.toNat :=
  ⟨{ wh with heavy := [{ wHeavy with opcode := 0x16, pid := 1 }], images := [wImg], parts := [(1, wSaved)], life := { wh.life with rdMin := 1, rdMax := 1, wrMax := 1 } }, { wHeavy with opcode := 0x16, pid := 1 }, 1#6, wImg, (wReady.1), wReady.2.2, wStored, rfl, rfl, by decide +kernel⟩

set_option maxRecDepth 100000 in
theorem witness_imagesMove_3 : ∃ (h : Hub) (v : Heavy) (p : BitVec 6) (j : ImgJob) (d : List Byte) (g : Hub), fetchRange v.mgr j.job j.addr (fieldOf j.image 12 4) h = .got none d g ∧ h.heavy = [v] ∧ h.images = [j] ∧ j.pid = p.toNat ∧ j.job = v.job ∧ j.save = false ∧ v.opcode = 0x17 ∧ v.pid = p.toNat ∧ j.image ≠ [] ∧ (parseSections d 8 64 0).2.1 = none :=
  ⟨wRest, { wHeavy with opcode := 0x17, pid := 1 }, 1#6, { wImg with save := false, image := List.replicate 12 0#8 ++ toBytes 4 80 ++ List.replicate 48 0#8 }, List.replicate 80 0#8, (match fetchRange 0 50 0x10000 80 wRest with | .got _ _ g => g | _ => wRest), rfl, by decide +kernel⟩

theorem witness_imagesMove_4 : ∃ (h : Hub) (v : Heavy) (m : BitVec 2) (c : CmdWord), h.idle ∧ h.takesCmd m.toNat 0x17 c ∧ (∀ i, i < 3 → mappedTwin h (c.arg1.toNat + 64 * i) = true) ∧ h.heavy = [v] ∧ c.pid ≠ 0#6 ∧ (part h c.pid.toNat).st = .free ∧ h.sieve = [] ∧ twinUp h = true ∧ h.twin.reqs = [] :=
  ⟨{ wk with heavy := [wHeavy], parts := [], rmap := [(0, { base := 32767, size := 1, typ := .cfg }), (1, wKet), (2, { wNwt with hub := true })], links := wt.links }, wHeavy, 0#2, sealCmd wk 0 0x17 { wc with pid := 1#6, arg0 := 0x100#64, arg1 := 0x10000#64 }, idle_of _ (by decide +kernel) (by decide +kernel), takes_of _ _ _ _ _ (by decide +kernel), (fun i hi => by rcases (by omega : i = 0 ∨ i = 1 ∨ i = 2) with rfl | rfl | rfl <;> decide +kernel), by decide +kernel⟩

set_option maxRecDepth 100000 in
theorem witness_imagesMove_5 : ∃ (h : Hub) (v : Heavy) (s : Bool) (arg : List Byte) (d : List Byte) (g : Hub), fetchRange v.mgr v.job (ofBytes (arg.take 8)) (ofBytes (arg.drop 8)) h = .got none d g ∧ h.heavy = [v] ∧ h.stage = some (v.job, s, arg) ∧ g.led.bootSlot ≠ s :=
  ⟨{ wh with heavy := [{ wHeavy with opcode := 0x38 }], stage := some (50, true, toBytes 8 0x10000 ++ toBytes 4 128) }, { wHeavy with opcode := 0x38 }, true, toBytes 8 0x10000 ++ toBytes 4 128, List.replicate 128 0#8, (match fetchRange 0 50 0x10000 128 { wh with heavy := [{ wHeavy with opcode := 0x38 }], stage := some (50, true, toBytes 8 0x10000 ++ toBytes 4 128) } with | .got _ _ g => g | _ => wh), rfl, by decide +kernel⟩

theorem witness_moverDescriptors_1 : ∃ (h : Hub) (p : BitVec 6) (d : MovDesc) (i : Instr) (own : Nat), h.idle ∧ h.mons = [] ∧ h.sieve = [] ∧ (i, own) ∈ [(Instr.moverCopy p d, 0), (.moverFill p d, 1), (.moverZero p d, 2), (.moverCrc p d, 3), (.moverCompare p d, 4)] ∧ movReady h p.toNat = true ∧ movBad h own p.toNat d = false :=
  ⟨wMov, 1#6, { wDesc with op := 2#4 }, .moverZero 1 { wDesc with op := 2#4 }, 2, idle_of _ (by decide +kernel) (by decide +kernel), by decide +kernel⟩

theorem witness_moverDescriptors_1_b : ∃ (h : Hub) (p : BitVec 6) (d : MovDesc) (i : Instr) (own : Nat), h.idle ∧ h.mons = [] ∧ h.sieve = [] ∧ (i, own) ∈ [(Instr.moverCopy p d, 0), (.moverFill p d, 1), (.moverZero p d, 2), (.moverCrc p d, 3), (.moverCompare p d, 4)] ∧ movReady h p.toNat = true ∧ movBad h own p.toNat d = false :=
  ⟨wMov, 1#6, { wDesc with op := 0#4, src := 0x9000#48 }, .moverCopy 1 { wDesc with op := 0#4, src := 0x9000#48 }, 0, idle_of _ (by decide +kernel) (by decide +kernel), by decide +kernel⟩

theorem witness_moverDescriptors_2 : ∃ (h : Hub) (p : BitVec 6) (d : MovDesc) (i : Instr) (own : Nat) (e : REntry), h.idle ∧ h.mons = [] ∧ h.sieve = [] ∧ (i, own) ∈ [(Instr.moverCopy p d, 0), (.moverFill p d, 1), (.moverZero p d, 2), (.moverCrc p d, 3), (.moverCompare p d, 4)] ∧ movReady h p.toNat = true ∧ h.movs = [] ∧ movBad h own p.toNat d = true ∧ (rmapFind h (movSlot h p.toNat (part h p.toNat).movHead)).map Prod.snd = some e ∧ e.typ = .kettle ∧ e.here h = true :=
  ⟨wMov, 1#6, { wDesc with op := 2#4, len := 4#25 }, .moverZero 1 { wDesc with op := 2#4, len := 4#25 }, 2, wKet, idle_of _ (by decide +kernel) (by decide +kernel), by decide +kernel⟩

theorem witness_moverDescriptors_3 : ∃ (h : Hub) (p : BitVec 6) (d : MovDesc) (r : MovRun) (e : REntry) (f : REntry) (a : Nat), h.idle ∧ (e.off (movSlot h p.toNat (part h p.toNat).movHead) + 32 ≤ f.off a ∨ f.off a + d.len.toNat ≤ e.off (movSlot h p.toNat (part h p.toNat).movHead)) ∧ h.mons = [] ∧ h.sieve = [] ∧ h.movs = [r] ∧ r.pid = p.toNat ∧ r.d = d ∧ r.doneBytes = 0 ∧ d.len.toNat ≤ 128 ∧ 0 < d.len.toNat ∧ movRangesOk h p.toNat d = true ∧ a = (if d.op = 3#4 then d.src.toNat else d.dst.toNat) ∧ a % 128 + d.len.toNat ≤ 128 ∧ a % 8 = 0 ∧ d.len.toNat % 8 = 0 ∧ (rmapFind h a).map Prod.snd = some f ∧ f.typ = .kettle ∧ f.here h = true ∧ (rmapFind h (movSlot h p.toNat (part h p.toNat).movHead)).map Prod.snd = some e ∧ e.typ = .kettle ∧ e.here h = true ∧ d.op = 3#4 ∧ r.crc = 0#64 :=
  ⟨{ wMov with movs := [wRun { wDesc with op := 3#4, src := BitVec.ofNat 48 (kett + 64) }] }, 1#6, { wDesc with op := 3#4, src := BitVec.ofNat 48 (kett + 64) }, wRun { wDesc with op := 3#4, src := BitVec.ofNat 48 (kett + 64) }, wKet, wKet, kett + 64, idle_of _ (by decide +kernel) (by decide +kernel), Or.inr (by decide +kernel), by decide +kernel⟩

theorem witness_moverDescriptors_4 : ∃ (h : Hub) (p : BitVec 6) (d : MovDesc) (r : MovRun) (e : REntry) (f : REntry) (a : Nat), h.idle ∧ (e.off (movSlot h p.toNat (part h p.toNat).movHead) + 32 ≤ f.off a ∨ f.off a + d.len.toNat ≤ e.off (movSlot h p.toNat (part h p.toNat).movHead)) ∧ h.mons = [] ∧ h.sieve = [] ∧ h.movs = [r] ∧ r.pid = p.toNat ∧ r.d = d ∧ r.doneBytes = 0 ∧ d.len.toNat ≤ 128 ∧ 0 < d.len.toNat ∧ movRangesOk h p.toNat d = true ∧ a = (if d.op = 3#4 then d.src.toNat else d.dst.toNat) ∧ a % 128 + d.len.toNat ≤ 128 ∧ a % 8 = 0 ∧ d.len.toNat % 8 = 0 ∧ (rmapFind h a).map Prod.snd = some f ∧ f.typ = .kettle ∧ f.here h = true ∧ (rmapFind h (movSlot h p.toNat (part h p.toNat).movHead)).map Prod.snd = some e ∧ e.typ = .kettle ∧ e.here h = true ∧ d.op = 2#4 ∧ r.stop = false :=
  ⟨{ wMov with movs := [wRun { wDesc with op := 2#4, dst := BitVec.ofNat 48 (kett + 64) }], mem := { kettle := [(63, 1#8), (70, 2#8)] } }, 1#6, { wDesc with op := 2#4, dst := BitVec.ofNat 48 (kett + 64) }, wRun { wDesc with op := 2#4, dst := BitVec.ofNat 48 (kett + 64) }, wKet, wKet, kett + 64, idle_of _ (by decide +kernel) (by decide +kernel), Or.inr (by decide +kernel), by decide +kernel⟩

theorem witness_doorbellsMoveRings_1 : ∃ (h : Hub) (a : RegAcc) (v : Word32) (m : BitVec 2), h.mayAccess a 0x10000 ∧ mgrDoorOk h m.toNat a.link.toNat a.pid.toNat = true ∧ ringDist (v.toNat % 65536) (mgr h m.toNat).head ≤ cmdSize h m.toNat :=
  ⟨wh, wa, 7#32, 0#2, ⟨by decide +kernel, by decide +kernel, by decide +kernel, fun _ => by decide +kernel⟩, by decide +kernel⟩

theorem witness_doorbellsMoveRings_2 : ∃ (h : Hub) (a : RegAcc) (v : Word32) (m : BitVec 2), h.mayAccess a 0x10000 ∧ mgrDoorOk h m.toNat a.link.toNat a.pid.toNat = true ∧ cmdSize h m.toNat < ringDist (v.toNat % 65536) (mgr h m.toNat).head :=
  ⟨wh, wa, 200#32, 0#2, ⟨by decide +kernel, by decide +kernel, by decide +kernel, fun _ => by decide +kernel⟩, by decide +kernel⟩

theorem witness_doorbellsMoveRings_3 : ∃ (h : Hub) (a : RegAcc) (v : Word32) (m : BitVec 2), h.mayAccess a 0x10000 ∧ mgrDoorOk h m.toNat a.link.toNat a.pid.toNat = true ∧ ringDist (v.toNat % 65536) (mgr h m.toNat).cplHead ≤ ringDist (mgr h m.toNat).cplTail (mgr h m.toNat).cplHead ∧ (mgr h m.toNat).held = [] :=
  ⟨{ wh with mgrs := [(0, { head := 3, tail := 5, cplTail := 4, cplHead := 1 })] }, wa, 4#32, 0#2, ⟨by decide +kernel, by decide +kernel, by decide +kernel, fun _ => by decide +kernel⟩, by decide +kernel⟩

theorem witness_doorbellsMoveRings_4 : ∃ (h : Hub) (a : RegAcc) (m : BitVec 2), h.mayAccess a 0x10000 ∧ mgrDoorOk h m.toNat a.link.toNat a.pid.toNat = false :=
  ⟨{ wh with parts := [(1, wPart), (2, wPart)] }, { wa with pid := 2#6 }, 0#2, ⟨by decide +kernel, by decide +kernel, by decide +kernel, fun _ => by decide +kernel⟩, by decide +kernel⟩

theorem witness_doorbellsMoveRings_5 : ∃ (h : Hub) (a : RegAcc) (m : BitVec 2), h.mayAccess a 0x10000 ∧ mgrDoorOk h m.toNat a.link.toNat a.pid.toNat = false :=
  ⟨wh, wa, 1#2, ⟨by decide +kernel, by decide +kernel, by decide +kernel, fun _ => by decide +kernel⟩, by decide +kernel⟩

theorem witness_doorbellsMoveRings_6 : ∃ (h : Hub) (a : RegAcc) (v : Word32), h.mayAccess a 0x10010 ∧ mgrDoorOk h 0 a.link.toNat a.pid.toNat = true ∧ ringDist (v.toNat % 65536) (col h a.die.toNat).head ≤ ringDist (col h a.die.toNat).tail (col h a.die.toNat).head :=
  ⟨{ wh with col := [(0, { tail := 5, head := 3 })] }, wa, 5#32, ⟨by decide +kernel, by decide +kernel, by decide +kernel, fun _ => by decide +kernel⟩, by decide +kernel⟩

theorem witness_doorbellsMoveRings_7 : ∃ (h : Hub) (a : RegAcc) (v : Word32) (p : BitVec 6), h.mayAccess a 0x24F00 ∧ p ≠ 0#6 ∧ a.pid = p ∧ (part h p.toNat).st = .active ∧ (part h p.toNat).movLog ≠ 0 ∧ ringDist (v.toNat % 65536) (part h p.toNat).movHead ≤ 2 ^ (part h p.toNat).movLog :=
  ⟨wMov, wa, 16#32, 1#6, ⟨by decide +kernel, by decide +kernel, by decide +kernel, fun _ => by decide +kernel⟩, by decide +kernel⟩

theorem witness_doorbellsMoveRings_8 : ∃ (h : Hub) (a : RegAcc) (v : Word32) (n : BitVec 4) (w : Win), Hub.idle { h with wins := [] } ∧ h.mayAccess a 0x14000 ∧ h.wins = [(n.toNat, w)] ∧ h.sieve = [] ∧ v.toNat.testBit 0 = true ∧ w.armed = true ∧ w.pid = a.pid.toNat ∧ w.writers.toNat.testBit a.link.toNat = true ∧ w.st ≠ .sealing ∧ witPlaced h w.base (w.lines * 128) = true :=
  ⟨{ wh with wins := [(2, { wWin with st := .opened })] }, wa, 1#32, 2#4, { wWin with st := .opened }, idle_of _ (by decide +kernel) (by decide +kernel), ⟨by decide +kernel, by decide +kernel, by decide +kernel, fun _ => by decide +kernel⟩, by decide +kernel⟩

theorem witness_doorbellsMoveRings_10 : ∃ (p : BitVec 6), p ≠ 0#6 :=
  ⟨63#6, by decide +kernel⟩

theorem witness_pairsCommit_1 : ∃ (h : Hub) (a : RegAcc), h.mayAccess a 0x24 ∧ (lid h a.die.toNat).pair = none ∧ (lid h a.die.toNat).openAt = none :=
  ⟨wh, wa, ⟨by decide +kernel, by decide +kernel, by decide +kernel, fun _ => by decide +kernel⟩, by decide +kernel⟩

theorem witness_pairsCommit_1_b : ∃ (h : Hub) (a : RegAcc), h.mayAccess a 0x24 ∧ (lid h a.die.toNat).pair = none ∧ (lid h a.die.toNat).openAt = none :=
  ⟨wh, wa, ⟨by decide +kernel, by decide +kernel, by decide +kernel, fun _ => by decide +kernel⟩, by decide +kernel⟩

theorem witness_pairsCommit_2 : ∃ (h : Hub) (a : RegAcc) (v : Word32) (w : Word32) (t : Nat) (i : _), h.mayAccess a 0x14 ∧ (lid h a.die.toNat).openAt = none ∧ h.now ≤ t + 256 ∧ v = ~~~w ∧ i ∈ [Instr.warmResetWest a v, .warmResetEast a v] ∧ (lid h a.die.toNat).pair = some (0x10, w, t) ∧ h.life.warm = [] :=
  ⟨{ wh with lid := [(0, { pair := some (0x10, 3#32, 10 ^ 9 - 256) })], mons := [wMon] }, wa, 0xFFFFFFFC#32, 3#32, 10 ^ 9 - 256, Instr.warmResetEast wa 0xFFFFFFFC#32, ⟨by decide +kernel, by decide +kernel, by decide +kernel, fun _ => by decide +kernel⟩, by decide +kernel⟩

theorem witness_pairsCommit_3 : ∃ (h : Hub) (a : RegAcc) (v : Word32) (w : Word32) (t : Nat), h.mayAccess a 0x6804 ∧ (lid h a.die.toNat).openAt = none ∧ h.now ≤ t + 256 ∧ v = ~~~w ∧ (lid h a.die.toNat).pair = some (0x6800, w, t) ∧ w.toNat.testBit 0 = false ∧ w.toNat.testBit 1 = true ∧ h.led.failing.contains 0x30 = false :=
  ⟨{ wh with lid := [(0, { pair := some (0x6800, 2#32, 10 ^ 9) })] }, wa, 0xFFFFFFFD#32, 2#32, 10 ^ 9, ⟨by decide +kernel, by decide +kernel, by decide +kernel, fun _ => by decide +kernel⟩, by decide +kernel⟩

theorem witness_pairsCommit_4 : ∃ (h : Hub) (a : RegAcc) (v : Word32) (w : Word32) (t : Nat), h.mayAccess a 0x6804 ∧ (lid h a.die.toNat).openAt = none ∧ h.now ≤ t + 256 ∧ v = ~~~w ∧ (lid h a.die.toNat).pair = some (0x6800, w, t) ∧ w.toNat.testBit 0 = true ∧ w.toNat.testBit 1 = false ∧ h.heavy = [] ∧ h.life.pwrWarn = false :=
  ⟨{ wh with lid := [(0, { pair := some (0x6800, 1#32, 10 ^ 9) })], cache := wOn }, wa, 0xFFFFFFFE#32, 1#32, 10 ^ 9, ⟨by decide +kernel, by decide +kernel, by decide +kernel, fun _ => by decide +kernel⟩, by decide +kernel⟩

theorem witness_configurationWrites_1 : ∃ (h : Hub) (a : RegAcc) (off : BitVec 20) (r : RegRow), h.mayAccess a off.toNat ∧ (lid h a.die.toNat).pair = none ∧ off.toNat ∈ [0x4010, 0x4040, 0x4100] ∧ findRow off.toNat = some r ∧ bitOf (regGet h 0 0x4100) 31 = false :=
  ⟨wh, wa, 0x4010#20, ((findRow 0x4010).getD ⟨0, 0, 0, 0, false, []⟩), ⟨by decide +kernel, by decide +kernel, by decide +kernel, fun _ => by decide +kernel⟩, by decide +kernel⟩

theorem witness_configurationWrites_1_b : ∃ (h : Hub) (a : RegAcc) (off : BitVec 20) (r : RegRow), h.mayAccess a off.toNat ∧ (lid h a.die.toNat).pair = none ∧ off.toNat ∈ [0x4010, 0x4040, 0x4100] ∧ findRow off.toNat = some r ∧ bitOf (regGet h 0 0x4100) 31 = false :=
  ⟨wh, wa, 0x4100#20, ((findRow 0x4100).getD ⟨0, 0, 0, 0, false, []⟩), ⟨by decide +kernel, by decide +kernel, by decide +kernel, fun _ => by decide +kernel⟩, by decide +kernel⟩

theorem witness_configurationWrites_2 : ∃ (h : Hub) (a : RegAcc) (byte : BitVec 14), h.mayAccess a 0x80000 ∧ (lid h a.die.toNat).pair = none ∧ 0x40 ≤ byte.toNat ∧ byte.toNat < 0x50 :=
  ⟨{ wh with regs := [(0x18, 0x7F000000#32)] }, wa, 0x43#14, ⟨by decide +kernel, by decide +kernel, by decide +kernel, fun _ => by decide +kernel⟩, by decide +kernel⟩

theorem witness_configurationWrites_2_b : ∃ (h : Hub) (a : RegAcc) (byte : BitVec 14), h.mayAccess a 0x80000 ∧ (lid h a.die.toNat).pair = none ∧ 0x40 ≤ byte.toNat ∧ byte.toNat < 0x50 :=
  ⟨{ wh with regs := [(0x18, 0x7F000000#32), (0x4C, 3#32)] }, wa, 0x4C#14, ⟨by decide +kernel, by decide +kernel, by decide +kernel, fun _ => by decide +kernel⟩, by decide +kernel⟩

theorem witness_configurationWrites_3 : ∃ (h : Hub) (a : RegAcc) (v : Word32), h.mayAccess a 0x4300 ∧ (lid h a.die.toNat).pair = none ∧ lidOpen h a.die.toNat = true ∧ v.toNat.testBit 1 = true :=
  ⟨{ wh with lid := [(0, { openAt := some (10 ^ 9) })], life := { wh.life with witFaultN := true } }, wa, 3#32, ⟨by decide +kernel, by decide +kernel, by decide +kernel, fun _ => by decide +kernel⟩, by decide +kernel⟩

theorem witness_trackerReserves_2 : ∃ (h : Hub) (a : RegAcc) (v : Word32), h.mayAccess a 0x4008 ∧ (lid h a.die.toNat).pair = none ∧ bits v.toNat 6 0 + bits v.toNat 14 8 ≤ 64 ∧ bits v.toNat 21 16 ≤ 32 :=
  ⟨wh, wa, 0x00200C34#32, ⟨by decide +kernel, by decide +kernel, by decide +kernel, fun _ => by decide +kernel⟩, by decide +kernel⟩

theorem witness_trackerReserves_1 : ∃ (h : Hub) (a : RegAcc) (v : Word32), h.mayAccess a 0x4008 ∧ (lid h a.die.toNat).pair = none ∧ (64 < bits v.toNat 6 0 + bits v.toNat 14 8 ∨ 32 < bits v.toNat 21 16) :=
  ⟨wh, wa, 0x00202040#32, ⟨by decide +kernel, by decide +kernel, by decide +kernel, fun _ => by decide +kernel⟩, by decide +kernel⟩

theorem witness_trackerReserves_1_b : ∃ (h : Hub) (a : RegAcc) (v : Word32), h.mayAccess a 0x4008 ∧ (lid h a.die.toNat).pair = none ∧ (64 < bits v.toNat 6 0 + bits v.toNat 14 8 ∨ 32 < bits v.toNat 21 16) :=
  ⟨wh, wa, 0x00210000#32, ⟨by decide +kernel, by decide +kernel, by decide +kernel, fun _ => by decide +kernel⟩, by decide +kernel⟩

theorem witness_configurationWrites_4 : ∃ (h : Hub) (a : RegAcc), h.mayAccess a 0x400C ∧ (lid h a.die.toNat).pair = none ∧ cacheExpert h = true :=
  ⟨{ wh with regs := [(0x18, 0x7F000000#32), (0x4000, 0x100#32)], cache := { coldCnt := [(3, 7), (1030, 2)] } }, wa, ⟨by decide +kernel, by decide +kernel, by decide +kernel, fun _ => by decide +kernel⟩, by decide +kernel⟩

theorem witness_configurationWrites_5 : ∃ (h : Hub) (a : RegAcc) (v : Word32), h.mayAccess a 0x41C0 ∧ (lid h a.die.toNat).pair = none ∧ hkHolds h (bits v.toNat 31 16) (bits v.toNat 15 0) (nextPeriod h) (hkPct h) = true ∧ bits v.toNat 31 16 ≤ regField h 0 0x41C4 31 16 ∧ bits v.toNat 15 0 ≤ regField h 0 0x41C4 15 0 :=
  ⟨wh, wa, 0x07D003E8#32, ⟨by decide +kernel, by decide +kernel, by decide +kernel, fun _ => by decide +kernel⟩, by decide +kernel⟩

theorem witness_configurationWrites_6 : ∃ (h : Hub) (a : RegAcc) (v : Word32), h.mayAccess a 0x4904 ∧ (lid h a.die.toNat).pair = none ∧ v.toNat.testBit 8 = true ∧ bits v.toNat 7 0 = 0 :=
  ⟨{ wh with pmu := [(0, { cyc := 8, cnt := [(1, 9)] })] }, wa, 0x100#32, ⟨by decide +kernel, by decide +kernel, by decide +kernel, fun _ => by decide +kernel⟩, by decide +kernel⟩

theorem witness_configurationWrites_7 : ∃ (h : Hub) (a : RegAcc) (v : Word32), h.mayAccess a 0x4904 ∧ (lid h a.die.toNat).pair = none ∧ v.toNat.testBit 8 = false :=
  ⟨{ wh with pmu := [(0, { cyc := 8, cnt := [(1, 9), (2, 4)] })] }, wa, 0x002#32, ⟨by decide +kernel, by decide +kernel, by decide +kernel, fun _ => by decide +kernel⟩, by decide +kernel⟩

theorem witness_configurationWrites_8 : ∃ (h : Hub) (a : RegAcc) (v : Word32), h.mayAccess a 0x4108 ∧ (lid h a.die.toNat).pair = none ∧ lidOpen h a.die.toNat = true ∧ 4000 ≤ bits v.toNat 15 0 ∧ bits v.toNat 15 0 ≤ 40000 ∧ admits h (sdSum h) (bits v.toNat 15 0) = true ∧ hkHolds h (whiskFloor h).1 (whiskFloor h).2 (bits v.toNat 15 0) (hkPct h) = true :=
  ⟨{ wh with lid := [(0, { openAt := some (10 ^ 9) })] }, wa, 40000#32, ⟨by decide +kernel, by decide +kernel, by decide +kernel, fun _ => by decide +kernel⟩, by decide +kernel⟩

theorem witness_configurationWrites_9 : ∃ (h : Hub) (a : RegAcc), h.mayAccess a 0x4104 ∧ (lid h a.die.toNat).pair = none ∧ lidOpen h a.die.toNat = true :=
  ⟨{ wh with lid := [(0, { openAt := some (10 ^ 9) })] }, wa, ⟨by decide +kernel, by decide +kernel, by decide +kernel, fun _ => by decide +kernel⟩, by decide +kernel⟩

theorem witness_configurationWrites_10 : ∃ (h : Hub) (a : RegAcc) (v : Word32) (m : BitVec 2), h.mayAccess a 0x4400 ∧ (lid h a.die.toNat).pair = none ∧ lidOpen h a.die.toNat = true ∧ bitOf (mgrCtl h m.toNat) 31 = false ∧ v.toNat.testBit 31 = true :=
  ⟨{ wh with lid := [(0, { openAt := some (10 ^ 9) })] }, wa, 0xC0007F02#32, 3#2, ⟨by decide +kernel, by decide +kernel, by decide +kernel, fun _ => by decide +kernel⟩, by decide +kernel⟩

theorem witness_configurationWrites_11 : ∃ (h : Hub) (a : RegAcc) (v : Word32) (n : BitVec 3) (r : RegRow) (w : Nat), h.mayAccess a 0x4050 ∧ (lid h a.die.toNat).pair = none ∧ lidOpen h a.die.toNat = true ∧ n ≠ 7#3 ∧ findRow (0x4050 + 4 * n.toNat) = some r ∧ w = mergeWord r true (geomWord h n.toNat) v.toNat ∧ untrained h (Nat.lor (bits (geomWord h n.toNat) 31 24) (bits w 31 24)) = true ∧ bits w 15 12 ≤ 8 ∧ allotment h n.toNat w (twinGeom h) ≤ 786432 :=
  ⟨{ wh with lid := [(0, { openAt := some (10 ^ 9) })] }, wa, 0x04806200#32, 2#3, ((findRow 0x4058).getD ⟨0, 0, 0, 0, false, []⟩), 0x04806200, ⟨by decide +kernel, by decide +kernel, by decide +kernel, fun _ => by decide +kernel⟩, by decide +kernel⟩

theorem witness_configurationWrites_12 : ∃ (h : Hub) (a : RegAcc) (v : Word32) (n : BitVec 3) (r : RegRow) (w : Nat), h.mayAccess a 0x4050 ∧ (lid h a.die.toNat).pair = none ∧ lidOpen h a.die.toNat = true ∧ n ≠ 7#3 ∧ findRow (0x4050 + 4 * n.toNat) = some r ∧ w = mergeWord r true (geomWord h n.toNat) v.toNat ∧ untrained h (Nat.lor (bits (geomWord h n.toNat) 31 24) (bits w 31 24)) = true ∧ bits w 15 12 ≤ 8 ∧ bitOf w 23 = true ∧ 786432 < allotment h n.toNat w (twinGeom h) :=
  ⟨{ wh with lid := [(0, { openAt := some (10 ^ 9) })] }, wa, 0x048083E0#32, 2#3, ((findRow 0x4058).getD ⟨0, 0, 0, 0, false, []⟩), 0x048083E0, ⟨by decide +kernel, by decide +kernel, by decide +kernel, fun _ => by decide +kernel⟩, by decide +kernel⟩

theorem witness_configurationWrites_13 : ∃ (h : Hub) (a : RegAcc) (v : Word32) (r : RegRow) (w : Nat), h.mayAccess a 0x406C ∧ (lid h a.die.toNat).pair = none ∧ lidOpen h a.die.toNat = true ∧ findRow 0x406C = some r ∧ w = mergeWord r true (twinGeom h) v.toNat ∧ linkTrained h 7 = false ∧ bits w 15 12 ≤ 8 ∧ allotment h 7 0 w ≤ 786432 :=
  ⟨{ wh with lid := [(0, { openAt := some (10 ^ 9) })] }, wa, 0x00802200#32, ((findRow 0x406C).getD ⟨0, 0, 0, 0, false, []⟩), 0x00802200, ⟨by decide +kernel, by decide +kernel, by decide +kernel, fun _ => by decide +kernel⟩, by decide +kernel⟩

theorem witness_configurationWrites_14 : ∃ (h : Hub) (a : RegAcc) (v : Word32) (n : BitVec 3), h.mayAccess a 0x4600 ∧ (lid h a.die.toNat).pair = none ∧ lidOpen h a.die.toNat = true ∧ n.toNat / 4 = a.die.toNat ∧ n ≠ a.link ∧ v.toNat.testBit 31 = true ∧ bitOf (linkCtl h n.toNat) 31 = false ∧ (link h n.toNat).st = .down :=
  ⟨{ wh with lid := [(0, { openAt := some (10 ^ 9) })] }, wa, 0x80000000#32, 2#3, ⟨by decide +kernel, by decide +kernel, by decide +kernel, fun _ => by decide +kernel⟩, by decide +kernel⟩

theorem witness_configurationWrites_15 : ∃ (h : Hub) (a : RegAcc) (v : Word32) (n : BitVec 3), h.mayAccess a 0x4600 ∧ (lid h a.die.toNat).pair = none ∧ lidOpen h a.die.toNat = true ∧ n.toNat / 4 = a.die.toNat ∧ n ≠ a.link ∧ v.toNat.testBit 31 = true ∧ bitOf (linkCtl h n.toNat) 31 = true ∧ v.toNat.testBit 30 = true ∧ (link h n.toNat).st = .up :=
  ⟨{ wh with lid := [(0, { openAt := some (10 ^ 9) })], regs := (0x4640, 0x80000000#32) :: wh.regs }, wa, 0xC0000000#32, 1#3, ⟨by decide +kernel, by decide +kernel, by decide +kernel, fun _ => by decide +kernel⟩, by decide +kernel⟩

theorem witness_clearOnReadAndFetches_1 : ∃ (h : Hub) (a : RegAcc), h.mayAccess a 0x4800 ∧ (lid h a.die.toNat).pair = none ∧ (lid h a.die.toNat).openAt = none :=
  ⟨{ wh with regs := (0x4800, 0x00050300#32) :: wh.regs }, wa, ⟨by decide +kernel, by decide +kernel, by decide +kernel, fun _ => by decide +kernel⟩, by decide +kernel⟩

theorem witness_clearOnReadAndFetches_2 : ∃ (h : Hub) (a : RegAcc), h.mayAccess a 0x100 ∧ (lid h a.die.toNat).pair = none ∧ (lid h a.die.toNat).openAt = none :=
  ⟨wh, wa, ⟨by decide +kernel, by decide +kernel, by decide +kernel, fun _ => by decide +kernel⟩, by decide +kernel⟩

theorem witness_clearOnReadAndFetches_3 : ∃ (h : Hub) (a : RegAcc) (k : BitVec 2) (d : BitVec 1), (lid h a.die.toNat).pair = none ∧ (lid h a.die.toNat).openAt = none ∧ (mbox h d.toNat k.toNat).busy = true :=
  ⟨{ wh with regs := (0x100, 0x200#32) :: wh.regs, mbox := [(0, { busy := true })] }, wa, 0#2, 0#1, by decide +kernel⟩

theorem witness_clearOnReadAndFetches_3_b : ∃ (h : Hub) (a : RegAcc) (k : BitVec 2) (d : BitVec 1), (lid h a.die.toNat).pair = none ∧ (lid h a.die.toNat).openAt = none ∧ (mbox h d.toNat k.toNat).busy = true :=
  ⟨{ wh with regs := (0x100, 0x7FFF#32) :: wh.regs, mbox := [(0, { busy := true })] }, wa, 0#2, 0#1, by decide +kernel⟩

theorem witness_clearOnReadAndFetches_4 : ∃ (h : Hub) (a : RegAcc) (k : BitVec 2) (d : BitVec 1), (lid h a.die.toNat).pair = none ∧ (lid h a.die.toNat).openAt = none ∧ (mbox h d.toNat k.toNat).busy = false :=
  ⟨wh, wa, 0#2, 0#1, by decide +kernel⟩

theorem witness_mailboxDataReads_3 : ∃ (h : Hub) (a : RegAcc) (k : BitVec 2) (i : Nat), h.mayAccess a 0x108 ∧ i < 18 ∧ (lid h a.die.toNat).pair = none ∧ (lid h a.die.toNat).openAt = none ∧ (mbox h a.die.toNat k.toNat).valid = true ∧ i + 1 = (mbox h a.die.toNat k.toNat).words.length :=
  ⟨{ wh with mbox := [(1, { valid := true, words := [3#32, 9#32] })] }, wa, 1#2, 1, ⟨by decide +kernel, by decide +kernel, by decide +kernel, fun _ => by decide +kernel⟩, by decide +kernel⟩

theorem witness_mailboxDataReads_3_b : ∃ (h : Hub) (a : RegAcc) (k : BitVec 2) (i : Nat), h.mayAccess a 0x108 ∧ i < 18 ∧ (lid h a.die.toNat).pair = none ∧ (lid h a.die.toNat).openAt = none ∧ (mbox h a.die.toNat k.toNat).valid = true ∧ i + 1 = (mbox h a.die.toNat k.toNat).words.length :=
  ⟨{ wh with mbox := [(3, { valid := true, words := List.replicate 17 3#32 ++ [9#32] })] }, wa, 3#2, 17, ⟨by decide +kernel, by decide +kernel, by decide +kernel, fun _ => by decide +kernel⟩, by decide +kernel⟩

theorem witness_mailboxDataReads_2 : ∃ (h : Hub) (a : RegAcc) (k : BitVec 2) (i : Nat), h.mayAccess a 0x108 ∧ i < 18 ∧ (lid h a.die.toNat).pair = none ∧ (lid h a.die.toNat).openAt = none ∧ (mbox h a.die.toNat k.toNat).valid = true ∧ i + 1 < (mbox h a.die.toNat k.toNat).words.length :=
  ⟨{ wh with mbox := [(1, { valid := true, words := [3#32, 9#32] })] }, wa, 1#2, 0, ⟨by decide +kernel, by decide +kernel, by decide +kernel, fun _ => by decide +kernel⟩, by decide +kernel⟩

theorem witness_mailboxDataReads_1 : ∃ (h : Hub) (a : RegAcc) (k : BitVec 2) (i : Nat), h.mayAccess a 0x108 ∧ i < 18 ∧ (lid h a.die.toNat).pair = none ∧ (lid h a.die.toNat).openAt = none ∧ ((mbox h a.die.toNat k.toNat).valid = false ∨ (mbox h a.die.toNat k.toNat).words.length ≤ i) :=
  ⟨{ wh with mbox := [(0, { valid := false, words := [3#32, 9#32] })] }, wa, 0#2, 17, ⟨by decide +kernel, by decide +kernel, by decide +kernel, fun _ => by decide +kernel⟩, by decide +kernel⟩

theorem witness_mailboxDataReads_1_b : ∃ (h : Hub) (a : RegAcc) (k : BitVec 2) (i : Nat), h.mayAccess a 0x108 ∧ i < 18 ∧ (lid h a.die.toNat).pair = none ∧ (lid h a.die.toNat).openAt = none ∧ ((mbox h a.die.toNat k.toNat).valid = false ∨ (mbox h a.die.toNat k.toNat).words.length ≤ i) :=
  ⟨{ wh with mbox := [(0, { valid := true, words := [3#32, 9#32] })] }, wa, 0#2, 2, ⟨by decide +kernel, by decide +kernel, by decide +kernel, fun _ => by decide +kernel⟩, by decide +kernel⟩

theorem witness_sidebandPinsSelectAndAnswer_1 : ∃ (h : Hub), h.life.resetLow = true :=
  ⟨{ wh with life := { wh.life with resetLow := true } }, by decide +kernel⟩

theorem witness_sidebandPinsSelectAndAnswer_2 : ∃ (h : Hub) (i : _), h.life.resetLow = false ∧ i ∈ [Instr.extest, Instr.extestPulse, Instr.extestTrain] :=
  ⟨wh, Instr.extestPulse, by decide +kernel⟩

theorem witness_sidebandPinsSelectAndAnswer_3 : ∃ (h : Hub), h.life.resetLow = false :=
  ⟨wh, by decide +kernel⟩

theorem witness_sidebandPinsSelectAndAnswer_4 : ∃ (h : Hub), h.life.resetLow = false :=
  ⟨wh, by decide +kernel⟩

theorem witness_everyStepKeepsTheForm_1 : ∃ (c : Instr), (∀ l f, c ≠ .flitReceived l f) :=
  ⟨.wake, (fun _ _ h => nomatch h)⟩

end Sys2Proof.Machine.Slice0
end

/-! The homes of an address (R7, R8): the bits of an address as numbers, and what the homes keep over an aligned block. -/

namespace Sys2Proof.Machine

/-! ### Bits of a number -/

/-- The model's test of a bit, as arithmetic. -/
theorem b2n_bitOf (v i : Nat) : b2n (bitOf v i) = v / 2 ^ i % 2 := by
  unfold b2n bitOf
  rw [← Nat.toNat_testBit]
  cases v.testBit i <;> rfl

/-- Two truth values that differ are the exclusive or of their numbers. -/
theorem b2n_bne (b c : Bool) : b2n (b != c) = Nat.xor (b2n b) (b2n c) := by
  cases b <;> cases c <;> rfl

/-- Addresses of one block of `2 ^ k` agree in every bit from `k` up. -/
theorem bitOf_eq_of_div_eq {a b k i : Nat} (hab : a / 2 ^ k = b / 2 ^ k) (hki : k ≤ i) : bitOf a i = bitOf b i := by
  have block (v : Nat) : bitOf v i = (v / 2 ^ k).testBit (i - k) := by
    rw [Nat.testBit_div_two_pow, Nat.sub_add_cancel hki, bitOf]
  rw [block a, block b, hab]

/-! ### Home die and home region -/

/-- R7: the home die from the four address bits. -/
theorem homeDie_eq_xor (a : Nat) :
    homeDie a = Nat.xor (Nat.xor (a / 2 ^ 13 % 2) (a / 2 ^ 20 % 2)) (Nat.xor (a / 2 ^ 27 % 2) (a / 2 ^ 34 % 2)) := by
  simp only [homeDie, b2n_bne, b2n_bitOf]

/-- R8: the region number from the home die and four address bits. -/
theorem homeRg_eq_xor (a : Nat) :
    homeRg a = 2 * homeDie a + Nat.xor (Nat.xor (a / 2 ^ 12 % 2) (a / 2 ^ 19 % 2)) (Nat.xor (a / 2 ^ 26 % 2) (a / 2 ^ 33 % 2)) := by
  simp only [homeRg, b2n_bne, b2n_bitOf]

/-- R7: the lowest bit that the home die reads is a13, so a block of up to 8 KiB has one home die. -/
theorem homeDie_eq_of_div_eq {a b k : Nat} (hk : k ≤ 13) (hab : a / 2 ^ k = b / 2 ^ k) : homeDie a = homeDie b := by
  have bit (i : Nat) (hi : 13 ≤ i) : bitOf a i = bitOf b i := bitOf_eq_of_div_eq hab (hk.trans hi)
  rw [homeDie, homeDie, bit 13 (by decide), bit 20 (by decide), bit 27 (by decide), bit 34 (by decide)]

/-- R8: the lowest bit that the home region reads is a12, so a block of up to 4 KiB has one home region. -/
theorem homeRg_eq_of_div_eq {a b k : Nat} (hk : k ≤ 12) (hab : a / 2 ^ k = b / 2 ^ k) : homeRg a = homeRg b := by
  have bit (i : Nat) (hi : 12 ≤ i) : bitOf a i = bitOf b i := bitOf_eq_of_div_eq hab (hk.trans hi)
  rw [homeRg, homeRg, homeDie_eq_of_div_eq (hk.trans (by decide)) hab,
    bit 12 (by decide), bit 19 (by decide), bit 26 (by decide), bit 33 (by decide)]

end Sys2Proof.Machine

namespace Sys2Proof.Machine.Slice0

/-- Settles O56: the equations of both homes, and the blocks of 2 ^ 13 and 2 ^ 12 bytes over which they are constant. -/
theorem homesOfAddresses : Obligations.HomesOfAddresses := fun a =>
  ⟨homeDie_eq_xor a, homeRg_eq_xor a,
    fun _ hab => homeDie_eq_of_div_eq (k := 13) le_rfl hab,
    fun _ hab => homeRg_eq_of_div_eq (k := 12) le_rfl hab⟩

end Sys2Proof.Machine.Slice0

/-! A register access over a link of the other die while the window's die is in warm reset: it is held at the Seam (R25) and not answered. -/

namespace Sys2Proof.Machine

/-! ### The hold at the Seam (R25) -/

/-- R25: a register access goes to the die that it names, for bit 20 of its place in the CFG entry is that die's number. -/
theorem accReq_windowDie (a : RegAcc) (off : Nat) (v : Option Word32) (h : Hub) (hoff : off < 2 ^ 20) :
    b2n (bitOf ((accReq a off v h).addr - (accReq a off v h).ent.base * unit2M) 20) = a.die.toNat := by
  have place (b : Nat) : b + a.die.toNat * 2 ^ 20 + off - b = 2 ^ 20 * a.die.toNat + off := by omega
  have bit : (2 ^ 20 * a.die.toNat + off) / 2 ^ 20 = a.die.toNat := by omega
  simp only [accReq, place, b2n_bitOf, bit, Nat.mod_eq_of_lt a.die.isLt]

/-- R25: a write over a trained link to the window of a die in warm reset, where the link is the other die's, waits at the Seam. -/
theorem regWrite_held (a : RegAcc) (off : Nat) (v : Word32) (h : Hub) (hoff : off < 2 ^ 20) (hup : linkTrained h a.link.toNat = true)
    (hwarm : (bfind h.life.warm a.die.toNat).isSome = true) (hlink : dieOfLink a.link.toNat ≠ a.die.toNat) :
    regWrite a off v h = putWaiting .seam { accReq a off (some v) h with uid := h.nextId } { h with nextId := h.nextId + 1 } := by
  have held : ((bfind h.life.warm a.die.toNat).isSome && dieOfLink (accReq a off (some v) h).link != a.die.toNat) = true := by
    simpa [hwarm, accReq] using hlink
  have fresh : (accReq a off (some v) h).uid = 0 := rfl
  rw [regWrite, if_pos hup, cfgArrive, accReq_windowDie a off (some v) h hoff, if_pos held, if_pos fresh]

/-- What waits at the Seam leaves the links as they are. -/
@[simp] theorem putWaiting_seam_links (r : Req) (h : Hub) : (putWaiting .seam r h).links = h.links := rfl

/-- Links that did not change carry no answer. -/
theorem not_acked_of_links_eq {h t : Hub} (hlinks : t.links = h.links) (a : RegAcc) (st : Nat) (v : Option (Nat × Nat)) : ¬ h.acked t a st v := by
  rintro ⟨o, hq, -⟩
  have longer := congrArg List.length hq
  simp [link, hlinks] at longer

/-- A write that the Seam holds is not answered. -/
theorem not_acked_regWrite_held (a : RegAcc) (off : Nat) (v : Word32) (h : Hub) (hoff : off < 2 ^ 20) (hup : linkTrained h a.link.toNat = true)
    (hwarm : (bfind h.life.warm a.die.toNat).isSome = true) (hlink : dieOfLink a.link.toNat ≠ a.die.toNat) (st : Nat) (x : Option (Nat × Nat)) :
    ¬ h.acked (regWrite a off v h) a st x :=
  not_acked_of_links_eq (by rw [regWrite_held a off v h hoff hup hwarm hlink, putWaiting_seam_links]) a st x

/-! ### A state and an access that are held -/

/-- A package in RUN: LL0 is up, CB_ACC allows it, and partition 1 is ACTIVE on it. -/
def runningPackage : Hub :=
  { life := { phase := .run, resetLow := false, kettleUp := true, fullUp := true }
    links := [(0, { st := .up })]
    rmap := [(0, { base := 32767, size := 1, typ := .cfg })]
    regs := [(0x18, 0x7F000000#32)]
    parts := [(1, { st := .active, links := 0x01#8 })] }

/-- The same package after a write of CB_RESET.WARM_1: East is in warm reset (R413). -/
def eastInWarmReset : Hub := (writeReset 2 runningPackage).2

/-- An access of partition 1 over LL0, a link of West, to East's window. -/
def eastAccess : RegAcc := { link := 0#3, vc := true, pid := 1#6, stream := 3#10, tag := 9#12, die := 1#1 }

theorem eastInWarmReset_mayAccess : eastInWarmReset.mayAccess eastAccess 0x4008 :=
  ⟨by decide +kernel, by decide +kernel, by decide +kernel, fun _ => by decide +kernel⟩

/-- CACHE_TRK_CTL_WRITE as the register write that it is. -/
theorem exec_cacheTrkCtlWrite (a : RegAcc) (v : Word32) (h : Hub) (q : List Instr) :
    exec (.cacheTrkCtlWrite a v) ⟨h, q⟩ = .next ⟨regWrite a 0x4008 v h, q⟩ := rfl

end Sys2Proof.Machine

namespace Sys2Proof.Machine.Slice0

/-- Refutes O55: its hypotheses leave out a die in warm reset. There a write over a link of the other die, here of reserves within the bounds of R66
(16 trackers for S, 8 for S and D, 4 lines), is held at the Seam until the reset ends (R25), so the command completes with no answer on its link. -/
theorem not_trackerReserves : ¬ Obligations.TrackerReserves := by
  unfold Obligations.TrackerReserves
  intro holds
  obtain ⟨u, hexec, hacked, -⟩ :=
    (holds eastInWarmReset [] eastAccess 0x00040810#32 (by decide +kernel) eastInWarmReset_mayAccess).2 (by decide) (by decide)
  rw [exec_cacheTrkCtlWrite] at hexec
  cases hexec
  exact not_acked_regWrite_held eastAccess 0x4008 _ eastInWarmReset (by decide) (by decide +kernel) (by decide +kernel) (by decide) 0 none hacked

end Sys2Proof.Machine.Slice0

/-! The expiry of a Ladle entry as a PMU event (R361): a counter of PF_DROP that it wraps leaves a mark in a register (R363). -/

namespace Sys2Proof.Machine

/-- LADLE_EXPIRY as its effect on the hub. -/
theorem exec_ladleExpiry (cl : BitVec 3) (line : BitVec 41) (h : Hub) (q : List Instr) :
    exec (.ladleExpiry cl line) ⟨h, q⟩ = .next ⟨effLadleExpiry cl.toNat line.toNat h, q⟩ := rfl

/-- Where the register words did not change, no register's field did. -/
theorem regField_of_regs_eq {h t : Hub} (hregs : t.regs = h.regs) (die off hi lo : Nat) : regField t die off hi lo = regField h die off hi lo := by
  rw [regField, regField, regGet, regGet, hregs]

/-- The only entry of a Ladle, of partition 1, whose data landed in frame 0. -/
def landedEntry : LadleE :=
  { cluster := 0, line := 2, pid := 1, cls := 0, inFlight := false, killed := false, data := List.replicate 128 0#8, frame := 0, seq := 1 }

/-- A running package two ticks after the entry's data landed. Counter 0 of West counts PF_DROP (PMU_EVT_0 with EN set and event 0x11, its filters at
their reset value) and stands at its last value. -/
def dropsAtLastCount : Hub :=
  { runningPackage with
    rmap := (1, { base := 0, size := 1024, typ := .nwt }) :: runningPackage.rmap
    regs := runningPackage.regs ++ [(0x4910, 0x80000011#32)]
    pmu := [(0, { cnt := [(0, 2 ^ 48 - 1)] })]
    fs := { started := true, frame := 2 }
    ladle := [landedEntry] }

/-- PMU_OVF of West: the expiry's event wraps counter 0, whose bit was clear and is then set (R363). -/
theorem dropsAtLastCount_overflows :
    regField dropsAtLastCount 0 0x4958 0 0 = 0 ∧ regField (effLadleExpiry 0 2 dropsAtLastCount) 0 0x4958 0 0 = 1 :=
  ⟨by decide +kernel, by decide +kernel⟩

end Sys2Proof.Machine

namespace Sys2Proof.Machine.Slice0

/-- Refutes O25: of its clauses the one that every register keeps its word fails. The expiry is an occurrence of the PMU event PF_DROP (R361, code 0x11),
and where it wraps the counter of that event, PMU_OVF gets the counter's bit (R363); no hypothesis leaves such a counter out. -/
theorem not_ladleEntryExpires : ¬ Obligations.LadleEntryExpires := by
  unfold Obligations.LadleEntryExpires
  intro holds
  obtain ⟨t, hexec, -, -, -, -, -, -, -, -, -, hregs⟩ :=
    (holds dropsAtLastCount [] 0#3 2#41 landedEntry (by decide) rfl rfl rfl (by decide) (by decide) (by decide) (by decide)).1 (by decide)
  rw [exec_ladleExpiry] at hexec
  cases hexec
  obtain ⟨before, after⟩ := dropsAtLastCount_overflows
  have kept : regField (effLadleExpiry 0 2 dropsAtLastCount) 0 0x4958 0 0 = regField dropsAtLastCount 0 0x4958 0 0 :=
    regField_of_regs_eq hregs 0 0x4958 0 0
  rw [before, after] at kept
  exact absurd kept (by decide)

end Sys2Proof.Machine.Slice0

/-! A register read over a link of the other die while the window's die is in warm reset: like a write, it is held at the Seam (R25) and not answered. -/

namespace Sys2Proof.Machine

/-- R25: a register access to the window of a die in warm reset, over a link of the other die, waits at the Seam as a new request. -/
theorem cfgArrive_accReq_held (a : RegAcc) (off : Nat) (v : Option Word32) (h : Hub) (hoff : off < 2 ^ 20)
    (hwarm : (bfind h.life.warm a.die.toNat).isSome = true) (hlink : dieOfLink a.link.toNat ≠ a.die.toNat) :
    cfgArrive (accReq a off v h) h = putWaiting .seam { accReq a off v h with uid := h.nextId } { h with nextId := h.nextId + 1 } := by
  have held : ((bfind h.life.warm a.die.toNat).isSome && dieOfLink (accReq a off v h).link != a.die.toNat) = true := by
    simpa [hwarm, accReq] using hlink
  have fresh : (accReq a off v h).uid = 0 := rfl
  rw [cfgArrive, accReq_windowDie a off v h hoff, if_pos held, if_pos fresh]

/-- A read that the Seam holds is not answered; over a link that is not trained it does not come at all. -/
theorem not_acked_regRead_held (a : RegAcc) (off : Nat) (h : Hub) (hoff : off < 2 ^ 20)
    (hwarm : (bfind h.life.warm a.die.toNat).isSome = true) (hlink : dieOfLink a.link.toNat ≠ a.die.toNat) (st : Nat) (x : Option (Nat × Nat)) :
    ¬ h.acked (regRead a off h) a st x := by
  refine not_acked_of_links_eq ?_ a st x
  rw [regRead]
  split
  · rw [cfgArrive_accReq_held a off none h hoff hwarm hlink, putWaiting_seam_links]
  · rfl

/-- CLEAR_ON_READ as the register read that it is. -/
theorem exec_clearOnRead (a : RegAcc) (off : BitVec 20) (h : Hub) (q : List Instr) :
    exec (.clearOnRead a off) ⟨h, q⟩ = .next ⟨regRead a off.toNat h, q⟩ := rfl

/-- The access of `eastAccess` to East's mailboxes meets the guards of a window access, and East's Lid is closed with no pair pending. -/
theorem eastInWarmReset_mayAccess_mailbox :
    eastInWarmReset.mayAccess eastAccess 0x108 ∧ (lid eastInWarmReset eastAccess.die.toNat).pair = none
      ∧ (lid eastInWarmReset eastAccess.die.toNat).openAt = none := by
  obtain ⟨trained, admitted, inRun, allowed⟩ := eastInWarmReset_mayAccess
  exact ⟨⟨trained, admitted, inRun, fun _ => allowed (.inl (by decide))⟩, by decide +kernel, by decide +kernel⟩

end Sys2Proof.Machine

namespace Sys2Proof.Machine.Slice0

/-- Refutes O54: its hypotheses leave out a die in warm reset. There a read over a link of the other die, here of MB_0_DATA_0 in East's window while VALID
is 0, is held at the Seam until the reset ends (R25), so the command completes with no answer on its link where the statement asks for one that reads 0. -/
theorem not_mailboxDataReads : ¬ Obligations.MailboxDataReads := by
  unfold Obligations.MailboxDataReads
  intro holds
  obtain ⟨access, noPair, closed⟩ := eastInWarmReset_mayAccess_mailbox
  obtain ⟨u, hexec, hacked, -⟩ :=
    (holds eastInWarmReset [] eastAccess 0#2 0 (by decide) access noPair closed).1 (.inl (by decide +kernel))
  rw [exec_clearOnRead] at hexec
  cases hexec
  exact not_acked_regRead_held eastAccess _ eastInWarmReset (by decide) (by decide +kernel) (by decide) 0 _ hacked

end Sys2Proof.Machine.Slice0

/-! Message headers (R330): a header is a number made of fields at fixed bits, and each field reads back. -/

namespace Sys2Proof.Machine

/-! ### Fields of a number -/

/-- A field, as arithmetic. -/
theorem bits_eq_div_mod (v hi lo : Nat) : bits v hi lo = v / 2 ^ lo % 2 ^ (hi + 1 - lo) := by
  rw [bits, Nat.shiftRight_eq_div_pow]

/-- A bit that holds a truth value reads it back. -/
theorem bitOf_eq_of_div_mod {v i : Nat} {b : Bool} (hv : v / 2 ^ i % 2 = b2n b) : bitOf v i = b := by
  rw [← b2n_bitOf] at hv
  cases b <;> cases hb : bitOf v i <;> simp_all [b2n]

theorem b2n_lt (b : Bool) : b2n b < 2 := by cases b <;> decide

/-- Data of whole slots fills them. -/
theorem dslots_mul (m : Msg) (hd : m.data.length % 16 = 0) : 16 * m.dslots = m.data.length := by
  unfold Msg.dslots ceilDiv; omega

theorem dslots_le (m : Msg) (hd : m.data.length ≤ 16 * 31) : m.dslots < 32 := by
  unfold Msg.dslots ceilDiv; omega

/-! ### Headers as sums -/

theorem chanOf_request {op : Nat} (h : op < 64) : chanOf op = 0 := by unfold chanOf; omega

theorem chanOf_snoop {op : Nat} (h1 : 64 ≤ op) (h2 : op < 128) : chanOf op = 1 := by unfold chanOf; omega

theorem chanOf_response {op : Nat} (h1 : 128 ≤ op) (h2 : op < 192) : chanOf op = 2 := by unfold chanOf; omega

/-- The request layout of a header. -/
theorem header_request (m : Msg) (hc : chanOf m.op = 0) :
    m.header = m.op % 256 + m.dslots % 32 * 2 ^ 8 + b2n m.vc * 2 ^ 13 + (m.cls % 4 * 2 ^ 14 + m.pid % 64 * 2 ^ 16 + m.stream % 1024 * 2 ^ 22
      + m.tag % 4096 * 2 ^ 32 + m.addr % 2 ^ 48 * 2 ^ 44 + m.len % 8 * 2 ^ 92 + m.hway % 32 * 2 ^ 95 + m.sub % 64 * 2 ^ 100) := by
  rw [Msg.header, hc]; rfl

/-- The snoop layout of a header. -/
theorem header_snoop (m : Msg) (hc : chanOf m.op = 1) :
    m.header = m.op % 256 + m.dslots % 32 * 2 ^ 8 + b2n m.vc * 2 ^ 13
      + (m.snpid % 4096 * 2 ^ 16 + m.addr % 2 ^ 48 * 2 ^ 28 + b2n m.size128 * 2 ^ 76) := by
  rw [Msg.header, hc]; rfl

/-- The response layout of a header. -/
theorem header_response (m : Msg) (hc : chanOf m.op = 2) (ha : m.isAnswer = false) :
    m.header = m.op % 256 + m.dslots % 32 * 2 ^ 8 + b2n m.vc * 2 ^ 13 + (m.lstat % 4 * 2 ^ 14 + m.stream % 1024 * 2 ^ 16 + m.tag % 4096 * 2 ^ 26
      + m.state % 8 * 2 ^ 38 + m.reason % 8 * 2 ^ 41 + b2n m.declined * 2 ^ 44 + b2n m.pass * 2 ^ 45) := by
  rw [Msg.header, hc, ha]; rfl

theorem header_reqMsg {op : Nat} (r : ReqHdr) (d : List Byte) (hop : op < 64) (hd : d.length ≤ 16 * 31) :
    (reqMsg op r d).header = op + (reqMsg op r d).dslots * 2 ^ 8 + b2n r.vc * 2 ^ 13 + r.cls.toNat * 2 ^ 14 + r.pid.toNat * 2 ^ 16
      + r.stream.toNat * 2 ^ 22 + r.tag.toNat * 2 ^ 32 + r.addr.toNat * 2 ^ 44 + r.len.toNat * 2 ^ 92 + r.hway.toNat * 2 ^ 95
      + r.sub.toNat * 2 ^ 100 := by
  have hs : (reqMsg op r d).dslots < 32 := dslots_le _ hd
  have := r.cls.isLt; have := r.pid.isLt; have := r.stream.isLt; have := r.tag.isLt; have := r.addr.isLt
  have := r.len.isLt; have := r.hway.isLt; have := r.sub.isLt
  rw [header_request (reqMsg op r d) (chanOf_request hop)]
  generalize (reqMsg op r d).dslots = n at hs
  simp only [reqMsg]
  omega

theorem header_snpMsg {op : Nat} (s : SnpHdr) (h1 : 64 ≤ op) (h2 : op < 128) :
    (snpMsg op s).header = op + b2n s.vc * 2 ^ 13 + s.snpid.toNat * 2 ^ 16 + s.addr.toNat * 2 ^ 28 + b2n s.size128 * 2 ^ 76 := by
  have := s.snpid.isLt; have := s.addr.isLt
  have hs : (snpMsg op s).dslots = 0 := by simp [Msg.dslots, ceilDiv, snpMsg]
  rw [header_snoop (snpMsg op s) (chanOf_snoop h1 h2), hs]
  simp only [snpMsg]
  omega

theorem header_rspMsg {op : Nat} (r : RspHdr) (d : List Byte) (h1 : 160 ≤ op) (h2 : op < 192) (hd : d.length ≤ 16 * 31) :
    (rspMsg op r d).header = op + (rspMsg op r d).dslots * 2 ^ 8 + b2n r.vc * 2 ^ 13 + r.lstat.toNat * 2 ^ 14 + r.stream.toNat * 2 ^ 16
      + r.tag.toNat * 2 ^ 26 + r.state.toNat * 2 ^ 38 + r.reason.toNat * 2 ^ 41 + b2n r.declined * 2 ^ 44 + b2n r.pass * 2 ^ 45 := by
  have hs : (rspMsg op r d).dslots < 32 := dslots_le _ hd
  have := r.lstat.isLt; have := r.stream.isLt; have := r.tag.isLt; have := r.state.isLt; have := r.reason.isLt
  have ha : (rspMsg op r d).isAnswer = false := by
    have hop : op ≠ 0x91 ∧ op ≠ 0x92 ∧ op ≠ 0x93 := by omega
    simp [Msg.isAnswer, rspMsg, hop]
  rw [header_response (rspMsg op r d) (chanOf_response (show 128 ≤ op by omega) h2) ha]
  generalize (rspMsg op r d).dslots = n at hs
  simp only [rspMsg]
  omega

/-! ### Reading back -/

theorem readHeader_reqMsg {op : Nat} (r : ReqHdr) (d : List Byte) (hop : op < 64) (hd : d.length ≤ 16 * 31) :
    readHeader (reqMsg op r d).header d = reqMsg op r d := by
  have hs : (reqMsg op r d).dslots < 32 := dslots_le _ hd
  have := r.cls.isLt; have := r.pid.isLt; have := r.stream.isLt; have := r.tag.isLt; have := r.addr.isLt
  have := r.len.isLt; have := r.hway.isLt; have := r.sub.isLt; have := b2n_lt r.vc
  rw [header_reqMsg r d hop hd]
  generalize (reqMsg op r d).dslots = n at hs
  generalize hv : op + n * 2 ^ 8 + b2n r.vc * 2 ^ 13 + _ + _ + _ + _ + _ + _ + _ + _ = v
  have hvop : bits v 7 0 = op := by rw [bits_eq_div_mod]; omega
  have hvc : bitOf v 13 = r.vc := bitOf_eq_of_div_mod (by omega)
  simp only [readHeader, hvop, hvc, chanOf_request hop, reqMsg, bits_eq_div_mod]
  congr 1 <;> omega

theorem readHeader_snpMsg {op : Nat} (s : SnpHdr) (h1 : 64 ≤ op) (h2 : op < 128) :
    readHeader (snpMsg op s).header [] = snpMsg op s := by
  have := s.snpid.isLt; have := s.addr.isLt; have := b2n_lt s.vc; have := b2n_lt s.size128
  rw [header_snpMsg s h1 h2]
  generalize hv : op + _ + _ + _ + _ = v
  have hvop : bits v 7 0 = op := by rw [bits_eq_div_mod]; omega
  have hvc : bitOf v 13 = s.vc := bitOf_eq_of_div_mod (by omega)
  have hsz : bitOf v 76 = s.size128 := bitOf_eq_of_div_mod (by omega)
  simp only [readHeader, hvop, hvc, hsz, chanOf_snoop h1 h2, snpMsg, bits_eq_div_mod]
  congr 1 <;> omega

theorem readHeader_rspMsg {op : Nat} (r : RspHdr) (d : List Byte) (h1 : 160 ≤ op) (h2 : op < 192) (hd : d.length ≤ 16 * 31) :
    readHeader (rspMsg op r d).header d = rspMsg op r d := by
  have hs : (rspMsg op r d).dslots < 32 := dslots_le _ hd
  have := r.lstat.isLt; have := r.stream.isLt; have := r.tag.isLt; have := r.state.isLt; have := r.reason.isLt
  have := b2n_lt r.vc; have := b2n_lt r.declined; have := b2n_lt r.pass
  rw [header_rspMsg r d h1 h2 hd]
  generalize (rspMsg op r d).dslots = n at hs
  generalize hv : op + n * 2 ^ 8 + b2n r.vc * 2 ^ 13 + _ + _ + _ + _ + _ + _ + _ = v
  have hvop : bits v 7 0 = op := by rw [bits_eq_div_mod]; omega
  have hvc : bitOf v 13 = r.vc := bitOf_eq_of_div_mod (by omega)
  have hdec : bitOf v 44 = r.declined := bitOf_eq_of_div_mod (by omega)
  have hpass : bitOf v 45 = r.pass := bitOf_eq_of_div_mod (by omega)
  simp only [readHeader, hvop, hvc, hdec, hpass, chanOf_response (show 128 ≤ op by omega) h2, rspMsg, bits_eq_div_mod]
  rw [if_neg (by omega), if_neg (by omega)]
  congr 1 <;> omega

end Sys2Proof.Machine

namespace Sys2Proof.Machine.Slice0

/-- Settles O18: the three header layouts, each read back field by field. -/
theorem headersReadBack : Obligations.HeadersReadBack :=
  ⟨fun _ r d hop _ hd => readHeader_reqMsg r d hop hd, fun _ s h1 h2 => readHeader_snpMsg s h1 h2,
    fun _ r d h1 h2 _ hd => readHeader_rspMsg r d h1 h2 hd⟩

end Sys2Proof.Machine.Slice0

/-! A received flit (R321 to R331): its bytes by their places, and the slots of one message taken in. -/

namespace Sys2Proof.Machine

/-! ### Bytes of numbers -/

@[simp] theorem toBytes_length (n v : Nat) : (toBytes n v).length = n := by
  induction n generalizing v with
  | zero => rfl
  | succ n ih => simp [toBytes, ih]

/-- The number that a number's lowest `n` bytes spell. -/
theorem ofBytes_toBytes (n v : Nat) : ofBytes (toBytes n v) = v % 256 ^ n := by
  induction n generalizing v with
  | zero => simp [toBytes, ofBytes, Nat.mod_one]
  | succ n ih =>
    rw [toBytes, ofBytes, ih, BitVec.toNat_ofNat, pow_succ' 256 n]
    exact Nat.mod_mul.symm

theorem ofBytes_toBytes_of_lt {n v : Nat} (hv : v < 256 ^ n) : ofBytes (toBytes n v) = v := by
  rw [ofBytes_toBytes, Nat.mod_eq_of_lt hv]

@[simp] theorem fitBytes_length (n : Nat) (l : List Byte) : (fitBytes n l).length = n := by
  simp [fitBytes]; omega

theorem fitBytes_of_length {n : Nat} {l : List Byte} (h : l.length = n) : fitBytes n l = l := by
  subst h; simp [fitBytes]

/-! ### The CRC of a flit -/

theorem crcShift_lt (n c : Nat) (hc : c < 2 ^ 64) : crcShift 0x42F0E1EBA9EA3693 64 n c < 2 ^ 64 := by
  induction n generalizing c with
  | zero => exact hc
  | succ n ih =>
    refine ih _ ?_
    split
    · exact Nat.xor_lt_two_pow (Nat.mod_lt _ (by decide)) (by decide)
    · exact Nat.mod_lt _ (by decide)

theorem crc64_lt (l : List Byte) : crc64 l < 2 ^ 64 := by
  suffices ∀ c, c < 2 ^ 64 → crc64From c l < 2 ^ 64 from this 0 (by decide)
  induction l with
  | nil => exact fun c hc => hc
  | cons b r ih =>
    intro c hc
    refine ih _ (crcShift_lt 8 _ (Nat.xor_lt_two_pow hc ?_))
    have := b.isLt; omega

/-! ### Places in a whole flit -/

theorem flitBody_length (seq ftype hdr : Nat) (slots : List Byte) : (flitBody seq ftype hdr slots).length = 244 := by simp [flitBody]

section Flit

variable (body : List Byte) (ack : Nat) (hb : body.length = 244)

include hb

theorem wholeFlit_length : (wholeFlit body ack).length = 256 := by simp [wholeFlit, hb]

theorem wholeFlit_take : (wholeFlit body ack).take 244 = body := by rw [wholeFlit, ← hb]; simp

theorem wholeFlit_ack : (wholeFlit body ack).drop 252 = toBytes 4 ack := by
  rw [wholeFlit, List.drop_left' (by simp [hb])]

theorem wholeFlit_crc : ofBytes (slice (wholeFlit body ack) 244 8).reverse = crc64 (body ++ toBytes 4 ack) := by
  rw [slice, wholeFlit, ← hb, List.append_assoc, List.drop_left, List.take_left' (by simp), List.reverse_reverse,
    ofBytes_toBytes_of_lt (lt_of_lt_of_eq (crc64_lt _) (by decide))]

/-- A whole flit's CRC passes (R323). -/
theorem wholeFlit_crcGood : crc64 ((wholeFlit body ack).take 244 ++ (wholeFlit body ack).drop 252)
    = ofBytes (slice (wholeFlit body ack) 244 8).reverse := by
  rw [wholeFlit_take body ack hb, wholeFlit_ack body ack hb, wholeFlit_crc body ack hb]

/-- What lies before the CRC is the body's. -/
theorem wholeFlit_slice {i n : Nat} (hi : i + n ≤ 244) : slice (wholeFlit body ack) i n = slice body i n := by
  conv_rhs => rw [slice, ← wholeFlit_take body ack hb, List.drop_take, List.take_take, Nat.min_eq_left (by omega)]
  rfl

end Flit

/-- The header bytes of a flit, as a number (Table: Flit layout). -/
theorem wholeFlit_head (seq ftype hdr ack : Nat) (slots : List Byte) (hf : ftype < 4) (hh : hdr < 2 ^ 15) :
    ofBytes ((wholeFlit (flitBody seq ftype hdr slots) ack).take 4) = seq % 1024 + ftype * 2 ^ 10 + hdr * 2 ^ 12 := by
  have h4 : (wholeFlit (flitBody seq ftype hdr slots) ack).take 4 = toBytes 4 (seq % 1024 + fieldAt ftype 10 + fieldAt hdr 12) := by
    simp only [wholeFlit, flitBody, List.append_assoc]
    exact List.take_left' (toBytes_length _ _)
  rw [h4, ofBytes_toBytes_of_lt (by simp only [fieldAt]; omega)]
  rfl

/-- Slot `s` of a flit's slots. -/
theorem slice_flitBody (seq ftype hdr s : Nat) (slots : List Byte) :
    slice (flitBody seq ftype hdr slots) (4 + 16 * s) 16 = slice (fitBytes 240 slots) (16 * s) 16 := by
  rw [slice, slice, flitBody, List.drop_append, List.drop_of_length_le (by simp), toBytes_length, Nat.add_sub_cancel_left, List.nil_append]

/-! ### Slots of one message -/

@[simp] theorem bset_bset_same {α : Type} (b : Bank α) (i : Nat) (v w : α) : bset (bset b i v) i w = bset b i w := by
  induction b with
  | nil => simp [bset]
  | cons e r ih =>
    obtain ⟨k, x⟩ := e
    simp only [bset]
    split
    · simp [bset]
    · split
      · simp [bset]
      · next h1 h2 => simp [bset, h1, h2, ih]

/-- Two changes of one link are one change. -/
theorem setLink_setLink (h : Hub) (l : Nat) (f g : Link → Link) : setLink (setLink h l f) l g = setLink h l (fun k => g (f k)) := by
  simp [setLink, bupd]

/-- Slots that no header begins and no message owes are not taken. -/
theorem takeSlots_free (l s : Nat) (ds : List (List Byte)) (h : Hub) (hs : 1 ≤ s) (hn : (link h l).owedSlots = 0) :
    takeSlots l 1 s ds h = some h := by
  induction ds generalizing s with
  | nil => simp [takeSlots]
  | cons d r ih =>
    have hb : Nat.testBit 1 s = false := by rw [Nat.testBit_eq_false_of_lt]; exact Nat.one_lt_two_pow (by omega)
    simp [takeSlots, hn, hb, ih (s + 1) (by omega)]

/-- A link that is owed `n` slots of a message begun by some bytes. -/
def oweLink (d : List Byte) (n : Nat) (k : Link) : Link := { k with owed := d, owedSlots := n }

/-- The message that a header slot and its data slots make, delivered. -/
def deliverSlots (l : Nat) (bytes : List Byte) (h : Hub) : Hub :=
  deliver l (readHeader (ofBytes (bytes.take 16)) (bytes.drop 16)) (setLink h l (oweLink [] 0))

/-- A field of links that a change of one link keeps, every link keeps. -/
theorem link_setLink_keeps {β : Type} (g : Link → β) {f : Link → Link} (hf : ∀ k, g (f k) = g k) (h : Hub) (l j : Nat) :
    g (link (setLink h l f) j) = g (link h j) := by
  by_cases hj : j = l
  · rw [hj, link_setLink_same, hf]
  · rw [link_setLink_other _ _ _ _ hj]

/-- The slots that a message owes, taken in up to its last one (R322). -/
theorem takeSlots_owed (l n s : Nat) (ds : List (List Byte)) (h : Hub) (hs : 1 ≤ s) (hn : (link h l).owedSlots = n + 1) (hd : n + 1 ≤ ds.length) :
    takeSlots l 1 s ds h
      = takeSlots l 1 (s + n + 1) (ds.drop (n + 1)) (deliverSlots l ((link h l).owed ++ (ds.take (n + 1)).flatten) h) := by
  have hb (s : Nat) (hs : 1 ≤ s) : Nat.testBit 1 s = false := by
    rw [Nat.testBit_eq_false_of_lt]; exact Nat.one_lt_two_pow (by omega)
  induction n generalizing s ds h with
  | zero =>
    obtain ⟨d, r, rfl⟩ := List.exists_cons_of_length_pos (show 0 < ds.length by omega)
    rw [takeSlots, if_pos (by simp [hn]), if_neg (by simp [hb s hs]), if_pos hn,
      show (List.take (0 + 1) (d :: r)).flatten = d by simp]
    rfl
  | succ n ih =>
    obtain ⟨d, r, rfl⟩ := List.exists_cons_of_length_pos (show 0 < ds.length by omega)
    rw [List.length_cons] at hd
    rw [takeSlots, if_pos (by simp [hn]), if_neg (by simp [hb s hs]), if_neg (by omega), ih (s + 1) r _ (by omega) (by simp [hn]) (by omega)]
    simp only [deliverSlots, setLink_setLink, link_setLink_same, List.append_assoc, List.drop_succ_cons, List.take_succ_cons, List.flatten_cons]
    rw [show s + 1 + n + 1 = s + (n + 1) + 1 by omega]
    rfl

/-- A link with one more message in its inbox. -/
def inboxLink (m : Msg) (k : Link) : Link := { k with inbox := k.inbox ++ [m] }

/-- A message accepted in this cycle: it takes the next number (R157). -/
def stampMsg (l : Nat) (m : Msg) (h : Hub) : Msg := { m with uid := h.nextId, at_ := h.now, adm := admitted h l m.pid m.stream }

/-- A link with a message accepted in this cycle in its inbox, and nothing owed. -/
def acceptMsg (l : Nat) (m : Msg) (h : Hub) : Hub :=
  setLink { h with nextId := h.nextId + 1 } l (fun k => inboxLink (stampMsg l m h) (oweLink [] 0 k))

/-- What a link's peer may send depends on the roles of LL7 and the link's revision. -/
theorem listedOp_congr {h h' : Hub} {l : Nat} (hp : (link h' 7).peerHub = (link h 7).peerHub) (hr : (link h' l).rev11 = (link h l).rev11) (op : Nat) :
    listedOp h' l op = listedOp h l op := by
  simp only [listedOp, isTwinLink, hp, hr]

/-- Admission depends on the partitions and the role of LL7. -/
theorem admitted_congr {h h' : Hub} (hp : (link h' 7).peerHub = (link h 7).peerHub) (hparts : h'.parts = h.parts) (l pid stream : Nat) :
    admitted h' l pid stream = admitted h l pid stream := by
  simp only [admitted, isTwinLink, part, hp, hparts]

theorem listedOp_setLink {f : Link → Link} (hp : ∀ k, (f k).peerHub = k.peerHub) (hr : ∀ k, (f k).rev11 = k.rev11) (h : Hub) (l j op : Nat) :
    listedOp (setLink h l f) j op = listedOp h j op :=
  listedOp_congr (link_setLink_keeps Link.peerHub hp h l 7) (link_setLink_keeps Link.rev11 hr h l j) op

theorem admitted_setLink {f : Link → Link} (hp : ∀ k, (f k).peerHub = k.peerHub) (h : Hub) (l j pid stream : Nat) :
    admitted (setLink h l f) j pid stream = admitted h j pid stream :=
  admitted_congr (link_setLink_keeps Link.peerHub hp h l 7) (setLink_parts h l f) j pid stream

/-- A listed message's delivery, whatever was owed before. -/
theorem deliverSlots_listed (l : Nat) (bytes : List Byte) (h : Hub) (m : Msg) (hm : readHeader (ofBytes (bytes.take 16)) (bytes.drop 16) = m)
    (hop : listedOp h l m.op = true) (hk : m.op ≠ 0xC3) : deliverSlots l bytes h = acceptMsg l m h := by
  have hop' : listedOp (setLink h l (oweLink [] 0)) l m.op = true :=  by
    rw [listedOp_setLink, hop] <;> exact fun _ => rfl
  have hadm : admitted (setLink h l (oweLink [] 0)) l m.pid m.stream = admitted h l m.pid m.stream := by
    rw [admitted_setLink]; exact fun _ => rfl
  rw [deliverSlots, hm, deliver, if_neg (by simp [hop']), if_neg (by simp [hk]), hadm]
  exact setLink_setLink { h with nextId := h.nextId + 1 } l (oweLink [] 0) (inboxLink (stampMsg l m h))

/-- What a link was owed plays no part in what its next message leaves. -/
theorem acceptMsg_setLink_owed (l : Nat) (m : Msg) (h : Hub) (d : List Byte) (n : Nat) :
    acceptMsg l m (setLink h l (oweLink d n)) = acceptMsg l m h := by
  have hadm : admitted (setLink h l (oweLink d n)) l m.pid m.stream = admitted h l m.pid m.stream := by
    rw [admitted_setLink]; exact fun _ => rfl
  rw [acceptMsg, stampMsg, hadm]
  exact setLink_setLink { h with nextId := h.nextId + 1 } l (oweLink d n) (fun k => inboxLink (stampMsg l m h) (oweLink [] 0 k))

/-- The first slot and the slots it announces make one message; what follows is free (R322). -/
theorem takeSlots_message (l : Nat) (d : List Byte) (ds : List (List Byte)) (h : Hub) (m : Msg) (hn : (link h l).owedSlots = 0)
    (hd : bits (ofBytes d) 12 8 ≤ ds.length)
    (hm : readHeader (ofBytes ((d ++ (ds.take (bits (ofBytes d) 12 8)).flatten).take 16)) ((d ++ (ds.take (bits (ofBytes d) 12 8)).flatten).drop 16) = m)
    (hop : listedOp h l m.op = true) (hk : m.op ≠ 0xC3) : takeSlots l 1 0 (d :: ds) h = some (acceptMsg l m h) := by
  have free (s : Nat) (ds : List (List Byte)) (hs : 1 ≤ s) (h' : Hub) : takeSlots l 1 s ds (acceptMsg l m h') = some (acceptMsg l m h') :=
    takeSlots_free l s ds _ hs (by rw [acceptMsg, link_setLink_same]; rfl)
  cases hb : bits (ofBytes d) 12 8 with
  | zero =>
    rw [hb] at hm
    have hdel := deliverSlots_listed l d h m (by simpa using hm) hop hk
    rw [takeSlots, if_neg (by simp [hn]), if_pos (by decide), if_pos hb]
    exact (congrArg (takeSlots l 1 1 ds) hdel).trans (free 1 ds le_rfl h)
  | succ n =>
    rw [hb] at hm hd
    rw [takeSlots, if_neg (by simp [hn]), if_pos (by decide), if_neg (by omega), hb, takeSlots_owed l n 1 ds _ le_rfl (by simp) hd,
      deliverSlots_listed l _ _ m (by simpa using hm) _ hk, free _ _ (by omega)]
    · exact congrArg some (acceptMsg_setLink_owed l m h d (n + 1))
    · rw [listedOp_setLink, hop] <;> exact fun _ => rfl

/-! ### A payload flit in sequence -/

/-- With nothing outstanding an acknowledgement leaves only its credit (R324, R327). -/
theorem takeAck_nothingSent (l a : Nat) (h : Hub) (hr : (link h l).replay = []) :
    takeAck l a h = setLink h l (fun k => { k with crIn := k.crIn.set (bits a 13 11) (bits a 21 14) }) := by
  simp [takeAck, hr]

/-- The slots of a flit (R322). -/
def flitSlots (f : List Byte) : List (List Byte) := (List.range 15).map (fun s => slice f (4 + 16 * s) 16)

/-- A link after it took in the credit and the place of a payload flit in sequence with `n` data bytes. -/
def takeFlit (a n : Nat) (k : Link) : Link :=
  { k with crIn := k.crIn.set (bits a 13 11) (bits a 21 14), rxSeq := (k.rxSeq + 1) % 1024, nak := false, rxBytes := k.rxBytes + n }

/-- A payload flit in sequence with a good CRC has its slots taken in, behind its acknowledgement and the count of its data (R321 to R323, R374). -/
theorem effFlitReceived_payload (l : Nat) (f : List Byte) (h : Hub) (hup : (link h l).st = .up) (hr : (link h l).replay = [])
    (hlen : f.length = 256) (hcrc : crc64 (f.take 244 ++ f.drop 252) = ofBytes (slice f 244 8).reverse)
    (htype : bits (ofBytes (f.take 4)) 11 10 = 0) (hseq : bits (ofBytes (f.take 4)) 9 0 = ((link h l).rxSeq + 1) % 1024) :
    ∃ n h', effFlitReceived l f h = takeSlots l (bits (ofBytes (f.take 4)) 26 12) 0 (flitSlots f) h'
      ∧ (h' = setLink h l (takeFlit (ofBytes (f.drop 252)) n)
        ∨ h' = pmu 0x1E (dieOfLink l) n { port := some l } (setLink h l (takeFlit (ofBytes (f.drop 252)) n))) := by
  have keep (n : Nat) : setLink (setLink h l (fun k => { k with crIn := k.crIn.set (bits (ofBytes (f.drop 252)) 13 11) (bits (ofBytes (f.drop 252)) 21 14) })) l
      (fun k => { k with rxSeq := bits (ofBytes (f.take 4)) 9 0, nak := false, rxBytes := k.rxBytes + n })
      = setLink h l (takeFlit (ofBytes (f.drop 252)) n) := by
    rw [setLink_setLink, setLink, setLink, bupd, bupd, hseq]; rfl
  rw [effFlitReceived, hup]
  dsimp only
  rw [if_neg (by simp [hlen, hcrc]), if_neg (by simp [hseq]), if_neg (by simp [htype]), takeAck_nothingSent l _ h hr, keep]
  generalize 16 * countData _ _ _ _ = n
  refine ⟨n, _, rfl, ?_⟩
  split
  · exact .inl rfl
  · exact .inr rfl

/-! ### The slots of one message in a flit -/

/-- Consecutive slots joined. -/
theorem flatten_slots (l : List Byte) (n : Nat) : ((List.range n).map (fun s => slice l (16 * s) 16)).flatten = l.take (16 * n) := by
  induction n with
  | zero => simp
  | succ n ih => rw [List.range_succ, List.map_append, List.flatten_append, ih, Nat.mul_succ, List.take_add]; simp [slice]

/-- The slots of a flit, from its body's slots. -/
theorem flitSlots_wholeFlit (seq ftype hdr ack : Nat) (sb : List Byte) :
    flitSlots (wholeFlit (flitBody seq ftype hdr sb) ack) = (List.range 15).map (fun s => slice (fitBytes 240 sb) (16 * s) 16) := by
  refine List.map_congr_left fun s hs => ?_
  rw [List.mem_range] at hs
  rw [wholeFlit_slice _ ack (flitBody_length ..) (by omega), slice_flitBody]

theorem take_fitBytes {n k : Nat} {l : List Byte} (hk : l.length = k) (hkn : k ≤ n) : (fitBytes n l).take k = l := by
  subst hk; simp [fitBytes, List.take_take, Nat.min_eq_left hkn]

section Message

variable {op : Nat} (r : ReqHdr) (d : List Byte) (hop : op < 64) (h16 : d.length % 16 = 0) (hd : d.length ≤ 16 * 14)

include hop hd

theorem header_reqMsg_lt : (reqMsg op r d).header < 256 ^ 16 := by
  have hs : (reqMsg op r d).dslots < 32 := dslots_le _ (hd.trans (by decide))
  have := r.cls.isLt; have := r.pid.isLt; have := r.stream.isLt; have := r.tag.isLt; have := r.addr.isLt
  have := r.len.isLt; have := r.hway.isLt; have := r.sub.isLt; have := b2n_lt r.vc
  rw [header_reqMsg r d hop (hd.trans (by decide))]
  omega

theorem bits_header_dslots : bits (reqMsg op r d).header 12 8 = (reqMsg op r d).dslots := by
  have hs : (reqMsg op r d).dslots < 32 := dslots_le _ (hd.trans (by decide))
  rw [header_reqMsg r d hop (hd.trans (by decide)), bits_eq_div_mod]
  omega

include h16

omit hop h16 hd in
theorem slotBytes_length : (reqMsg op r d).slotBytes.length = 16 * ((reqMsg op r d).dslots + 1) := by
  simp [Msg.slotBytes]; omega

/-- A request read back from its slots. -/
theorem readHeader_slotBytes :
    readHeader (ofBytes ((reqMsg op r d).slotBytes.take 16)) ((reqMsg op r d).slotBytes.drop 16) = reqMsg op r d := by
  have hdat : fitBytes (16 * (reqMsg op r d).dslots) d = d := fitBytes_of_length (dslots_mul (reqMsg op r d) h16).symm
  rw [Msg.slotBytes, List.take_left' (toBytes_length ..), List.drop_left' (toBytes_length ..),
    ofBytes_toBytes_of_lt (header_reqMsg_lt r d hop hd)]
  exact (congrArg _ hdat).trans (readHeader_reqMsg r d hop (hd.trans (by decide)))

/-- The slots of a flit that carries one request leave it accepted in the link's inbox. -/
theorem takeSlots_reqMsg (l seq ack : Nat) (h : Hub) (hn : (link h l).owedSlots = 0) (hl : listedOp h l op = true) :
    takeSlots l 1 0 (flitSlots (wholeFlit (flitBody seq 0 1 (reqMsg op r d).slotBytes) ack)) h = some (acceptMsg l (reqMsg op r d) h) := by
  have hlen := slotBytes_length r d (op := op)
  have hds : (reqMsg op r d).dslots ≤ 14 := by have := dslots_mul (reqMsg op r d) h16; simp only [reqMsg] at this ⊢; omega
  have hsplit : (List.range 15).map (fun s => slice (fitBytes 240 (reqMsg op r d).slotBytes) (16 * s) 16)
      = slice (fitBytes 240 (reqMsg op r d).slotBytes) 0 16 :: (List.range 14).map (fun s => slice (fitBytes 240 (reqMsg op r d).slotBytes) (16 * (s + 1)) 16) := rfl
  have hjoin (n : Nat) (hnn : n ≤ 14) : slice (fitBytes 240 (reqMsg op r d).slotBytes) 0 16
        ++ (((List.range 14).map (fun s => slice (fitBytes 240 (reqMsg op r d).slotBytes) (16 * (s + 1)) 16)).take n).flatten
      = (fitBytes 240 (reqMsg op r d).slotBytes).take (16 * (n + 1)) := by
    rw [← flatten_slots, ← List.map_take, List.take_range, Nat.min_eq_left hnn, List.range_succ_eq_map]
    simp [List.map_map, Function.comp_def]
  have hfirst : ofBytes (slice (fitBytes 240 (reqMsg op r d).slotBytes) 0 16) = (reqMsg op r d).header := by
    have ht : slice (fitBytes 240 (reqMsg op r d).slotBytes) 0 16 = toBytes 16 (reqMsg op r d).header := by
      simp only [slice, fitBytes, List.drop_zero, List.take_take, Msg.slotBytes, List.append_assoc]
      exact List.take_left' (toBytes_length ..)
    rw [ht, ofBytes_toBytes_of_lt (header_reqMsg_lt r d hop hd)]
  rw [flitSlots_wholeFlit, hsplit]
  refine takeSlots_message l _ _ h _ hn ?_ ?_ hl (by simp only [reqMsg]; omega)
  · rw [hfirst, bits_header_dslots r d hop hd]; simpa using hds
  · rw [hfirst, bits_header_dslots r d hop hd, hjoin _ hds, take_fitBytes hlen (by omega)]
    exact readHeader_slotBytes r d hop h16 hd

end Message

end Sys2Proof.Machine

namespace Sys2Proof.Machine.Slice0

/-- Settles O16: the flit's bytes by their places, its one message taken in slot by slot. -/
theorem flitCarriesARequest : Obligations.FlitCarriesARequest := by
  intro h q l op ack r d hup hr hn hop hl h16 hd hack
  have hack4 : ack < 256 ^ 4 := by omega
  generalize hf : wholeFlit (flitBody ((link h l.toNat).rxSeq + 1) 0 1 (reqMsg op r d).slotBytes) ack = f
  have hb : (flitBody ((link h l.toNat).rxSeq + 1) 0 1 (reqMsg op r d).slotBytes).length = 244 := flitBody_length ..
  have hhead : ofBytes (f.take 4) = ((link h l.toNat).rxSeq + 1) % 1024 + 2 ^ 12 := by
    rw [← hf, wholeFlit_head _ _ _ _ _ (by decide) (by decide)]; omega
  have ha : ofBytes (f.drop 252) = ack := by rw [← hf, wholeFlit_ack _ _ hb, ofBytes_toBytes_of_lt hack4]
  obtain ⟨n, h', heff, hh'⟩ := effFlitReceived_payload l.toNat f h hup hr (hf ▸ wholeFlit_length _ _ hb) (hf ▸ wholeFlit_crcGood _ _ hb)
    (by rw [hhead, bits_eq_div_mod]; omega) (by rw [hhead, bits_eq_div_mod]; omega)
  rw [ha] at hh'
  have hq : QueuesOnly (setLink h l.toNat (takeFlit ack n)) h' := by
    rcases hh' with rfl | rfl
    · exact .refl _
    · exact pmu_queues 0x1E (dieOfLink l.toNat) n { port := some l.toNat } _
  have hkeep : h'.nextId = h.nextId ∧ h'.now = h.now ∧ h'.parts = h.parts ∧ h'.mem = h.mem ∧ h'.sieve = h.sieve ∧ h'.txns = h.txns := by
    rcases hh' with rfl | rfl <;> simp
  obtain ⟨hid, hnow, hparts, hmem, hsieve, htxns⟩ := hkeep
  obtain ⟨q', hlink⟩ := hq l.toNat
  obtain ⟨q7, hlink7⟩ := hq 7
  rw [link_setLink_same] at hlink
  have hpeer : (link h' 7).peerHub = (link h 7).peerHub := by
    rw [hlink7]; exact link_setLink_keeps Link.peerHub (f := takeFlit ack n) (fun _ => rfl) h l.toNat 7
  have hadm := admitted_congr hpeer hparts l.toNat r.pid.toNat r.stream.toNat
  have hlisted : listedOp h' l.toNat op = true := by
    rw [listedOp_congr hpeer (by rw [hlink]; rfl), hl]
  have htake : takeSlots l.toNat 1 0 (flitSlots f) h' = some (acceptMsg l.toNat (reqMsg op r d) h') := by
    rw [← hf]; exact takeSlots_reqMsg r d hop h16 hd l.toNat _ ack h' (by rw [hlink]; exact hn) hlisted
  have hbit : bits (ofBytes (f.take 4)) 26 12 = 1 := by rw [hhead, bits_eq_div_mod]; omega
  have hfinal : link (acceptMsg l.toNat (reqMsg op r d) h') l.toNat
      = inboxLink (stampMsg l.toNat (reqMsg op r d) h') (oweLink [] 0 { takeFlit ack n (link h l.toNat) with q := q' }) := by
    rw [← hlink]; exact link_setLink_same _ _ _
  have hstamp : stampMsg l.toNat (reqMsg op r d) h'
      = { reqMsg op r d with uid := h.nextId, at_ := h.now, adm := admitted h l.toNat r.pid.toNat r.stream.toNat } := by
    rw [stampMsg, hid, hnow, ← hadm]; rfl
  refine ⟨acceptMsg l.toNat (reqMsg op r d) h', ?_, ?_, ?_, ?_, ?_, hmem, hsieve, htxns⟩
  · show liftFlit (effFlitReceived l.toNat f) ⟨h, q⟩ = _
    rw [liftFlit, heff, hbit, htake]
  · rw [hfinal, hstamp]; rfl
  all_goals rw [hfinal]; rfl

end Sys2Proof.Machine.Slice0

/-! What reporting changes (R261 to R264, R355 to R363): some register words, counts of records by TYPE, PMU counters, Colanders, queues of messages
and interrupt outputs, and nothing else of the hub. -/

namespace Sys2Proof.Machine

/-! ### Words of other registers -/

theorem regKey_mod (r : RegRow) {die off : Nat} : regKey r die off % 0x100000 = off % 0x100000 := by
  unfold regKey; split <;> omega

/-- A write of one word leaves the words at other offsets. -/
theorem regGet_regPut_ne (h : Hub) (die off v die' : Nat) {off' : Nat} (hne : off' % 0x100000 ≠ off % 0x100000) :
    regGet (regPut h die off v) die' off' = regGet h die' off' := by
  refine regGet_regPut_other h die off v die' off' fun r r' _ _ hk => hne ?_
  exact (regKey_mod r').symm.trans ((congrArg (· % 0x100000) hk).trans (regKey_mod r))

theorem regGet_regSetField_ne (h : Hub) (die off hi lo x die' : Nat) {off' : Nat} (hne : off' % 0x100000 ≠ off % 0x100000) :
    regGet (regSetField h die off hi lo x) die' off' = regGet h die' off' := regGet_regPut_ne _ _ _ _ _ hne

/-- Registers that both windows do not share have a word for each die. -/
theorem regGet_regPut_die (h : Hub) {die off die' : Nat} (v : Nat) {r : RegRow} (hr : findRow off = some r) (hp : r.pkg = false) (hd : die' ≠ die) :
    regGet (regPut h die off v) die' off = regGet h die' off := by
  refine regGet_regPut_other h die off v die' off fun a b ha hb hk => hd ?_
  rw [hr] at ha hb
  cases ha; cases hb
  simp only [regKey, hp, Bool.false_eq_true, if_false] at hk
  omega

/-- Where the register words did not change, no register did. -/
theorem regGet_of_regs_eq {h t : Hub} (hregs : t.regs = h.regs) (die off : Nat) : regGet t die off = regGet h die off := by
  rw [regGet, regGet, hregs]

/-- The words at offsets outside a list are the same. -/
def WordsKept (offs : List Nat) (h h' : Hub) : Prop := ∀ die off, off % 0x100000 ∉ offs → regGet h' die off = regGet h die off

theorem WordsKept.of_regs {offs : List Nat} {h h' : Hub} (hregs : h'.regs = h.regs) : WordsKept offs h h' :=
  fun die off _ => regGet_of_regs_eq hregs die off

theorem WordsKept.trans {offs : List Nat} {a b c : Hub} (h1 : WordsKept offs a b) (h2 : WordsKept offs b c) : WordsKept offs a c :=
  fun die off ho => (h2 die off ho).trans (h1 die off ho)

theorem WordsKept.mono {s t : List Nat} {h h' : Hub} (hk : WordsKept s h h') (hst : s ⊆ t) : WordsKept t h h' :=
  fun die off ho => hk die off (fun hs => ho (hst hs))

theorem WordsKept.field {offs : List Nat} {h h' : Hub} (hk : WordsKept offs h h') (die off hi lo : Nat) (ho : off % 0x100000 ∉ offs) :
    regField h' die off hi lo = regField h die off hi lo := by rw [regField, regField, hk die off ho]

theorem wordsKept_regSetField {offs : List Nat} (h : Hub) (die off hi lo x : Nat) (ho : off % 0x100000 ∈ offs) :
    WordsKept offs h (regSetField h die off hi lo x) :=
  fun _ _ hn => regGet_regSetField_ne _ _ _ _ _ _ _ (fun he => hn (he ▸ ho))

/-! ### Reports -/

/-- Offsets of the words that reports write: CB_ERR, INT_STAT, KET_STAT's neighbour LED_STAT, PMU_CTL and PMU_OVF. -/
def reportOffs : List Nat := [0x20, 0x4480, 0x4804, 0x4900, 0x4958]

/-- What is left when the hub has reported something. -/
structure Reports (h h' : Hub) : Prop where
  queues : QueuesOnly h h'
  words : WordsKept reportOffs h h'
  rest : ∃ regs pmu col links pins typeNew sev3,
    h' = { h with regs := regs, pmu := pmu, col := col, links := links, life := { h.life with intN := pins },
                  led := { h.led with typeNew := typeNew, sev3 := sev3 } }

namespace Reports

theorem refl (h : Hub) : Reports h h := ⟨.refl h, .of_regs rfl, h.regs, h.pmu, h.col, h.links, h.life.intN, h.led.typeNew, h.led.sev3, rfl⟩

theorem trans {a b c : Hub} (h1 : Reports a b) (h2 : Reports b c) : Reports a c := by
  refine ⟨h1.queues.trans h2.queues, h1.words.trans h2.words, ?_⟩
  obtain ⟨_, _, _, _, _, _, _, rfl⟩ := h1.rest
  obtain ⟨r, p, k, l, i, t, s, rfl⟩ := h2.rest
  exact ⟨r, p, k, l, i, t, s, rfl⟩

theorem ite {c : Prop} [Decidable c] {h a b : Hub} (ha : Reports h a) (hb : Reports h b) : Reports h (if c then a else b) := by
  split <;> assumption

theorem forEach {α : Type} (f : α → Hub → Hub) (hf : ∀ x h, Reports h (f x h)) (l : List α) (h : Hub) : Reports h (forEach l f h) := by
  induction l generalizing h with
  | nil => exact refl h
  | cons x r ih => exact (hf x h).trans (ih _)

theorem of_regSetField (h : Hub) (die off hi lo x : Nat) (ho : off % 0x100000 ∈ reportOffs) : Reports h (regSetField h die off hi lo x) := by
  refine ⟨.of_links (by simp), wordsKept_regSetField _ _ _ _ _ _ ho, ?_⟩
  unfold regSetField regPut
  split
  · exact (refl h).rest
  · exact ⟨_, h.pmu, h.col, h.links, h.life.intN, h.led.typeNew, h.led.sev3, rfl⟩

theorem of_pmu (h : Hub) (p : Bank Pmu) : Reports h { h with pmu := p } :=
  ⟨.of_links rfl, .of_regs rfl, h.regs, p, h.col, h.links, h.life.intN, h.led.typeNew, h.led.sev3, rfl⟩

theorem of_col (h : Hub) (c : Bank Col) : Reports h { h with col := c } :=
  ⟨.of_links rfl, .of_regs rfl, h.regs, h.pmu, c, h.links, h.life.intN, h.led.typeNew, h.led.sev3, rfl⟩

theorem of_led (h : Hub) (t : Bank Nat) (s : List (BitVec 128)) : Reports h { h with led := { h.led with typeNew := t, sev3 := s } } :=
  ⟨.of_links rfl, .of_regs rfl, h.regs, h.pmu, h.col, h.links, h.life.intN, t, s, rfl⟩

theorem of_sendMsg (l : Nat) (m : Msg) (h : Hub) : Reports h (sendMsg l m h) := by
  refine ⟨sendMsg_queues l m h, .of_regs (sendMsg_regs l m h), ?_⟩
  unfold sendMsg
  split
  · exact ⟨h.regs, h.pmu, h.col, _, h.life.intN, h.led.typeNew, h.led.sev3, rfl⟩
  · exact (refl h).rest

theorem of_sendIntr (m : Nat) (h : Hub) : Reports h (sendIntr m h) := .ite (of_sendMsg ..) (refl h)

theorem of_setIntPins (h : Hub) : Reports h (setIntPins h) :=
  ⟨.of_links rfl, .of_regs rfl, h.regs, h.pmu, h.col, h.links, intPins h, h.led.typeNew, h.led.sev3, rfl⟩

theorem of_raiseCause (b : Nat) (h : Hub) : Reports h (raiseCause b h) :=
  .ite (refl h) (((of_regSetField h 0 0x4480 b b 1 (by decide)).trans
    (.ite (of_sendIntr ..) (.forEach _ of_sendIntr _ _))).trans (of_setIntPins _))

theorem of_raiseEvt (die : Nat) (h : Hub) : Reports h (raiseEvt die h) := of_raiseCause ..

theorem of_countType (typ : Nat) (h : Hub) : Reports h (countType typ h) := of_led h _ h.led.sev3

theorem of_colGap (die : Nat) (h : Hub) : Reports h (colGap die h) := .ite ((of_col h _).trans (of_countType ..)) (refl h)

theorem of_offerRecord (die sev blk typ : Nat) (r : BitVec 128) (h : Hub) : Reports h (offerRecord die sev blk typ r h) := by
  have enter (h : Hub) : Reports h (if sev = 3 then { h with led := { h.led with sev3 := (h.led.sev3 ++ [r]).drop ((h.led.sev3.length + 1) - 256) } } else h) :=
    .ite (of_led h h.led.typeNew _) (refl h)
  have cberr (h : Hub) : Reports h (if sev ≥ 2 then regSetField h die 0x20 blk blk 1 else h) :=
    .ite (of_regSetField h die 0x20 blk blk 1 (by decide)) (refl h)
  exact ((((of_countType typ h).trans (of_colGap die _)).trans (cberr _)).trans (enter _)).trans (of_col _ _)

theorem of_recordInj (typ sev blk die pid : Nat) (inj : Bool) (payload : Nat) (h : Hub) : Reports h (recordInj typ sev blk die pid inj payload h) :=
  of_offerRecord ..

theorem of_record (typ sev blk die pid payload : Nat) (h : Hub) : Reports h (record typ sev blk die pid payload h) := of_recordInj ..

theorem of_pmuOverflow (die b : Nat) (h : Hub) : Reports h (pmuOverflow die b h) := by
  have freeze (h : Hub) : Reports h (if bitOf (regGet h die 0x4900) 30 && !(bitOf (regGet h die 0x4900) 31) then
      regSetField { h with pmu := bupd h.pmu die {} (fun p => { p with frzAt := h.now + 1 }) } die 0x4900 31 31 1 else h) :=
    .ite ((of_pmu h _).trans (of_regSetField _ die 0x4900 31 31 1 (by decide))) (refl h)
  exact ((of_regSetField h die 0x4958 b b 1 (by decide)).trans (freeze _)).trans (.ite (of_raiseEvt ..) (refl _))

theorem of_pmuAdd (die n x : Nat) (h : Hub) : Reports h (pmuAdd die n x h) :=
  .ite ((of_pmu h _).trans (of_pmuOverflow ..)) (of_pmu h _)

theorem of_pmuEvent (ev die x : Nat) (a : Attr) (h : Hub) : Reports h (pmu ev die x a h) := by
  refine .forEach _ (fun n h => ?_) _ h
  split
  · exact refl h
  · exact .ite (of_pmuAdd ..) (refl h)

section Fields

variable {h h' : Hub} (e : Reports h h')

include e

theorem now : h'.now = h.now := by obtain ⟨_, _, _, _, _, _, _, rfl⟩ := e.rest; rfl
theorem mem : h'.mem = h.mem := by obtain ⟨_, _, _, _, _, _, _, rfl⟩ := e.rest; rfl
theorem rmap : h'.rmap = h.rmap := by obtain ⟨_, _, _, _, _, _, _, rfl⟩ := e.rest; rfl
theorem parts : h'.parts = h.parts := by obtain ⟨_, _, _, _, _, _, _, rfl⟩ := e.rest; rfl
theorem mgrs : h'.mgrs = h.mgrs := by obtain ⟨_, _, _, _, _, _, _, rfl⟩ := e.rest; rfl
theorem sieve : h'.sieve = h.sieve := by obtain ⟨_, _, _, _, _, _, _, rfl⟩ := e.rest; rfl
theorem txns : h'.txns = h.txns := by obtain ⟨_, _, _, _, _, _, _, rfl⟩ := e.rest; rfl
theorem mons : h'.mons = h.mons := by obtain ⟨_, _, _, _, _, _, _, rfl⟩ := e.rest; rfl
theorem fs : h'.fs = h.fs := by obtain ⟨_, _, _, _, _, _, _, rfl⟩ := e.rest; rfl
theorem life : ∃ pins, h'.life = { h.life with intN := pins } := by obtain ⟨_, _, _, _, i, _, _, rfl⟩ := e.rest; exact ⟨i, rfl⟩
theorem led : ∃ t s, h'.led = { h.led with typeNew := t, sev3 := s } := by obtain ⟨_, _, _, _, _, t, s, rfl⟩ := e.rest; exact ⟨t, s, rfl⟩

end Fields

end Reports

/-! ### The Ledger's writes -/

/-- A verified Ledger write counts in its record's slots (R348); one that fails is reported (R350). -/
theorem ledgerWrite_cases (rec : Nat) (h : Hub) :
    (∃ recs, ledgerWrite rec h = (true, { h with led := { h.led with recs := recs } })) ∨ ∃ h', ledgerWrite rec h = (false, h') ∧ Reports h h' := by
  unfold ledgerWrite
  split
  · exact .inr ⟨_, rfl, ((Reports.of_record ..).trans (.of_raiseEvt ..)).trans (.of_regSetField _ 0 0x4804 15 8 _ (by decide))⟩
  · exact .inl ⟨_, rfl⟩

/-- A Ledger write leaves its change, or a report of its failure. -/
theorem ledgerPut_cases (rec : Nat) (f : Ledger → Ledger) (h : Hub) :
    (∃ recs, ledgerPut rec f h = { h with led := f { h.led with recs := recs } }) ∨ Reports h (ledgerPut rec f h) := by
  rcases ledgerWrite_cases rec h with ⟨recs, e⟩ | ⟨h', e, hr⟩
  · exact .inl ⟨recs, by simp only [ledgerPut, e, if_true]⟩
  · exact .inr (by simp only [ledgerPut, e]; exact hr)

end Sys2Proof.Machine

/-! Phases of the package (R394 to R413): what resets, boots and the end of a park leave. -/

namespace Sys2Proof.Machine

/-! ### The boot's counters (R274, R400) -/

/-- One manager's last accepted counter at a boot: 4,096 above its floor, and 2^63 where the floor cannot be read. -/
def bootCtr (h : Hub) (m : Nat) : Nat := if h.led.bad.contains m then 2 ^ 63 else bget h.led.floor m 0 + 4096

/-- One manager's step of the boot's counters. -/
def bootCounter (m : Nat) (h : Hub) : Hub :=
  ledgerPut m (fun l => { l with floor := bset l.floor m (bootCtr h m), bad := l.bad.filter (· != m) }) (setMgr h m (fun r => { r with lastCtr := bootCtr h m }))

theorem bootCounters_eq (h : Hub) : bootCounters h = forEach [0, 1, 2, 3] bootCounter h := rfl

@[simp] theorem mgr_setMgr_same (h : Hub) (m : Nat) (f : Mgr → Mgr) : mgr (setMgr h m f) m = f (mgr h m) := by simp [mgr, setMgr]

theorem mgr_setMgr_other (h : Hub) (m k : Nat) (f : Mgr → Mgr) (hk : k ≠ m) : mgr (setMgr h m f) k = mgr h k := by
  simp [mgr, setMgr, bget_bupd_other _ _ _ _ _ hk]

theorem ledgerPut_mgrs (rec : Nat) (f : Ledger → Ledger) (h : Hub) : (ledgerPut rec f h).mgrs = h.mgrs := by
  rcases ledgerPut_cases rec f h with ⟨_, e⟩ | e
  · rw [e]
  · exact e.mgrs

theorem bootCounter_lastCtr (m k : Nat) (h : Hub) :
    (mgr (bootCounter m h) k).lastCtr = if k = m then bootCtr h m else (mgr h k).lastCtr := by
  have hm : mgr (bootCounter m h) k = mgr (setMgr h m (fun r => { r with lastCtr := bootCtr h m })) k := by
    rw [mgr, mgr, bootCounter, ledgerPut_mgrs]
  rw [hm]
  split
  · next hk => rw [hk, mgr_setMgr_same]
  · next hk => rw [mgr_setMgr_other _ _ _ _ hk]

/-- The counter of one manager is no other's. -/
theorem bootCtr_bootCounter_other (m k : Nat) (h : Hub) (hk : k ≠ m) : bootCtr (bootCounter m h) k = bootCtr h k := by
  unfold bootCounter
  generalize bootCtr h m = f
  rcases ledgerPut_cases m (fun l => { l with floor := bset l.floor m f, bad := l.bad.filter (· != m) }) (setMgr h m (fun r => { r with lastCtr := f }))
    with ⟨recs, e⟩ | e
  · rw [e]
    simp [bootCtr, bget_bset_other _ _ _ _ _ hk, hk]
  · obtain ⟨t, s, hled⟩ := e.led
    rw [bootCtr, hled]; rfl

theorem bootCounters_lastCtr (h : Hub) {m : Nat} (hm : m < 4) : (mgr (bootCounters h) m).lastCtr = bootCtr h m := by
  rw [bootCounters_eq]
  simp only [forEach_cons, forEach_nil, bootCounter_lastCtr]
  rcases (by omega : m = 0 ∨ m = 1 ∨ m = 2 ∨ m = 3) with rfl | rfl | rfl | rfl <;> simp [bootCtr_bootCounter_other]

/-! ### The rest of a boot (R394, R346) -/

/-- What the steps of a boot share: they keep the memories and the region map, write only words of reports and of CB_TEMP, and of the life-cycle state
only the outputs and the doubt about the population. -/
structure Boots (h h' : Hub) : Prop where
  words : WordsKept (0x2C :: reportOffs) h h'
  mem : h'.mem = h.mem
  rmap : h'.rmap = h.rmap
  life : ∃ pins mismatch hot, h'.life = { h.life with intN := pins, mismatch := mismatch, thermN := hot }

namespace Boots

theorem trans {a b c : Hub} (h1 : Boots a b) (h2 : Boots b c) : Boots a c := by
  obtain ⟨_, _, _, e1⟩ := h1.life
  obtain ⟨p, m, t, e2⟩ := h2.life
  exact ⟨h1.words.trans h2.words, h2.mem.trans h1.mem, h2.rmap.trans h1.rmap, p, m, t, by rw [e2, e1]⟩

theorem of_eqs (h h' : Hub) (hr : h'.regs = h.regs) (hm : h'.mem = h.mem) (hmap : h'.rmap = h.rmap) (hl : h'.life = h.life) : Boots h h' :=
  ⟨.of_regs hr, hm, hmap, h.life.intN, h.life.mismatch, h.life.thermN, hl⟩

theorem refl (h : Hub) : Boots h h := of_eqs h h rfl rfl rfl rfl

theorem forEach {α : Type} (f : α → Hub → Hub) (hf : ∀ x h, Boots h (f x h)) (l : List α) (h : Hub) : Boots h (forEach l f h) := by
  induction l generalizing h with
  | nil => exact refl h
  | cons x r ih => exact (hf x h).trans (ih _)

theorem of_reports {h h' : Hub} (e : Reports h h') : Boots h h' := by
  obtain ⟨p, hl⟩ := e.life
  exact ⟨e.words.mono (List.subset_cons_self ..), e.mem, e.rmap, p, h.life.mismatch, h.life.thermN, hl⟩

theorem of_ledgerPut (rec : Nat) (f : Ledger → Ledger) (h : Hub) : Boots h (ledgerPut rec f h) := by
  rcases ledgerPut_cases rec f h with ⟨_, e⟩ | e
  · rw [e]; exact of_eqs h _ rfl rfl rfl rfl
  · exact of_reports e

theorem of_bootCounters (h : Hub) : Boots h (bootCounters h) := by
  have step (m : Nat) (h : Hub) : Boots h (bootCounter m h) :=
    (of_eqs h (setMgr h m (fun r => { r with lastCtr := bootCtr h m })) rfl rfl rfl rfl).trans (of_ledgerPut ..)
  rw [bootCounters_eq]
  exact forEach bootCounter step _ h

theorem of_bootBadRecords (h : Hub) : Boots h (bootBadRecords h) := by
  rw [bootBadRecords]
  have reported := forEach (fun r h => record 0x71 3 11 0 0 r h) (fun _ _ => of_reports (.of_record ..)) h.led.bad h
  generalize Machine.forEach h.led.bad (fun r h => record 0x71 3 11 0 0 r h) h = h1 at reported ⊢
  exact reported.trans (of_eqs h1 _ rfl rfl rfl rfl)

theorem of_bootPop (h : Hub) : Boots h (bootPop h) := by
  have doubt (b : Bool) : Boots h (setLife (fun l => { l with mismatch := b }) h) := ⟨.of_regs rfl, rfl, rfl, h.life.intN, b, h.life.thermN, rfl⟩
  unfold bootPop
  split
  · exact doubt true
  · split
    · exact of_ledgerPut ..
    · exact doubt _

theorem of_checkTherm (h : Hub) : Boots h (checkTherm h) := by
  have set (d : Nat) (h : Hub) : Boots h (if isHot h d then regSetField h d 0x2C 31 31 1 else h) := by
    split
    · exact ⟨wordsKept_regSetField _ _ _ _ _ _ (by decide), by simp, by simp, h.life.intN, h.life.mismatch, h.life.thermN, by simp⟩
    · exact refl h
  have hot (b : Bool) (h : Hub) : Boots h (setLife (fun l => { l with thermN := b }) h) :=
    ⟨.of_regs rfl, rfl, rfl, h.life.intN, h.life.mismatch, b, rfl⟩
  exact (forEach _ set [0, 1] h).trans (hot _ _)

end Boots

/-- The failed resources shown as the Ledger has them. -/
def showFailed (h : Hub) : Hub := { h with integ := { h.integ with failed := h.led.failed, posD10 := h.led.posD10 } }

/-- A boot's steps behind its Kettle (R394, R425). -/
theorem boots_end (h : Hub) : Boots h (powerEvent 0 (checkTherm (showFailed h))) :=
  ((Boots.of_eqs h (showFailed h) rfl rfl rfl rfl).trans (.of_checkTherm _)).trans (.of_ledgerPut 0x90 _ _)

/-- The phase, straps and causes that PWR_GOOD sets before its steps. -/
def strapped (a b : Bool) (p : Nat) (h : Hub) : Hub :=
  setLife (fun l => { l with phase := .boot, resetLow := false, hubId := a, bootSel := b, arrayPop := p, lastRst := [(0, 0), (1, 0)] }) h

theorem effPwrGood_low (a b : Bool) (p : Nat) (h : Hub) (hlow : h.life.resetLow = true) :
    effPwrGood a b p h = powerEvent 0 (checkTherm (showFailed (bootKettle (bootPop (bootBadRecords (bootCounters (strapped a b p h))))))) := by
  rw [effPwrGood, if_neg (by simp [hlow])]
  extract_lets h1 h2
  exact (rfl : powerEvent 0 (checkTherm (showFailed h2)) = _)

theorem effPwrGood_high (a b : Bool) (p : Nat) (h : Hub) (hhigh : h.life.resetLow = false) : effPwrGood a b p h = h := by
  rw [effPwrGood, if_pos (by simp [hhigh])]

/-- Behind the boot's counters no step changes a manager. -/
theorem bootSteps_mgrs (h : Hub) : (powerEvent 0 (checkTherm (showFailed (bootKettle (bootPop (bootBadRecords h)))))).mgrs = h.mgrs := by
  have therm (h : Hub) : (checkTherm h).mgrs = h.mgrs := by
    have kept := forEach_keeps Hub.mgrs (fun d h => if isHot h d then regSetField h d 0x2C 31 31 1 else h)
      (fun d h => ite_keeps Hub.mgrs (regSetField_mgrs h d 0x2C 31 31 1) rfl) [0, 1] h
    rw [checkTherm]
    generalize forEach [0, 1] (fun d h => if isHot h d then regSetField h d 0x2C 31 31 1 else h) h = h1 at kept ⊢
    exact kept
  have kettle (h : Hub) : (bootKettle h).mgrs = h.mgrs := by
    unfold bootKettle
    split
    · rw [regSetField_mgrs, regSetField_mgrs]; rfl
    · rfl
  have pop (h : Hub) : (bootPop h).mgrs = h.mgrs := by
    unfold bootPop
    split
    · rfl
    · split
      · exact ledgerPut_mgrs ..
      · rfl
  have records (h : Hub) : (bootBadRecords h).mgrs = h.mgrs := by
    rw [bootBadRecords]
    exact forEach_keeps Hub.mgrs _ (fun _ _ => record_mgrs ..) h.led.bad h
  have failed (h : Hub) : (showFailed h).mgrs = h.mgrs := rfl
  rw [powerEvent, ledgerPut_mgrs, therm, failed, kettle, pop, records]

/-- The Kettle of a boot whose contents were lost: zero, and marked LOST on both dies (R346). -/
theorem bootKettle_lost (h : Hub) (hl : h.life.kettleLost = true) :
    (bootKettle h).mem = { h.mem with kettle := [], ketErr := [] } ∧ (bootKettle h).life = { h.life with kettleLost := false }
      ∧ (bootKettle h).rmap = h.rmap ∧ regField (bootKettle h) 0 0x4800 0 0 = 1 ∧ regField (bootKettle h) 1 0x4800 0 0 = 1 := by
  rw [bootKettle, if_pos hl]
  refine ⟨by rw [regSetField_mem, regSetField_mem]; rfl, by rw [regSetField_life, regSetField_life]; rfl,
    by rw [regSetField_rmap, regSetField_rmap]; rfl, ?_, regField_regSetField_same _ _ _ _ _ _ (by decide) (by decide)⟩
  obtain ⟨r, hr, hp⟩ : ∃ r, findRow 0x4800 = some r ∧ r.pkg = false := ⟨_, rfl, rfl⟩
  rw [regField, regSetField, regGet_regPut_die _ _ hr hp (by decide)]
  exact regField_regSetField_same _ _ _ _ _ _ (by decide) (by decide)

theorem bootKettle_kept (h : Hub) (hl : h.life.kettleLost = false) : bootKettle h = h := by
  rw [bootKettle, if_neg (by simp [hl])]

end Sys2Proof.Machine

namespace Sys2Proof.Machine.Slice0

/-- Settles O1: both commands leave `coldHub`, whose fields are the reset values but for those named. -/
theorem coldResetLeaves : Obligations.ColdResetLeaves := by
  intro h q i hi
  rcases hi with rfl | rfl | ⟨rfl, hphase, hlow⟩
  · exact ⟨coldHub false h, rfl, rfl, rfl, rfl, rfl, rfl, rfl, rfl, rfl, rfl, rfl, rfl, rfl, rfl, rfl, rfl, rfl⟩
  · exact ⟨coldHub true h, rfl, rfl, rfl, rfl, rfl, rfl, rfl, rfl, rfl, rfl, rfl, rfl, rfl, rfl, rfl, rfl, rfl⟩
  · have hexec : exec (.railOutOfRange false) ⟨h, q⟩ = .next ⟨coldHub false h, q⟩ := by
      show liftHub (effRailOutOfRange false) ⟨h, q⟩ = _
      simp [effRailOutOfRange, hphase, hlow]
    exact ⟨coldHub false h, hexec, rfl, rfl, rfl, rfl, rfl, rfl, rfl, rfl, rfl, rfl, rfl, rfl, rfl, rfl, rfl, rfl⟩

/-- Settles O2: the boot's steps one behind the other. -/
theorem powerGoodStartsTheRom : Obligations.PowerGoodStartsTheRom := by
  intro h q a b p
  refine ⟨fun hlow => ?_, fun hhigh => ?_⟩
  · have before : Boots (strapped a b p.toNat h) (bootPop (bootBadRecords (bootCounters (strapped a b p.toNat h)))) :=
      ((Boots.of_bootCounters _).trans (.of_bootBadRecords _)).trans (.of_bootPop _)
    have hmgrs := bootSteps_mgrs (bootCounters (strapped a b p.toNat h))
    have hctr (m : Nat) (hm : m < 4) := bootCounters_lastCtr (strapped a b p.toNat h) hm
    have hexec : exec (.pwrGood a b p) ⟨h, q⟩ = .next ⟨effPwrGood a b p.toNat h, q⟩ := rfl
    rw [effPwrGood_low a b p.toNat h hlow] at hexec
    refine ⟨_, hexec, ?_⟩
    clear hexec
    generalize bootPop (bootBadRecords (bootCounters (strapped a b p.toNat h))) = h1 at before hmgrs ⊢
    have after := boots_end (bootKettle h1)
    generalize powerEvent 0 (checkTherm (showFailed (bootKettle h1))) = t at after hmgrs ⊢
    obtain ⟨_, _, _, hlife1⟩ := before.life
    obtain ⟨_, _, _, hlife2⟩ := after.life
    have hkl : h1.life.kettleLost = h.life.kettleLost := by rw [hlife1]; rfl
    have hkl0 : h.life.kettleLost = false → t.mem = h.mem := fun hl => by
      rw [after.mem, bootKettle_kept h1 (hkl.trans hl), before.mem]; rfl
    have hlost (hl : h.life.kettleLost = true) := bootKettle_lost h1 (hkl.trans hl)
    have kept : (bootKettle h1).life = { h1.life with kettleLost := false } ∧ (bootKettle h1).mem.main = h.mem.main ∧ (bootKettle h1).rmap = h.rmap := by
      cases hl : h.life.kettleLost with
      | true => obtain ⟨hmem, hlife, hrmap, -⟩ := hlost hl; exact ⟨hlife, by rw [hmem, before.mem]; rfl, by rw [hrmap, before.rmap]; rfl⟩
      | false =>
        rw [bootKettle_kept h1 (hkl.trans hl)]
        exact ⟨by rw [← hkl.trans hl], by rw [before.mem]; rfl, by rw [before.rmap]; rfl⟩
    obtain ⟨hlifeK, hmainK, hrmapK⟩ := kept
    rw [hlifeK, hlife1] at hlife2
    refine ⟨by rw [hlife2]; rfl, by rw [hlife2]; rfl, by rw [hlife2]; rfl, by rw [hlife2]; rfl, by rw [hlife2]; rfl, by rw [hlife2]; rfl,
      fun m hm => ?_, fun hl => ?_, fun hl => ⟨by rw [hkl0 hl], by rw [hkl0 hl]⟩, by rw [after.mem, hmainK], by rw [after.rmap, hrmapK]⟩
    · rw [mgr, hmgrs]; exact hctr m hm
    · obtain ⟨hmem, -, -, h0, h1'⟩ := hlost hl
      exact ⟨by rw [after.mem, hmem], by rw [after.mem, hmem], by rw [hlife2],
        (after.words.field 0 0x4800 0 0 (by decide)).trans h0, (after.words.field 1 0x4800 0 0 (by decide)).trans h1'⟩
  · have hexec : exec (.pwrGood a b p) ⟨h, q⟩ = .next ⟨effPwrGood a b p.toNat h, q⟩ := rfl
    rw [hexec, effPwrGood_high a b p.toNat h hhigh]

end Sys2Proof.Machine.Slice0

/-! The entry to RUN enables the cache at its recorded size (R404), and with a chip-kill population that zeroes the echo lines in the array (R92). -/

namespace Sys2Proof.Machine

/-- The first byte of the echo lines of a cache of the least size, behind its 512 MiB of lines. -/
def firstEcho : Nat := 0x20000000

/-- A package in ROM_SERVICE whose array is in service with a byte at the first echo line's place, and whose boot configuration asks for a cache. -/
def romWithArray : Hub :=
  { life := { phase := .romService, resetLow := false, arrayPop := 2, arrayUp := true, cacheSize := 1 }
    led := { pop := some 2 }
    mem := { array := [(firstEcho, 1#8)] } }

/-- The same package booting from retention. -/
def wakingWithArray : Hub := { romWithArray with life := { romWithArray.life with phase := .boot, waking := true } }

/-- The header of a first firmware image. -/
def plainHdr : FwHdr := { minor := 0#8, major := 1#8, live := true, rdMin := 0#4, rdMax := 0#4, wrMax := 0#4 }

theorem exec_fwImageAuthenticated (b : Bool) (f : FwHdr) (h : Hub) (q : List Instr) :
    exec (.fwImageAuthenticated b f) ⟨h, q⟩ = .next ⟨effFwImageAuthenticated b f h, q⟩ := rfl

theorem exec_fwResumedFromRetention (g : Bool) (h : Hub) (q : List Instr) :
    exec (.fwResumedFromRetention g) ⟨h, q⟩ = .next ⟨effFwResumedFromRetention g h, q⟩ := rfl

theorem exec_kettleParkedScrub (w : BitVec 19) (x : BitVec 72) (h : Hub) (q : List Instr) :
    exec (.kettleParkedScrub w x) ⟨h, q⟩ = .next ⟨effKettleParkedScrub w.toNat x h, q⟩ := rfl

theorem romWithArray_loses_echo :
    memRead romWithArray.mem.array firstEcho = 1#8 ∧ memRead (effFwImageAuthenticated false plainHdr romWithArray).mem.array firstEcho = 0#8 :=
  ⟨by decide +kernel, by decide +kernel⟩

theorem wakingWithArray_loses_echo :
    memRead wakingWithArray.mem.array firstEcho = 1#8 ∧ memRead (effFwResumedFromRetention true wakingWithArray).mem.array firstEcho = 0#8 :=
  ⟨by decide +kernel, by decide +kernel⟩

/-- A correctable error in a word of the Kettle whose address has bit 13 set, in a parked package with no region map: its home die is East (R7, R344). -/
def parkedPackage : Hub := { life := { phase := .parked } }

theorem parkedScrub_counts_on_east :
    regField (effKettleParkedScrub 0x400 1#72 parkedPackage) 0 0x4800 31 16 = 0 ∧ regField parkedPackage 0 0x4800 31 16 = 0 :=
  ⟨by decide +kernel, by decide +kernel⟩

end Sys2Proof.Machine

namespace Sys2Proof.Machine.Slice0

/-- Refutes O3: of an image that authenticates it asks that every memory be as before, but the entry to RUN enables the cache that the boot
configuration records where the array is in service, which a package in ROM_SERVICE trains too, and so zeroes the echo lines (R92, R404). -/
theorem not_romReadsTheSlots : ¬ Obligations.RomReadsTheSlots := by
  unfold Obligations.RomReadsTheSlots
  intro holds
  obtain ⟨t, hexec, -, -, -, -, -, -, -, -, -, -, -, -, -, -, hmem, -⟩ := ((holds romWithArray []).1 (by decide)).1 false plainHdr
  rw [exec_fwImageAuthenticated] at hexec
  cases hexec
  obtain ⟨before, after⟩ := romWithArray_loses_echo
  have kept := (congrArg (fun m => memRead m.array firstEcho) hmem).symm
  exact absurd (before.symm.trans (kept.trans after)) (by decide)

/-- Refutes O4: it asks that a resume keep every memory, but its hypotheses leave out neither an array in service nor a recorded cache size, and the entry
to RUN then enables the cache and zeroes the echo lines (R92, R404). -/
theorem not_resumeFromRetention : ¬ Obligations.ResumeFromRetention := by
  unfold Obligations.ResumeFromRetention
  intro holds
  obtain ⟨-, t, hexec, -, -, -, -, -, -, -, -, -, hmem⟩ := holds wakingWithArray [] rfl rfl
  rw [exec_fwResumedFromRetention] at hexec
  cases hexec
  obtain ⟨before, after⟩ := wakingWithArray_loses_echo
  have kept := (congrArg (fun m => memRead m.array firstEcho) hmem).symm
  exact absurd (before.symm.trans (kept.trans after)) (by decide)

/-- Refutes O8: it counts a corrected word on the die of the word's half of the Kettle, where the count is kept by the word's home die (R344, R345).
Word 0x400 lies in the first half, and its address has bit 13 set, so East counts it and West's count stays. -/
theorem not_parkedScrubAndTherm : ¬ Obligations.ParkedScrubAndTherm := by
  unfold Obligations.ParkedScrubAndTherm
  intro holds
  obtain ⟨t, hexec, -, -, hcount, -, -⟩ := (holds.1 parkedPackage [] 0x400#19 1#72).2 rfl rfl (.inr ⟨0, by decide, by decide⟩)
  rw [exec_kettleParkedScrub] at hexec
  cases hexec
  obtain ⟨after, before⟩ := parkedScrub_counts_on_east
  have one := after.symm.trans hcount
  rw [if_neg (by decide), show (0x400#19).toNat / 2 ^ 18 = 0 from rfl, before] at one
  exact absurd one (by decide)

end Sys2Proof.Machine.Slice0

/-! The end of a park's drain, of a warm reset, and of the memories' training (R401 to R413). -/

namespace Sys2Proof.Machine

/-! ### The end of a park's drain (R406) -/

/-- A Colander without records has none to write out. -/
theorem drainOne_empty {die : Nat} {h : Hub} (he : (col h die).stages = []) : drainOne die h = h := by
  unfold drainOne
  dsimp only
  split
  · rfl
  · next hs => rw [he] at hs; cases hs

theorem drainCol_empty {die : Nat} {h : Hub} (he : (col h die).stages = []) : drainCol die h = h := by
  have step : (if evtFree h die then drainOne die h else h) = h := by rw [drainOne_empty he, ite_self]
  unfold drainCol
  generalize List.range 40 = l
  induction l with
  | nil => rfl
  | cons x r ih => rw [List.foldl_cons, step, ih]

/-- A link of a parked package is down whatever it was. -/
theorem bget_saved (b : Bank Link) (l : Nat) : (bget (b.map (fun (e : Nat × Link) => (e.1, ({ saved := e.2.saved } : Link)))) l {}).st = .down := by
  unfold bget
  induction b with
  | nil => rfl
  | cons e r ih =>
    simp only [List.map_cons, bfind]
    split
    · rfl
    · exact ih

/-! ### The end of a warm reset (R413) -/

/-- What a link that is not trained is left with when it is taken down. -/
def downLink (enabled : Bool) (k : Link) : Link :=
  { k with st := if enabled then .training else .down, backoffFrom := none, owed := [], owedSlots := 0, replayAt := none, crHeld := [] }

theorem takeDown_untrained (l : Nat) (h : Hub) (hl : linkTrained h l = false) : takeDown l h = setLink h l (downLink (bitOf (linkCtl h l) 31)) := by
  rw [takeDown, hl]; rfl

/-- A link taken down is not trained. -/
theorem linkTrained_downLink (h : Hub) (l k : Nat) (b : Bool) (hk : linkTrained h k = false) : linkTrained (setLink h l (downLink b)) k = false := by
  by_cases e : k = l
  · subst e
    rw [linkTrained, link_setLink_same]
    cases b <;> rfl
  · rw [linkTrained, link_setLink_other _ _ _ _ e]; exact hk

/-- Links that are not trained, taken down one after the other: only links change, and none of them is trained. -/
theorem forEach_takeDown_untrained (ls : List Nat) (p : Nat → Prop) (h : Hub) (hp : ∀ l, p l → linkTrained h l = false) (hls : ∀ l ∈ ls, p l) :
    (∃ links, forEach ls takeDown h = { h with links := links }) ∧ ∀ l, p l → linkTrained (forEach ls takeDown h) l = false := by
  induction ls generalizing h with
  | nil => exact ⟨⟨h.links, rfl⟩, hp⟩
  | cons x r ih =>
    rw [forEach_cons, takeDown_untrained x h (hp x (hls x List.mem_cons_self))]
    obtain ⟨⟨links, e⟩, hl⟩ := ih (setLink h x (downLink (bitOf (linkCtl h x) 31))) (fun l hl => linkTrained_downLink _ _ _ _ (hp l hl))
      (fun l hl => hls l (List.mem_cons_of_mem _ hl))
    exact ⟨⟨links, e⟩, hl⟩

/-- A Colander without records and without a pending GAP has nothing to report at its reset. -/
theorem resetCol_empty {die : Nat} {h : Hub} (hs : (col h die).stages = []) (hd : (col h die).drops = 0) :
    ∃ c, resetCol die h = { h with col := c } := by
  have gap (h : Hub) (hg : (col h die).drops = 0) : colGap die h = h := by simp [colGap, hg]
  unfold resetCol
  rw [drainCol_empty hs]
  dsimp only
  rw [gap]
  · exact ⟨_, rfl⟩
  · rw [col, bget_bset_same]; simp [hs, hd, satAdd]

/-- Where nothing waits at a home the Seam holds nothing back. -/
theorem releaseSeam_quiet (die : Nat) (h : Hub) (hq : h.quiet) : releaseSeam die h = h := by
  obtain ⟨-, hwt, -⟩ := id hq
  rw [releaseSeam, hwt]
  exact settle_quiet h hq

theorem effWarmResetServed_quiet (die : Nat) (h : Hub) (hq : (effWarmResetDone die h).quiet) : effWarmResetServed die h = effWarmResetDone die h := by
  rw [effWarmResetServed, releaseSeam_quiet die _ hq, ite_self]

/-- A die whose reset ends, before its links are taken down, with what is left of the Colanders. -/
def freshDie (die cause : Nat) (c : Bank Col) (h : Hub) : Hub :=
  setLife (fun l => { l with warm := bdel l.warm die, lastRst := bset l.lastRst die cause })
    { clearPmu die h with
      col := c, lid := bdel h.lid die, mbox := h.mbox.filter (fun e => e.1 / 4 != die),
      ladle := h.ladle.filter (fun e => dieOfCluster e.cluster != die), dets := h.dets.filter (fun d => dieOfCluster d.cluster != die) }

/-- The end of the reset of a die at which nothing is open and whose Colander is empty. -/
theorem effWarmResetDone_idle {die cause : Nat} {h : Hub} (hwarm : bfind h.life.warm die = some cause) (hbusy : dieBusy h die = false) (hq : h.quiet)
    (hs : (col h die).stages = []) (hd : (col h die).drops = 0) :
    ∃ c, effWarmResetDone die h = forEach [4 * die, 4 * die + 1, 4 * die + 2, 4 * die + 3] takeDown (freshDie die cause c h) := by
  obtain ⟨c, hcol⟩ := resetCol_empty (h := clearPmu die h) hs hd
  refine ⟨c, ?_⟩
  rw [effWarmResetDone, hwarm]
  dsimp only
  rw [hbusy, settle_quiet h hq, hcol, if_neg Bool.false_ne_true]
  rfl

theorem bfind_bdel_same {α : Type} (b : Bank α) (i : Nat) : bfind (bdel b i) i = none :=
  bfind_none _ _ fun e he => by simpa [bdel] using (List.mem_filter.1 he).2

/-- What a filter of keys keeps reads as before. -/
theorem bfind_filter {α : Type} (b : Bank α) (p : Nat → Bool) (i : Nat) (hi : p i = true) : bfind (b.filter (fun e => p e.1)) i = bfind b i := by
  induction b with
  | nil => rfl
  | cons e r ih =>
    obtain ⟨k, v⟩ := e
    by_cases hk : k = i
    · subst hk; simp [hi, bfind]
    · cases hp : p k <;> simp [hp, bfind, hk, ih]

theorem bget_bdel_other {α : Type} (b : Bank α) (i j : Nat) (d : α) (hj : j ≠ i) : bget (bdel b i) j d = bget b j d := by
  rw [bget, bget, bdel, bfind_filter b (fun k => k != i) j (by simpa using hj)]

end Sys2Proof.Machine

namespace Sys2Proof.Machine.Slice0

/-- Settles O6: nothing waits and nothing is left to write, so the drain's end is the last steps of the park. -/
theorem parkKeepsWhatRetentionKeeps : Obligations.ParkKeepsWhatRetentionKeeps := by
  intro h q hphase hmovs hwbs hq hcst hcol hwins hwake
  have hset : settle (drainCol 1 (drainCol 0 h)) = h := by rw [drainCol_empty (hcol 0), drainCol_empty (hcol 1), settle_quiet h hq]
  have harm : h.wins.filter (fun e => e.2.armed) = [] := by
    rw [List.filter_eq_nil_iff]; intro e he; simp [Win.armed, hwins e he]
  have hpark : effParkDrainDone h = toParked h := by
    obtain ⟨htx, hwt, -⟩ := hq
    rw [effParkDrainDone, if_neg]
    simp [hphase, hmovs, hwbs, htx, hwt, hcst]
  have hexec : exec .parkDrainDone ⟨h, q⟩ = .next ⟨effParkDrainDone h, q⟩ := rfl
  rw [hpark] at hexec
  refine ⟨_, hexec, ?_⟩
  clear hexec hpark
  unfold toParked
  rw [hset]
  simp only [harm, List.map_nil, forEach_nil, hwbs]
  have stays : ((cacheOff h).life.wakeWait && !(cacheOff h).life.pwrWarn) ≠ true := by
    rw [show (cacheOff h).life.wakeWait = false from hwake]; exact Bool.false_ne_true
  rw [if_neg stays]
  exact ⟨rfl, rfl, rfl, rfl, rfl, rfl, rfl, rfl, rfl, fun l => bget_saved h.links l, rfl, rfl, rfl, rfl⟩

/-- Settles O7: nothing is open at the die and nothing waits, so its parts start anew, and its links, none of them trained, are taken down. -/
theorem warmResetEnds : Obligations.WarmResetEnds := by
  intro h q d cause hwarm hbusy hq hstages hdrops hlinks
  have hexec : exec (.warmResetDone d) ⟨h, q⟩ = .next ⟨effWarmResetServed d.toNat h, q⟩ := rfl
  rw [hexec]
  clear hexec
  have hdie : d.toNat < 2 := d.isLt
  generalize d.toNat = die at *
  obtain ⟨c, hdone⟩ := effWarmResetDone_idle hwarm hbusy hq hstages hdrops
  obtain ⟨⟨links, ht⟩, hdown⟩ := forEach_takeDown_untrained [4 * die, 4 * die + 1, 4 * die + 2, 4 * die + 3] (fun l => 4 * die ≤ l ∧ l < 4 * die + 4)
    (freshDie die cause c h) (fun l hl => hlinks l hl.1 hl.2) (by simp)
  rw [← hdone] at ht hdown
  rw [effWarmResetServed_quiet die h (by rw [ht]; exact hq)]
  refine ⟨_, rfl, ?_, ?_, ?_, fun k hk => ?_, ?_, ?_, ?_, fun l h1 h2 => hdown l ⟨h1, h2⟩, ?_⟩
  all_goals rw [ht]
  · exact bfind_bdel_same ..
  · exact bget_bset_same ..
  · exact bfind_bdel_same ..
  · refine bfind_none _ _ fun e he hk => ?_
    have := (List.mem_filter.1 he).2
    simp only [hk, bne_iff_ne, ne_eq] at this
    omega
  · exact bfind_bdel_same ..
  · exact fun e he => by simpa using (List.mem_filter.1 he).2
  · exact fun e he => by simpa using (List.mem_filter.1 he).2
  · exact ⟨bget_bdel_other _ _ _ _ (by omega), bget_bdel_other _ _ _ _ (by omega), rfl, rfl, rfl⟩

end Sys2Proof.Machine.Slice0

/-! Training of main memory and of the array (R401 to R404, R189): what the Ledger's notes, repairs and checks of a training leave alone. -/

namespace Sys2Proof.Machine

/-! ### What a training's notes keep -/

/-- Behind a training the memories are as before, and of the life-cycle state only the interrupt outputs and what LC_STAT.FULL shows may differ. -/
structure TrainNotes (h h' : Hub) : Prop where
  mem : h'.mem = h.mem
  life : ∃ pins full, h'.life = { h.life with intN := pins, fullUp := full }

namespace TrainNotes

theorem of_eqs (h h' : Hub) (hm : h'.mem = h.mem) (hl : h'.life = h.life) : TrainNotes h h' := ⟨hm, h.life.intN, h.life.fullUp, hl⟩

theorem refl (h : Hub) : TrainNotes h h := of_eqs h h rfl rfl

theorem trans {a b c : Hub} (h1 : TrainNotes a b) (h2 : TrainNotes b c) : TrainNotes a c := by
  obtain ⟨_, _, e1⟩ := h1.life
  obtain ⟨p, f, e2⟩ := h2.life
  exact ⟨h2.mem.trans h1.mem, p, f, by rw [e2, e1]⟩

theorem forEach {α : Type} (f : α → Hub → Hub) (hf : ∀ x h, TrainNotes h (f x h)) (l : List α) (h : Hub) : TrainNotes h (forEach l f h) := by
  induction l generalizing h with
  | nil => exact refl h
  | cons x r ih => exact (hf x h).trans (ih _)

theorem of_reports {h h' : Hub} (e : Reports h h') : TrainNotes h h' := by
  obtain ⟨p, hl⟩ := e.life
  exact ⟨e.mem, p, h.life.fullUp, hl⟩

theorem of_ledgerPut (rec : Nat) (f : Ledger → Ledger) (h : Hub) : TrainNotes h (ledgerPut rec f h) := by
  rcases ledgerPut_cases rec f h with ⟨_, e⟩ | e
  · rw [e]; exact of_eqs h _ rfl rfl
  · exact of_reports e

theorem of_saveTraining (id : Nat) (h : Hub) : TrainNotes h (saveTraining id h) := by
  unfold saveTraining
  split
  · exact refl h
  · exact of_ledgerPut ..

/-- One row of a repair: the device's answer is a free value, and a repaired row leaves the Ledger's list. -/
theorem of_repairRow (ok : Bool) (f : Ledger → Ledger) (h : Hub) (n : Nat) :
    TrainNotes h (if ok then ledgerPut 0x50 f { h with free := n } else { h with free := n }) := by
  split
  · exact (of_eqs h { h with free := n } rfl rfl).trans (of_ledgerPut ..)
  · exact of_eqs h _ rfl rfl

theorem of_repairMain (k : Nat) (h : Hub) : TrainNotes h (repairMain k h) := forEach _ (fun _ h => of_repairRow _ _ h _) _ h

theorem of_repairArray (h : Hub) : TrainNotes h (repairArray h) := by
  have rows := forEach (fun (r : Remap) (h : Hub) =>
    let ok := Config.freeRepair h.free
    let h := { h with free := h.free + 1 }
    if ok then ledgerPut 0x50 (fun l => { l with remap := l.remap.filter (· != r) }) h else h) (fun _ h => of_repairRow _ _ h _) h.led.remap h
  unfold repairArray
  extract_lets h1
  split
  · exact rows
  · exact rows.trans (of_eqs h1 _ rfl rfl)

theorem of_checkOvercommit (h : Hub) : TrainNotes h (checkOvercommit h) := by
  unfold checkOvercommit
  extract_lets ovr h1
  split
  · exact ((of_eqs h { h with fs := { h.fs with overcommit := true } } rfl rfl).trans (of_reports (.of_record ..))).trans (of_reports (.of_raiseEvt ..))
  · exact of_eqs h _ rfl rfl

theorem of_checkFull (h : Hub) : TrainNotes h (checkFull h) := ⟨rfl, h.life.intN, _, rfl⟩

theorem chan {h h' : Hub} (e : TrainNotes h h') (k : Nat) : chanOfMem h' k = chanOfMem h k := by
  obtain ⟨_, _, hl⟩ := e.life
  rw [chanOfMem, chanOfMem, hl]

end TrainNotes

/-! ### Channels -/

/-- The hub with one channel's training state set. -/
def setChan (k : Nat) (t : MemTrain) (h : Hub) : Hub := setLife (fun l => { l with chans := bset l.chans k t }) h

theorem chanOfMem_setChan_same (k : Nat) (t : MemTrain) (h : Hub) : chanOfMem (setChan k t h) k = t := bget_bset_same ..

theorem chanOfMem_setChan_other {k j : Nat} (t : MemTrain) (h : Hub) (hj : j ≠ k) : chanOfMem (setChan k t h) j = chanOfMem h j :=
  bget_bset_other _ _ _ _ _ hj

/-- Main memory's size as a channel that trained found it. -/
def noteUnits (units : Nat) (h : Hub) : Hub :=
  setLife (fun l => { l with mainUnits := if units = 0 then l.mainUnits else units, waking := false }) h

theorem effChannelTrained_trains {k rate units : Nat} {full : Bool} {h : Hub} (ht : trains h = true) (hn : (chanOfMem h k).trained = false)
    (hb : (chanOfMem h k).backoffFrom = none) (h0 : 0 < rate) (h4 : rate ≤ 4) :
    effChannelTrained k rate units full h
      = checkFull (checkOvercommit (repairMain k (saveTraining (8 + k) (noteUnits units (setChan k (trainedAs rate full (chanOfMem h k)) h))))) := by
  rw [effChannelTrained, if_neg]
  · rfl
  · simp [ht, hn, hb]; omega

theorem effChannelLost_trained {k rate : Nat} {h : Hub} (ht : (chanOfMem h k).trained = true) (h4 : rate ≤ 4) :
    effChannelLost k rate h = checkOvercommit (setChan k { chanOfMem h k with trained := rate != 0, rate := rate } h) := by
  rw [effChannelLost, if_neg]
  · rfl
  · simp [ht]; omega

theorem effMemTrainingFailed_channel {die j reason : Nat} {h : Hub} (ht : trains h = true) (hj : j < 4) (hn : (chanOfMem h (4 * die + j)).trained = false)
    (hb : (chanOfMem h (4 * die + j)).backoffFrom = none) :
    effMemTrainingFailed die j reason h = setChan (4 * die + j) (memFailed h.now reason (chanOfMem h (4 * die + j))) h := by
  simp only [effMemTrainingFailed, ht, hn, hb, hj, if_true, Bool.not_true, Bool.false_eq_true, if_false, Option.isSome_none, Bool.or_self]
  rfl

theorem effMemTrainBackoffExpiry_channel {die j : Nat} {h : Hub} (hj : j < 4) :
    effMemTrainBackoffExpiry die j h = setChan (4 * die + j) (backoffEnded h.now (chanOfMem h (4 * die + j))) h := by
  rw [effMemTrainBackoffExpiry, if_pos hj]; rfl

/-! ### The array -/

/-- The array's lanes as a training leaves them, with the zero-fill begun unless the population is in doubt (R200, R401, R404). -/
def lanesUp (rate : Nat) (dens full : Bool) (h : Hub) : Hub :=
  setLife (fun l => { l with
    lanes := trainedAs rate full l.lanes, laneTrain := (List.range 4).map (fun n => (n, trainedAs rate full (laneOfMem h n))),
    dens24 := dens, zeroing := !l.mismatch }) h

theorem effArrayTrained_trains {rate : Nat} {dens full : Bool} {h : Hub} (ht : trains h = true) (hn : h.life.lanes.trained = false) (hr : rate ≠ 0)
    (hp : h.life.arrayPop ≠ 0) (hc : ∃ k, k < 8 ∧ chanTrained h k = true) (hb : ∀ n, n < 4 → (laneOfMem h n).backoffFrom = none) :
    effArrayTrained rate dens full h = repairArray (saveTraining 16 (lanesUp rate dens full h)) := by
  obtain ⟨k, hk, hck⟩ := hc
  have hany : (List.range 8).any (chanTrained h) = true := List.any_eq_true.2 ⟨k, List.mem_range.2 hk, hck⟩
  have hwait : (List.range 4).any (fun n => (laneOfMem h n).backoffFrom.isSome) = false := by
    rw [List.any_eq_false]; intro n hn; simp [hb n (List.mem_range.1 hn)]
  rw [effArrayTrained, if_neg]
  · rfl
  · simp [ht, hn, hr, hp, hany, hwait]

/-- A lane of the four after they trained. -/
theorem laneOfMem_lanesUp {n : Nat} (rate : Nat) (dens full : Bool) (h : Hub) (hn : n < 4) :
    laneOfMem (lanesUp rate dens full h) n = trainedAs rate full (laneOfMem h n) := by
  rcases (by omega : n = 0 ∨ n = 1 ∨ n = 2 ∨ n = 3) with rfl | rfl | rfl | rfl <;> rfl

theorem TrainNotes.lane {h h' : Hub} (e : TrainNotes h h') (n : Nat) : laneOfMem h' n = laneOfMem h n := by
  obtain ⟨_, _, hl⟩ := e.life
  rw [laneOfMem, laneOfMem, hl]

/-! ### The zero-fill (R404) -/

/-- A byte whose cell is not listed reads zero. -/
theorem memRead_unlisted {m : List Host.Cell} {a : Nat} (hm : ∀ c ∈ m, c.1 ≠ a) : memRead m a = 0#8 := by
  induction m with
  | nil => rfl
  | cons c r ih =>
    obtain ⟨k, v⟩ := c
    rw [memRead, if_neg (c := a = k) (fun e => hm (k, v) List.mem_cons_self e.symm), ih (fun c hc => hm c (List.mem_cons_of_mem _ hc)), ite_self]

/-- The array's cells after the footprints of some entries were zeroed: cells from before, outside every footprint. -/
theorem mem_forEach_zeroFoot (l : List (Nat × REntry)) (h : Hub) :
    ∀ c ∈ (forEach l (fun e h => zeroFoot e.2 h) h).mem.array, c ∈ h.mem.array
      ∧ ∀ e ∈ l, ¬ (e.2.tbase * unit2M ≤ c.1 ∧ c.1 < e.2.tbase * unit2M + e.2.size * unit2M) := by
  induction l generalizing h with
  | nil => exact fun c hc => ⟨hc, fun e he => by cases he⟩
  | cons x r ih =>
    intro c hc
    obtain ⟨hmem, hout⟩ := ih (zeroFoot x.2 h) c hc
    obtain ⟨hold, hx⟩ := List.mem_filter.1 hmem
    refine ⟨hold, fun e he => ?_⟩
    rcases List.mem_cons.1 he with rfl | he
    · intro ⟨h1, h2⟩
      simp [h1, h2] at hx
    · exact hout e he

/-- Zeroing footprints changes the array's contents and nothing else. -/
theorem forEach_zeroFoot_eq (l : List (Nat × REntry)) (h : Hub) : ∃ a b c d e,
    forEach l (fun e h => zeroFoot e.2 h) h = { h with mem := { h.mem with array := a, beatErr := b, crcErr := c, encLine := d, encRange := e } } := by
  induction l generalizing h with
  | nil => exact ⟨h.mem.array, h.mem.beatErr, h.mem.crcErr, h.mem.encLine, h.mem.encRange, rfl⟩
  | cons x r ih =>
    obtain ⟨a, b, c, d, e, he⟩ := ih (zeroFoot x.2 h)
    exact ⟨a, b, c, d, e, he⟩

/-- Enabling the cache writes no array byte but the echo lines' zeros, and keeps all that is neither cache, buffered echo writes nor array (R78, R92). -/
theorem enableRecorded_eq (h : Hub) : ∃ cache wbs a b c d,
    enableRecorded h = { h with cache := cache, wbs := wbs, mem := { h.mem with array := a, beatErr := b, crcErr := c, encLine := d } }
      ∧ ∀ x ∈ a, x ∈ h.mem.array := by
  unfold enableRecorded enableCache
  extract_lets s h1
  split
  · exact ⟨h.cache, h.wbs, h.mem.array, h.mem.beatErr, h.mem.crcErr, h.mem.encLine, rfl, fun x hx => hx⟩
  · split
    · exact ⟨_, _, _, _, _, _, rfl, fun x hx => (List.mem_filter.1 hx).1⟩
    · exact ⟨_, h.wbs, h.mem.array, h.mem.beatErr, h.mem.crcErr, h.mem.encLine, rfl, fun x hx => hx⟩

/-- The entries of the region map in force that this hub homes. -/
def mineEntries (h : Hub) : List (Nat × REntry) := h.rmap.filter (fun e => e.2.valid && e.2.here h)

/-- The hub at the end of the zero-fill, before the SHADOW loads are listed. -/
def zeroFilled (h : Hub) : Hub :=
  enableRecorded (setLife (fun l => { l with zeroing := false, arrayUp := true })
    (forEach ((mineEntries h).filter (fun e => e.2.typ == .near)) (fun e h => zeroFoot e.2 h) h))

theorem effNearZeroFillDone_fills {h : Hub} (hz : h.life.zeroing = true) (hl : h.life.lanes.trained = true) (ht : trains h = true)
    (hh : (zeroFilled h).heavy.filter (fun v => v.opcode == 0x07) = []) :
    effNearZeroFillDone h = checkFull { zeroFilled h with
      shadows := (zeroFilled h).shadows ++ (((mineEntries h).filter (fun e => e.2.typ == .shadow)).map (fun e => (0, e.1, e.2))) } := by
  rw [effNearZeroFillDone, if_neg (by simp [hz, hl, ht])]
  extract_lets mine h1 h2 h3 h4
  have h4eq : h4 = h3 := by
    have : (h3.heavy.filter (fun v => v.opcode == 0x07)) = [] := hh
    show forEach ((h3.heavy.filter (fun v => v.opcode == 0x07)).map Heavy.job) _ h3 = h3
    rw [this]; rfl
  rw [h4eq]
  exact (rfl : checkFull h3 = _)

end Sys2Proof.Machine

namespace Sys2Proof.Machine.Slice0

/-- Settles O9: each event sets its channel, and what follows a training notes nothing in a channel. -/
theorem channelTraining : Obligations.ChannelTraining := by
  intro h q k
  refine ⟨fun r u f ht hn hb h0 h4 => ?_, fun r ht h4 => ?_, fun die j x ht hj hk hn hb => ?_, fun die j t0 hj hk hb => ?_⟩
  · have hexec : exec (.channelTrained k r u f) ⟨h, q⟩ = .next ⟨effChannelTrained k.toNat r.toNat u.toNat f h, q⟩ := rfl
    rw [effChannelTrained_trains ht hn hb h0 h4] at hexec
    refine ⟨_, hexec, ?_⟩
    clear hexec
    set h1 := noteUnits u.toNat (setChan k.toNat (trainedAs r.toNat f (chanOfMem h k.toNat)) h) with hh1
    have notes : TrainNotes h1 (checkFull (checkOvercommit (repairMain k.toNat (saveTraining (8 + k.toNat) h1)))) :=
      (((TrainNotes.of_saveTraining ..).trans (.of_repairMain ..)).trans (.of_checkOvercommit _)).trans (.of_checkFull _)
    obtain ⟨_, _, hlife⟩ := notes.life
    refine ⟨?_, fun j hj => ?_, ?_, notes.mem⟩
    · rw [notes.chan]
      refine (chanOfMem_setChan_same k.toNat _ h).trans ?_
      simp [trainedAs, hb]
    · rw [notes.chan]; exact chanOfMem_setChan_other _ h hj
    · rw [hlife]
      simp only [hh1, noteUnits, setLife, setChan]
      simp only [BitVec.toNat_eq, BitVec.toNat_ofNat]
  · have hexec : exec (.channelLost k r) ⟨h, q⟩ = .next ⟨effChannelLost k.toNat r.toNat h, q⟩ := rfl
    rw [effChannelLost_trained ht h4] at hexec
    refine ⟨_, hexec, ?_⟩
    have notes := TrainNotes.of_checkOvercommit (setChan k.toNat { chanOfMem h k.toNat with trained := r.toNat != 0, rate := r.toNat } h)
    refine ⟨?_, fun j hj => by rw [notes.chan, chanOfMem_setChan_other _ h hj], notes.mem⟩
    rw [notes.chan, chanOfMem_setChan_same]
    have hr : (r.toNat != 0) = decide (r ≠ 0#4) := by simp [BitVec.toNat_eq, bne, beq_eq_decide]
    rw [hr]
  · have hexec : exec (.memTrainingFailed die j x) ⟨h, q⟩ = .next ⟨effMemTrainingFailed die.toNat j.toNat x.toNat h, q⟩ := rfl
    rw [hk] at hn hb ⊢
    rw [effMemTrainingFailed_channel ht hj hn hb] at hexec
    exact ⟨_, hexec, chanOfMem_setChan_same .., fun i hi => chanOfMem_setChan_other _ h hi, rfl⟩
  · have hexec : exec (.memTrainBackoffExpiry die j) ⟨h, q⟩ = .next ⟨effMemTrainBackoffExpiry die.toNat j.toNat h, q⟩ := rfl
    rw [hk] at hb ⊢
    rw [effMemTrainBackoffExpiry_channel hj] at hexec
    refine ⟨_, hexec, (chanOfMem_setChan_same ..).trans ?_, fun i hi => chanOfMem_setChan_other _ h hi, rfl⟩
    generalize chanOfMem h (4 * die.toNat + j.toNat) = c at hb ⊢
    cases c
    cases hb
    simp only [backoffEnded]
    split <;> rfl

/-- Settles O10: the lanes train as one, and the zero-fill lists no cell of a near footprint any more. -/
theorem arrayEntersService : Obligations.ArrayEntersService := by
  intro h q
  refine ⟨fun r d f ht hn hr hp hc hb => ?_, fun hz hl ht hheavy => ?_⟩
  · have hexec : exec (.arrayTrained r d f) ⟨h, q⟩ = .next ⟨effArrayTrained r.toNat d f h, q⟩ := rfl
    have hr0 : r.toNat ≠ 0 := fun e => hr (BitVec.eq_of_toNat_eq e)
    rw [effArrayTrained_trains ht hn hr0 hp hc hb] at hexec
    refine ⟨_, hexec, ?_⟩
    clear hexec
    have notes := (TrainNotes.of_saveTraining 16 (lanesUp r.toNat d f h)).trans (.of_repairArray _)
    generalize repairArray (saveTraining 16 (lanesUp r.toNat d f h)) = t at notes ⊢
    obtain ⟨_, _, hlife⟩ := notes.life
    refine ⟨by rw [hlife]; rfl, by rw [hlife]; rfl, fun n hn => ?_, by rw [hlife]; rfl, by rw [hlife]; rfl, by rw [hlife]; rfl, notes.mem⟩
    rw [notes.lane, laneOfMem_lanesUp _ _ _ _ hn]
    exact ⟨rfl, rfl⟩
  · have hexec : exec .nearZeroFillDone ⟨h, q⟩ = .next ⟨effNearZeroFillDone h, q⟩ := rfl
    have hcells := mem_forEach_zeroFoot ((mineEntries h).filter (fun e => e.2.typ == .near)) h
    obtain ⟨a, b, c, d, e, hzero⟩ := forEach_zeroFoot_eq ((mineEntries h).filter (fun e => e.2.typ == .near)) h
    obtain ⟨_, _, a', _, _, _, hon, hsub⟩ := enableRecorded_eq (setLife (fun l => { l with zeroing := false, arrayUp := true })
      (forEach ((mineEntries h).filter (fun e => e.2.typ == .near)) (fun e h => zeroFoot e.2 h) h))
    have hfill : zeroFilled h = _ := hon
    have hheavyNone : h.heavy.filter (fun v => v.opcode == 0x07) = [] := by
      rw [List.filter_eq_nil_iff]; intro v hv; simpa using hheavy v hv
    rw [effNearZeroFillDone_fills hz hl ht (by rw [hfill, hzero]; exact hheavyNone)] at hexec
    refine ⟨_, hexec, ?_⟩
    clear hexec
    rw [hfill]
    have hshadow : (mineEntries h).filter (fun e => e.2.typ == .shadow) = h.rmap.filter (fun e => (e.2.valid && e.2.here h) && e.2.typ == .shadow) := by
      rw [mineEntries, List.filter_filter]; exact List.filter_congr fun _ _ => Bool.and_comm ..
    refine ⟨rfl, rfl, fun x hx hv hhere htyp n h1 h2 => ?_, ?_, ?_, ?_⟩
    · refine memRead_unlisted fun cell hcell hne => ?_
      have hnear : x ∈ (mineEntries h).filter (fun e => e.2.typ == .near) := by
        simp [mineEntries, hx, hv, hhere, htyp]
      exact (hcells cell (hsub cell hcell)).2 x hnear (hne ▸ ⟨h1, h2⟩)
    · rw [hzero, hshadow]; rfl
    all_goals rw [hzero]; rfl

end Sys2Proof.Machine.Slice0

/-! Links (R314 to R339): recovery, training, loss and what a flit time sends. -/

namespace Sys2Proof.Machine

/-! ### LINK_n_ERR -/

theorem satAdd_mod (v n w : Nat) : satAdd v n w % 2 ^ w = satAdd v n w :=
  Nat.mod_eq_of_lt (by unfold satAdd; have := Nat.two_pow_pos w; omega)

theorem linkErrOff_eq (l : Nat) : linkCtlOff l + 12 = 0x460C + 0x40 * l := by unfold linkCtlOff; omega

theorem linkErr_row {l : Nat} (hl : l < 8) : (findRow (linkCtlOff l + 12)).isSome = true := by
  revert l; decide

/-- A field of LINK_n_ERR counts up to the most it holds. -/
theorem linkCount_field {l hi lo : Nat} (h : Hub) (hl : l < 8) (hhi : hi < 32) :
    regField (linkCount l hi lo h) (dieOfLink l) (0x460C + 0x40 * l) hi lo
      = satAdd (regField h (dieOfLink l) (0x460C + 0x40 * l) hi lo) 1 (hi + 1 - lo) := by
  rw [← linkErrOff_eq, linkCount, regField_regSetField_same _ _ _ _ _ _ (linkErr_row hl) hhi, satAdd_mod]

/-- A count leaves the register's other fields. -/
theorem linkCount_field_other {l hi lo hi' lo' : Nat} (h : Hub) (hd : hi' < lo ∨ hi < lo') (hhi : hi' < 32) :
    regField (linkCount l hi lo h) (dieOfLink l) (0x460C + 0x40 * l) hi' lo' = regField h (dieOfLink l) (0x460C + 0x40 * l) hi' lo' := by
  rw [← linkErrOff_eq, linkCount, regField_regSetField_other _ _ _ _ _ _ _ _ hd hhi]

theorem link_linkCount (l hi lo k : Nat) (h : Hub) : link (linkCount l hi lo h) k = link h k := by rw [link, link, linkCount_links]

/-! ### Recovery and replay -/

/-- An UP link as it enters RECOVERY (R325). -/
def recoverLink (now : Nat) (k : Link) : Link := { k with st := .recovery, recAt := now, recFull := false, replayAt := none, replays := 0 }

theorem enterRecovery_up {l : Nat} {h : Hub} (hup : (link h l).st = .up) :
    enterRecovery l false h = linkCount l 7 4 (setLink h l (recoverLink h.now)) := by
  rw [enterRecovery, hup]; rfl

/-- A link whose replay begins with its oldest outstanding flit (R324). -/
def replayLink (now : Nat) (k : Link) : Link := { k with replayAt := some 0, replays := k.replays + 1, ackAt := now }

theorem startReplay_again {l : Nat} {h : Hub} (hr : (link h l).replays < 3) : startReplay l h = setLink (linkCount l 15 8 h) l (replayLink h.now) := by
  rw [startReplay, if_neg (by omega), linkCount_now]; rfl

theorem startReplay_fourth {l : Nat} {h : Hub} (hr : 3 ≤ (link h l).replays) : startReplay l h = enterRecovery l false (linkCount l 15 8 h) := by
  rw [startReplay, if_pos (by omega)]

theorem effReplayTimer_due {l : Nat} {h : Hub} (hup : (link h l).st = .up) (hr : (link h l).replay ≠ []) (hn : (link h l).replayAt = none)
    (hdue : (link h l).ackAt + 2500 ≤ h.now) : effReplayTimer l h = startReplay l h := by
  rw [effReplayTimer, if_pos]
  simp [hup, hr, hn, hdue]

/-! ### Flits that are not taken in (R321, R323) -/

theorem effFlitReceived_badCrc {l : Nat} {f : List Byte} {h : Hub} (hup : (link h l).st = .up)
    (hcrc : crc64 (f.take 244 ++ f.drop 252) ≠ ofBytes (slice f 244 8).reverse) :
    effFlitReceived l f h = some (setLink (linkCount l 31 16 h) l (fun k => { k with nak := k.nak || bits (ofBytes (f.take 4)) 11 10 == 0 })) := by
  rw [effFlitReceived, hup]
  exact if_pos (.inr hcrc)

theorem effFlitReceived_outOfSequence {l : Nat} {f : List Byte} {h : Hub} (hup : (link h l).st = .up) (hlen : f.length = 256)
    (hcrc : crc64 (f.take 244 ++ f.drop 252) = ofBytes (slice f 244 8).reverse) (htype : bits (ofBytes (f.take 4)) 11 10 = 0)
    (hseq : bits (ofBytes (f.take 4)) 9 0 ≠ ((link h l).rxSeq + 1) % 1024) :
    effFlitReceived l f h = some (setLink h l (fun k => { k with nak := true })) := by
  rw [effFlitReceived, hup]
  exact (if_neg (by simp [hlen, hcrc])).trans (if_pos ⟨htype, hseq⟩)

/-! ### Notes of the Ledger beside reports -/

/-- What a link's notes keep of the hub: the links but for what waits at their transmitters, the memories, the Sieve and the transactions. -/
structure LinkNotes (h h' : Hub) : Prop where
  queues : QueuesOnly h h'
  mem : h'.mem = h.mem
  sieve : h'.sieve = h.sieve
  txns : h'.txns = h.txns

namespace LinkNotes

theorem trans {a b c : Hub} (h1 : LinkNotes a b) (h2 : LinkNotes b c) : LinkNotes a c :=
  ⟨h1.queues.trans h2.queues, h2.mem.trans h1.mem, h2.sieve.trans h1.sieve, h2.txns.trans h1.txns⟩

theorem of_eqs (h h' : Hub) (hl : h'.links = h.links) (hm : h'.mem = h.mem) (hs : h'.sieve = h.sieve) (ht : h'.txns = h.txns) : LinkNotes h h' :=
  ⟨.of_links hl, hm, hs, ht⟩

theorem refl (h : Hub) : LinkNotes h h := of_eqs h h rfl rfl rfl rfl

theorem of_reports {h h' : Hub} (e : Reports h h') : LinkNotes h h' := ⟨e.queues, e.mem, e.sieve, e.txns⟩

theorem of_ledgerPut (rec : Nat) (f : Ledger → Ledger) (h : Hub) : LinkNotes h (ledgerPut rec f h) := by
  rcases ledgerPut_cases rec f h with ⟨_, e⟩ | e
  · rw [e]; exact of_eqs h _ rfl rfl rfl rfl
  · exact of_reports e

theorem of_saveTraining (id : Nat) (h : Hub) : LinkNotes h (saveTraining id h) := by
  unfold saveTraining
  split
  · exact refl h
  · exact of_ledgerPut ..

theorem of_countLoss (die pid hi : Nat) (h : Hub) : LinkNotes h (countLoss die pid hi h) :=
  (of_eqs h (regSetField h die 0x4084 hi (hi - 7) (satAdd (regField h die 0x4084 hi (hi - 7)) 1 8)) (by simp) (by simp) (by simp) (by simp)).trans
    (of_reports (.of_pmuEvent ..))

/-- A field of a link that does not wait at its transmitter. -/
theorem linkField {h h' : Hub} (e : LinkNotes h h') {β : Type} (g : Link → β) (hg : ∀ k q, g { k with q := q } = g k) (l : Nat) :
    g (link h' l) = g (link h l) := by
  obtain ⟨q, hq⟩ := e.queues l
  rw [hq, hg]

end LinkNotes

/-! ### Training -/

/-- A link whose training attempt failed (R316, R317). -/
def failLink (now stage reason : Nat) (k : Link) : Link :=
  { k with attempts := satAdd k.attempts 1 16, stage := stage, reason := reason, backoff := min 128 (2 ^ min k.attempts 7), backoffFrom := some now }

/-- The first failure since the link was UP has been reported. -/
def reportedLink (k : Link) : Link := { k with firstFail := false }

/-- A change that leaves a link as it is leaves every link so. -/
theorem link_setLink_of_eq {h : Hub} {l : Nat} {f : Link → Link} (hf : f (link h l) = link h l) (k : Nat) : link (setLink h l f) k = link h k := by
  by_cases e : k = l
  · rw [e, link_setLink_same, hf]
  · rw [link_setLink_other _ _ _ _ e]

/-- The report of a failure: the link is marked, and the rest is a report's (R317). -/
theorem reportDown_notes (l stage reason : Nat) (h : Hub) : LinkNotes (setLink h l reportedLink) (reportDown l stage reason h)
    ∧ WordsKept reportOffs h (reportDown l stage reason h) ∧ (reportDown l stage reason h).mons = h.mons := by
  unfold reportDown
  split
  · have rep : Reports (setLink h l reportedLink) (raiseEvt (dieOfLink l) (record 0x60 2 9 (dieOfLink l) 0 (l + 8 * stage + 64 * reason)
        (setLink h l reportedLink))) := (Reports.of_record ..).trans (.of_raiseEvt ..)
    exact ⟨.of_reports rep, (WordsKept.of_regs rfl).trans rep.words, rep.mons⟩
  · next hf =>
    have marked : reportedLink (link h l) = link h l := by
      rw [reportedLink]
      generalize link h l = k at hf
      cases k; simp at hf; rw [hf]
    refine ⟨⟨fun k => ⟨(link h k).q, ?_⟩, rfl, rfl, rfl⟩, .of_regs rfl, rfl⟩
    rw [link_setLink_of_eq marked]

theorem trainFail_eq (l stage reason : Nat) (h : Hub) : trainFail l stage reason h = reportDown l stage reason (setLink h l (failLink h.now stage reason)) := rfl

theorem effTrainingStageTimeout_fails {l : Nat} {st : TrainStage} {r : TrainReason} {h : Hub} (ha : attempting h l = true) (hst : st ≠ .eq) :
    effTrainingStageTimeout l st r h = trainFail l (stageCode st) (reasonCode r) h := by
  rw [effTrainingStageTimeout, if_pos]
  simp [ha, hst]

/-! ### Coming UP -/

/-- A link marked as below its caps, or not (R318). -/
def degradedLink (low : Bool) (k : Link) : Link := { k with degr := low }

theorem noteDegraded_notes (l : Nat) (h : Hub) : ∃ low, LinkNotes (setLink h l (degradedLink low)) (noteDegraded l h) := by
  unfold noteDegraded
  extract_lets k low h1
  refine ⟨low, ?_⟩
  split
  · exact .of_reports (.of_record ..)
  · exact .refl _

/-- A link that came UP from training: everything that counts from UP starts anew (R319, R321, R323). -/
def freshLink (h : Hub) (l : Nat) (u : UpInfo) (k : Link) : Link :=
  { k with
    st := .up, rev11 := revOf h l u, width := capWidth h l u.width.toNat, rate16 := capRate h l u.rate16, lanes := u.lanes.toNat,
    peerHub := u.hubRole, peerId := u.hubRole && u.hubId, credits := (List.range 8).map (fun p => (u.credits.getD p 0#8).toNat),
    used := List.replicate 8 0, crIn := List.replicate 8 0, crOut := List.replicate 8 0, crHeld := [], crSel := 0, txSeq := 0, rxSeq := 1023, nak := false,
    replay := [], replayAt := none, ackAt := h.now, replays := 0, q := [], cur := [], vc1Run := 0, owed := [], owedSlots := 0,
    attempts := 0, backoff := min 1 k.backoff, backoffFrom := none, firstFail := true, saved := true }

/-- What coming UP shows of the twin, and that the Kettle is up (R324, R346). -/
def meetPeer (l : Nat) (u : UpInfo) (h : Hub) : Hub :=
  let h := if l = 7 then { h with twin := { h.twin with
      peerGeom := if u.hubRole then u.proxyGeom else 0#32, peerRdMax := if u.hubRole then u.rdMax.toNat else 0 } } else h
  { h with life := { h.life with kettleUp := true } }

theorem meetPeer_notes (l : Nat) (u : UpInfo) (h : Hub) : LinkNotes h (meetPeer l u h) := by
  by_cases e : l = 7
  · subst e; exact .of_eqs h _ rfl rfl rfl rfl
  · rw [meetPeer, if_neg e]; exact .of_eqs h _ rfl rfl rfl rfl

theorem linkUpFresh_eq (l : Nat) (u : UpInfo) (h : Hub) :
    linkUpFresh l u h = checkFull (saveTraining l (noteDegraded l (meetPeer l u (setLink h l (freshLink h l u))))) := rfl

theorem linkUpFresh_notes (l : Nat) (u : UpInfo) (h : Hub) :
    ∃ low, LinkNotes (setLink h l (fun k => degradedLink low (freshLink h l u k))) (linkUpFresh l u h) := by
  have twin := meetPeer_notes l u (setLink h l (freshLink h l u))
  rw [linkUpFresh_eq]
  generalize meetPeer l u (setLink h l (freshLink h l u)) = h3 at twin ⊢
  obtain ⟨low, degr⟩ := noteDegraded_notes l h3
  have full (h : Hub) : LinkNotes h (checkFull h) := .of_eqs h _ rfl rfl rfl rfl
  have marked : LinkNotes (setLink (setLink h l (freshLink h l u)) l (degradedLink low)) (setLink h3 l (degradedLink low)) := by
    refine ⟨fun k => ?_, twin.mem, twin.sieve, twin.txns⟩
    obtain ⟨q, hq⟩ := twin.queues k
    by_cases e : k = l
    · subst e
      exact ⟨q, by rw [link_setLink_same, link_setLink_same, hq]; rfl⟩
    · exact ⟨q, by rw [link_setLink_other _ _ _ _ e, link_setLink_other _ _ _ _ e, hq]⟩
  refine ⟨low, ?_⟩
  have joined : setLink (setLink h l (freshLink h l u)) l (degradedLink low) = setLink h l (fun k => degradedLink low (freshLink h l u k)) := setLink_setLink h l (freshLink h l u) _
  rw [← joined]
  exact ((marked.trans degr).trans (.of_saveTraining ..)).trans (full _)

/-- A link that came UP again from RECOVERY in time (R325). -/
def againLink (now width lanes : Nat) (rate16 : Bool) (k : Link) : Link :=
  { k with st := .up, width := width, rate16 := rate16, lanes := lanes, ackAt := now, replays := 0,
           replayAt := if k.replay.isEmpty then none else some 0 }

theorem linkUpAgain_notes (l : Nat) (u : UpInfo) (h : Hub) :
    ∃ f : Link → Link, LinkNotes (setLink h l f) (linkUpAgain l u h)
      ∧ ∃ w r b, f (link h l) = degradedLink b (againLink h.now w u.lanes.toNat r (link h l)) := by
  unfold linkUpAgain
  extract_lets k w r w' r' h1
  split
  · refine ⟨againLink h.now w' u.lanes.toNat r', .refl _, w', r', (link h l).degr, rfl⟩
  · obtain ⟨low, notes⟩ := noteDegraded_notes l h1
    refine ⟨fun k => degradedLink low (againLink h.now w' u.lanes.toNat r' k), ?_, w', r', low, rfl⟩
    rw [← setLink_setLink h l (againLink h.now w' u.lanes.toNat r') (degradedLink low)]
    exact notes

theorem effLinkUp_fresh {l : Nat} {u : UpInfo} {h : Hub} (ha : attempting h l = true) (hw : u.width.toNat < 3) (hp : paramRefusal h l u = none) :
    effLinkUp l u h = linkUpFresh l u h := by
  have htrain : (link h l).st = .training := by
    simp only [attempting, Bool.and_eq_true, beq_iff_eq] at ha
    exact ha.1.1
  rw [effLinkUp, htrain]
  dsimp only
  rw [if_neg (by simp [ha]), if_neg (by omega), hp]

theorem effLinkUp_again {l : Nat} {u : UpInfo} {h : Hub} (hr : (link h l).st = .recovery) (hw : u.width.toNat < 3)
    (ht : h.now ≤ (link h l).recAt + 1250000) : effLinkUp l u h = linkUpAgain l u h := by
  rw [effLinkUp, hr]
  exact if_neg (by omega)

/-! ### Losing a link -/

/-- Losing monitors: those lost are gone, those with another number stay, and the rest of the hub is as reports leave it. -/
theorem loseMons_notes (p : Mon → Bool) (hi : Nat) (h : Hub) : LinkNotes h (loseMons p hi h)
    ∧ (∀ m ∈ (loseMons p hi h).mons, m ∈ h.mons ∧ p m = false)
    ∧ ∀ m ∈ h.mons, (∀ x ∈ h.mons, p x = true → x.id ≠ m.id) → m ∈ (loseMons p hi h).mons := by
  have countMons (die pid hi : Nat) (h : Hub) : (countLoss die pid hi h).mons = h.mons := by rw [countLoss, pmu_mons, regSetField_mons]
  have one (m : Mon) (h : Hub) : LinkNotes h (loseMon m hi h) ∧ (loseMon m hi h).mons = h.mons.filter (fun x => x.id != m.id) :=
    ⟨(LinkNotes.of_eqs h { h with mons := h.mons.filter (fun x => x.id != m.id) } rfl rfl rfl rfl).trans (.of_countLoss ..), countMons ..⟩
  have all (l : List Mon) (h : Hub) : LinkNotes h (forEach l (fun m h => loseMon m hi h) h)
      ∧ (forEach l (fun m h => loseMon m hi h) h).mons = h.mons.filter (fun x => l.all (fun m => x.id != m.id)) := by
    induction l generalizing h with
    | nil => exact ⟨.refl h, by simp⟩
    | cons m r ih =>
      obtain ⟨n1, e1⟩ := one m h
      obtain ⟨n2, e2⟩ := ih (loseMon m hi h)
      refine ⟨n1.trans n2, ?_⟩
      rw [forEach_cons, e2, e1, List.filter_filter]
      exact List.filter_congr fun x _ => by rw [List.all_cons, Bool.and_comm]
  obtain ⟨notes, e⟩ := all (h.mons.filter p) h
  refine ⟨notes, fun m hm => ?_, fun m hm hx => ?_⟩
  · rw [loseMons, e] at hm
    obtain ⟨hold, hk⟩ := List.mem_filter.1 hm
    refine ⟨hold, ?_⟩
    by_contra hp
    have := List.all_eq_true.1 hk m (List.mem_filter.2 ⟨hold, by simpa using hp⟩)
    simp at this
  · rw [loseMons, e]
    refine List.mem_filter.2 ⟨hm, List.all_eq_true.2 fun x hxm => ?_⟩
    obtain ⟨hxh, hxp⟩ := List.mem_filter.1 hxm
    simpa [bne_iff_ne] using (hx x hxh hxp).symm

/-- The host of a link depends on the geometries, the links' peers and the twin's geometry. -/
theorem hostOfLink_congr {h h' : Hub} (hp : (link h' 7).peerHub = (link h 7).peerHub) (hw : WordsKept reportOffs h h') (l : Nat) :
    hostOfLink h' l = hostOfLink h l := by
  have word (n : Nat) (hn : n < 7) : geomWord h' n = geomWord h n := by
    rw [geomWord, geomWord, if_pos hn, if_pos hn]
    exact hw 0 _ (by revert n; decide)
  have find : (List.range 7).find? (fun n => geomValid h' n && bitOf (geomLinks h' n) l) = (List.range 7).find? (fun n => geomValid h n && bitOf (geomLinks h n) l) := by
    refine List.find?_congr fun n hn => ?_
    have hn7 := List.mem_range.1 hn
    simp only [geomValid, geomLinks, word n hn7]
  rw [hostOfLink, hostOfLink, isTwinLink, isTwinLink, hp, find]

/-- A link's control word is none that a report writes. -/
theorem linkCtlOff_unreported {l : Nat} (hl : l < 8) : linkCtlOff l % 0x100000 ∉ reportOffs := by
  revert l; decide

/-- A link of no host with a cache that is taken down loses its monitors and nothing else of the hub (R337). -/
theorem takeDown_uncached {l : Nat} {h : Hub} (ht : linkTrained h l = true) (hh : hostOfLink h l = 8) :
    takeDown l h = loseMons (fun m => m.link == l) 7 (setLink h l (downLink (bitOf (linkCtl h l) 31))) := by
  rw [takeDown, ht, hh]; rfl

end Sys2Proof.Machine

namespace Sys2Proof.Machine.Slice0

/-- Settles O11: both events are `enterRecovery` on a link that is UP. -/
theorem recoveryEntryOfARunningLink : Obligations.RecoveryEntryOfARunningLink := by
  intro h q l i hi hup
  have hl : l.toNat < 8 := l.isLt
  have hexec : exec i ⟨h, q⟩ = .next ⟨enterRecovery l.toNat false h, q⟩ := by rcases hi with rfl | rfl <;> rfl
  rw [enterRecovery_up hup] at hexec
  refine ⟨_, hexec, ?_, fun k hk => ?_, ?_, ?_, ?_, ?_, ?_⟩
  · rw [link_linkCount, link_setLink_same]; rfl
  · rw [link_linkCount, link_setLink_other _ _ _ _ hk]
  · rw [linkCount_field _ hl (by decide)]; rfl
  · rw [linkCount_mem]; rfl
  · rw [linkCount_sieve]; rfl
  · rw [linkCount_txns]; rfl
  · rw [linkCount_life]; rfl

/-- Settles O17: the two ways in which a flit is not taken in, and the replay's timer. -/
theorem linkErrorsAreReplayed : Obligations.LinkErrorsAreReplayed := by
  refine ⟨fun h q l f hup hlen => ⟨fun hcrc => ?_, fun hcrc htype hseq _ => ?_⟩, fun h q l hup hr hn hdue => ?_⟩
  · have hexec : exec (.flitReceived l f) ⟨h, q⟩ = liftFlit (effFlitReceived l.toNat f) ⟨h, q⟩ := rfl
    rw [liftFlit, effFlitReceived_badCrc hup hcrc] at hexec
    refine ⟨_, hexec, ?_, linkCount_field h l.isLt (by decide), fun k hk => ?_, linkCount_mem ..⟩
    · rw [link_setLink_same, link_linkCount]; rfl
    · rw [link_setLink_other _ _ _ _ hk, link_linkCount]
  · have hexec : exec (.flitReceived l f) ⟨h, q⟩ = liftFlit (effFlitReceived l.toNat f) ⟨h, q⟩ := rfl
    rw [liftFlit, effFlitReceived_outOfSequence hup hlen hcrc htype hseq] at hexec
    refine ⟨_, hexec, ?_, ?_, ?_, rfl⟩ <;> rw [link_setLink_same]
  · have hexec : exec (.replayTimer l) ⟨h, q⟩ = .next ⟨effReplayTimer l.toNat h, q⟩ := rfl
    rw [effReplayTimer_due hup hr hn hdue] at hexec
    refine ⟨_, hexec, ?_⟩
    clear hexec
    by_cases hrep : (link h l.toNat).replays < 3
    · rw [startReplay_again hrep]
      refine ⟨fun _ => ?_, fun h3 => by omega, fun k hk => ?_, linkCount_field h l.isLt (by decide), linkCount_mem .., linkCount_sieve .., linkCount_txns ..⟩
      · rw [link_setLink_same, link_linkCount]; rfl
      · rw [link_setLink_other _ _ _ _ hk, link_linkCount]
    · rw [startReplay_fourth (by omega), enterRecovery_up (by rw [link_linkCount]; exact hup)]
      refine ⟨fun h3 => absurd h3 hrep, fun _ => ?_, fun k hk => ?_, ?_, ?_, ?_, ?_⟩
      · rw [link_linkCount, link_setLink_same]; rfl
      · rw [link_linkCount, link_setLink_other _ _ _ _ hk, link_linkCount]
      · rw [linkCount_field_other _ (.inr (by decide)) (by decide)]; exact linkCount_field h l.isLt (by decide)
      · rw [linkCount_mem, setLink_mem, linkCount_mem]
      · rw [linkCount_sieve, setLink_sieve, linkCount_sieve]
      · rw [linkCount_txns, setLink_txns, linkCount_txns]

/-- Settles O12: the end of a backoff, a failed stage, and one that is no failure. -/
theorem trainingBackoff : Obligations.TrainingBackoff := by
  intro h q l
  refine ⟨fun t0 ht0 hdue => ?_, fun st r ha hst => ?_, fun r => ?_⟩
  · have hexec : exec (.trainingBackoffExpiry l) ⟨h, q⟩ = .next ⟨effTrainingBackoffExpiry l.toNat h, q⟩ := rfl
    rw [hexec, effTrainingBackoffExpiry, ht0]
    dsimp only
    rw [if_pos hdue]
  · have hexec : exec (.trainingStageTimeout l st r) ⟨h, q⟩ = .next ⟨effTrainingStageTimeout l.toNat st r h, q⟩ := rfl
    rw [effTrainingStageTimeout_fails ha hst, trainFail_eq] at hexec
    refine ⟨_, hexec, ?_⟩
    clear hexec
    obtain ⟨notes, -, -⟩ := reportDown_notes l.toNat (stageCode st) (reasonCode r) (setLink h l.toNat (failLink h.now (stageCode st) (reasonCode r)))
    obtain ⟨q', hlink⟩ := notes.queues l.toNat
    rw [link_setLink_same, link_setLink_same] at hlink
    have htrain : (link h l.toNat).st = .training := by
      simp only [attempting, Bool.and_eq_true, beq_iff_eq] at ha
      exact ha.1.1
    rw [hlink]
    refine ⟨htrain, rfl, rfl, rfl, ?_, ?_, rfl, notes.mem, notes.sieve⟩
    · cases st <;> rfl
    · cases r <;> rfl
  · have hexec : exec (.trainingStageTimeout l .eq r) ⟨h, q⟩ = .next ⟨effTrainingStageTimeout l.toNat .eq r h, q⟩ := rfl
    rw [hexec, effTrainingStageTimeout, if_neg (by simp)]

/-- Settles O13: the two ways UP, behind which only notes are made. -/
theorem linkUp : Obligations.LinkUp := by
  intro h q l u hw
  have hexec : exec (.linkUp l u) ⟨h, q⟩ = .next ⟨effLinkUp l.toNat u h, q⟩ := rfl
  refine ⟨fun ha hp => ?_, fun hr ht => ?_⟩
  · rw [effLinkUp_fresh ha hw hp] at hexec
    obtain ⟨low, notes⟩ := linkUpFresh_notes l.toNat u h
    obtain ⟨q', hlink⟩ := notes.queues l.toNat
    rw [link_setLink_same] at hlink
    refine ⟨_, hexec, ?_, ?_, ?_, ?_, ?_, ?_, ?_, fun k hk => ?_, notes.mem, notes.sieve, notes.txns⟩
    iterate 7 rw [hlink]; rfl
    rw [notes.linkField Link.st (fun _ _ => rfl), link_setLink_other _ _ _ _ hk]
  · rw [effLinkUp_again hr hw ht] at hexec
    obtain ⟨f, notes, w, r, b, hf⟩ := linkUpAgain_notes l.toNat u h
    obtain ⟨q', hlink⟩ := notes.queues l.toNat
    rw [link_setLink_same, hf] at hlink
    refine ⟨_, hexec, ?_, ?_, ?_, ?_, ?_, ?_, ?_, notes.mem, notes.sieve⟩
    all_goals rw [hlink]; rfl

/-- Settles O14: a loss is reported, the link taken down, and with no host behind it only its monitors go. -/
theorem linkLost : Obligations.LinkLost := by
  intro h q l i hhost hi
  obtain ⟨code, hexec, htrained⟩ : ∃ code, exec i ⟨h, q⟩ = .next ⟨takeDown l.toNat (reportDown l.toNat 0 code h), q⟩ ∧ linkTrained h l.toNat = true := by
    rcases hi with ⟨rfl, ht⟩ | ⟨rfl, hr, hdue⟩
    · refine ⟨0, ?_, ht⟩
      show liftHub (effLinkDown l.toNat) ⟨h, q⟩ = _
      rw [liftHub_next, effLinkDown, if_pos ht]
    · refine ⟨1, ?_, by rw [linkTrained, hr]⟩
      show liftHub (effRecoveryTimeout l.toNat) ⟨h, q⟩ = _
      rw [liftHub_next, effRecoveryTimeout, if_pos (by simp [hr, hdue])]
  obtain ⟨notes, words, hmons⟩ := reportDown_notes l.toNat 0 code h
  generalize reportDown l.toNat 0 code h = h1 at *
  have hctl : linkCtl h1 l.toNat = linkCtl h l.toNat := words _ _ (linkCtlOff_unreported l.isLt)
  have hpeer : (link h1 7).peerHub = (link h 7).peerHub :=
    (notes.linkField Link.peerHub (fun _ _ => rfl) 7).trans (link_setLink_keeps (f := reportedLink) Link.peerHub (fun _ => rfl) h l.toNat 7)
  have htr1 : linkTrained h1 l.toNat = true := by
    rw [linkTrained, notes.linkField Link.st (fun _ _ => rfl), link_setLink_same]; exact htrained
  rw [takeDown_uncached htr1 ((hostOfLink_congr hpeer words _).trans hhost), hctl] at hexec
  obtain ⟨lost, gone, stay⟩ := loseMons_notes (fun m => m.link == l.toNat) 7 (setLink h1 l.toNat (downLink (bitOf (linkCtl h l.toNat) 31)))
  have field {β : Type} (g : Link → β) (hg : ∀ k q, g { k with q := q } = g k) := lost.linkField g hg l.toNat
  refine ⟨_, hexec, ?_, ?_, ?_, ?_, fun k hk => ?_, fun m hm => ?_, fun m hm hx => ?_, ?_, ?_, ?_⟩
  · rw [field Link.st (fun _ _ => rfl), link_setLink_same]; rfl
  · rw [field Link.firstFail (fun _ _ => rfl), link_setLink_same]
    exact (notes.linkField Link.firstFail (fun _ _ => rfl) l.toNat).trans (by rw [link_setLink_same]; rfl)
  · rw [field Link.owed (fun _ _ => rfl), link_setLink_same]; rfl
  · rw [field Link.owedSlots (fun _ _ => rfl), link_setLink_same]; rfl
  · rw [lost.linkField Link.st (fun _ _ => rfl), link_setLink_other _ _ _ _ hk, notes.linkField Link.st (fun _ _ => rfl), link_setLink_other _ _ _ _ hk]
  · obtain ⟨hold, hlink⟩ := gone m hm
    exact ⟨by simpa using hlink, hmons ▸ hold⟩
  · exact stay m (by rw [setLink_mons, hmons]; exact hm) (fun x hxm hxl => hx x (hmons ▸ hxm) (by simpa using hxl))
  · exact lost.mem.trans notes.mem
  · exact lost.sieve.trans notes.sieve
  · exact lost.txns.trans notes.txns

end Sys2Proof.Machine.Slice0

/-!
A flit time of a running link (R324, R329): credits are returned, and then a replayed flit, an idle flit or what the queue holds leaves.
-/

namespace Sys2Proof.Machine

/-- Returning credits changes the counts of the credits that the link gives back, and nothing else (R330). -/
theorem returnCredits_cases (l : Nat) (h : Hub) : returnCredits l h = h ∨ ∃ (o : Link → List Nat) (c : Link → List (Nat × Nat × Nat)), returnCredits l h = setLink h l (fun k => { k with crOut := o k, crHeld := c k }) := by
  rw [returnCredits]
  split
  · exact .inl rfl
  · exact .inr ⟨_, _, rfl⟩

/-- What the transmitter of a running link finds behind the return of credits. -/
structure CreditsBack (l : Nat) (h h' : Hub) : Prop where
  link : ∃ o c, link h' l = { Machine.link h l with crOut := o, crHeld := c }
  mem : h'.mem = h.mem
  sieve : h'.sieve = h.sieve

theorem returnCredits_back (l : Nat) (h : Hub) : CreditsBack l h (returnCredits l h) := by
  rcases returnCredits_cases l h with e | ⟨o, c, e⟩
  · rw [e]; exact ⟨⟨_, _, rfl⟩, rfl, rfl⟩
  · rw [e]; exact ⟨⟨_, _, link_setLink_same ..⟩, rfl, rfl⟩

/-- What putting a flit on the balls changes of the link. -/
def balledLink (body : List Byte) (k : Link) : Link := { k with cur := wholeFlit body (ackcr k), crSel := (k.crSel + 1) % 8 }

theorem putFlit_eq (l : Nat) (body : List Byte) (h : Hub) : putFlit l body h = setLink h l (balledLink body) := rfl

theorem putFlit_cur (l : Nat) (body : List Byte) (h : Hub) : (link (putFlit l body h) l).cur = wholeFlit body (ackcr (link h l)) := by
  rw [putFlit_eq, link_setLink_same]; rfl

/-- With nothing queued a flit is filled with nothing. -/
theorem fillFlit_empty {l : Nat} {f : Fill} (hq : (link f.h l).q = []) (n : Nat) : fillFlit l n f = f := by
  cases n with
  | zero => rfl
  | succ n =>
    rw [fillFlit]
    have hp : pickOut f.h l = none := by rw [pickOut, hq]; rfl
    simp only [hq, hp]
    split <;> rfl

/-- A message on a channel without snoops that waits alone, with its credit, may begin (R329, R333). -/
theorem pickOut_alone {h : Hub} {l : Nat} {o : Out} (hq : (link h l).q = [o]) (hc : o.slots ≤ creditOf (link h l) o.msg.pool) (hch : chanOf o.msg.op ≠ 1) :
    pickOut h l = some o := by
  have hw : waitsOther h l o.msg = false := by rw [waitsOther]; simp [hch]
  have hs : sendable h l [] [o] = [o] := by simp [sendable, hc, hw]
  rw [pickOut, hq, hs]
  cases hv : o.msg.vc <;> simp [List.find?, hv]

/-- The link behind the first slot of a message: its credit is used (R327). -/
def begunLink (o : Out) (k : Link) : Link :=
  { k with used := k.used.set o.msg.pool ((k.used.getD o.msg.pool 0 + o.slots) % 256),
           vc1Run := if o.msg.vc then (if k.q.any (fun x => !x.msg.vc) then k.vc1Run + 1 else 0) else 0 }

/-- A management message that begins uses its credit only. -/
theorem beginOut_management {l : Nat} {o : Out} {h : Hub} (hch : chanOf o.msg.op = 3) (hlat : o.lat = none) :
    beginOut l o h = setLink h l (begunLink o) := by
  rw [beginOut, hch, hlat]; rfl

/-- A management message that has left has no meaning for the coherence. -/
theorem endOut_management {l : Nat} {m : Msg} {h : Hub} (hch : chanOf m.op = 3) : endOut l m h = h := by
  have hr : isResponse m = false := by
    rw [isResponse]
    by_contra hc
    simp only [Bool.not_eq_false, Bool.or_eq_true, beq_iff_eq] at hc
    rcases hc with (e | e) | e <;> rw [e] at hch <;> exact absurd hch (by decide)
  rw [endOut, hr]; rfl

/-- The link behind a message that left whole. -/
def sentLink (o : Out) (k : Link) : Link := { begunLink o k with q := delFirst (fun x => x == o) k.q }

/-- A management message of one slot that waits alone fills the flit's first slot (R329). -/
theorem fillFlit_alone {l : Nat} {h : Hub} {o : Out} (hq : (link h l).q = [o]) (hsent : o.sent = 0) (hslots : o.slots = 1) (hlat : o.lat = none)
    (hdata : o.msg.data = []) (hch : chanOf o.msg.op = 3) (hc : 1 ≤ creditOf (link h l) o.msg.pool) :
    fillFlit l 15 { h := h } = { h := setLink h l (sentLink o), bytes := o.msg.slotBytes, hdr := 1, ends := [o.msg] } := by
  have hfirst : (link h l).q.find? (fun o => o.sent != 0) = none := by simp [hq, hsent]
  have hpick : pickOut h l = some o := pickOut_alone hq (by omega) (by omega)
  have hslice : slice o.msg.slotBytes 0 16 = o.msg.slotBytes := by
    rw [slice, List.drop_zero, List.take_of_length_le]
    simp [Msg.slotBytes, Msg.dslots, hdata, ceilDiv]
  have hleft : setLink (setLink h l (begunLink o)) l (fun q => { q with q := delFirst (fun x => x == o) q.q }) = setLink h l (sentLink o) := setLink_setLink ..
  have hend : (link (setLink h l (sentLink o)) l).q = [] := by
    rw [link_setLink_same, sentLink]; simp [hq, delFirst]
  have hbeg := beginOut_management (l := l) (h := h) hch hlat
  have hstep : fillFlit l 15 { h := h } = fillFlit l 14 { h := setLink h l (sentLink o), bytes := o.msg.slotBytes, hdr := 1, ends := [o.msg] } := by
    rw [fillFlit]
    simp only [List.length_nil, Nat.zero_div, ge_iff_le, hfirst, hpick, Option.map_some, hsent, hslots, hbeg, endOut_management hch]
    simp [hslice, hleft]
  rw [hstep, fillFlit_empty hend]

end Sys2Proof.Machine

namespace Sys2Proof.Machine.Slice0

/-- Settles O15: the return of credits touches no count that a flit's contents depend on. -/
theorem flitTime : Obligations.FlitTime := by
  intro h q l hup
  have hexec : exec (.flitTime l) ⟨h, q⟩ = .next ⟨effFlitTime l.toNat h, q⟩ := rfl
  obtain ⟨⟨o', c', hback⟩, hmem, hsieve⟩ := returnCredits_back l.toNat h
  rw [effFlitTime, hup] at hexec
  dsimp only at hexec
  generalize returnCredits l.toNat h = h1 at *
  have field {β : Type} (g : Link → β) (hg : ∀ k o c, g { k with crOut := o, crHeld := c } = g k) : g (link h1 l.toNat) = g (link h l.toNat) := by
    rw [hback]; exact hg ..
  refine ⟨fun i f hi hf => ?_, fun hi hq => ?_, fun o hi hq hsent hslots hlat hdata hch hc hlen => ?_⟩
  · have hbind : (link h1 l.toNat).replayAt.bind (fun i => (link h1 l.toNat).replay[i]?) = some f := by
      rw [field Link.replayAt fun _ _ _ => rfl, field Link.replay fun _ _ _ => rfl, hi]; exact hf
    rw [hbind] at hexec
    dsimp only at hexec
    generalize hmoved : setLink h1 l.toNat _ = h2 at hexec
    have notes : LinkNotes h2 (pmu 0x20 (dieOfLink l.toNat) 1 { port := some l.toNat } h2) := .of_reports (.of_pmuEvent ..)
    obtain ⟨q', hlink⟩ := notes.queues l.toNat
    subst hmoved
    rw [link_setLink_same] at hlink
    refine ⟨_, _, hexec, putFlit_cur .., ?_⟩
    rw [putFlit_eq, link_setLink_same, hlink]
    refine ⟨field Link.replay fun _ _ _ => rfl, field Link.txSeq fun _ _ _ => rfl, ?_, by rw [setLink_mem, notes.mem, setLink_mem, hmem]⟩
    show (if (link h1 l.toNat).replayAt.getD 0 + 1 < (link h1 l.toNat).replay.length then _ else _) = _
    rw [field Link.replayAt fun _ _ _ => rfl, field Link.replay fun _ _ _ => rfl, hi]; rfl
  · have hbind : (link h1 l.toNat).replayAt.bind (fun i => (link h1 l.toNat).replay[i]?) = none := by
      rw [field Link.replayAt fun _ _ _ => rfl, hi]; rfl
    have hq1 : (link h1 l.toNat).q = [] := (field Link.q fun _ _ _ => rfl).trans hq
    have hidle : exec (.flitTime l) ⟨h, q⟩ = .next ⟨putFlit l.toNat (flitBody 0 1 0 []) h1, q⟩ := by
      rw [hexec, hbind]
      dsimp only
      rw [fillFlit_empty (f := { h := h1 }) hq1]
      split <;> rfl
    refine ⟨_, _, hidle, putFlit_cur .., ?_⟩
    rw [putFlit_eq, link_setLink_same]
    exact ⟨field Link.replay fun _ _ _ => rfl, field Link.txSeq fun _ _ _ => rfl, congrArg (fun n => (n + 1) % 8) (field Link.crSel fun _ _ _ => rfl), hmem⟩
  · have hbind : (link h1 l.toNat).replayAt.bind (fun i => (link h1 l.toNat).replay[i]?) = none := by
      rw [field Link.replayAt fun _ _ _ => rfl, hi]; rfl
    have hreplay := field Link.replay fun _ _ _ => rfl
    have hc1 : 1 ≤ creditOf (link h1 l.toNat) o.msg.pool := by rw [hback]; exact hc
    have hq1 : (link h1 l.toNat).q = [o] := (field Link.q fun _ _ _ => rfl).trans hq
    rw [hbind, hreplay] at hexec
    dsimp only at hexec
    have hbytes : o.msg.slotBytes.isEmpty = false := by
      rw [← Bool.not_eq_true, List.isEmpty_iff_length_eq_zero]
      simp [Msg.slotBytes]
    rw [if_neg (by omega), fillFlit_alone hq1 hsent hslots hlat hdata hch hc1] at hexec
    dsimp only at hexec
    rw [hbytes] at hexec
    have hseq := field Link.txSeq fun _ _ _ => rfl
    rw [if_neg (by simp), if_pos rfl, hseq] at hexec
    refine ⟨_, _, hexec, putFlit_cur .., ?_⟩
    rw [putFlit_eq, setLink_setLink, setLink_setLink, link_setLink_same, ← hseq]
    refine ⟨congrArg (· ++ _) hreplay, rfl, ?_, hmem, hsieve⟩
    show delFirst (fun x => x == o) (link h1 l.toNat).q = []
    rw [hq1]; simp [delFirst]

end Sys2Proof.Machine.Slice0

/-!
What a cycle leaves as it is, and the obligations on a step, on the machine before its first power-up and on the pins beside the links.
-/

namespace Sys2Proof.Machine

/-- Counting: the time and the memories stay. -/
structure Counted (h h' : Hub) : Prop where
  now : h'.now = h.now
  mem : h'.mem = h.mem

namespace Counted

theorem refl (h : Hub) : Counted h h := ⟨rfl, rfl⟩

theorem trans {a b c : Hub} (e1 : Counted a b) (e2 : Counted b c) : Counted a c := ⟨e2.now.trans e1.now, e2.mem.trans e1.mem⟩

/-- Behind a change that leaves both. -/
theorem after {h a b : Hub} (e : Counted a b) (hnow : a.now = h.now) (hmem : a.mem = h.mem) : Counted h b := ⟨e.now.trans hnow, e.mem.trans hmem⟩

theorem ite {c : Prop} [Decidable c] {h a b : Hub} (ha : Counted h a) (hb : Counted h b) : Counted h (if c then a else b) := by
  split <;> assumption

theorem forEach {α : Type} {f : α → Hub → Hub} (hf : ∀ x h, Counted h (f x h)) (l : List α) (h : Hub) : Counted h (forEach l f h) :=
  ⟨forEach_keeps Hub.now f (fun x h => (hf x h).now) l h, forEach_keeps Hub.mem f (fun x h => (hf x h).mem) l h⟩

theorem of_pmu (ev die x : Nat) (a : Attr) (h : Hub) : Counted h (pmu ev die x a h) := ⟨pmu_now .., pmu_mem ..⟩

theorem of_pmuOverflow (die b : Nat) (h : Hub) : Counted h (pmuOverflow die b h) := ⟨pmuOverflow_now .., pmuOverflow_mem ..⟩

theorem of_pageAdd (pid i x : Nat) (h : Hub) : Counted h (pageAdd pid i x h) := ⟨pageAdd_now .., pageAdd_mem ..⟩

theorem of_colGap (die : Nat) (h : Hub) : Counted h (colGap die h) := ⟨colGap_now .., colGap_mem ..⟩

theorem of_cycleCount (die : Nat) (h : Hub) : Counted h (cycleCount die h) := by
  rw [cycleCount]
  exact .ite (.refl h) (.ite ((of_pmuOverflow ..).after rfl rfl) ⟨rfl, rfl⟩)

theorem of_slotCount (sl pid cat : Nat) (h : Hub) : Counted h (slotCount sl pid cat h) := by
  rw [slotCount]
  exact .ite ⟨rfl, rfl⟩ (.of_pageAdd ..)

theorem of_slotUnused (sl pid : Nat) (h : Hub) : Counted h (slotUnused sl pid h) := by
  rw [slotUnused]
  split
  · exact trans (.of_pageAdd ..) (.of_slotCount ..)
  · exact .of_slotCount ..

theorem of_slotCycle (sl : Nat) (h : Hub) : Counted h (slotCycle sl h) := by
  rw [slotCycle]
  split
  · exact .refl h
  · dsimp only
    split
    · exact (of_slotUnused ..).after rfl rfl
    · exact .ite ((of_slotCount ..).after rfl rfl) (.ite ⟨rfl, rfl⟩ (((of_slotUnused ..).trans (of_pageAdd ..)).after rfl rfl))

theorem of_dieCycle (die : Nat) (h : Hub) : Counted h (dieCycle die h) := by
  have trackers (h : Hub) : Counted h (if trkOnDie h die = 0 then h else pmu 0x21 die (trkOnDie h die) {} h) := .ite (.refl h) (.of_pmu ..)
  have buffers (h : Hub) : Counted h (if wbOnDie h die = 0 then h else pmu 0x22 die (wbOnDie h die) {} h) := .ite (.refl h) (.of_pmu ..)
  have stalls (h : Hub) : Counted h (Machine.forEach (h.txns.filter (fun t => t.ph == .stalled && dieOfSlice t.slice == die)) (fun t h => pmuReq 0x08 t.req h) h) :=
    forEach (fun _ _ => of_pmu ..) _ _
  have occupancy (h : Hub) : Counted h (Machine.forEach ((List.range 4).map (fun k => 4 * die + k)) occCycle h) :=
    forEach (f := occCycle) (fun _ _ => ⟨rfl, rfl⟩) _ _
  have slots (h : Hub) : Counted h (Machine.forEach ((List.range 16).map (fun k => 16 * die + k)) slotCycle h) := forEach (fun _ _ => of_slotCycle ..) _ _
  exact ((((((of_colGap die h).trans (of_cycleCount die _)).trans (trackers _)).trans (buffers _)).trans (stalls _)).trans (occupancy _)).trans (slots _)

end Counted

/-- A cycle only counts, behind its own tick of the time. -/
theorem cycle_counted (h : Hub) : Counted { h with now := h.now + 1 } (cycle h) :=
  .ite (.refl _) (.forEach (fun _ _ => .of_dieCycle ..) _ _)

/-- The I3C target's value by the index byte (R432). -/
theorem i3cValue_byte (h : Hub) (x : Byte) : i3cValue h x.toNat =
    (if x = 0#8 then regValue h 0 0x00 else if x = 1#8 then regValue h 0 0x04 else if x = 2#8 then regValue h 0 0x0C
     else if x = 3#8 then regValue h 0 0x6808 else if x = 4#8 then regValue h 0 0x2C else if x = 5#8 then regValue h 1 0x2C
     else if x = 6#8 then regValue h 0 0x4304 else 0) := by
  simp only [BitVec.toNat_eq, BitVec.toNat_ofNat]
  generalize x.toNat = n
  rw [i3cValue.eq_def]
  split <;> simp_all

end Sys2Proof.Machine

namespace Sys2Proof.Machine.Slice0

/-- Settles O57: a step is `exec` of the front command, and a cycle where there is none. -/
theorem stepRunsTheFrontCommand : Obligations.StepRunsTheFrontCommand := by
  intro h q
  refine ⟨fun _ => rfl, rfl, (cycle_counted h).now, fun hlow => ?_⟩
  exact if_pos (by simp [hlow])

/-- Settles O58: `State.reset` lists nothing, so every register word and every structure reads its default. -/
theorem resetState : Obligations.ResetState := by
  refine ⟨show ({} : Hub).mem.wf = true by decide +kernel, rfl, rfl, rfl, by decide +kernel, by decide +kernel, by decide +kernel, by decide +kernel, by decide +kernel, ?_,
    by decide +kernel, by decide +kernel, rfl, rfl, rfl, rfl, fun _ => rfl, fun _ => rfl⟩
  decide +kernel

/-- Settles O60: each TAP instruction and each I3C transfer is one update of the pins' state. -/
theorem sidebandPinsSelectAndAnswer : Obligations.SidebandPinsSelectAndAnswer := by
  intro h q
  have boundary (code : Nat) : liftHub (extestOr code) ⟨h, q⟩ = .next ⟨if h.life.resetLow then loadTap code none h else effBypass h, q⟩ := rfl
  refine ⟨rfl, rfl, rfl, fun hlow => ?_, fun hhigh => ⟨fun i hi => ?_, fun a => ?_, fun x => ?_⟩⟩
  · have load (code : Nat) := (boundary code).trans (by rw [if_pos hlow])
    exact ⟨load 3, load 4, load 5⟩
  · have load (code : Nat) : liftHub (extestOr code) ⟨h, q⟩ = exec .bypass ⟨h, q⟩ := (boundary code).trans (by rw [if_neg (by simp [hhigh])]; rfl)
    rcases List.mem_cons.1 hi with rfl | hi
    · exact load 3
    rcases List.mem_cons.1 hi with rfl | hi
    · exact load 4
    · exact List.mem_singleton.1 hi ▸ load 5
  · have hexec : exec (.i3cDynamicAddress a) ⟨h, q⟩ = .next ⟨effI3cDynamicAddress a.toNat h, q⟩ := rfl
    rw [hexec, effI3cDynamicAddress, if_neg (by simp [hhigh])]; rfl
  · have hexec : exec (.i3cRead x) ⟨h, q⟩ = .next ⟨effI3cRead x.toNat h, q⟩ := rfl
    rw [hexec, effI3cRead, if_neg (by simp [hhigh]), i3cValue_byte]; rfl

end Sys2Proof.Machine.Slice0

/-!
Accesses of a window whose die is in warm reset, over a link of the other die: the Seam holds them (R25), so none is answered.
-/

namespace Sys2Proof.Machine

/-- LID_KEY_WRITE as the register write that it is. -/
theorem exec_lidKeyWrite (a : RegAcc) (v : Word32) (h : Hub) (q : List Instr) : exec (.lidKeyWrite a v) ⟨h, q⟩ = .next ⟨regWrite a 0x24 v h, q⟩ := rfl

/-- PMU_CLR_CYC as the register write that it is. -/
theorem exec_pmuClrCyc (a : RegAcc) (v : Word32) (h : Hub) (q : List Instr) : exec (.pmuClrCyc a v) ⟨h, q⟩ = .next ⟨regWrite a 0x4904 v h, q⟩ := rfl

/-- CMD_DB as the register write that it is. -/
theorem exec_cmdDb (a : RegAcc) (m : BitVec 2) (v : Word32) (h : Hub) (q : List Instr) :
    exec (.cmdDb a m v) ⟨h, q⟩ = .next ⟨regWrite a (managerOff m 0) v h, q⟩ := rfl

/-- The access of `eastAccess` meets the guards of a window access at every offset, and East's Lid is closed with no pair pending. -/
theorem eastInWarmReset_mayAccess_any (off : Nat) :
    eastInWarmReset.mayAccess eastAccess off ∧ (lid eastInWarmReset eastAccess.die.toNat).pair = none
      ∧ (lid eastInWarmReset eastAccess.die.toNat).openAt = none := by
  obtain ⟨trained, admitted, inRun, allowed⟩ := eastInWarmReset_mayAccess
  exact ⟨⟨trained, admitted, inRun, fun _ => allowed (.inl (by decide))⟩, by decide +kernel, by decide +kernel⟩

/-- No write of `eastAccess` is answered. -/
theorem not_acked_eastWrite {off : Nat} (hoff : off < 2 ^ 20) (v : Word32) (st : Nat) (x : Option (Nat × Nat)) :
    ¬ eastInWarmReset.acked (regWrite eastAccess off v eastInWarmReset) eastAccess st x :=
  not_acked_regWrite_held eastAccess off v eastInWarmReset hoff (by decide +kernel) (by decide +kernel) (by decide) st x

end Sys2Proof.Machine

namespace Sys2Proof.Machine.Slice0

/-- Refutes O50: a doorbell in the window of a die in warm reset, rung over a link of the other die by a writer that may not use the page, is held at the
Seam (R25) and not answered DENIED. -/
theorem not_doorbellsMoveRings : ¬ Obligations.DoorbellsMoveRings := by
  unfold Obligations.DoorbellsMoveRings
  intro holds
  obtain ⟨access, -, -⟩ := eastInWarmReset_mayAccess_any 0x10000
  obtain ⟨u, hexec, hacked, -⟩ := (((holds eastInWarmReset [] eastAccess 0#32).1 0#2 access).2 (by decide +kernel)).1
  rw [exec_cmdDb] at hexec
  cases hexec
  exact not_acked_eastWrite (by decide) 0#32 3 none hacked

/-- Refutes O51: the key written to the Lid of a die in warm reset over a link of the other die is held at the Seam (R25) and not answered. -/
theorem not_pairsCommit : ¬ Obligations.PairsCommit := by
  unfold Obligations.PairsCommit
  intro holds
  obtain ⟨access, noPair, closed⟩ := eastInWarmReset_mayAccess_any 0x24
  obtain ⟨u, hexec, hacked, -⟩ := (holds eastInWarmReset [] eastAccess 0x6B7A#32 0#32 0).1 access noPair closed
  rw [exec_lidKeyWrite] at hexec
  cases hexec
  exact not_acked_eastWrite (by decide) 0x6B7A#32 0 none hacked

/-- Refutes O52: a write of PMU_CLR.CYC in the window of a die in warm reset over a link of the other die is held at the Seam (R25) and not answered. -/
theorem not_configurationWrites : ¬ Obligations.ConfigurationWrites := by
  unfold Obligations.ConfigurationWrites
  intro holds
  obtain ⟨access, noPair, -⟩ := eastInWarmReset_mayAccess_any 0x4904
  obtain ⟨-, -, -, -, -, clear, -⟩ := holds eastInWarmReset [] eastAccess 0x100#32 noPair
  obtain ⟨u, hexec, hacked, -⟩ := clear access (by decide) (by decide)
  rw [exec_pmuClrCyc] at hexec
  cases hexec
  exact not_acked_eastWrite (by decide) 0x100#32 0 none hacked

/-- Refutes O53: a read of the Kettle's counts in the window of a die in warm reset over a link of the other die is held at the Seam (R25) and not
answered. -/
theorem not_clearOnReadAndFetches : ¬ Obligations.ClearOnReadAndFetches := by
  unfold Obligations.ClearOnReadAndFetches
  intro holds
  obtain ⟨access, noPair, closed⟩ := eastInWarmReset_mayAccess_any 0x4800
  obtain ⟨u, hexec, hacked, -⟩ := (holds eastInWarmReset [] eastAccess 0#32 0#2 0#1 noPair closed).1 access
  rw [exec_clearOnRead] at hexec
  cases hexec
  exact not_acked_regRead_held eastAccess _ eastInWarmReset (by decide) (by decide +kernel) (by decide) 0 _ hacked

end Sys2Proof.Machine.Slice0

/-!
Ticks, the steward's pass and the windows' ends (R174 to R177, R195 to R197, R351, R365, R374), and two events whose statements leave out a case.
-/

namespace Sys2Proof.Machine

/-! ### Ticks -/

/-- Where no accepted tick waits, FRAME_TICK changes nothing. -/
theorem effFrameTick_idle {h : Hub} (hp : h.fs.tickPend = 0) : effFrameTick h = h := if_pos hp

/-- A tick of the source is taken from the guard on, and the first one at once (R175, R437). -/
theorem realTick_taken {h : Hub} (hs : h.fs.started = true) (hp : h.fs.tickPend = 0)
    (hg : h.fs.fresh = true ∨ h.fs.tickAt + max 4000 (h.fs.period / 2) * 1250 ≤ h.now) :
    realTick h.now h = { h with fs := { h.fs with tickPend := 1, fresh := false, tickAt := h.now, synthRun := 0 } } := by
  have hc : ¬(!h.fs.fresh && decide (h.now < h.fs.tickAt + guardCycles h)) = true := by
    rcases hg with hf | hg
    · simp [hf]
    · have : guardCycles h = max 4000 (h.fs.period / 2) * 1250 := rfl
      simp only [Bool.and_eq_true, decide_eq_true_eq, not_and]
      omega
  rw [realTick, if_neg (by simp [hs]), if_neg hc, effFrameTick_idle hp]; rfl

/-- One that comes sooner is counted (R175). -/
theorem realTick_early {h : Hub} (hs : h.fs.started = true) (hf : h.fs.fresh = false) (hg : h.now < h.fs.tickAt + max 4000 (h.fs.period / 2) * 1250) :
    realTick h.now h = regSetField h 0 0x4120 23 16 (satAdd (regField h 0 0x4120 23 16) 1 8) := by
  rw [realTick, if_neg (by simp [hs]), if_pos]
  have : guardCycles h = max 4000 (h.fs.period / 2) * 1250 := rfl
  simp [hf, this, hg]

/-- A count of FS_STAT, which stops at its field's most. -/
theorem fsStat_count (h : Hub) {hi lo : Nat} (hhi : hi < 32) (hw : hi + 1 - lo = 8) :
    regField (regSetField h 0 0x4120 hi lo (satAdd (regField h 0 0x4120 hi lo) 1 8)) 0 0x4120 hi lo = min (regField h 0 0x4120 hi lo + 1) 255 := by
  have := satAdd_mod (regField h 0 0x4120 hi lo) 1 8
  rw [regField_regSetField_same _ _ _ _ _ _ (by decide) hhi, hw, this]; rfl

/-- A tick that is missed is replaced by a synthetic one (R176). -/
theorem effSyntheticTick_due {h : Hub} (hs : h.fs.started = true) (hp : h.fs.tickPend = 0) (hsrc : h.fs.srcNow ≠ 3)
    (hd : h.fs.tickAt + h.fs.period * 5 / 4 * 1250 ≤ h.now) :
    effSyntheticTick h = setFs (fun f => { f with tickPend := 2, tickAt := h.now, synthRun := f.synthRun + 1 })
      (regSetField h 0 0x4120 31 24 (satAdd (regField h 0 0x4120 31 24) 1 8)) := by
  rw [effSyntheticTick, if_pos (by simp [hs, hsrc, cyclesPerUs, hd])]
  dsimp only
  rw [effFrameTick_idle (by rw [regSetField_fs, hp]), regSetField_now]

/-- The tick's source after FAILOVER synthetic ticks in a row (R177), before the change is recorded. -/
def failedOver (h : Hub) : Hub := regSetField (setFs (fun f => { f with srcNow := bits h.fs.tickCtl.toNat 3 2, synthRun := 0 }) h) 0 0x4120 2 2 1

theorem effTickFailover_due {h : Hub} (hn : 0 < bits h.fs.tickCtl.toNat 11 8) (hrun : bits h.fs.tickCtl.toNat 11 8 ≤ h.fs.synthRun)
    (hsrc : h.fs.srcNow ≠ bits h.fs.tickCtl.toNat 3 2) : Reports (failedOver h) (effTickFailover h) := by
  have hc : ¬(decide (bits h.fs.tickCtl.toNat 11 8 = 0) || decide (h.fs.synthRun < bits h.fs.tickCtl.toNat 11 8)
      || h.fs.srcNow == bits h.fs.tickCtl.toNat 3 2) = true := by
    simp only [Bool.or_eq_true, decide_eq_true_eq, beq_iff_eq, not_or]; omega
  have same : setFs (fun f => { f with srcNow := bits h.fs.tickCtl.toNat 3 2, synthRun := 0 }) (regSetField h 0 0x4120 2 2 1) = failedOver h := by
    rw [failedOver, regSetField, regSetField, regPut, regPut]
    split <;> rfl
  rw [effTickFailover]
  dsimp only
  rw [if_neg hc, same]
  exact (Reports.of_record ..).trans (.of_raiseEvt ..)

/-! ### The steward (R195 to R197) -/

/-- Way moves are decisions of kind 0. -/
theorem kind_of_mem_wayMoves {hyst : Nat} {ps : List (Nat × Part)} {h : Hub} {d : Decision} :
    ∀ {fuel : Nat} {ms : Bank (BitVec 16)} {moved : List Nat} {pick : Nat}, d ∈ wayMoves hyst ps h fuel ms moved pick → d.kind = 0
  | 0, _, _, _, hd => absurd hd List.not_mem_nil
  | fuel + 1, ms, moved, pick, hd => by
    rw [wayMoves] at hd
    dsimp only at hd
    split at hd
    · exact absurd hd List.not_mem_nil
    split at hd
    · exact absurd hd List.not_mem_nil
    split at hd
    · rcases List.mem_cons.1 hd with rfl | hd
      · rfl
      · exact kind_of_mem_wayMoves hd
    split at hd
    · exact absurd hd List.not_mem_nil
    split at hd
    · exact absurd hd List.not_mem_nil
    split at hd
    · exact absurd hd List.not_mem_nil
    rcases List.mem_cons.1 hd with rfl | hd
    · rfl
    rcases List.mem_cons.1 hd with rfl | hd
    · rfl
    · exact kind_of_mem_wayMoves hd

/-- Depth moves are of kind 1, each for an ACTIVE partition of which at least 64 prefetched lines landed. -/
theorem mem_depthMoves {h : Hub} {d : Decision} (hd : d ∈ depthMoves h) :
    d.kind = 1 ∧ ∃ k, (d.pid, k) ∈ h.parts ∧ k.st = .active ∧ 64 ≤ k.landedDone := by
  rw [depthMoves] at hd
  dsimp only at hd
  split at hd
  · exact absurd hd List.not_mem_nil
  obtain ⟨⟨p, k⟩, he, hmove⟩ := List.mem_filterMap.1 hd
  obtain ⟨hin, hact⟩ := List.mem_filter.1 he
  dsimp only at hmove
  by_cases hl : k.landedDone < 64
  · rw [if_pos hl] at hmove; cases hmove
  have found : ∃ k, (p, k) ∈ h.parts ∧ k.st = .active ∧ 64 ≤ k.landedDone := ⟨k, hin, by simpa using hact, by omega⟩
  rw [if_neg hl] at hmove
  split at hmove
  · cases hmove; exact ⟨rfl, found⟩
  · split at hmove
    · cases hmove; exact ⟨rfl, found⟩
    · cases hmove

/-- Paces are of kind 2, between floor and ceiling of their Whisk, or at the floor where it is above the ceiling. -/
theorem mem_paceMoves {h : Hub} {frame : Nat} {d : Decision} (hd : d ∈ paceMoves h frame) :
    d.kind = 2 ∧ floorLines h d.pid ≤ d.newV ∧ d.newV ≤ max (floorLines h d.pid) (ceilLines h d.pid) := by
  rw [paceMoves] at hd
  split at hd
  · exact absurd hd List.not_mem_nil
  obtain ⟨r, -, rfl⟩ := List.mem_map.1 hd
  exact ⟨rfl, Nat.le_max_left .., max_le_max_left _ (Nat.min_le_left ..)⟩

/-- The decisions of a pass, in their order. -/
def passDecisions (f : Nat) (h : Hub) : List Decision :=
  (if cacheExpert h || h.cache.cst != .on then []
   else wayMoves (regField h 0 0x4128 23 16) (stewParts h) h 64 (h.parts.map (fun e => (e.1, e.2.wayMask))) [] h.free) ++ depthMoves h ++ paceMoves h f

theorem effStewardPass_made {h : Hub} {f : Nat} (hf : h.fs.passFrame = some f) (hstep : h.fs.step < 8) (hrun : h.life.phase = .run) :
    effStewardPass h = { h with free := h.free + 64, fs := { h.fs with passFrame := none, decisions := h.fs.decisions ++ passDecisions f h } } := by
  rw [effStewardPass, hf]
  dsimp only
  rw [if_neg (by simp [hrun, hstep]), passDecisions, ← List.append_assoc, ← List.append_assoc]

theorem mem_passDecisions {f : Nat} {h : Hub} {d : Decision} (hd : d ∈ passDecisions f h) : d.kind = 0 ∨ d ∈ depthMoves h ∨ d ∈ paceMoves h f := by
  rcases List.mem_append.1 hd with hd | hd
  · rcases List.mem_append.1 hd with hd | hd
    · split at hd
      · exact absurd hd List.not_mem_nil
      · exact .inl (kind_of_mem_wayMoves hd)
    · exact .inr (.inl hd)
  · exact .inr (.inr hd)

/-- FRAME_OVERRUN: what is counted before it is recorded (R192). -/
def overrunCounted (cause : Nat) (h : Hub) : Hub :=
  let h := regSetField h 0 0x4120 0 0 1
  let h := regSetField h 0 0x4120 15 8 (satAdd (regField h 0 0x4120 15 8) 1 8)
  regSetField h 0 0x4124 (24 - 8 * cause + 7) (24 - 8 * cause) (satAdd (regField h 0 0x4124 (24 - 8 * cause + 7) (24 - 8 * cause)) 1 8)

theorem overrun_reports (cause units : Nat) (dropped : Bool) (h : Hub) : Reports (overrunCounted cause h) (overrun cause units dropped h) :=
  (Reports.of_record ..).trans (.of_raiseEvt ..)

theorem overrunCounted_stat (cause : Nat) (h : Hub) : regField (overrunCounted cause h) 0 0x4120 0 0 = 1 := by
  unfold overrunCounted
  extract_lets h1 h2
  rw [regField, regGet_regSetField_ne _ _ _ _ _ _ _ (by decide), ← regField, regField_regSetField_other _ _ _ _ _ _ _ _ (.inl (by decide)) (by decide),
    regField_regSetField_same _ _ _ _ _ _ (by decide) (by decide)]
  rfl

/-! ### Windows (R351, R365, R374) -/

/-- How far a die's PMU window has to go. -/
def windowLeft (die : Nat) (w : Option Nat) (h : Hub) : Hub := { h with pmu := bupd h.pmu die {} (fun p => { p with winLeft := w }) }

theorem pmuOf_windowLeft_same (die : Nat) (w : Option Nat) (h : Hub) : pmuOf (windowLeft die w h) die = { pmuOf h die with winLeft := w } :=
  bget_bupd_same h.pmu die {} (fun p => { p with winLeft := w })

theorem pmuOf_windowLeft_other {die e : Nat} (w : Option Nat) (h : Hub) (he : e ≠ die) : pmuOf (windowLeft die w h) e = pmuOf h e :=
  bget_bupd_other h.pmu die e {} (fun p => { p with winLeft := w }) he

/-- A PMU window of one die, which ends where it has come to 0. -/
def pmuDieEnd (die : Nat) (h : Hub) : Hub :=
  if (pmuOf h die).winLeft = some 0 then
    windowLeft die (if pmuWidth (pmuWindow die h) die = 0 then none else some (pmuWidth (pmuWindow die h) die)) (pmuWindow die h)
  else h

theorem effPmuWindowEnd_eq (h : Hub) : effPmuWindowEnd h = pmuDieEnd 1 (pmuDieEnd 0 h) := rfl

/-- The end of a window leaves all but its die's counters. -/
theorem pmuDieEnd_keeps (die : Nat) (h : Hub) : (pmuDieEnd die h).regs = h.regs ∧ (pmuDieEnd die h).mem = h.mem ∧ (pmuDieEnd die h).links = h.links
    ∧ ∀ e, e ≠ die → pmuOf (pmuDieEnd die h) e = pmuOf h e := by
  by_cases hw : (pmuOf h die).winLeft = some 0
  · rw [pmuDieEnd, if_pos hw]
    refine ⟨rfl, rfl, rfl, fun e he => ?_⟩
    rw [pmuOf_windowLeft_other _ _ he]
    exact bget_bset_other _ _ _ _ _ he
  · rw [pmuDieEnd, if_neg hw]
    exact ⟨rfl, rfl, rfl, fun _ _ => rfl⟩

theorem bget_map_range {α : Type} {f : Nat → α} {d : α} {n k : Nat} (hk : n < k) : bget ((List.range k).map (fun i => (i, f i))) n d = f n := by
  suffices hs : ∀ lo, lo ≤ n → bfind ((List.range' lo (k - lo)).map (fun i => (i, f i))) n = some (f n) by
    rw [bget, List.range_eq_range']
    have := hs 0 (Nat.zero_le n)
    rw [Nat.sub_zero] at this
    rw [this]; rfl
  intro lo hlo
  induction hm : k - lo generalizing lo with
  | zero => omega
  | succ m ih =>
    rw [List.range'_succ, List.map_cons, bfind]
    by_cases e : lo = n
    · rw [if_pos e, e]
    · rw [if_neg e, ← ih (lo + 1) (by omega) (by omega)]

/-- A window that has come to its end: the counters are copied and start again from 0 (R365). -/
theorem pmuDieEnd_ends {die : Nat} {h : Hub} (hw : (pmuOf h die).winLeft = some 0) :
    (∀ n, n < 8 → bget (pmuOf (pmuDieEnd die h) die).lat n 0 = bget (pmuOf h die).cnt n 0)
      ∧ (pmuOf (pmuDieEnd die h) die).cnt = [] ∧ (pmuOf (pmuDieEnd die h) die).cyc = (pmuOf h die).cyc := by
  have copied : pmuOf (pmuWindow die h) die = { pmuOf h die with lat := (List.range 8).map (fun n => (n, bget (pmuOf h die).cnt n 0)), cnt := [] } :=
    bget_bset_same ..
  have ended : ∃ w, pmuOf (pmuDieEnd die h) die = { pmuOf (pmuWindow die h) die with winLeft := w } := by
    rw [pmuDieEnd, if_pos hw]
    exact ⟨_, pmuOf_windowLeft_same ..⟩
  obtain ⟨w, ended⟩ := ended
  rw [ended, copied]
  exact ⟨fun n hn => bget_map_range hn, rfl, rfl⟩

/-- A bank's entry behind a map over its values that keeps the default. -/
theorem bget_map_values {α : Type} (b : Bank α) (f : α → α) {d : α} (hd : f d = d) (i : Nat) : bget (b.map (fun e => (e.1, f e.2))) i d = f (bget b i d) := by
  induction b with
  | nil => exact hd.symm
  | cons e r ih =>
    rw [List.map_cons, bget, bget, bfind, bfind]
    split
    · rfl
    · exact ih

theorem foldHistory_kept {h : Hub} (hf : h.led.failing = []) : ∃ recs, foldHistory h = { h with led := { h.led with
    recs := recs, typeNew := []
    typeCnt := h.led.typeNew.foldl (fun (b : Bank Nat) (e : Nat × Nat) => bupd b e.1 0 (fun n => satAdd n e.2 32)) h.led.typeCnt } } := by
  rw [foldHistory, ledgerPut, ledgerWrite, hf]
  exact ⟨_, rfl⟩

end Sys2Proof.Machine

namespace Sys2Proof.Machine.Slice0

/-- Settles O19: an edge and the internal timer come to one tick of the source; the other two events are single updates. -/
theorem ticksAreGuardedAndReplaced : Obligations.TicksAreGuardedAndReplaced := by
  refine ⟨fun h q i hs hp hi => ?_, fun h q => ⟨fun hs hp hsrc hd => ?_, fun hsrc => ?_, fun hn hrun hsrc => ?_⟩⟩
  · have hexec : exec i ⟨h, q⟩ = .next ⟨realTick h.now h, q⟩ := by
      rcases hi with ⟨b, f, rfl, hsrc, hdir⟩ | ⟨rfl, hsrc, hd⟩
      · show liftHub (effFtickEdge b f) ⟨h, q⟩ = _
        rw [liftHub_next, effFtickEdge, if_pos ⟨by cases b <;> exact hsrc, hdir⟩]
      · show liftHub effInternalTimerTick ⟨h, q⟩ = _
        rw [liftHub_next, effInternalTimerTick, if_pos ⟨hsrc, hd⟩]
    refine ⟨fun hg => by rw [hexec, realTick_taken hs hp hg], fun hf hg => ?_⟩
    rw [realTick_early hs hf hg] at hexec
    exact ⟨_, hexec, regSetField_fs .., fsStat_count h (by decide) rfl, regSetField_mem .., regSetField_links .., regSetField_parts ..⟩
  · have hexec : exec .syntheticTick ⟨h, q⟩ = .next ⟨effSyntheticTick h, q⟩ := rfl
    rw [effSyntheticTick_due hs hp hsrc hd] at hexec
    refine ⟨_, hexec, ?_, ?_, ?_, ?_⟩
    · rw [setFs, regSetField_fs]
    · exact (regField_of_regs_eq rfl ..).trans (fsStat_count h (by decide) rfl)
    · rw [setFs_mem, regSetField_mem]
    · rw [setFs_links, regSetField_links]
  · have hexec : exec .syntheticTick ⟨h, q⟩ = .next ⟨effSyntheticTick h, q⟩ := rfl
    rw [hexec, effSyntheticTick, if_neg (by simp [hsrc])]
  · have hexec : exec .tickFailover ⟨h, q⟩ = .next ⟨effTickFailover h, q⟩ := rfl
    have rep := effTickFailover_due hn hrun hsrc
    refine ⟨_, hexec, ?_, ?_, ?_⟩
    · rw [rep.fs, failedOver, regSetField_fs]; rfl
    · rw [rep.words.field _ _ _ _ (by decide), failedOver, regField_regSetField_same _ _ _ _ _ _ (by decide) (by decide)]; rfl
    · rw [rep.mem, failedOver, regSetField_mem]; rfl

/-- Settles O22: the pass's decisions by their kind, and a pass that comes too late. -/
theorem stewardPass : Obligations.StewardPass := by
  intro h q f hf
  refine ⟨fun hstep hrun => ?_, fun hstep => ?_⟩
  · have hexec : exec .stewardPass ⟨h, q⟩ = .next ⟨effStewardPass h, q⟩ := rfl
    rw [effStewardPass_made hf hstep hrun] at hexec
    refine ⟨_, _, hexec, rfl, fun d hd hk => ?_, fun d hd hk => ?_⟩
    · rcases mem_passDecisions hd with h0 | hdep | hpace
      · omega
      · have := (mem_depthMoves hdep).1; omega
      · exact (mem_paceMoves hpace).2
    · rcases mem_passDecisions hd with h0 | hdep | hpace
      · omega
      · exact (mem_depthMoves hdep).2
      · have := (mem_paceMoves hpace).1; omega
  · have hexec : exec .stewardPassDiscard ⟨h, q⟩ = .next ⟨effStewardPassDiscard h, q⟩ := rfl
    rw [effStewardPassDiscard, if_pos (by simp [hf, hstep])] at hexec
    have rep := overrun_reports 3 0 false (setFs (fun f => { f with passFrame := none }) h)
    refine ⟨_, hexec, ?_, ?_, ?_, ?_⟩
    · rw [rep.fs, overrunCounted, regSetField_fs, regSetField_fs, regSetField_fs]; rfl
    · rw [rep.words.field _ _ _ _ (by decide), overrunCounted_stat]
    · rw [rep.mem, overrunCounted, regSetField_mem, regSetField_mem, regSetField_mem]; rfl
    · rw [rep.parts, overrunCounted, regSetField_parts, regSetField_parts, regSetField_parts]; rfl

/-- Settles O23: the three ends, each an update of its own counters. -/
theorem windowsEnd : Obligations.WindowsEnd := by
  refine fun h q => ⟨fun die hdie hw => ?_, fun hleft => ?_, fun hs hframe hfail typ n hnew => ?_⟩
  · have hexec : exec .pmuWindowEnd ⟨h, q⟩ = .next ⟨effPmuWindowEnd h, q⟩ := rfl
    rw [effPmuWindowEnd_eq] at hexec
    obtain ⟨regs0, mem0, links0, other0⟩ := pmuDieEnd_keeps 0 h
    obtain ⟨regs1, mem1, links1, other1⟩ := pmuDieEnd_keeps 1 (pmuDieEnd 0 h)
    refine ⟨_, hexec, ?_⟩
    suffices hlat : (∀ n, n < 8 → bget (pmuOf (pmuDieEnd 1 (pmuDieEnd 0 h)) die).lat n 0 = bget (pmuOf h die).cnt n 0)
        ∧ (pmuOf (pmuDieEnd 1 (pmuDieEnd 0 h)) die).cnt = [] ∧ (pmuOf (pmuDieEnd 1 (pmuDieEnd 0 h)) die).cyc = (pmuOf h die).cyc by
      obtain ⟨hlat, hcnt, hcyc⟩ := hlat
      exact ⟨hlat, hcnt, hcyc, regs1.trans regs0, mem1.trans mem0, links1.trans links0⟩
    obtain rfl | rfl : die = 0 ∨ die = 1 := by omega
    · rw [other1 0 (by decide)]
      exact pmuDieEnd_ends hw
    · rw [← other0 1 (by decide)] at hw ⊢
      exact pmuDieEnd_ends hw
  · have hexec : exec .bwWindowEnd ⟨h, q⟩ = .next ⟨effBwWindowEnd h, q⟩ := rfl
    rw [effBwWindowEnd, if_neg (by simp [hleft])] at hexec
    refine ⟨_, hexec, fun l hl => bget_map_range hl, fun l => ?_, rfl⟩
    exact bget_map_values h.links (fun k => { k with rxBytes := 0, txBytes := 0 }) rfl l
  · have hexec : exec .historyFold ⟨h, q⟩ = .next ⟨effHistoryFold h, q⟩ := rfl
    obtain ⟨recs, hfold⟩ := foldHistory_kept hfail
    rw [effHistoryFold, if_pos (by simp [hs, hframe]), hfold, hnew] at hexec
    refine ⟨_, hexec, rfl, ?_, fun k hk => ?_, rfl, rfl⟩
    · exact bget_bupd_same h.led.typeCnt typ 0 (fun x => satAdd x n 32)
    · exact bget_bupd_other h.led.typeCnt typ k 0 (fun x => satAdd x n 32) hk

end Sys2Proof.Machine.Slice0

namespace Sys2Proof.Machine

/-- SUBFRAME_STEP as its effect on the hub. -/
theorem exec_subframeStep (h : Hub) (q : List Instr) : exec .subframeStep ⟨h, q⟩ = .next ⟨effSubframeStep h, q⟩ := rfl

/-- SNOOP_TIMEOUT as its effect on the hub. -/
theorem exec_snoopTimeout (l : BitVec 3) (n : BitVec 12) (h : Hub) (q : List Instr) :
    exec (.snoopTimeout l n) ⟨h, q⟩ = .next ⟨effSnoopTimeout l.toNat n.toNat h, q⟩ := rfl

/-- A started Frame Sequencer at the boundary of step 1, in whose step 0 region 0 counted one line of class 0 for partition 1. -/
def countedInStep : Hub := { fs := { started := true, regionCnt := [(4, 1)], period := 0 } }

/-- A snoop whose answer came as WB_PENDING, long after its timeout: its WRITE_BACK is awaited. -/
def writeBackAwaited : Snp :=
  { id := 0, host := 0, link := 0, kind := 0, addr := 0, size := 64, txn := 1, owner := false, vc := false, held := false, sent := 1, wb := true }

def pendingWriteBack : Hub := { now := 10 ^ 9, snps := [writeBackAwaited] }

/-- What SNOOP_TIMEOUT would count, before and behind it. -/
theorem pendingWriteBack_uncounted :
    regField pendingWriteBack 0 0x4078 7 0 = 0 ∧ regField (effSnoopTimeout 0 0 pendingWriteBack) 0 0x4078 7 0 = 0 := ⟨by decide +kernel, by decide +kernel⟩

end Sys2Proof.Machine

namespace Sys2Proof.Machine.Slice0

/-- Refutes O21: at a boundary the regions first report what they counted in the step before (R183), so what is charged grows by it, and no hypothesis
says that they counted nothing. -/
theorem not_stepReleasesBudget : ¬ Obligations.StepReleasesBudget := by
  unfold Obligations.StepReleasesBudget
  intro holds
  obtain ⟨t, hexec, -, -, -, hcharged, -⟩ := holds countedInStep [] (by decide) (by decide) (by decide) (by decide) (by decide) (by decide)
  rw [exec_subframeStep] at hexec
  cases hexec
  exact absurd hcharged (by decide +kernel)

/-- Refutes O24: a snoop that was answered WB_PENDING is not done, but it waits for a WRITE_BACK and no longer for its answer (R125), so its timeout is
not reported; the statement leaves such a snoop in. -/
theorem not_holdsAndWaitsEnd : ¬ Obligations.HoldsAndWaitsEnd := by
  unfold Obligations.HoldsAndWaitsEnd
  rintro ⟨-, holds⟩
  obtain ⟨-, -, -, timeout⟩ := holds pendingWriteBack []
  obtain ⟨t, hexec, hcount, -⟩ := timeout 0#3 0#12 writeBackAwaited (by decide) rfl rfl (by decide) (by decide +kernel)
  rw [exec_snoopTimeout] at hexec
  cases hexec
  obtain ⟨before, behind⟩ := pendingWriteBack_uncounted
  have die : homeDie writeBackAwaited.addr = 0 := by decide +kernel
  rw [die, before] at hcount
  rw [show (0#3 : BitVec 3).toNat = 0 from rfl, show (0#12 : BitVec 12).toNat = 0 from rfl, behind] at hcount
  exact absurd hcount (by decide)

end Sys2Proof.Machine.Slice0

/-!
FRAME_TICK (R180, R182): what closes a frame keeps the Frame Sequencer and the partitions, until the tick itself changes both.
-/

namespace Sys2Proof.Machine

/-- A change that leaves the Frame Sequencer, the partitions and the heavy commands. -/
structure FrameKept (h h' : Hub) : Prop where
  fs : h'.fs = h.fs
  parts : h'.parts = h.parts
  heavy : h'.heavy = h.heavy

namespace FrameKept

theorem refl (h : Hub) : FrameKept h h := ⟨rfl, rfl, rfl⟩

theorem trans {a b c : Hub} (e1 : FrameKept a b) (e2 : FrameKept b c) : FrameKept a c :=
  ⟨e2.fs.trans e1.fs, e2.parts.trans e1.parts, e2.heavy.trans e1.heavy⟩

/-- Behind a change that leaves all three. -/
theorem after {h a b : Hub} (e : FrameKept a b) (hfs : a.fs = h.fs) (hparts : a.parts = h.parts) (hheavy : a.heavy = h.heavy) : FrameKept h b :=
  ⟨e.fs.trans hfs, e.parts.trans hparts, e.heavy.trans hheavy⟩

theorem ite {c : Prop} [Decidable c] {h a b : Hub} (ha : FrameKept h a) (hb : FrameKept h b) : FrameKept h (if c then a else b) := by
  split <;> assumption

theorem forEach {α : Type} {f : α → Hub → Hub} (hf : ∀ x h, FrameKept h (f x h)) (l : List α) (h : Hub) : FrameKept h (forEach l f h) :=
  ⟨forEach_keeps Hub.fs f (fun x h => (hf x h).fs) l h, forEach_keeps Hub.parts f (fun x h => (hf x h).parts) l h,
    forEach_keeps Hub.heavy f (fun x h => (hf x h).heavy) l h⟩

theorem of_reports {h h' : Hub} (e : Reports h h') : FrameKept h h' := by
  obtain ⟨_, _, _, _, _, _, _, rfl⟩ := e.rest
  exact ⟨rfl, rfl, rfl⟩

theorem of_regPut (h : Hub) (die off v : Nat) : FrameKept h (regPut h die off v) := ⟨regPut_fs .., regPut_parts .., regPut_heavy ..⟩

theorem of_regSetField (h : Hub) (die off hi lo x : Nat) : FrameKept h (regSetField h die off hi lo x) := of_regPut ..

theorem of_setWin (n : Nat) (f : Win → Win) (h : Hub) : FrameKept h (setWin h n f) := ⟨rfl, rfl, rfl⟩

theorem of_setWhisk (r : Nat) (f : WhiskPos → WhiskPos) (h : Hub) : FrameKept h (setWhisk r f h) := ⟨rfl, rfl, rfl⟩

theorem of_setResult (n last reason : Nat) (h : Hub) : FrameKept h (setResult n last reason h) := by
  rw [setResult]
  exact .ite (.trans (of_setWin ..) (of_reports ((Reports.of_record ..).trans (.of_raiseEvt ..)))) (of_setWin ..)

theorem of_countFail (h : Hub) : FrameKept h (countFail h) := of_regSetField ..

theorem of_evalGroup (ns : List Nat) (h : Hub) : FrameKept h (evalGroup ns h) := by
  rw [evalGroup]
  exact .ite (forEach (fun _ _ => of_setResult ..) _ _) (.ite ((forEach (fun _ _ => of_setResult ..) _ _).trans (of_countFail _))
    ((forEach (fun _ _ => .ite (of_setResult ..) (of_setResult ..)) _ _).trans (of_countFail _)))

theorem of_evalWitness (h : Hub) : FrameKept h (evalWitness h) := by
  unfold evalWitness
  extract_lets ns lone groups forced h1 h2 h3 pin h4 f
  have e1 : FrameKept h h1 := forEach (fun _ _ => of_evalGroup ..) _ _
  have e2 : FrameKept h1 h2 := forEach (fun _ _ => of_evalGroup ..) _ _
  have e3 : FrameKept h2 h3 := forEach (fun _ _ => of_setWin ..) _ _
  exact ((e1.trans e2).trans e3).trans ⟨rfl, rfl, rfl⟩

theorem of_overrun (cause units : Nat) (dropped : Bool) (h : Hub) : FrameKept h (overrun cause units dropped h) :=
  (((of_regSetField h ..).trans (of_regSetField ..)).trans (of_regSetField ..)).trans (of_reports (overrun_reports cause units dropped h))

theorem of_scrubTick (cause : Nat) (rs : List Nat) (h : Hub) : FrameKept h (scrubTick cause rs h) := by
  rw [scrubTick]
  exact .trans (.ite (refl h) (of_overrun ..)) (forEach (fun _ _ => of_setWhisk ..) _ _)

theorem of_btTick (h : Hub) : FrameKept h (btTick h) := by
  unfold btTick
  extract_lets ks left n h1 h2
  have e1 : FrameKept h h1 := .ite (refl h) (of_overrun ..)
  have e2 : FrameKept h1 h2 := forEach (fun _ _ => by exact ⟨rfl, rfl, rfl⟩) _ _
  exact (e1.trans e2).trans ⟨rfl, rfl, rfl⟩

theorem of_windowTick (h : Hub) : FrameKept h (windowTick h) := by
  have pmuEnd (h : Hub) : FrameKept h (effPmuWindowEnd h) := forEach (fun _ _ => by exact .ite ⟨rfl, rfl, rfl⟩ (refl _)) _ _
  have bwEnd (h : Hub) : FrameKept h (effBwWindowEnd h) := .ite (refl h) ⟨rfl, rfl, rfl⟩
  unfold windowTick
  extract_lets h1 h2
  have e2 : FrameKept h1 h2 := forEach (fun _ _ => by exact ⟨rfl, rfl, rfl⟩) _ _
  exact (((pmuEnd h).trans (bwEnd _)).trans e2).trans ⟨rfl, rfl, rfl⟩

theorem of_poisonLine (off a : Nat) (h : Hub) : FrameKept h (poisonLine off a h) := by
  have clean : FrameKept h (clearLineErr off h) := ⟨rfl, rfl, rfl⟩
  have encoded (h : Hub) : FrameKept h (encodeLine off a h) := ⟨rfl, rfl, rfl⟩
  rw [poisonLine]
  exact (clean.trans (encoded _)).trans (.ite ⟨rfl, rfl, rfl⟩ ⟨rfl, rfl, rfl⟩)

theorem of_rebuildLine (pos off : Nat) (h : Hub) : FrameKept h (rebuildLine pos off h) := by
  rw [rebuildLine]
  dsimp only
  split
  · exact of_poisonLine ..
  · exact of_poisonLine ..
  · exact forEach (fun _ _ => by exact ⟨rfl, rfl, rfl⟩) _ _

theorem of_rebuildTo (p : Nat) (h : Hub) : FrameKept h (rebuildTo p h) := by
  rw [rebuildTo]
  split
  · exact refl h
  · next k _ =>
    extract_lets lo mine h1 h2 f
    have e1 : FrameKept h h1 := forEach (fun _ _ => of_rebuildLine ..) _ _
    have e2 : FrameKept h1 h2 := forEach (fun _ _ => of_reports (.of_pmuEvent ..)) _ _
    clear_value h2
    exact (e1.trans e2).trans ⟨rfl, rfl, rfl⟩

theorem of_rebuildTick (h : Hub) : FrameKept h (rebuildTick h) := by
  rw [rebuildTick]
  exact .ite (refl h) ((of_rebuildTo ..).after rfl rfl rfl)

theorem of_fallback (f : Nat) (h : Hub) : FrameKept h (fallback f h) := by
  rw [fallback]
  dsimp only
  split
  · exact (((of_regPut ..).trans (of_regPut ..)).trans (of_regPut ..)).trans (of_regPut ..)
  split
  · exact forEach (fun _ _ => (of_regSetField ..).trans (of_regSetField ..)) _ _
  split
  · exact ((of_regSetField ..).trans (of_regSetField ..)).trans (of_regPut ..)
  split
  · exact forEach (fun _ _ => of_setWhisk ..) _ _
  · exact refl h

end FrameKept

/-- A change of what the regions may take and of the overcommit flag. -/
structure Released (h h' : Hub) : Prop where
  fs : ∃ a o, h'.fs = { h.fs with allow := a, overcommit := o }
  parts : h'.parts = h.parts

namespace Released

theorem refl (h : Hub) : Released h h := ⟨⟨_, _, rfl⟩, rfl⟩

theorem trans {a b c : Hub} (e1 : Released a b) (e2 : Released b c) : Released a c := by
  obtain ⟨⟨x, y, hfs1⟩, hp1⟩ := e1
  obtain ⟨⟨z, w, hfs2⟩, hp2⟩ := e2
  exact ⟨⟨z, w, by rw [hfs2, hfs1]⟩, hp2.trans hp1⟩

theorem of_kept {h h' : Hub} (e : FrameKept h h') : Released h h' := ⟨⟨_, _, e.fs⟩, e.parts⟩

theorem forEach {α : Type} {f : α → Hub → Hub} (hf : ∀ x h, Released h (f x h)) (l : List α) (h : Hub) : Released h (forEach l f h) := by
  induction l generalizing h with
  | nil => exact refl h
  | cons x r ih => exact (hf x h).trans (ih _)

theorem of_releaseStep (k : Nat) (h : Hub) : Released h (releaseStep k h) :=
  forEach (fun _ _ => forEach (fun _ _ => forEach (fun _ _ => by exact ⟨⟨_, _, rfl⟩, rfl⟩) _ _) _ _) _ _

theorem of_checkOvercommit (h : Hub) : Released h (checkOvercommit h) := by
  have marked (o : Bool) : Released h { h with fs := { h.fs with overcommit := o } } := ⟨⟨_, _, rfl⟩, rfl⟩
  rw [checkOvercommit]
  dsimp only
  split
  · exact (marked true).trans (of_kept (.of_reports ((Reports.of_record ..).trans (.of_raiseEvt ..))))
  · exact marked _

end Released

/-- The new frame's counts, at step 0 (R180). -/
def freshFrame (f : FrameSeq) : FrameSeq := { f with step := 0, charged := [], allow := [], regionCnt := [] }

theorem beginFrame_released (h : Hub) : Released (setFs freshFrame h) (beginFrame h) := .of_releaseStep ..

/-- The Frame Sequencer behind a tick, its settings apart (R180, R182, R195, R366). -/
def tickedFrame (ended : Nat) (f : FrameSeq) : FrameSeq :=
  { f with frame := (f.frame + 1) % 2 ^ 32, synth := f.tickPend == 2, tickPend := 0, fallback := [],
           histDone := f.hist, hist := [], passFrame := if f.skipPass then none else some ended, skipPass := false, decisions := [] }

/-- The settings that a new frame takes over from the registers (R177, R191). -/
def adoptedFrame (p : Nat) (c : Word32) (s : Nat) (f : FrameSeq) : FrameSeq := { f with period := p, tickCtl := c, srcNow := s, srcWritten := false }

theorem adoptTick_eq (h : Hub) : ∃ p c s, adoptTick h = setFs (adoptedFrame p c s) h := ⟨_, _, _, rfl⟩

/-- The partitions behind a tick, latched one by one in a hub with the same Frame Sequencer and partitions. -/
theorem effFrameTick_released {h : Hub} (hp : h.fs.tickPend ≠ 0) (hh : h.heavy = []) :
    ∃ h1 p c s a o, FrameKept h h1 ∧ (effFrameTick h).parts = h.parts.map (fun e => (e.1, latchPart h1 e.2))
      ∧ (effFrameTick h).fs = { freshFrame (adoptedFrame p c s (tickedFrame h.fs.frame h.fs)) with allow := a, overcommit := o } := by
  unfold effFrameTick
  rw [if_neg hp]
  extract_lets h1 h2 h3 h4 h5 h6 ended h7 h8 h9 f
  have e1 : FrameKept h h1 := .of_evalWitness h
  have e2 : FrameKept h1 h2 := ((FrameKept.of_scrubTick 0 _ _).trans (.of_scrubTick ..)).trans (.of_btTick _)
  have e12 : FrameKept h h2 := e1.trans e2
  clear_value h2
  have hfs4 : h4.fs = h.fs := e12.fs
  have hparts4 : h4.parts = h.parts.map (fun e => (e.1, latchPart h2 e.2)) := congrArg (List.map _) e12.parts
  have hheavy4 : h4.heavy = [] := e12.heavy.trans hh
  clear_value h4
  have idle : progressAll (rebuildTick h4) = rebuildTick h4 := by rw [progressAll, (FrameKept.of_rebuildTick h4).heavy, hheavy4]; rfl
  have e5 : FrameKept h4 h5 := by
    unfold h5
    rw [idle]
    exact (FrameKept.of_rebuildTick h4).trans (.of_windowTick _)
  have e6 : FrameKept h4 h6 := e5.trans (.forEach (fun _ _ => .of_fallback ..) _ _)
  have hended : ended = h.fs.frame := congrArg FrameSeq.frame (e6.fs.trans hfs4)
  clear_value h6 ended
  obtain ⟨p, c, s, adopted⟩ := adoptTick_eq (setFs (tickedFrame ended) h6)
  have hfs7 : h7.fs = adoptedFrame p c s (tickedFrame h.fs.frame h.fs) := by
    have : h7.fs = adoptedFrame p c s (tickedFrame ended h6.fs) := congrArg Hub.fs adopted
    rw [this, hended, e6.fs, hfs4]
  have hparts7 : h7.parts = h4.parts := (congrArg Hub.parts adopted).trans e6.parts
  clear_value h7
  have rel8 : Released (setFs freshFrame h7) h8 := (beginFrame_released h7).trans (.of_checkOvercommit _)
  clear_value h8
  have rel9 : Released (setFs freshFrame h7) h9 := rel8.trans (.of_kept (.ite (.of_reports (.of_sendMsg ..)) (.refl _)))
  clear_value h9
  obtain ⟨⟨a, o, hfs9⟩, hparts9⟩ := rel9
  refine ⟨h2, p, c, s, a, o, e12, ?_, ?_⟩
  · exact (hparts9.trans hparts7).trans hparts4
  · rw [← hfs7]; exact hfs9

end Sys2Proof.Machine

namespace Sys2Proof.Machine.Slice0

/-- Settles O20: what closes the frame keeps the Frame Sequencer and the partitions; the latch and the tick then change both once. -/
theorem frameTickBeginsAFrame : Obligations.FrameTickBeginsAFrame := by
  intro h q hp hh
  have hexec : exec .frameTick ⟨h, q⟩ = .next ⟨effFrameTick h, q⟩ := rfl
  obtain ⟨h1, p, c, s, a, o, kept, parts, fs⟩ := effFrameTick_released hp hh
  refine ⟨_, hexec, ?_⟩
  rw [fs]
  refine ⟨rfl, rfl, rfl, ?_, rfl, rfl, rfl, rfl, rfl, rfl, rfl, fun p hfree => ?_⟩
  · show (h.fs.tickPend == 2) = decide (h.fs.tickPend = 2)
    rfl
  · have latched : part (effFrameTick h) p = latchPart h1 (part h p) := by
      rw [part, parts]
      exact bget_map_values h.parts (latchPart h1) rfl p
    rw [latched, latchPart]
    split
    · contradiction
    · exact ⟨rfl, rfl⟩

end Sys2Proof.Machine.Slice0

/-!
A request row as the message that it takes in (R157, R326, R331), and the requests that are refused before their home.
-/

namespace Sys2Proof.Machine

/-! ### Taking a request in -/

/-- The message of a request row as it is accepted whole. -/
def takenMsg (op l : Nat) (r : ReqHdr) (d : List Byte) (h : Hub) : Msg :=
  { reqMsg op r d with at_ := h.now, adm := admitted h l r.pid.toNat r.stream.toNat }

/-- The next number of an acceptance or a transaction is used. -/
def numbered (h : Hub) : Hub := { h with nextId := h.nextId + 1 }

/-- The request that the row makes (R157). -/
def takenReq (op l : Nat) (r : ReqHdr) (d : List Byte) (h : Hub) : Req := reqOf l h.nextId (takenMsg op l r d h) h

/-- A row over a trained link whose inbox is empty is a request of its own, behind the count of its VC (R326). -/
theorem effRequest_taken {op l : Nat} {r : ReqHdr} {d : List Byte} {wd : Bool} {h : Hub} (ht : linkTrained h l = true) (hi : (link h l).inbox = [])
    (hl : listedOp h l op = true) :
    effRequest op l r d wd h = request (takenReq op l r d h) r.len.toNat (ceilDiv d.length 16) (countVcErr l (takenMsg op l r d h) (numbered h)) := by
  have hl' : listedOp (numbered h) l (reqMsg op r d).op = true := hl
  have taken : takeIn l (reqMsg op r d) wd h = some (takenMsg op l r d h, h.nextId, numbered h) := by
    unfold takeIn
    extract_lets bump whole
    rw [hi]
    exact if_pos ht
  rw [effRequest, onListed, taken]
  dsimp only
  rw [if_pos hl']
  rfl

/-- A request of class S on any VC is no error of its VC (R326). -/
theorem countVcErr_ofS {l : Nat} {m : Msg} {h : Hub} (hc : m.cls = 0) : countVcErr l m h = h := by rw [countVcErr, hc]; exact if_neg (by simp)

/-- The form of a request depends on what its row spells. -/
theorem formStatus_takenReq (op l : Nat) (r : ReqHdr) (d : List Byte) (h : Hub) (len n : Nat) :
    formStatus (numbered h) (takenReq op l r d h) len n = formStatus h (reqOf l h.nextId (reqMsg op r d) h) len n := rfl

/-! ### A short answer -/

/-- The answer of a request without data leaves on its link. -/
theorem reply_short {r : Req} {m : Msg} {h : Hub} (hs : r.src = .link) (hd : m.data = []) (hm : m.lstat ≠ 1) : reply r m h = sendMsg r.link (replyTo r m) h := by
  have crossed : seamBytes r (homeDie r.addr) m.data.length h = h := by rw [seamBytes, hd]; exact if_neg (by simp)
  rw [reply, if_pos (by simp [hs]), countDataErr, if_neg hm, crossed]

theorem link_sendMsg_same {l : Nat} {m : Msg} {h : Hub} (ht : linkTrained h l = true) :
    (link (sendMsg l m h) l).q = (link h l).q ++ [{ msg := m, slots := 1 + ceilDiv m.data.length 16 }] := by
  rw [sendMsg, if_pos ht, link_setLink_same]

theorem link_sendMsg_other {l k : Nat} {m : Msg} {h : Hub} (hk : k ≠ l) : link (sendMsg l m h) k = link h k := by
  rw [sendMsg]
  split
  · exact link_setLink_other _ _ _ _ hk
  · rfl

theorem sendMsg_leaves (l : Nat) (m : Msg) (h : Hub) : (sendMsg l m h).mem = h.mem ∧ (sendMsg l m h).txns = h.txns ∧ (sendMsg l m h).sieve = h.sieve
    ∧ (sendMsg l m h).mons = h.mons ∧ (sendMsg l m h).regs = h.regs :=
  ⟨sendMsg_mem .., sendMsg_txns .., sendMsg_sieve .., sendMsg_mons .., sendMsg_regs ..⟩

/-- What a refusal leaves: the answer on the request's link, and the rest of the hub. -/
theorem answered_sendMsg {l : Nat} {r : ReqHdr} {m : Msg} {h h' : Hub} {p : Msg → Prop} (hl : h'.links = h.links) (ht : linkTrained h l = true) (hvc : m.vc = r.vc)
    (hs : m.stream = r.stream.toNat) (htag : m.tag = r.tag.toNat) (hp : p m) : h.answered (sendMsg l m h') l r p := by
  have same (k : Nat) : link h' k = link h k := by rw [link, link, hl]
  have ht' : linkTrained h' l = true := by rw [linkTrained, same]; exact ht
  refine ⟨⟨_, (link_sendMsg_same ht').trans (by rw [same]), rfl, rfl, hvc, hs, htag, hp⟩, fun k hk => ?_⟩
  rw [link_sendMsg_other hk, same]

/-- A request that is refused is answered with its opcode's response (R331). -/
theorem refuse_eq {r : Req} {st op : Nat} {h : Hub} (hop : respOp r.op = some op) (hs : r.src = .link) (hst : st ≠ 1) :
    refuse r st h = sendMsg r.link (replyTo r { op := op, lstat := st }) h := by
  rw [refuse, hop]
  exact reply_short hs rfl hst

/-- A refused form goes no further (R121, R331). -/
theorem request_refused {r : Req} {len n : Nat} {h : Hub} (hf : formStatus h r len n ≠ 0) (hop : r.op ≠ 0x26) :
    request r len n h = refuse r (formStatus h r len n) h := by
  rw [request]
  split
  · contradiction
  · rw [if_neg (fun e => hop e.1)]

theorem request_formed {r : Req} {len n : Nat} {h : Hub} (hf : formStatus h r len n = 0) : request r len n h = admitReq r h := by
  rw [request, hf]; rfl

/-- A form is never refused as DATA_ERROR. -/
theorem formStatus_ne_one (h : Hub) (r : Req) (len n : Nat) : formStatus h r len n ≠ 1 := by
  have ok : lstatOk ≠ 1 := by decide
  have denied : lstatDenied ≠ 1 := by decide
  have addr : lstatAddrError ≠ 1 := by decide
  rw [formStatus]
  split
  · split <;> assumption
  split
  · split <;> assumption
  split
  · exact denied
  split
  · exact denied
  split
  · exact addr
  · exact ok

/-- Requests with an address: no FENCE, RESV_CLEAR, PF_HINT or notice. -/
def plainOp (op : Nat) : Bool := !([0x31, 0x32, 0x33, 0x34, 0x39, 0x3A, 0x3B].contains op)

theorem ne_of_plainOp {op : Nat} (h : plainOp op = true) : op ≠ 0x31 ∧ op ≠ 0x32 ∧ op ≠ 0x33 ∧ op ≠ 0x34 ∧ op ≠ 0x39 ∧ op ≠ 0x3A ∧ op ≠ 0x3B := by
  simpa [plainOp] using h

/-- In RUN an admitted request is routed by its address (R211, R289). -/
theorem admitReq_admitted {r : Req} {h : Hub} (ha : r.admitted = true) (hp : h.life.phase = .run) (hop : r.op ≠ 0x39 ∧ r.op ≠ 0x3A ∧ r.op ≠ 0x3B) :
    admitReq r h = route r true h := by
  obtain ⟨h39, h3A, h3B⟩ := hop
  rw [admitReq, ha, if_neg h39, if_neg h3A, if_neg h3B, if_pos (by simp [parkingBars, hp])]
  rfl

/-- One that is not admitted is counted and refused (R289). -/
theorem admitReq_denied {r : Req} {h : Hub} (ha : r.admitted = false) (hop : plainOp r.op = true) :
    admitReq r h = refuse r lstatDenied (countDeny r.pid h) := by
  obtain ⟨h31, h32, h33, h34, h39, h3A, h3B⟩ := ne_of_plainOp hop
  rw [admitReq, ha, if_neg h39, if_neg h3A, if_neg h3B, if_neg (by simp), notAdmitted, if_neg (by simp [h33, h34]), if_neg h31, if_neg h32]
  rfl

theorem route_unmapped {r : Req} {adm : Bool} {h : Hub} (hm : rmapFind h r.addr = none) : route r adm h = refuse r lstatAddrError h := by rw [route, hm]

/-- DENY_CNT counts up to its most (R289). -/
theorem countDeny_field {pid : Nat} (h : Hub) (h0 : 0 < pid) (h64 : pid < 64) :
    regField (countDeny pid h) 0 (0x5800 + 64 * pid) 31 16 = min (regField h 0 (0x5800 + 64 * pid) 31 16 + 1) 65535 := by
  have row : (findRow (0x5800 + 64 * pid)).isSome = true := by
    have all : ∀ p < 64, 0 < p → (findRow (0x5800 + 64 * p)).isSome = true := by decide
    exact all pid h64 h0
  have := satAdd_mod (regField h 0 (0x5800 + 64 * pid) 31 16) 1 16
  rw [countDeny, if_pos ⟨h0, h64⟩, regField_regSetField_same _ _ _ _ _ _ row (by decide), this]; rfl

end Sys2Proof.Machine

namespace Sys2Proof.Machine.Slice0

/-- Settles O40: each refusal is one message on the request's link, behind a count where the request is not admitted. -/
theorem refusedRequestsAreAnswered : Obligations.RefusedRequestsAreAnswered := by
  intro h q l r d i op st hi hd ht hin hu hrun hc
  obtain ⟨hexec, hplain, hcond, hresp, hlist⟩ : exec i ⟨h, q⟩ = .next ⟨effRequest op l.toNat r d false h, q⟩ ∧ plainOp op = true ∧ op ≠ 0x26
      ∧ respOp op = some st ∧ listedOp h l.toNat op = true := by
    subst hd
    simp only [List.mem_cons, List.not_mem_nil, or_false, Prod.mk.injEq] at hi
    rcases hi with ⟨rfl, rfl, rfl⟩ | ⟨rfl, rfl, rfl⟩ | ⟨rfl, rfl, rfl⟩ | ⟨rfl, rfl, rfl⟩ | ⟨rfl, rfl, rfl⟩ | ⟨rfl, rfl, rfl⟩ | ⟨rfl, rfl, rfl⟩
    all_goals exact ⟨rfl, by decide, by decide, by decide, by simp [listedOp]⟩
  have hcls : (takenMsg op l.toNat r d h).cls = 0 := by show r.cls.toNat = 0; rw [hc]; rfl
  have hslots : ceilDiv d.length 16 = 0 := by rw [hd]; rfl
  rw [effRequest_taken ht hin hlist, countVcErr_ofS hcls, hslots] at hexec
  have hform := formStatus_takenReq op l.toNat r d h r.len.toNat 0
  obtain ⟨-, -, -, -, h39, h3A, h3B⟩ := ne_of_plainOp hplain
  refine ⟨fun hf => ?_, fun hf ha hm => ?_, fun hf ha hpid => ?_⟩
  · rw [← hform] at hf ⊢
    rw [request_refused hf hcond, refuse_eq hresp rfl (formStatus_ne_one _ _ _ _)] at hexec
    exact ⟨_, hexec, answered_sendMsg rfl ht rfl rfl rfl ⟨rfl, rfl, rfl⟩, sendMsg_leaves _ _ (numbered h)⟩
  · rw [← hform] at hf
    rw [request_formed hf, admitReq_admitted (r := takenReq op l.toNat r d h) (h := numbered h) ha hrun ⟨h39, h3A, h3B⟩, route_unmapped hm,
      refuse_eq hresp rfl (by decide)] at hexec
    exact ⟨_, hexec, answered_sendMsg rfl ht rfl rfl rfl ⟨rfl, rfl, rfl⟩, sendMsg_leaves _ _ (numbered h)⟩
  · rw [← hform] at hf
    rw [request_formed hf, admitReq_denied (r := takenReq op l.toNat r d h) (h := numbered h) ha hplain, refuse_eq hresp rfl (by decide)] at hexec
    refine ⟨_, hexec, answered_sendMsg (countDeny_links ..) ht rfl rfl rfl ⟨rfl, rfl, rfl⟩, ?_, ?_, ?_, ?_, ?_⟩
    · rw [regField_of_regs_eq (sendMsg_regs ..)]
      exact countDeny_field (numbered h) hpid r.pid.isLt
    · rw [sendMsg_mem, countDeny_mem]; rfl
    · rw [sendMsg_txns, countDeny_txns]; rfl
    · rw [sendMsg_sieve, countDeny_sieve]; rfl
    · rw [sendMsg_mons, countDeny_mons]; rfl

end Sys2Proof.Machine.Slice0

/-!
A request of an idle hub on its way to its home (R14, R60, R184, R211, R326): what its acceptance counts, and a lone transaction's turns.
-/

namespace Sys2Proof.Machine

/-! ### A PMU without events -/

/-- No PMU counter has an event selected. -/
def Uncounted (h : Hub) : Prop := ∀ d n, d < 2 → n < 8 → bfind h.regs (d * 0x100000 + 0x4910 + 8 * n) = none

theorem Uncounted.of_regs {h h' : Hub} (hu : Uncounted h) (hr : h'.regs = h.regs) : Uncounted h' := fun d n hd hn => by rw [hr]; exact hu d n hd hn

/-- Without a selected event an occurrence counts nowhere (R361). -/
theorem pmu_uncounted {ev die x : Nat} {a : Attr} {h : Hub} (hu : Uncounted h) (hd : die < 2) : pmu ev die x a h = h := by
  have none_ (n : Nat) (hn : n < 8) : bfind h.regs (die * 0x100000 + 0x4910 + 8 * n) = none := hu die n hd hn
  rw [pmu]
  suffices hs : ∀ l : List Nat, (∀ n ∈ l, n < 8) → forEach l (fun n h =>
      match bfind h.regs (die * 0x100000 + 0x4910 + 8 * n) with
      | none => h
      | some _ =>
        let k := pmuSel h die n
        if k.1.testBit 31 && bits k.1 7 0 == ev && !(pmuHeld h die) && bget (pmuOf h die).clrAt n 0 != h.now + 1
            && (match a.qual with
              | some q => bits k.1 11 8 == 15 || bits k.1 11 8 == q
              | none => true)
            && pmuPass h die k.2 a then pmuAdd die n x h
        else h) h = h from hs _ (fun n hn => List.mem_range.1 hn)
  intro l hl
  induction l with
  | nil => rfl
  | cons n r ih =>
    rw [forEach_cons, none_ n (hl n List.mem_cons_self)]
    exact ih fun m hm => hl m (List.mem_cons_of_mem _ hm)

/-- Offsets of the words LINK_n_ERR. -/
def linkErrOffs : List Nat := (List.range 8).map (fun l => 0x460C + 0x40 * l)

theorem Uncounted.regSetField {h : Hub} (hu : Uncounted h) {die off hi lo x : Nat} (ho : off % 0x100000 ∈ linkErrOffs) :
    Uncounted (regSetField h die off hi lo x) := by
  intro d n hd hn
  rw [Machine.regSetField, regPut]
  split
  · exact hu d n hd hn
  · next r _ =>
    have key : d * 0x100000 + 0x4910 + 8 * n ≠ regKey r die off := by
      intro e
      have hm := congrArg (· % 0x100000) e
      simp only [regKey_mod] at hm
      rw [← hm] at ho
      have far : (d * 0x100000 + 0x4910 + 8 * n) % 0x100000 = 0x4910 + 8 * n := by omega
      rw [far] at ho
      have others : ∀ m < 8, 0x4910 + 8 * m ∉ linkErrOffs := by decide
      exact others n hn ho
    exact (bfind_bset_other _ _ _ _ key).trans (hu d n hd hn)

/-! ### Acceptance -/

/-- What a request's way to its home leaves of the hub: link error counts, budgets and ghost tags, counts on pages, slots used and numbers taken. -/
structure Accepted (h h' : Hub) : Prop where
  words : WordsKept linkErrOffs h h'
  uncounted : Uncounted h → Uncounted h'
  parts : ∀ p, ∃ run, part h' p = { part h p with run := run }
  rest : ∃ regs fs parts n su, h' = { h with regs := regs, fs := fs, parts := parts, nextId := n, slotUse := su }

namespace Accepted

theorem refl (h : Hub) : Accepted h h := ⟨.of_regs rfl, id, fun _ => ⟨_, rfl⟩, ⟨_, _, _, _, _, rfl⟩⟩

theorem trans {a b c : Hub} (e1 : Accepted a b) (e2 : Accepted b c) : Accepted a c := by
  obtain ⟨w1, u1, p1, r1⟩ := e1
  obtain ⟨w2, u2, p2, r2⟩ := e2
  refine ⟨w1.trans w2, fun hu => u2 (u1 hu), fun p => ?_, ?_⟩
  · obtain ⟨x, hx⟩ := p1 p
    obtain ⟨y, hy⟩ := p2 p
    exact ⟨y, by rw [hy, hx]⟩
  · obtain ⟨_, _, _, _, _, rfl⟩ := r1
    obtain ⟨_, _, _, _, _, rfl⟩ := r2
    exact ⟨_, _, _, _, _, rfl⟩

theorem of_fs (h : Hub) (f : FrameSeq) : Accepted h { h with fs := f } := ⟨.of_regs rfl, id, fun _ => ⟨_, rfl⟩, ⟨_, _, _, _, _, rfl⟩⟩

theorem of_numbered (h : Hub) : Accepted h (numbered h) := ⟨.of_regs rfl, id, fun _ => ⟨_, rfl⟩, ⟨_, _, _, _, _, rfl⟩⟩

theorem of_useSlot (r : Req) (lost : Bool) (h : Hub) : Accepted h (useSlot r lost h) := ⟨.of_regs rfl, id, fun _ => ⟨_, rfl⟩, ⟨_, _, _, _, _, rfl⟩⟩

theorem of_linkCount {l : Nat} (hi lo : Nat) (h : Hub) (hl : l < 8) : Accepted h (linkCount l hi lo h) := by
  have off : (linkCtlOff l + 12) % 0x100000 ∈ linkErrOffs := by revert l; decide
  refine ⟨wordsKept_regSetField _ _ _ _ _ _ off, fun hu => hu.regSetField off, fun p => ⟨(part h p).run, ?_⟩, ?_⟩
  · rw [part, linkCount_parts]; rfl
  · rw [linkCount, regSetField, regPut]
    split
    · exact ⟨_, _, _, _, _, rfl⟩
    · exact ⟨_, _, _, _, _, rfl⟩

theorem of_countVcErr {l : Nat} (m : Msg) (h : Hub) (hl : l < 8) : Accepted h (countVcErr l m h) := by
  rw [countVcErr]
  split
  · exact of_linkCount _ _ _ hl
  · exact refl h

theorem of_setPart_run (pid : Nat) (f : Bank Nat → Bank Nat) (h : Hub) : Accepted h (setPart h pid (fun p => { p with run := f p.run })) := by
  refine ⟨.of_regs rfl, id, fun p => ?_, ⟨_, _, _, _, _, rfl⟩⟩
  by_cases e : p = pid
  · subst e
    exact ⟨_, bget_bupd_same h.parts p {} (fun k => { k with run := f k.run })⟩
  · exact ⟨_, bget_bupd_other h.parts pid p {} (fun k => { k with run := f k.run }) e⟩

theorem of_pageAdd (pid i x : Nat) (h : Hub) : Accepted h (pageAdd pid i x h) := by
  rw [pageAdd]
  split
  · split
    · exact refl h
    · exact of_setPart_run pid (fun b => bupd b i 0 (· + x)) h
  · exact refl h

theorem of_serve (rg pid cls bytes : Nat) (h : Hub) : Accepted h (serve rg pid cls bytes h) := of_fs h _

theorem of_charge (rg pid cls bytes : Nat) (h : Hub) : Accepted h (charge rg pid cls bytes h) := by
  unfold charge
  extract_lets g
  have e : Accepted h g := of_serve ..
  split
  · exact (e.trans (of_fs g _)).trans (of_pageAdd ..)
  · exact e

/-- Without PMU events an occurrence leaves nothing. -/
theorem of_pmu {ev die x : Nat} {a : Attr} {h : Hub} (hu : Uncounted h) (hd : die < 2) : Accepted h (pmu ev die x a h) := by rw [pmu_uncounted hu hd]; exact refl h

end Accepted

theorem b2n_lt_two (b : Bool) : b2n b < 2 := by cases b <;> decide

theorem homeDie_lt (a : Nat) : homeDie a < 2 := b2n_lt_two _

theorem Accepted.of_chargeRequest (a pid cls bytes port : Nat) {h : Hub} (hu : Uncounted h) : Accepted h (chargeRequest a pid cls bytes port h).2 := by
  unfold chargeRequest
  extract_lets rg
  split
  · have hk : Accepted h (hkBytes a bytes h) := of_pmu hu (homeDie_lt a)
    exact hk.trans (of_serve ..)
  split
  · exact (of_serve rg pid 3 bytes h).trans (of_pageAdd ..)
  split
  · have hp := of_pageAdd pid (4 + cls) bytes h
    exact (hp.trans (of_pmu (hp.uncounted hu) (homeDie_lt a))).trans (of_serve ..)
  · exact of_charge ..

/-- The class a request is served at, and its charge (R184, R185). -/
theorem classify_admitted (e : REntry) (r : Req) {h : Hub} (hu : Uncounted h) :
    ∃ c c', (classify e r true h).1 = { r with cls := c', carried := c } ∧ Accepted h (classify e r true h).2 := by
  rw [classify, if_neg (by simp)]
  dsimp only
  split
  · exact ⟨_, _, rfl, .of_chargeRequest _ _ _ _ _ hu⟩
  · exact ⟨_, _, rfl, .refl h⟩

/-! ### To the home -/

/-- The request as it comes to its home: with its entry, the class of its charge and the class it is served at. -/
def homeReq (op l : Nat) (r : ReqHdr) (d : List Byte) (e : REntry) (c c' : Nat) (h : Hub) : Req :=
  { takenReq op l r d h with ent := e, cls := c', carried := c }

theorem Accepted.link {h h' : Hub} (acc : Accepted h h') (l : Nat) : link h' l = link h l := by
  obtain ⟨_, _, _, _, _, rfl⟩ := acc.rest; rfl

theorem Accepted.geomWord {h h' : Hub} (acc : Accepted h h') (n : Nat) : geomWord h' n = geomWord h n := by
  by_cases hn : n < 7
  · have others : ∀ m < 7, (0x4050 + 4 * m) % 0x100000 ∉ linkErrOffs := by decide
    rw [Machine.geomWord, Machine.geomWord, if_pos hn, if_pos hn, acc.words 0 _ (others n hn)]
  · obtain ⟨_, _, _, _, _, rfl⟩ := acc.rest
    rw [Machine.geomWord, Machine.geomWord, if_neg hn, if_neg hn]

theorem Accepted.granOf {h h' : Hub} (acc : Accepted h h') (n : Nat) : granOf h' n = granOf h n := by rw [Machine.granOf, Machine.granOf, acc.geomWord]

theorem Accepted.hostOfLink {h h' : Hub} (acc : Accepted h h') (l : Nat) : hostOfLink h' l = hostOfLink h l := by
  rw [Machine.hostOfLink, Machine.hostOfLink, isTwinLink, isTwinLink, acc.link]
  simp only [geomValid, geomLinks, acc.geomWord]

/-- The form of a request depends on the hosts' granules and on its link's revision. -/
theorem Accepted.formStatus {h h' : Hub} (acc : Accepted h h') (r : Req) (len n : Nat) : formStatus h' r len n = formStatus h r len n := by
  have lens : lenOk h' r.host r.op len = lenOk h r.host r.op len := by rw [lenOk, lenOk, lenIsGranule, lenIsGranule, acc.granOf]
  rw [Machine.formStatus, Machine.formStatus, lens, acc.link]

/-- Blocks of the Kettle are granted by a partition's base and count (R296). -/
theorem Accepted.kettleBars {h h' : Hub} (acc : Accepted h h') (e : REntry) (x : Req) : kettleBars h' e x = kettleBars h e x := by
  obtain ⟨run, hrun⟩ := acc.parts x.pid
  rw [Machine.kettleBars, Machine.kettleBars, hrun]

/-- A request whose address is homed here passes the Seam (R33, R211). -/
theorem route_here {r : Req} {k : Nat} {e : REntry} {h : Hub} (hfound : rmapFind h r.addr = some (k, e)) (hcfg : e.typ ≠ .cfg)
    (hhere : e.here (seamBytes { r with ent := e } (dieOfLink r.link) r.data.length h) = true) :
    route r true h = toSlice e { r with ent := e } true (seamBytes { r with ent := e } (dieOfLink r.link) r.data.length h) := by
  rw [route, hfound]
  dsimp only
  rw [hhere, if_neg (by simp)]
  split
  · contradiction
  · rfl

/-- A request that is no notice and that its partition's blocks allow is classified and presented (R60, R211, R296). -/
theorem toSlice_plain {e : REntry} {r : Req} {h : Hub} (hop : plainOp r.op = true) (hbar : kettleBars h e r = false) :
    toSlice e r true h = present (classify e r true h).1 (classify e r true h).2 := by
  obtain ⟨h31, h32, h33, h34, -, -, -⟩ := ne_of_plainOp hop
  have notice : isNotice r.op = false := by simp [isNotice, h31, h32, h33, h34]
  have same : (classify e r true h).1.op = r.op := by
    rw [classify, if_neg (by simp)]
    dsimp only
    split <;> rfl
  rw [toSlice, notice, hbar]
  dsimp only
  rw [if_neg (by simp), if_neg (by simp), same, if_neg (by simp [h32]), if_neg (by simp [notice])]

/-- A request that may be taken comes to its slice, behind counts only (R211, R289). -/
theorem effRequest_presented {op l : Nat} {r : ReqHdr} {d : List Byte} {wd : Bool} {e : REntry} {h : Hub} (hl : l < 8) (hu : Uncounted h)
    (hrun : h.life.phase = .run) (ht : h.takes l op r d e) (hop : plainOp op = true) (hcfg : e.typ ≠ .cfg)
    (hbar : kettleBars h e (reqOf l h.nextId (reqMsg op r d) h) = false) :
    ∃ h1 c c', Accepted h h1 ∧ effRequest op l r d wd h = present (homeReq op l r d e c c' h) h1 := by
  obtain ⟨htr, hin, hlist, hadm, hmap, hhere, hform⟩ := ht
  obtain ⟨-, -, -, -, h39, h3A, h3B⟩ := ne_of_plainOp hop
  have counted : Accepted h (countVcErr l (takenMsg op l r d h) (numbered h)) := (Accepted.of_numbered h).trans (.of_countVcErr _ _ hl)
  have formed : formStatus (countVcErr l (takenMsg op l r d h) (numbered h)) (takenReq op l r d h) r.len.toNat (ceilDiv d.length 16) = 0 :=
    (counted.formStatus ..).trans hform
  rw [effRequest_taken htr hin hlist, request_formed formed]
  generalize countVcErr l (takenMsg op l r d h) (numbered h) = h0 at counted formed ⊢
  have hrun0 : h0.life.phase = .run := by obtain ⟨_, _, _, _, _, rfl⟩ := counted.rest; exact hrun
  obtain ⟨⟨k, e⟩, hfound, rfl⟩ := Option.map_eq_some_iff.1 hmap
  have hfound0 : rmapFind h0 r.addr.toNat = some (k, e) := by obtain ⟨_, _, _, _, _, rfl⟩ := counted.rest; exact hfound
  have crossed : Accepted h0 (seamBytes { takenReq op l r d h with ent := e } (dieOfLink l) (takenReq op l r d h).data.length h0) := by
    rw [seamBytes]
    split
    · exact .of_pmu (counted.uncounted hu) (by unfold dieOfLink; omega)
    · exact .refl _
  have acc := counted.trans crossed
  have hhere1 : e.here (seamBytes { takenReq op l r d h with ent := e } (dieOfLink l) (takenReq op l r d h).data.length h0) = true := by
    obtain ⟨_, _, _, _, _, e1⟩ := acc.rest
    rw [e1]; exact hhere
  obtain ⟨c, c', hclass, charged⟩ := classify_admitted e { takenReq op l r d h with ent := e } (acc.uncounted hu)
  refine ⟨_, c, c', acc.trans charged, ?_⟩
  calc admitReq (takenReq op l r d h) h0
    _ = route (takenReq op l r d h) true h0 := admitReq_admitted hadm hrun0 ⟨h39, h3A, h3B⟩
    _ = _ := route_here hfound0 hcfg hhere1
    _ = _ := toSlice_plain hop ((acc.kettleBars ..).trans hbar)
    _ = _ := congrArg (present · _) hclass

/-! ### A hub at rest -/

/-- What `Hub.idle` says of the structures that a request meets at its home. -/
structure Resting (h : Hub) : Prop where
  txns : h.txns = []
  waiting : h.waiting = []
  tongs : h.tongs = []
  evict : h.integ.evict = []
  echo : h.cache.echoDue = []
  snps : h.snps = []
  recov : h.recov = []
  undef : h.undef = []
  wbs : h.wbs = []
  parity : ∀ e ∈ h.sieve, parityBad h e = false
  warm : h.life.warm = []
  run : h.life.phase = .run
  pathErr : h.integ.pathErr = []
  wins : h.wins = []
  wf : h.mem.wf = true
  ketErr : h.mem.ketErr = []
  uncounted : Uncounted h

theorem Hub.idle.resting {h : Hub} (hi : h.idle) : Resting h := by
  obtain ⟨⟨txns, waiting, tongs, evict, echo⟩, snps, recov, undef, wbs, par, warm, run, path, wins, wf, ket, pmu⟩ := hi
  exact ⟨txns, waiting, tongs, evict, echo, snps, recov, undef, wbs, fun e he => by simpa using List.all_eq_true.1 par e he, warm, run, path, wins, wf, ket, pmu⟩

/-- Counts leave a hub at rest. -/
theorem Accepted.resting {h h' : Hub} (acc : Accepted h h') (hi : Resting h) : Resting h' := by
  have uncounted := acc.uncounted hi.uncounted
  have parity (e : SEnt) : parityBad h' e = parityBad h e := by rw [parityBad, parityBad, sieveWords, sieveWords, acc.geomWord]
  obtain ⟨_, _, _, _, _, rfl⟩ := acc.rest
  exact ⟨hi.txns, hi.waiting, hi.tongs, hi.evict, hi.echo, hi.snps, hi.recov, hi.undef, hi.wbs, fun x hx => (parity x).trans (hi.parity x hx), hi.warm,
    hi.run, hi.pathErr, hi.wins, hi.wf, hi.ketErr, uncounted⟩

/-! ### A transaction alone at its home -/

/-- One transaction is open, with no snoop, no set under recovery, no Tongs line and nothing else due. -/
structure Alone (t : Txn) (h : Hub) : Prop where
  txns : h.txns = [t]
  tongs : h.tongs = []
  evict : h.integ.evict = []
  echo : h.cache.echoDue = []
  snps : h.snps = []
  recov : h.recov = []

/-- The hub with one transaction open, its number taken. -/
def opened (t : Txn) (h : Hub) : Hub := { h with txns := [t], nextId := h.nextId + 1 }

theorem Resting.opened {h : Hub} (hr : Resting h) (t : Txn) : Alone t (opened t h) := ⟨rfl, hr.tongs, hr.evict, hr.echo, hr.snps, hr.recov⟩

theorem maxOf_map_zero {α : Type} (l : List α) : maxOf (l.map (fun _ => 0)) = 0 := by
  induction l with
  | nil => rfl
  | cons x r ih => rw [List.map_cons, maxOf, ih]; rfl

theorem ownerLoad_none {h : Hub} (hs : h.snps = []) (lo n : Nat) : ownerLoad h lo n = 0 := by
  rw [ownerLoad, hs]
  exact maxOf_map_zero _

namespace Alone

variable {t : Txn} {h : Hub} (al : Alone t h)
include al

theorem txnOf : txnOf h t.id = some t := by simp [Machine.txnOf, al.txns]

theorem settle : settle h = settleLoop 40 h := by
  have h6 : settleEvict h = h := by simp [settleEvict, al.evict]
  have h7 : settleEcho h = h := by simp [settleEcho, al.echo]
  rw [Machine.settle, tidyTongs_none h al.tongs, h6, h7, al.txns]; rfl

/-- A turn that moves the transaction on. -/
theorem settleLoop_moves {n : Nat} {h' : Hub} (ha : advance t.id h = some h') : settleLoop (n + 1) h = settleLoop n h' := by
  rw [settleLoop, al.txns]
  simp [settlePass, ha]

/-- A turn in which it waits. -/
theorem settleLoop_waits {n : Nat} (ha : advance t.id h = none) : settleLoop (n + 1) h = h := by
  rw [settleLoop, al.txns]
  simp [settlePass, ha]

theorem streamAhead : streamAhead t h = false := by simp [Machine.streamAhead, al.txns]

theorem tongBars : tongBars t h = false := by simp [Machine.tongBars, al.tongs]

theorem reissueAhead : reissueAhead t h = false := by simp [Machine.reissueAhead, al.snps]

theorem grantAhead : grantAhead t h = false := by simp [Machine.grantAhead, al.txns]

theorem blocked : blocked t h = false := by simp [Machine.blocked, al.streamAhead, al.txns]

theorem mustStall : mustStall t h = false := by
  simp [Machine.mustStall, al.reissueAhead, al.grantAhead, al.tongBars, al.txns, al.snps, underRecovery, al.recov, ownerLoad_none al.snps]

theorem setPh (ph : TxnPh) : setPh t.id ph h = { h with txns := [{ t with ph := ph }] } := by simp [Machine.setPh, updTxn, al.txns]

/-- A transaction that ends leaves none behind. -/
theorem finish : finish t h = { h with txns := [] } := by
  have gone : dropTxn t.id h = { h with txns := [] } := by simp [dropTxn, al.txns]
  rw [Machine.finish, gone, releaseHeld]
  have := al.snps
  cases h
  cases this
  rfl

end Alone

/-! ### Ordering at the Kettle -/

/-- Where the entry that a request found still serves its address, it is checked against that entry. -/
theorem mapped_same {r : Req} {h : Hub} (hm : (rmapFind h r.addr).map Prod.snd = some r.ent) : r.mapped h = r := by
  rw [Req.mapped, entryOf, hm]
  split <;> rfl

/-- Reads and writes with an address. -/
def addressOps : List Nat := [0x11, 0x12, 0x13, 0x14, 0x15, 0x16, 0x21, 0x22, 0x23, 0x24, 0x25, 0x26]

/-- A Kettle access needs no tracker (R37). -/
theorem needsTrk_kettle {h : Hub} {e : REntry} {r : Req} (ht : e.typ = .kettle) (hop : r.op ∈ addressOps) (hs : r.src = .link) : needsTrk h e r = false := by
  simp only [addressOps, List.mem_cons, List.not_mem_nil, or_false] at hop
  rcases hop with e1 | e1 | e1 | e1 | e1 | e1 | e1 | e1 | e1 | e1 | e1 | e1 <;>
    simp [needsTrk, servedAs, ht, e1, hs, RType.sieve, writesLine]

/-- A Kettle access of a hub at rest waits for nothing (R16). -/
theorem waitReason_kettle {h : Hub} {e : REntry} {r : Req} (hr : Resting h) (ht : e.typ = .kettle) (hop : r.op ∈ addressOps) (hs : r.src = .link) :
    waitReason h e r = none := by
  have warm : (bfind h.life.warm (homeDie r.addr)).isSome = false := by rw [hr.warm]; rfl
  have held : streamHeld h r = false := by simp [streamHeld, hr.waiting]
  have wb : takesWb e r = false := by simp [takesWb, ht]
  have retry : wouldRetry h e r = false := by simp [wouldRetry, ht, RType.sieve]
  simp [waitReason, warm, held, needsTrk_kettle ht hop hs, wb, retry, ht, RType.cached, RType.sieve]

/-- Its transaction as it is opened. -/
def kettleTxn (r : Req) (h : Hub) : Txn :=
  { id := h.nextId, req := r, slice := homeSlice r.addr, lo := r.addr / r.size * r.size / 64 * 64, n := max 64 r.size, upg := r.op == 0x26 }

theorem openTxn_kettle {h : Hub} {e : REntry} {r : Req} (hx : h.txns = []) (ht : e.typ = .kettle) (hop : r.op ∈ addressOps) (hs : r.src = .link)
    (he : r.ent = e) : openTxn e r h = opened (kettleTxn r h) h := by
  have wb : takesWb e r = false := by simp [takesWb, ht]
  rw [openTxn, needsTrk_kettle ht hop hs, wb, ht, hx]
  simp [RType.sieve, RType.cached, opened, kettleTxn]
  subst he
  rfl

/-- A Kettle access other than ST_COND of a hub at rest is ordered at once. -/
theorem orderReq_kettle {h : Hub} {r : Req} (hr : Resting h) (hm : (rmapFind h r.addr).map Prod.snd = some r.ent) (ht : r.ent.typ = .kettle)
    (hop : r.op ∈ addressOps) (hcond : r.op ≠ 0x26) (hs : r.src = .link) :
    orderReq r h = openTxn r.ent r (orderEffects r.ent r (useSlot r false h)) := by
  have undef : undefinedAt h r.addr r.size = false := by simp [undefinedAt, hr.undef]
  have slot : pmuReq 0x01 r (useSlot r false h) = useSlot r false h := pmu_uncounted (hr.uncounted.of_regs rfl) (homeDie_lt _)
  have sieve : r.ent.typ.sieve = false := by rw [ht]; rfl
  have cached : r.ent.typ.cached = false := by rw [ht]; rfl
  rw [orderReq, mapped_same hm]
  dsimp only
  rw [undef, sieve, cached, if_neg (by simp), if_neg (fun e => hcond e.1), if_neg (by simp), waitReason_kettle hr ht hop hs]
  dsimp only
  rw [slot, if_neg (by simp), if_neg (fun e => hcond e.1), if_neg hcond, if_neg (by simp)]

/-! ### Bytes of a memory -/

theorem memReadN_length (m : List Host.Cell) (a n : Nat) : (memReadN m a n).length = n := by simp [memReadN]

theorem memReadN_append (m : List Host.Cell) (a x y : Nat) : memReadN m a (x + y) = memReadN m a x ++ memReadN m (a + x) y := by
  simp [memReadN, List.range_add, Nat.add_assoc]

theorem slice_memReadN (m : List Host.Cell) {a n i k : Nat} (h : i + k ≤ n) : slice (memReadN m a n) i k = memReadN m (a + i) k := by
  obtain ⟨j, rfl⟩ := Nat.exists_eq_add_of_le h
  rw [Nat.add_assoc, memReadN_append, slice, List.drop_left' (memReadN_length ..), memReadN_append, List.take_left' (memReadN_length ..)]

/-- A slice of a line into which bytes were put gives them back. -/
theorem slice_splice_same {α : Type} {l new : List α} {i : Nat} (h : i ≤ l.length) : slice (splice l i new) i new.length = new := by
  rw [slice, splice, List.append_assoc, List.drop_left' (List.length_take_of_le h), List.take_left]

theorem xorData_zero (d : List Byte) : xorData d 0 = d := by
  induction d with
  | nil => rfl
  | cons b d ih =>
    rw [xorData] at ih ⊢
    rw [List.length_cons, toBytes, List.zipWith_cons_cons, Nat.zero_div, ih]
    simp

/-- A Kettle word without a bit error reads as it is (R345). -/
theorem readKettleWord_clean {off die who : Nat} {h : Hub} (hk : h.mem.ketErr = []) : readKettleWord off die who h = ⟨h, false, memReadN h.mem.kettle (off / 8 * 8) 8⟩ := by
  have clean : secded 0 = (.clean, 0) := by decide
  have none_ : (bget h.mem.ketErr (off / 8) 0#72).toNat = 0 := by rw [hk]; rfl
  rw [readKettleWord]
  dsimp only
  rw [none_, clean]
  dsimp only
  rw [xorData_zero]

/-- Words read one behind the other read a range. -/
theorem readWords_clean {m : List Host.Cell} {f : Nat → Hub → Got} {h : Hub} {b w0 : Nat} (k : Nat)
    (hf : ∀ i, i < k → f ((w0 + i) * 8) h = ⟨h, false, memReadN m (b + 8 * i) 8⟩) :
    readWords f ((List.range k).map (fun i => (w0 + i) * 8)) h = ⟨h, false, memReadN m b (8 * k)⟩ := by
  induction k generalizing b w0 with
  | zero => rfl
  | succ k ih =>
    have head : (List.range (k + 1)).map (fun i => (w0 + i) * 8) = w0 * 8 :: (List.range k).map (fun i => (w0 + 1 + i) * 8) := by
      rw [List.range_succ_eq_map]
      simp [Nat.add_assoc, Nat.add_comm 1]
    have tail := ih (b := b + 8) (w0 := w0 + 1) fun i hi => by
      rw [Nat.add_assoc, Nat.add_comm 1 i, hf (i + 1) (by omega)]; congr 2; omega
    rw [head, readWords, show f (w0 * 8) h = ⟨h, false, memReadN m b 8⟩ from hf 0 (by omega)]
    dsimp only
    rw [tail]
    simp [show 8 * (k + 1) = 8 + 8 * k by omega, memReadN_append]

/-- A read of the Kettle gives the region's bytes (R345). -/
theorem readKettle_clean {e : REntry} {a n who : Nat} {h : Hub} (hk : h.mem.ketErr = []) (hb : e.base * unit2M ≤ a) :
    readKettle e a n who h = ⟨h, false, memReadN h.mem.kettle (e.off a) n⟩ := by
  have words : ∀ i, i < (a % 8 + n + 7) / 8 → (fun w h => readKettleWord (e.off w) (homeDie w) who h) ((a / 8 + i) * 8) h
      = ⟨h, false, memReadN h.mem.kettle (e.off a - a % 8 + 8 * i) 8⟩ := by
    intro i _
    have aligned : e.off ((a / 8 + i) * 8) / 8 * 8 = e.off a - a % 8 + 8 * i := by
      simp only [REntry.off, unit2M] at *
      omega
    exact (readKettleWord_clean hk).trans (by rw [aligned])
  have low : a % 8 ≤ e.off a := by
    simp only [REntry.off, unit2M] at *
    omega
  rw [readKettle, wordsOf, readWords_clean _ words]
  dsimp only
  rw [slice_memReadN _ (by omega), Nat.sub_add_cancel low]

/-! ### Serving the Kettle -/

/-- An answer to a transaction that is not timed leaves as one message (R331). -/
theorem respond_untimed {t : Txn} {m : Msg} {h : Hub} (hu : Uncounted h) (hs : t.req.src = .link) (hc : t.cnt = false) (hm : m.lstat ≠ 1) :
    respond t m h = sendMsg t.req.link (replyTo t.req m) h := by
  have crossed : seamBytes t.req (homeDie t.req.addr) m.data.length h = h := by
    rw [seamBytes]
    split
    · exact pmu_uncounted hu (homeDie_lt _)
    · rfl
  rw [respond, if_pos (by simp [hs]), hc, countDataErr, if_neg hm, crossed]
  rfl

/-- Sending leaves what stands at the home. -/
theorem Alone.sendMsg {t : Txn} {h : Hub} (al : Alone t h) (l : Nat) (m : Msg) : Alone t (sendMsg l m h) :=
  ⟨(sendMsg_txns ..).trans al.txns, (sendMsg_tongs ..).trans al.tongs, (congrArg Integ.evict (sendMsg_integ ..)).trans al.evict,
    (congrArg Cache.echoDue (sendMsg_cache ..)).trans al.echo, (sendMsg_snps ..).trans al.snps, (sendMsg_recov ..).trans al.recov⟩

/-- The phase of the transaction that is alone. -/
def phased (t : Txn) (ph : TxnPh) (h : Hub) : Hub := { h with txns := [{ t with ph := ph }] }

theorem Alone.phased {t : Txn} {h : Hub} (al : Alone t h) (ph : TxnPh) : Alone { t with ph := ph } (phased t ph h) :=
  ⟨rfl, al.tongs, al.evict, al.echo, al.snps, al.recov⟩

/-- The hub behind the answer to the last open transaction. -/
def answeredBy (l : Nat) (m : Msg) (h : Hub) : Hub := { sendMsg l m h with txns := [] }

/-- A stalled access of the Kettle, which no gate holds, is evaluated. -/
theorem advance_stalled_kettle {t : Txn} {h : Hub} (al : Alone t h) (hp : t.ph = .stalled) (ht : t.req.ent.typ = .kettle) :
    advance t.id h = some (evalReq t h) := by
  rw [advance, al.txnOf]
  dsimp only
  rw [hp]
  dsimp only
  have sieve : t.req.ent.typ.sieve = false := by rw [ht]; rfl
  have retry : wouldRetry h t.req.ent t.req = false := by rw [wouldRetry, sieve]; rfl
  rw [al.tongBars, al.streamAhead, retry, sieve]
  simp

/-- A read of the Kettle is served next (R107). -/
theorem evalReq_kettle_read {t : Txn} {h : Hub} (al : Alone t h) (ht : t.req.ent.typ = .kettle) (hop : t.req.op ∈ [0x11, 0x12, 0x13, 0x14, 0x16]) :
    evalReq t h = phased t .serve h := by
  simp only [List.mem_cons, List.not_mem_nil, or_false] at hop
  rw [phased, ← al.setPh]
  rcases hop with e | e | e | e | e <;> simp [evalReq, servedAs, ht, RType.sieve, e, readsLine, opDirty]

/-- The last transaction ends with its answer. -/
theorem Alone.finish_respond {t : Txn} {m : Msg} {h : Hub} (al : Alone t h) (hu : Uncounted h) (hs : t.req.src = .link) (hcnt : t.cnt = false)
    (hm : m.lstat ≠ 1) : Machine.finish t (respond t m h) = answeredBy t.req.link (replyTo t.req m) h := by
  rw [respond_untimed hu hs hcnt hm, (al.sendMsg _ _).finish, answeredBy]

/-- A read without an error ends with its data (R331). -/
theorem Alone.finishRead_good {t : Txn} {h : Hub} (al : Alone t h) (hu : Uncounted h) (hs : t.req.src = .link) (hcnt : t.cnt = false) (d : List Byte) :
    finishRead t false d h = answeredBy t.req.link (replyTo t.req { op := 0xA2, state := t.grant, data := slotData t.req.addr d }) h := by
  rw [finishRead, if_neg (by simp)]
  exact al.finish_respond hu hs hcnt (show (0 : Nat) ≠ 1 by decide)

/-- The answer to a read of the Kettle: the region's bytes, in the slots of their transfer (R331, R345). -/
def kettleData (t : Txn) (h : Hub) : Msg :=
  replyTo t.req { op := 0xA2, state := t.grant, data := slotData t.req.addr (memReadN h.mem.kettle (t.req.ent.off t.req.addr) t.req.size) }

/-- A read of the Kettle that is served is answered with the region's bytes (R107, R345). -/
theorem advServe_kettle {t : Txn} {h : Hub} (al : Alone t h) (hu : Uncounted h) (hk : h.mem.ketErr = []) (hpath : h.integ.pathErr = [])
    (ht : t.req.ent.typ = .kettle) (hs : t.req.src = .link) (hupg : t.upg = false) (hcnt : t.cnt = false) (hpieces : t.pieces = [])
    (hsize : 0 < t.req.size) (hb : t.req.ent.base * unit2M ≤ t.req.addr) :
    advServe t h = some (answeredBy t.req.link (kettleData t h) h) := by
  have cover : piecesCover t = false := by
    obtain ⟨n, hn⟩ := Nat.exists_eq_succ_of_ne_zero (Nat.pos_iff_ne_zero.1 hsize)
    simp only [piecesCover, hpieces, hn, List.any_nil, List.all_eq_false, List.mem_range]
    exact ⟨0, by omega, by simp⟩
  have path : pathCheck t.req.addr h = (false, h) := by rw [pathCheck, hpath]; rfl
  have line : slice (withPieces t (splice zeroLine (t.req.addr % 128) (memReadN h.mem.kettle (t.req.ent.off t.req.addr) t.req.size))) (t.req.addr % 128) t.req.size
      = memReadN h.mem.kettle (t.req.ent.off t.req.addr) t.req.size := by
    have := slice_splice_same (l := zeroLine) (new := memReadN h.mem.kettle (t.req.ent.off t.req.addr) t.req.size) (i := t.req.addr % 128)
      (by simp [zeroLine]; omega)
    rw [memReadN_length] at this
    rw [withPieces, hpieces]
    exact this
  rw [advServe, al.blocked, hupg, cover, readHome, ht, readKettle_clean hk hb, hs]
  rw [if_neg (by simp), if_neg (by simp), if_neg (by decide), if_neg (by simp), if_neg (by decide), if_neg (by simp)]
  dsimp only
  rw [if_neg (by simp)]
  dsimp only
  rw [path, line, al.finishRead_good hu hs hcnt]
  rfl

/-- A read of the Kettle that is open alone is answered in two turns. -/
theorem settle_kettle_read {t : Txn} {h : Hub} (al : Alone t h) (hu : Uncounted h) (hk : h.mem.ketErr = []) (hpath : h.integ.pathErr = [])
    (hp : t.ph = .stalled) (ht : t.req.ent.typ = .kettle) (hs : t.req.src = .link) (hop : t.req.op ∈ [0x11, 0x12, 0x13, 0x14, 0x16])
    (hupg : t.upg = false) (hcnt : t.cnt = false) (hpieces : t.pieces = []) (hsize : 0 < t.req.size) (hb : t.req.ent.base * unit2M ≤ t.req.addr) :
    settle h = answeredBy t.req.link (kettleData t h) (phased t .serve h) := by
  have serving := al.phased .serve
  have first : advance t.id h = some (phased t .serve h) := by rw [advance_stalled_kettle al hp ht, evalReq_kettle_read al ht hop]
  have second : advance t.id (phased t .serve h) = some (answeredBy t.req.link (kettleData t h) (phased t .serve h)) := by
    have served := advServe_kettle serving (hu.of_regs rfl) hk hpath ht hs hupg hcnt hpieces hsize hb
    rw [advance, serving.txnOf]
    exact served
  rw [al.settle, al.settleLoop_moves first, serving.settleLoop_moves second]
  exact settleLoop_no_txns _ _ rfl

/-- The region map's entry holds the address that it serves. -/
theorem base_le_of_rmapFind {h : Hub} {a : Nat} {e : REntry} (hm : (rmapFind h a).map Prod.snd = some e) : e.base * unit2M ≤ a := by
  obtain ⟨⟨k, e'⟩, hf, rfl⟩ := Option.map_eq_some_iff.1 hm
  have := List.find?_some hf
  simp only [REntry.holds, Bool.and_eq_true, decide_eq_true_eq] at this
  exact this.1.2

/-- The ordering of a read of the Kettle other than RD_RESV does nothing more (R90, R168). -/
theorem orderEffects_kettle_read {h : Hub} {e : REntry} {r : Req} (ht : e.typ = .kettle) (hop : r.op ∈ [0x11, 0x12, 0x13, 0x14]) : orderEffects e r h = h := by
  simp only [List.mem_cons, List.not_mem_nil, or_false] at hop
  rcases hop with e1 | e1 | e1 | e1 <;> simp [orderEffects, servedAs, ht, RType.sieve, RType.cached, e1, writesLine, opDirty]

/-- An access of the Kettle that is presented to a hub at rest is settled as the one transaction that is open. -/
theorem present_kettle {h : Hub} {r : Req} (hr : Resting h) (hm : (rmapFind h r.addr).map Prod.snd = some r.ent) (ht : r.ent.typ = .kettle)
    (hop : r.op ∈ addressOps) (hcond : r.op ≠ 0x26) (hs : r.src = .link) (hx : (orderEffects r.ent r (useSlot r false h)).txns = []) :
    present r h = settle (opened (kettleTxn r (orderEffects r.ent r (useSlot r false h))) (orderEffects r.ent r (useSlot r false h))) := by
  rw [present, tidyTongs_none h hr.tongs, orderReq_kettle hr hm ht hop hcond hs, openTxn_kettle hx ht hop hs rfl]

/-- A hub that answered on one link. -/
theorem answered_answeredBy {l : Nat} {r : ReqHdr} {m : Msg} {h h' : Hub} {p : Msg → Prop} (hl : h'.links = h.links) (ht : linkTrained h l = true) (hvc : m.vc = r.vc)
    (hs : m.stream = r.stream.toNat) (htag : m.tag = r.tag.toNat) (hp : p m) : h.answered (answeredBy l m h') l r p :=
  answered_sendMsg hl ht hvc hs htag hp

end Sys2Proof.Machine

namespace Sys2Proof.Machine.Slice0

/-- Settles O31: the read is alone at its home, which serves it in two turns. -/
theorem kettleReadsAnswerTheBytes : Obligations.KettleReadsAnswerTheBytes := by
  intro h q l r e i op hi hidle ht hk
  have hr := hidle.resting
  obtain ⟨hexec, hop⟩ : exec i ⟨h, q⟩ = .next ⟨effRequest op l.toNat r [] false h, q⟩ ∧ op ∈ [0x11, 0x12, 0x13, 0x14] := by
    simp only [List.mem_cons, List.not_mem_nil, or_false, Prod.mk.injEq] at hi
    rcases hi with ⟨rfl, rfl⟩ | ⟨rfl, rfl⟩ | ⟨rfl, rfl⟩ | ⟨rfl, rfl⟩
    all_goals exact ⟨rfl, by decide⟩
  have hplain : plainOp op = true := by
    have all : ∀ op ∈ [0x11, 0x12, 0x13, 0x14], plainOp op = true := by decide
    exact all op hop
  have hbar : kettleBars h e (reqOf l.toNat h.nextId (reqMsg op r []) h) = false := by
    have all : ∀ op ∈ [0x11, 0x12, 0x13, 0x14], writesLine op = false := by decide
    simp [kettleBars, reqOf, reqMsg, all op hop]
  obtain ⟨h1, c, c', acc, heff⟩ := effRequest_presented (wd := false) l.isLt hr.uncounted hr.run ht hplain (by rw [hk]; decide) hbar
  obtain ⟨htr, -, -, -, hmap, -, -⟩ := ht
  have acc2 := acc.trans (Accepted.of_useSlot (homeReq op l.toNat r [] e c c' h) false h1)
  have hmap1 : (rmapFind h1 r.addr.toNat).map Prod.snd = some e := by obtain ⟨_, _, _, _, _, rfl⟩ := acc.rest; exact hmap
  have hbase := base_le_of_rmapFind hmap
  have haddr : op ∈ addressOps := by
    have all : ∀ op ∈ [0x11, 0x12, 0x13, 0x14], op ∈ addressOps := by decide
    exact all op hop
  have hcond : op ≠ 0x26 := by rintro rfl; revert hop; decide
  have heffects : orderEffects (homeReq op l.toNat r [] e c c' h).ent (homeReq op l.toNat r [] e c c' h) (useSlot (homeReq op l.toNat r [] e c c' h) false h1)
      = useSlot (homeReq op l.toNat r [] e c c' h) false h1 := orderEffects_kettle_read hk hop
  have hr2 := acc2.resting hr
  rw [heff, present_kettle (r := homeReq op l.toNat r [] e c c' h) (acc.resting hr) hmap1 hk haddr hcond rfl (by rw [heffects]; exact hr2.txns)] at hexec
  rw [heffects] at hexec
  generalize useSlot (homeReq op l.toNat r [] e c c' h) false h1 = h2 at acc2 hr2 hexec
  have hread : op ∈ [0x11, 0x12, 0x13, 0x14, 0x16] := by
    have all : ∀ op ∈ [0x11, 0x12, 0x13, 0x14], op ∈ [0x11, 0x12, 0x13, 0x14, 0x16] := by decide
    exact all op hop
  have hupg : (kettleTxn (homeReq op l.toNat r [] e c c' h) h2).upg = false := by
    show (op == 0x26) = false
    simpa using hcond
  rw [settle_kettle_read (hr2.opened _) (hr2.uncounted.of_regs rfl) hr2.ketErr hr2.pathErr rfl hk rfl hread hupg rfl rfl (Nat.two_pow_pos _) hbase] at hexec
  obtain ⟨_, _, _, _, _, e2⟩ := acc2.rest
  subst e2
  refine ⟨_, hexec, ?_, ?_, rfl, ?_, ?_, ?_⟩
  · exact answered_answeredBy rfl htr rfl rfl rfl ⟨rfl, rfl, rfl, rfl⟩
  · exact (sendMsg_mem ..).trans rfl
  · exact (sendMsg_sieve ..).trans rfl
  · exact (sendMsg_mons ..).trans rfl
  · exact (sendMsg_wbs ..).trans rfl

end Sys2Proof.Machine.Slice0

/-!
Memories in canonical form: what a read gives behind a write, and that writes keep the form (log entry 7).
-/

namespace Sys2Proof.Machine

theorem wf_cons {a : Nat} {v : Byte} {m : List Host.Cell} : Memory.wf ((a, v) :: m) = true ↔ v ≠ 0#8 ∧ (∀ c ∈ m, a < c.1) ∧ Memory.wf m = true := by
  induction m generalizing a v with
  | nil => simp [Memory.wf]
  | cons c m ih =>
    obtain ⟨b, w⟩ := c
    rw [Memory.wf, Bool.and_eq_true, Bool.and_eq_true, bne_iff_ne, decide_eq_true_eq, and_assoc]
    refine and_congr_right fun _ => ⟨fun ⟨hab, hm⟩ => ⟨fun c hc => ?_, hm⟩, fun ⟨hc, hm⟩ => ⟨hc _ List.mem_cons_self, hm⟩⟩
    rcases List.mem_cons.1 hc with rfl | hc
    · exact hab
    · exact hab.trans ((ih.1 hm).2.1 c hc)

/-- Below every listed address a memory reads 0. -/
theorem memRead_below {m : List Host.Cell} {i : Nat} (h : ∀ c ∈ m, i < c.1) : memRead m i = 0#8 := by
  cases m with
  | nil => rfl
  | cons c m => exact if_pos (h c List.mem_cons_self)

theorem mem_memWrite {m : List Host.Cell} {i : Nat} {v : Byte} {c : Host.Cell} (hc : c ∈ memWrite m i v) : c ∈ m ∨ c.1 = i := by
  induction m with
  | nil =>
    rw [memWrite] at hc
    split at hc
    · exact absurd hc List.not_mem_nil
    · exact .inr (by rw [List.mem_singleton.1 hc])
  | cons e m ih =>
    obtain ⟨a, w⟩ := e
    rw [memWrite] at hc
    split at hc
    · split at hc
      · exact .inl hc
      · rcases List.mem_cons.1 hc with rfl | hc
        · exact .inr rfl
        · exact .inl hc
    · split at hc
      · split at hc
        · exact .inl (List.mem_cons_of_mem _ hc)
        · rcases List.mem_cons.1 hc with rfl | hc
          · exact .inr rfl
          · exact .inl (List.mem_cons_of_mem _ hc)
      · rcases List.mem_cons.1 hc with rfl | hc
        · exact .inl List.mem_cons_self
        · exact (ih hc).imp_left (List.mem_cons_of_mem _)

/-- A written byte keeps the form. -/
theorem wf_memWrite {m : List Host.Cell} (hm : Memory.wf m = true) (i : Nat) (v : Byte) : Memory.wf (memWrite m i v) = true := by
  induction m with
  | nil =>
    rw [memWrite]
    split
    · rfl
    · next hv => simpa [Memory.wf] using hv
  | cons e m ih =>
    obtain ⟨a, w⟩ := e
    obtain ⟨hw, hlt, hm'⟩ := wf_cons.1 hm
    rw [memWrite]
    split
    · next hia =>
      split
      · exact hm
      · next hv =>
        refine wf_cons.2 ⟨hv, fun c hc => ?_, hm⟩
        rcases List.mem_cons.1 hc with rfl | hc
        · exact hia
        · exact hia.trans (hlt c hc)
    · next hia =>
      split
      · next e =>
        subst e
        split
        · exact hm'
        · next hv => exact wf_cons.2 ⟨hv, hlt, hm'⟩
      · refine wf_cons.2 ⟨hw, fun c hc => ?_, ih hm'⟩
        rcases mem_memWrite hc with hc | hc
        · exact hlt c hc
        · omega

/-- A byte reads what was written last. -/
theorem memRead_memWrite {m : List Host.Cell} (hm : Memory.wf m = true) (i : Nat) (v : Byte) (j : Nat) :
    memRead (memWrite m i v) j = if j = i then v else memRead m j := by
  induction m with
  | nil =>
    rw [memWrite]
    by_cases hv : v = 0#8
    · rw [if_pos hv, hv]; simp [memRead]
    · have none_ : memRead [] j = 0#8 := rfl
      rw [if_neg hv, none_, memRead, none_]
      grind
  | cons e m ih =>
    obtain ⟨a, w⟩ := e
    obtain ⟨-, hlt, hm'⟩ := wf_cons.1 hm
    have below {k : Nat} (hk : k ≤ a) : memRead m k = 0#8 := memRead_below fun c hc => hk.trans_lt (hlt c hc)
    rw [memWrite]
    split
    · next hia =>
      split
      · next hv => rw [memRead]; grind
      · rw [memRead, memRead]; grind
    · split
      · next e =>
        subst e
        split
        · next hv =>
          rw [memRead]
          by_cases hji : j ≤ i
          · rw [below hji]; grind
          · grind
        · rw [memRead, memRead]; grind
      · rw [memRead, memRead, ih hm']; grind

theorem wf_memWriteN {m : List Host.Cell} (hm : Memory.wf m = true) (a : Nat) (d : List Byte) : Memory.wf (memWriteN m a d) = true := by
  induction d generalizing m a with
  | nil => exact hm
  | cons b r ih => exact ih (wf_memWrite hm a b) (a + 1)

/-- Bytes read what was written over them, or what they held. -/
theorem memRead_memWriteN {m : List Host.Cell} (hm : Memory.wf m = true) (a : Nat) (d : List Byte) (j : Nat) :
    memRead (memWriteN m a d) j = if a ≤ j ∧ j < a + d.length then d.getD (j - a) 0#8 else memRead m j := by
  induction d generalizing m a with
  | nil => rw [memWriteN, if_neg (by simp)]
  | cons b r ih =>
    rw [memWriteN, ih (wf_memWrite hm a b), memRead_memWrite hm, List.length_cons]
    by_cases e : j = a
    · subst e; rw [if_neg (by omega), if_pos rfl, if_pos (by omega)]; simp
    · by_cases hj : a + 1 ≤ j ∧ j < a + 1 + r.length
      · rw [if_pos hj, if_pos (by omega), show j - a = j - (a + 1) + 1 by omega, List.getD_cons_succ]
      · rw [if_neg hj, if_neg e, if_neg (by omega)]

theorem memReadN_getD (m : List Host.Cell) (a n k : Nat) (hk : k < n) : (memReadN m a n).getD k 0#8 = memRead m (a + k) := by
  simp [memReadN, List.getD_eq_getElem?_getD, hk]

end Sys2Proof.Machine

/-!
Reservations that a write takes, of a die that the package does not have. A loss is a PMU event of the reservation's die (R361, R363), and `Hub.idle`
excludes selected events of the two dies only, so where such a counter overflows its interrupt leaves on the request's link before the answer.
-/

namespace Sys2Proof.Machine

/-- A reservation of LL1 on the Kettle's first line, of a die numbered 2. -/
def strayMonitor : Mon := { id := 1, die := 2, granule := Slice0.kett, link := 1, stream := 7, pid := 1, at_ := 10 ^ 9 }

/-- A reservation of LL0's stream 3 on the same line. -/
def ownMonitor : Mon := { strayMonitor with id := 2, die := 0, link := 0, stream := 3 }

/-- The running package with some reservations. Manager 0 takes the events' interrupts on LL0, and counter 0 of die 2, which counts lost reservations
with its overflow's event enabled, stands at its last value. -/
def reservedOffDie (mons : List Mon) : Hub :=
  { Slice0.wh with
    mons := mons
    regs := [(0x18, 0x7F000000#32), (0x4050, 0x01806200#32), (0x4054, 0x02806200#32), (0x4400, 0xF0007F01#32), (0x4408, 0x00000000#32),
      (0x440C, 0xFF800000#32), (0x4410, 0x0000000F#32), (0x204900, 0x20000000#32), (0x204910, 0x80000F23#32)]
    pmu := [(2, { cnt := [(0, 2 ^ 48 - 1)] })] }

/-- The request of LL0's stream 3 that writes bytes of the line: 8 at its second word, or the whole line. -/
def kettleWord : ReqHdr := Slice0.wr (Slice0.kett + 8) 3
def kettleLine : ReqHdr := Slice0.wr Slice0.kett 7

theorem reservedOffDie_idle {mons : List Mon} : (reservedOffDie mons).idle :=
  Slice0.idle_of _ ⟨⟨rfl, rfl, rfl, rfl, rfl⟩, rfl, rfl, rfl, rfl, rfl, rfl, rfl, rfl, rfl, rfl, rfl⟩
    (show ∀ e ∈ (reservedOffDie []).regs, e.1 < 0x4910 ∨ (0x4950 ≤ e.1 ∧ e.1 < 0x104910) ∨ 0x104950 ≤ e.1 by decide +kernel)

/-- A link that has two more messages does not answer a request with one. -/
theorem not_answered_of_two {h t : Hub} {l : Nat} {r : ReqHdr} {p : Msg → Prop} (hq : (link t l).q.length = (link h l).q.length + 2) : ¬ h.answered t l r p := by
  rintro ⟨⟨o, ho, -⟩, -⟩
  rw [ho, List.length_append, List.length_singleton] at hq
  omega

/-- Two outcomes that go on alike have one hub. -/
theorem hub_of_next_eq {h t : Hub} {q : List Instr} (e : (.next ⟨h, q⟩ : Host.Outcome State Fault Refusal) = .next ⟨t, q⟩) : t = h := by
  cases e; rfl

/-- ZERO_LINE, ATOMIC and ST_COND as the requests that they are. -/
theorem exec_zeroLine (l : BitVec 3) (r : ReqHdr) (h : Hub) (q : List Instr) : exec (.zeroLine l r) ⟨h, q⟩ = .next ⟨effRequest 0x24 l.toNat r [] false h, q⟩ := rfl

theorem exec_atomic (l : BitVec 3) (r : ReqHdr) (d : List Byte) (h : Hub) (q : List Instr) :
    exec (.atomic l r d) ⟨h, q⟩ = .next ⟨effRequest 0x25 l.toNat r d true h, q⟩ := rfl

theorem exec_stCond (l : BitVec 3) (r : ReqHdr) (d : List Byte) (h : Hub) (q : List Instr) :
    exec (.stCond l r d) ⟨h, q⟩ = .next ⟨effRequest 0x26 l.toNat r d true h, q⟩ := rfl

end Sys2Proof.Machine

namespace Sys2Proof.Machine.Slice0

/-- Refutes O32: the write takes the reservation of `strayMonitor`, whose loss counter overflows, so an interrupt and the answer leave on LL0. -/
theorem not_kettleWritesStoreTheBytes : ¬ Obligations.KettleWritesStoreTheBytes := by
  unfold Obligations.KettleWritesStoreTheBytes
  intro holds
  obtain ⟨t, hexec, hanswer, -⟩ := holds (reservedOffDie [strayMonitor]) [] 0#3 kettleLine [] wKet (.zeroLine 0#3 kettleLine) 0x24 (.inr ⟨rfl, rfl, rfl⟩)
    reservedOffDie_idle (takesReq_of _ _ _ _ _ _ (by decide +kernel)) rfl (by decide +kernel)
  rw [exec_zeroLine] at hexec
  rw [hub_of_next_eq hexec] at hanswer
  exact not_answered_of_two (by decide +kernel) hanswer

/-- Refutes O33: as for O32, the interrupt of the overflow leaves before the answer of the ATOMIC. -/
theorem not_kettleAtomic : ¬ Obligations.KettleAtomic := by
  unfold Obligations.KettleAtomic
  intro holds
  obtain ⟨t, hexec, hanswer, -⟩ := holds (reservedOffDie [strayMonitor]) [] 0#3 kettleWord (List.replicate 16 2#8) wKet
    reservedOffDie_idle (takesReq_of _ _ _ _ _ _ (by decide +kernel)) rfl (by decide +kernel)
  rw [exec_atomic] at hexec
  rw [hub_of_next_eq hexec] at hanswer
  exact not_answered_of_two (by decide +kernel) hanswer

/-- Refutes O34: the ST_COND of a stream that holds its reservation takes the other's as it passes, with the interrupt before its answer. -/
theorem not_reservationPair : ¬ Obligations.ReservationPair := by
  unfold Obligations.ReservationPair
  intro holds
  obtain ⟨-, conditional⟩ := holds (reservedOffDie [strayMonitor, ownMonitor]) [] 0#3 kettleWord (List.replicate 16 2#8) wKet reservedOffDie_idle rfl
  obtain ⟨t, hexec, hanswer, -⟩ := conditional (takesReq_of _ _ _ _ _ _ (by decide +kernel)) (by decide +kernel)
  rw [exec_stCond] at hexec
  rw [hub_of_next_eq hexec] at hanswer
  exact not_answered_of_two (by decide +kernel) hanswer

end Sys2Proof.Machine.Slice0

/-!
What waits at the twin. `Hub.idle` says nothing of the requests and snoops that are open on LL7, and many rows let whatever can go on there go on
behind their own effect, so an answer, a group that ends or a back-invalidation of the twin's side comes with the effect that a statement describes.
-/

namespace Sys2Proof.Machine

/-- A group of the twin's snoops that owes nothing any more, and a request of LL0 that the twin has answered. -/
def endedGroup : TwinSnp := { key := 9, kind := 7, addr := 0, size := 64 }
def answeredWrite : TwinReq := { key := 9, req := { Slice0.wReq with op := 0x22 }, addr := 0x100, size := 64, ph := 2, resp := some { op := 0xA1 } }

/-- The running package with that group, and with that answer and a read that waits for memory. -/
def groupEnding : Hub := { Slice0.wh with twin := { snps := [endedGroup] } }
def fillingRead : Txn := { Slice0.wTxn with ph := .fill, grant := 3 }
def answerWaiting : Hub := { Slice0.wh with txns := [fillingRead], twin := { reqs := [answeredWrite] } }

/-- Data that lands without an error. -/
def cleanData : Disturb := { words := [], beats := [], crc := 0#32, path := 0#2 }

theorem exec_trackerFreedRetry (sl : BitVec 5) (h : Hub) (q : List Instr) :
    exec (.trackerFreedRetry sl) ⟨h, q⟩ = .next ⟨twinSettle (effTrackerFreedRetry sl.toNat h), q⟩ := rfl

theorem exec_fillDataLands (id : Nat) (x : Disturb) (h : Hub) (q : List Instr) :
    exec (.fillDataLands id x) ⟨h, q⟩ = .next ⟨twinSettle (effFillDataLands id x h), q⟩ := rfl

theorem exec_whiskLineRead (r : BitVec 4) (line : Nat) (x : Disturb) (h : Hub) (q : List Instr) :
    exec (.whiskLineRead r line x) ⟨h, q⟩ = .next ⟨effWhiskLineRead r.toNat line x h, q⟩ := rfl

theorem exec_memoryWriteComplete (id : Nat) (h : Hub) (q : List Instr) :
    exec (.memoryWriteComplete id) ⟨h, q⟩ = .next ⟨twinSettle (effMemoryWriteComplete id h), q⟩ := rfl

/-! ### A request for the twin whose place in the Sieve is taken -/

/-- Main memory with ECC, and a request of host 0 for it that waits to be sent on LL7. -/
def eccEntry : REntry := { Slice0.wNwt with ecc := true }
def placeSeeker : TwinReq := { key := 9, req := { Slice0.wReq with op := 0x11, ent := eccEntry }, addr := 0x100, size := 64 }

/-- The running package with host 0 shown one way of each set only, by a compressed mirror, which another granule of the request's set has. -/
def placeTaken : Hub :=
  { Slice0.wh with
    rmap := [(0, eccEntry)]
    regs := (0x4040, 0x80000000#32) :: (0x4050, 0x01816200#32) :: Slice0.wh.regs
    sieve := [{ host := 0, set := 4, way := 0, addr := 0x200100, st := 1, seq := 1 }]
    twin := { reqs := [placeSeeker] } }

/-- One bit that fails in the first line's word 3. -/
def failedBit : Disturb := { words := [(3, BitVec.ofNat 72 (2 ^ 71))], beats := [], crc := 0#32, path := 0#2 }

/-- The hub once the Whisk has read the line, with the corrected write-back numbered 100. -/
def lineRead : Hub := effWhiskLineRead 4 0 failedBit placeTaken

/-! ### Snoops and answers on LL7 -/

/-- A twin pair's hub with a granule shown E in the proxy that no local host holds, and a SNP_SHARED for it. -/
def unheldExclusive : Hub :=
  { Slice0.wt with twin := { proxy := [{ host := 7, set := 0, way := 0, addr := 0x20000, st := 3, seq := 1 }] } }
def sharedSnoop : SnpHdr := { vc := false, snpid := 9#12, addr := 0x20000#48, size128 := false }

/-- A WRITE_BACK of host 0 on LL7, its acknowledgement, and a hub that still waits for the same host's answer to a snoop of the granule. -/
def sentBack : TwinReq := { Slice0.wTw with req := { Slice0.wReq with op := 0x33 } }
def backAck : RspHdr := { Slice0.wRsp with tag := 4#12, stream := BitVec.ofNat 10 (twinStream sentBack.req) }
def backSnooped : Hub := { Slice0.wt with twin := { reqs := [sentBack] }, snps := [{ Slice0.wSnp with host := 0, addr := 0x100 }] }

theorem exec_snpShared (l : BitVec 3) (x : SnpHdr) (h : Hub) (q : List Instr) :
    exec (.snpShared l x) ⟨h, q⟩ = .next ⟨effTwinSnoop 0x51 l.toNat x h, q⟩ := rfl

theorem exec_wbAck (l : BitVec 3) (r : RspHdr) (h : Hub) (q : List Instr) :
    exec (.wbAck l r) ⟨h, q⟩ = .next ⟨effTwinRsp 0xA3 l.toNat r [] h, q⟩ := rfl

/-- A list that took one element on is one longer. -/
theorem length_of_eq_append {α : Type} {l l' : List α} {o : α} (h : l' = l ++ [o]) : l'.length = l.length + 1 := by
  rw [h, List.length_append, List.length_singleton]

end Sys2Proof.Machine

namespace Sys2Proof.Machine.Slice0

/-- Refutes O26: the data of the read lands on LL0, and behind it the answer that waited at the twin for another request of LL0 is passed on. -/
theorem not_memoryAnswers : ¬ Obligations.MemoryAnswers := by
  unfold Obligations.MemoryAnswers
  intro holds
  obtain ⟨fill, -⟩ := holds answerWaiting [] wNwt 0 rfl rfl rfl rfl (by decide +kernel)
  obtain ⟨u, o, hexec, hq, -⟩ := fill fillingRead (idle_of _ (by decide +kernel) (by decide +kernel)) rfl rfl rfl rfl rfl (by decide +kernel)
    (by decide +kernel) (by decide +kernel) (by decide +kernel) rfl (by decide +kernel)
  rw [← cleanData, exec_fillDataLands] at hexec
  rw [hub_of_next_eq hexec] at hq
  exact absurd (length_of_eq_append hq) (by decide +kernel)

/-- Refutes O27: nothing waits at a home, but a group of the twin's snoops has come to its end, and the retry lets it end. -/
theorem not_lateRetries : ¬ Obligations.LateRetries := by
  unfold Obligations.LateRetries
  intro holds
  obtain ⟨nothing, -⟩ := holds groupEnding [] (.trackerFreedRetry 0) 0 0 0 0
  have hexec := nothing (idle_of _ (by decide +kernel) (by decide +kernel)) (.inl rfl)
  rw [exec_trackerFreedRetry] at hexec
  exact absurd (congrArg (fun u => u.twin.snps) (hub_of_next_eq hexec)) (by decide +kernel)

/-- Refutes O29: with the corrected write-back taken, the twin's side goes on, and the request that waits there for a place in the Sieve opens a
back-invalidation of the granule that has it. -/
theorem not_upkeep : ¬ Obligations.Upkeep := by
  unfold Obligations.Upkeep
  intro holds
  obtain ⟨whisk, -⟩ := holds placeTaken [] (idle_of _ (by decide +kernel) (by decide +kernel))
  obtain ⟨u, b, v, hread, hbacks, -, -, -, -, -, -, -, hwrite, -, -, htxns⟩ := whisk 4#4 0 0 3 71 eccEntry (by decide) (by decide)
    (by decide +kernel) (by decide +kernel) (by decide +kernel) (by decide +kernel) rfl rfl rfl (by decide) (by decide) rfl rfl rfl
  rw [← failedBit, exec_whiskLineRead] at hread
  have hu : u = lineRead := hub_of_next_eq hread
  have hb : b.id = 100 := by
    have hids : u.integ.backs.map WBack.id = [100] := by rw [hu]; decide +kernel
    rw [hbacks] at hids
    exact List.head_eq_of_cons_eq hids
  rw [hu, hb, exec_memoryWriteComplete] at hwrite
  rw [hub_of_next_eq hwrite] at htxns
  exact absurd (congrArg List.length htxns) (by decide +kernel)

/-- Refutes O42: the proxy shows the granule E, so its EVICT_NOTE leaves before the answer I (R126). -/
theorem not_twinSnoopsAreAnswered : ¬ Obligations.TwinSnoopsAreAnswered := by
  unfold Obligations.TwinSnoopsAreAnswered
  intro holds
  obtain ⟨snoop, -⟩ := holds unheldExclusive [] 7#3 sharedSnoop (.snpShared 7 sharedSnoop) false (by decide +kernel) (by decide +kernel) (by decide +kernel)
  obtain ⟨u, o, hexec, hq, -⟩ := snoop (by decide +kernel) rfl rfl rfl rfl (by decide +kernel)
  rw [exec_snpShared] at hexec
  rw [hub_of_next_eq hexec] at hq
  exact absurd (length_of_eq_append hq) (by decide +kernel)

/-- Refutes O43: the WB_ACK is not passed on while a snoop of the granule at the same host is unanswered. -/
theorem not_twinAnswersArePassedOn : ¬ Obligations.TwinAnswersArePassedOn := by
  unfold Obligations.TwinAnswersArePassedOn
  intro holds
  obtain ⟨answer, -⟩ := holds backSnooped [] backAck (by decide +kernel) (by decide +kernel) (by decide +kernel)
  obtain ⟨u, o, hexec, hq, -⟩ := answer (.wbAck 7 backAck) 0xA3 sentBack (by decide +kernel) rfl rfl rfl rfl rfl rfl rfl rfl rfl (by decide +kernel) (by decide +kernel)
    rfl (by decide +kernel) (by decide +kernel) rfl (by decide +kernel) (by decide +kernel) (pmu_none _ (by decide +kernel))
  rw [exec_wbAck] at hexec
  rw [hub_of_next_eq hexec] at hq
  exact absurd (length_of_eq_append hq) (by decide +kernel)

end Sys2Proof.Machine.Slice0

/-!
Reservations of a die that the package does not have, taken by a grant or cleared by their link; a requester whose host has no snoop link; a region of
the twin's that the array's population would not permit; and a Mover run whose job number comes up again.
-/

namespace Sys2Proof.Machine

/-- A reservation of a line, of a die numbered 2. -/
def strayMonitorOf (a l stream : Nat) : Mon := { strayMonitor with granule := a, link := l, stream := stream }

theorem exec_rdUnique (l : BitVec 3) (r : ReqHdr) (h : Hub) (q : List Instr) : exec (.rdUnique l r) ⟨h, q⟩ = .next ⟨effRequest 0x12 l.toNat r [] false h, q⟩ := rfl

theorem exec_cleanUnique (l : BitVec 3) (r : ReqHdr) (h : Hub) (q : List Instr) :
    exec (.cleanUnique l r) ⟨h, q⟩ = .next ⟨effRequest 0x15 l.toNat r [] false h, q⟩ := rfl

theorem exec_resvClear (l : BitVec 3) (r : ReqHdr) (h : Hub) (q : List Instr) :
    exec (.resvClear l r) ⟨h, q⟩ = .next ⟨effRequest 0x3A l.toNat r [] false h, q⟩ := rfl

theorem exec_fwdDone (l : BitVec 3) (id : BitVec 12) (st : BitVec 3) (dirty passed : Bool) (h : Hub) (q : List Instr) :
    exec (.fwdDone l id st dirty passed) ⟨h, q⟩ = .next ⟨effFwdDone l.toNat id.toNat st.toNat dirty passed h, q⟩ := rfl

theorem exec_arrayPopSet (m : BitVec 2) (c : CmdWord) (h : Hub) (q : List Instr) :
    exec (.arrayPopSet m c) ⟨h, q⟩ = .next ⟨effArrayPopSet m.toNat c h, q⟩ := rfl

theorem exec_moverZero (p : BitVec 6) (d : MovDesc) (h : Hub) (q : List Instr) : exec (.moverZero p d) ⟨h, q⟩ = .next ⟨effMover 2 p.toNat d h, q⟩ := rfl

/-- The package of `reservedOffDie` with LL1's reservation of a line of main memory, and with LL0's host shown the granule S besides. -/
def lineReserved : Hub := reservedOffDie [strayMonitorOf 0x1000 1 7]
def sharerShown : SEnt := { Slice0.wEnt with st := 1 }
def sharerReserved : Hub := { lineReserved with sieve := [sharerShown] }

theorem sharerReserved_idle : sharerReserved.idle :=
  Slice0.idle_of _ ⟨⟨rfl, rfl, rfl, rfl, rfl⟩, rfl, rfl, rfl, rfl, by decide +kernel, rfl, rfl, rfl, rfl, rfl, rfl⟩
    (show ∀ e ∈ (reservedOffDie []).regs, e.1 < 0x4910 ∨ (0x4950 ≤ e.1 ∧ e.1 < 0x104910) ∨ 0x104950 ≤ e.1 by decide +kernel)

/-- A read that asks for ownership for host 2, which no link snoops, and the forward to the owner, host 1, that it waits for. -/
def linklessRead : Txn := { Slice0.wUni with req := { Slice0.wUni.req with host := 2 } }
def ownerForward : Snp := { Slice0.wSnp with link := 1, kind := 4, owner := true }
def ownerShown : SEnt := { Slice0.wEnt with host := 1, addr := 0x1000, set := 64 }
def forwardOpen : Hub := { Slice0.wh with txns := [linklessRead], snps := [ownerForward], sieve := [ownerShown] }

/-- The running package of nine devices with a NEAR region that the twin homes, and manager 0's ARRAY_POP_SET of the population it has. -/
def twinNear : Hub :=
  { Slice0.wk with
    rmap := Slice0.wk.rmap ++ [(4, { base := 9000, size := 1, typ := .near, cls := 1, hub := true, tbase := 0 })]
    life := { Slice0.wk.life with arrayPop := 1 } }
def sameArray : CmdWord := Slice0.sealCmd twinNear 0 0x07 { Slice0.wc with arg0 := 1#64 }

/-- A ZERO of partition 1, and a run of partition 2 whose job bears the number that the next job gets. -/
def zeroLines : MovDesc := { Slice0.wDesc with op := 2#4 }
def earlierRun : MovRun := { Slice0.wRun Slice0.wDesc with pid := 2, job := 100 }
def runOpen : Hub := { Slice0.wMov with movs := [earlierRun] }

end Sys2Proof.Machine

namespace Sys2Proof.Machine.Slice0

/-- Refutes O35: the grant of E takes the reservation of the line, whose loss counter overflows, so an interrupt leaves on LL0. -/
theorem not_firstReadGrantsExclusive : ¬ Obligations.FirstReadGrantsExclusive := by
  unfold Obligations.FirstReadGrantsExclusive
  intro holds
  obtain ⟨t, x, hexec, -, -, -, -, -, -, -, -, -, hq⟩ := holds lineReserved [] 0#3 (wr 0x1000 6) wNwt (.rdUnique 0#3 (wr 0x1000 6)) 0x12 (by decide +kernel)
    reservedOffDie_idle (takesReq_of _ _ _ _ _ _ (by decide +kernel)) rfl (by decide +kernel) (by decide +kernel) rfl rfl rfl rfl rfl (by decide +kernel)
    (by decide +kernel)
  rw [exec_rdUnique] at hexec
  rw [hub_of_next_eq hexec] at hq
  exact absurd (congrArg List.length (hq 0)) (by decide +kernel)

/-- Refutes O36: the upgrade takes the reservation of the line, and the interrupt leaves before its answer. -/
theorem not_upgradeWithoutData : ¬ Obligations.UpgradeWithoutData := by
  unfold Obligations.UpgradeWithoutData
  intro holds
  obtain ⟨-, upgrade⟩ := holds sharerReserved [] 0#3 (wr 0x1040 6) wNwt sharerReserved_idle (takesReq_of _ _ _ _ _ _ (by decide +kernel))
  obtain ⟨t, hexec, hanswer, -⟩ := upgrade sharerShown rfl (by decide +kernel) rfl rfl rfl (by decide +kernel) rfl (by decide +kernel) (by decide +kernel) rfl
  rw [exec_cleanUnique] at hexec
  rw [hub_of_next_eq hexec] at hanswer
  exact not_answered_of_two (by decide +kernel) hanswer

/-- Refutes O39: RESV_CLEAR counts the reservation it takes as lost, and its counter's overflow sends an interrupt on LL0. -/
theorem not_requestsWithoutData : ¬ Obligations.RequestsWithoutData := by
  unfold Obligations.RequestsWithoutData
  intro holds
  obtain ⟨-, clear, -⟩ := holds (reservedOffDie [strayMonitorOf 0x1000 0 3]) [] 0#3 (wr 0x1000 6) reservedOffDie_idle (by decide +kernel) (by decide +kernel)
  obtain ⟨t, hexec, -, hq, -⟩ := clear (by decide +kernel)
  rw [exec_resvClear] at hexec
  rw [hub_of_next_eq hexec] at hq
  exact absurd (congrArg List.length (hq 0)) (by decide +kernel)

/-- Refutes O41: a host that no link snoops is shown nothing, so the owner's FWD_DONE leaves the requester I. -/
theorem not_hostAnswers : ¬ Obligations.HostAnswers := by
  unfold Obligations.HostAnswers
  intro holds
  obtain ⟨answers, -, -⟩ := holds forwardOpen [] 1#3 6#12 linklessRead ownerForward
  obtain ⟨-, done, -⟩ := answers (idle_of _ (by decide +kernel) (by decide +kernel)) rfl rfl rfl rfl rfl (by decide +kernel) (by decide +kernel)
    (by decide +kernel) rfl rfl (by decide +kernel) (by decide +kernel) rfl rfl rfl rfl rfl rfl
  obtain ⟨u, k, hexec, -, -, -, -, -, hgrant, -⟩ := done false ownerShown rfl rfl rfl rfl rfl rfl rfl rfl rfl rfl rfl (by decide +kernel) (by decide +kernel)
    (by decide +kernel) (by decide +kernel) (by decide +kernel)
  rw [exec_fwdDone] at hexec
  rw [hub_of_next_eq hexec] at hgrant
  exact absurd hgrant (by decide +kernel)

/-- Refutes O44: ARRAY_POP_SET refuses a population that any valid region does not permit, one that the twin homes among them. -/
theorem not_lightCommandsComplete : ¬ Obligations.LightCommandsComplete := by
  unfold Obligations.LightCommandsComplete
  intro holds
  obtain ⟨-, light⟩ := holds twinNear [] 0#2 sameArray wKet (idle_of _ (by decide +kernel) (by decide +kernel)) (ringIn_of _ _ _ (by decide +kernel))
  obtain ⟨-, -, -, -, -, popSet, -⟩ := light rfl
  obtain ⟨u, hexec, -, hpop, -⟩ := popSet (takes_of _ _ _ _ _ (by decide +kernel)) (by decide +kernel) rfl rfl rfl (by decide +kernel)
  rw [exec_arrayPopSet] at hexec
  rw [hub_of_next_eq hexec] at hpop
  exact absurd hpop (by decide +kernel)

/-- Refutes O49: the first chunk's progress is kept under the job's number, which an earlier run of another partition bears too. -/
theorem not_moverDescriptors : ¬ Obligations.MoverDescriptors := by
  unfold Obligations.MoverDescriptors
  intro holds
  obtain ⟨starts, -⟩ := holds runOpen [] 1#6 zeroLines (idle_of _ (by decide +kernel) (by decide +kernel)) rfl rfl
  obtain ⟨begins, -⟩ := starts (.moverZero 1#6 zeroLines) 2 (by decide +kernel) (by decide +kernel)
  obtain ⟨u, r, hexec, hmovs, -⟩ := begins (by decide +kernel)
  rw [exec_moverZero] at hexec
  have hpids : (u.movs.map MovRun.pid).head? = some 1 := by rw [hub_of_next_eq hexec]; decide +kernel
  rw [hmovs] at hpids
  exact absurd hpids (show ¬ (some 2 : Option Nat) = some 1 by decide)

end Sys2Proof.Machine.Slice0

/-!
The hub's own writes into rings that lie in the Kettle (R258): one transaction, alone at its home, that stores its bytes and no other.
-/

namespace Sys2Proof.Machine

/-! ### Parts of a spliced list -/

section
variable {α : Type} {l new : List α} {p i k s : Nat}

theorem slice_splice_inside (hp : p ≤ l.length) (hk : k + s ≤ new.length) : slice (splice l p new) (p + k) s = slice new k s := by
  have hl : (l.take p).length = p := List.length_take_of_le hp
  rw [slice, splice, List.append_assoc, List.drop_append, hl, List.drop_eq_nil_of_le (by omega), List.nil_append, show p + k - p = k by omega,
    List.drop_append, List.take_append, slice, show s - (new.drop k).length = 0 by rw [List.length_drop]; omega, List.take_zero, List.append_nil]

theorem slice_splice_below (hp : p ≤ l.length) (hi : i + s ≤ p) : slice (splice l p new) i s = slice l i s := by
  rw [slice, splice, List.append_assoc, List.drop_append, List.take_append, List.length_drop, List.length_take_of_le hp, show s - (p - i) = 0 by omega,
    List.take_zero, List.append_nil, List.drop_take, List.take_take, Nat.min_eq_left (by omega), slice]

theorem slice_splice_above (hp : p ≤ l.length) (hi : p + new.length ≤ i) : slice (splice l p new) i s = slice l i s := by
  rw [slice, splice, List.drop_append, List.length_append, List.length_take_of_le hp, List.drop_eq_nil_of_le (by rw [List.length_append, List.length_take_of_le hp]; exact hi),
    List.nil_append, List.drop_drop, show p + new.length + (i - (p + new.length)) = i by omega, slice]

theorem slice_replicate {b : α} {n : Nat} (h : i + s ≤ n) : slice (List.replicate n b) i s = List.replicate s b := by
  rw [slice, List.drop_replicate, List.take_replicate, Nat.min_eq_left (by omega)]

end

/-! ### Whole words of the Kettle -/

/-- The hub with other bytes in its Kettle. -/
def withKettle (m : List Host.Cell) (inj : List Nat) (h : Hub) : Hub := { h with mem := { h.mem with kettle := m, injected := inj } }

theorem writeKettleWord_none (off die who : Nat) (d : List Byte) (h : Hub) : writeKettleWord off die who d (List.replicate 8 false) h = h := by
  rw [writeKettleWord, if_pos (by decide)]

theorem writeKettleWord_whole {h : Hub} (hk : h.mem.ketErr = []) (off die who : Nat) (d : List Byte) :
    ∃ inj, writeKettleWord off die who d (List.replicate 8 true) h = withKettle (memWriteN h.mem.kettle (off / 8 * 8) d) inj h := by
  refine ⟨h.mem.injected.filter (fun k => k != injKey 2 (off / 8 * 8 / 8)), ?_⟩
  rw [writeKettleWord, if_neg (by decide), if_pos (by decide), setKetErr]
  dsimp only
  rw [if_pos rfl, hk, withKettle, show bdel ([] : Bank (BitVec 72)) (off / 8 * 8 / 8) = h.mem.ketErr by rw [hk]; rfl]

/-- The bytes `d` from `o` on, as far as below `top`, laidOver memory `m`. -/
def laidOver (m : List Host.Cell) (o : Nat) (d : List Byte) (top : Nat) (x : Nat) : Byte :=
  if o ≤ x ∧ x < o + d.length ∧ x < top then d.getD (x - o) 0#8 else memRead m x

/-- Each word of a write of whole words is enabled as a whole. -/
theorem lineMask_word {r : Req} (h8 : r.addr % 8 = 0) (hl8 : r.data.length % 8 = 0) (hfit : r.addr % 128 + r.data.length ≤ 128)
    (hm : r.mask = List.replicate r.data.length true) {n : Nat} (hn : n < 16) :
    slice r.lineMask (8 * n) 8 = List.replicate 8 (decide (r.addr % 128 ≤ 8 * n ∧ 8 * n < r.addr % 128 + r.data.length)) := by
  rw [Req.lineMask, hm, List.take_of_length_le (by rw [List.length_replicate]; omega)]
  by_cases inside : r.addr % 128 ≤ 8 * n ∧ 8 * n < r.addr % 128 + r.data.length
  · rw [show 8 * n = r.addr % 128 + (8 * n - r.addr % 128) by omega,
      slice_splice_inside (by rw [List.length_replicate]; omega) (by rw [List.length_replicate]; omega), slice_replicate (by omega), decide_eq_true (by omega)]
  · rw [decide_eq_false inside]
    rcases Nat.lt_or_ge (8 * n) (r.addr % 128) with lo | hi
    · rw [slice_splice_below (by rw [List.length_replicate]; omega) (by omega), slice_replicate (by omega)]
    · rw [slice_splice_above (by rw [List.length_replicate]; omega) (by rw [List.length_replicate]; omega), slice_replicate (by omega)]

/-- What a write of whole words within one line leaves in the Kettle's first `n` words of the line. -/
theorem writeKettle_words {h : Hub} {e : REntry} {r : Req} {who : Nat} (hk : h.mem.ketErr = []) (hw : Memory.wf h.mem.kettle = true)
    (hb : e.base * unit2M ≤ r.addr) (h8 : r.addr % 8 = 0) (hl8 : r.data.length % 8 = 0) (hfit : r.addr % 128 + r.data.length ≤ 128)
    (hm : r.mask = List.replicate r.data.length true) (n : Nat) (hn : n ≤ 16) :
    ∃ K inj, forEach (List.range n) (fun i h => writeKettleWord (e.off (r.addr / 128 * 128 + 8 * i)) (homeDie (r.addr / 128 * 128)) who
          (slice r.lineData (8 * i) 8) (fitMask 8 (slice r.lineMask (8 * i) 8)) h) h = withKettle K inj h
      ∧ Memory.wf K = true ∧ ∀ x, memRead K x = laidOver h.mem.kettle (e.off r.addr) r.data (e.off (r.addr / 128 * 128) + 8 * n) x := by
  have unit : unit2M = 2097152 := rfl
  have line : e.base * unit2M ≤ r.addr / 128 * 128 := by rw [unit] at hb ⊢; omega
  have off : e.off r.addr = e.off (r.addr / 128 * 128) + r.addr % 128 := by
    rw [REntry.off, REntry.off]; omega
  have mult : e.off (r.addr / 128 * 128) % 8 = 0 := by rw [REntry.off, unit]; rw [unit] at line; omega
  have data : r.lineData = splice zeroLine (r.addr % 128) r.data := by rw [Req.lineData, List.take_of_length_le (by omega)]
  induction n with
  | zero =>
    refine ⟨h.mem.kettle, h.mem.injected, rfl, hw, fun x => ?_⟩
    rw [laidOver, if_neg (by omega)]
  | succ n ih =>
    obtain ⟨K, inj, hK, wf, hread⟩ := ih (by omega)
    have offN : e.off (r.addr / 128 * 128 + 8 * n) = e.off (r.addr / 128 * 128) + 8 * n := by rw [REntry.off, REntry.off]; omega
    rw [List.range_succ, forEach, List.foldl_append]
    rw [forEach] at hK
    rw [hK, List.foldl_cons, List.foldl_nil, offN]
    by_cases inside : r.addr % 128 ≤ 8 * n ∧ 8 * n < r.addr % 128 + r.data.length
    · have all : fitMask 8 (slice r.lineMask (8 * n) 8) = List.replicate 8 true := by
        rw [lineMask_word h8 hl8 hfit hm (by omega), decide_eq_true inside]; decide
      have word : slice r.lineData (8 * n) 8 = slice r.data (8 * n - r.addr % 128) 8 := by
        rw [data]
        conv_lhs => rw [show 8 * n = r.addr % 128 + (8 * n - r.addr % 128) by omega]
        exact slice_splice_inside (by rw [zeroLine, List.length_replicate]; omega) (by omega)
      obtain ⟨inj', hstep⟩ := writeKettleWord_whole (h := withKettle K inj h) hk (e.off (r.addr / 128 * 128) + 8 * n) (homeDie (r.addr / 128 * 128)) who
        (slice r.data (8 * n - r.addr % 128) 8)
      rw [all, word, hstep]
      have len : (slice r.data (8 * n - r.addr % 128) 8).length = 8 := by rw [slice, List.length_take, List.length_drop]; omega
      have at8 : (e.off (r.addr / 128 * 128) + 8 * n) / 8 * 8 = e.off (r.addr / 128 * 128) + 8 * n := by omega
      refine ⟨_, inj', rfl, wf_memWriteN wf _ _, fun x => ?_⟩
      rw [show (withKettle K inj h).mem.kettle = K from rfl, memRead_memWriteN wf, len, hread, at8, laidOver, laidOver]
      by_cases hx : e.off (r.addr / 128 * 128) + 8 * n ≤ x ∧ x < e.off (r.addr / 128 * 128) + 8 * n + 8
      · rw [if_pos hx, if_pos (by omega), slice, List.getD_eq_getElem?_getD, List.getD_eq_getElem?_getD, List.getElem?_take_of_lt (by omega), List.getElem?_drop,
          off]
        congr 2
        omega
      · rw [if_neg hx]
        have : (e.off r.addr ≤ x ∧ x < e.off r.addr + r.data.length ∧ x < e.off (r.addr / 128 * 128) + 8 * n)
            ↔ (e.off r.addr ≤ x ∧ x < e.off r.addr + r.data.length ∧ x < e.off (r.addr / 128 * 128) + 8 * (n + 1)) := by omega
        simp only [this]
    · have none_ : fitMask 8 (slice r.lineMask (8 * n) 8) = List.replicate 8 false := by
        rw [lineMask_word h8 hl8 hfit hm (by omega), decide_eq_false inside]; decide
      rw [none_, writeKettleWord_none]
      refine ⟨K, inj, rfl, wf, fun x => ?_⟩
      rw [hread, laidOver, laidOver]
      have : (e.off r.addr ≤ x ∧ x < e.off r.addr + r.data.length ∧ x < e.off (r.addr / 128 * 128) + 8 * n)
          ↔ (e.off r.addr ≤ x ∧ x < e.off r.addr + r.data.length ∧ x < e.off (r.addr / 128 * 128) + 8 * (n + 1)) := by omega
      simp only [this]

/-! ### A ring write from its ordering to its end -/

/-- The write of `d` into a ring at `a`, which entry `e` resolves, and its transaction. -/
def ringReq (e : REntry) (a : Nat) (d : List Byte) (job : Nat) (h : Hub) : Req :=
  { op := 0x22, src := .hub0, addr := a, size := d.length, data := d, mask := List.replicate d.length true, at_ := h.now, job := job, ent := e }

theorem waitReason_ring {h : Hub} {e : REntry} {r : Req} (hr : Resting h) (ht : e.typ = .kettle) (hop : r.op = 0x22) : waitReason h e r = none := by
  have warm : (bfind h.life.warm (homeDie r.addr)).isSome = false := by rw [hr.warm]; rfl
  have held : streamHeld h r = false := by simp [streamHeld, hr.waiting]
  have trk : needsTrk h e r = false := by simp [needsTrk, servedAs, ht, hop, RType.sieve, writesLine]
  have wb : takesWb e r = false := by simp [takesWb, ht]
  have retry : wouldRetry h e r = false := by simp [wouldRetry, ht, RType.sieve]
  simp [waitReason, warm, held, trk, wb, retry, ht, hop, RType.cached, RType.sieve]

/-- Where no reservation is held and no window is armed, the ordering of a write of the Kettle does nothing more (R90, R170, R249). -/
theorem orderEffects_ring {h : Hub} {e : REntry} {r : Req} (ht : e.typ = .kettle) (hop : r.op = 0x22) (hx : h.txns = []) (hm : h.mons = []) (hw : h.wins = []) :
    orderEffects e r h = h := by
  have loss : writeLoss h.nextId (r.addr / r.size * r.size) r.size (if r.src == .link then r.link else 8) r.stream h = h := by
    rw [writeLoss, loseResv, loseMons, hm]
    simp only [List.filter_nil, forEach_nil, hx, List.map_nil]
    rw [← hx]
  have seals : breakSeals (r.addr / r.size * r.size) r.size h = h := by rw [breakSeals, hw]; rfl
  have wr : writesLine (servedAs e.typ r) = true ∧ servedAs e.typ r = 0x22 := by simp [servedAs, ht, hop, RType.sieve, writesLine]
  obtain ⟨writes, served⟩ := wr
  rw [orderEffects, writes, served, hop, ht, if_neg (by simp), if_neg (by decide), if_pos (by decide), if_pos (by decide), loss, seals]

theorem openTxn_ring {h : Hub} {e : REntry} {r : Req} (hx : h.txns = []) (ht : e.typ = .kettle) (hop : r.op = 0x22) (he : r.ent = e) :
    openTxn e r h = opened (kettleTxn r h) h := by
  have trk : needsTrk h e r = false := by simp [needsTrk, servedAs, ht, hop, RType.sieve, writesLine]
  have wb : takesWb e r = false := by simp [takesWb, ht]
  subst he
  rw [openTxn, trk, wb, ht, hx]
  simp [RType.sieve, RType.cached, opened, kettleTxn]

/-- A ring write of a hub at rest is ordered at once. -/
theorem orderReq_ring {h : Hub} {r x : Req} (hr : Resting h) (hm : h.mons = []) (hent : x.mapped h = r) (ht : r.ent.typ = .kettle) (hop : r.op = 0x22) :
    orderReq x h = opened (kettleTxn r (useSlot r false h)) (useSlot r false h) := by
  have undef : undefinedAt h r.addr r.size = false := by simp [undefinedAt, hr.undef]
  have slot : pmuReq 0x01 r (useSlot r false h) = useSlot r false h := pmu_uncounted (hr.uncounted.of_regs rfl) (homeDie_lt _)
  have sieve : r.ent.typ.sieve = false := by rw [ht]; rfl
  have cached : r.ent.typ.cached = false := by rw [ht]; rfl
  have cond : r.op ≠ 0x26 := by rw [hop]; decide
  rw [orderReq, hent]
  dsimp only
  rw [undef, sieve, cached, if_neg (by simp), if_neg (fun e => cond e.1), if_neg (by simp), waitReason_ring hr ht hop]
  dsimp only
  rw [slot, if_neg (by simp), if_neg (fun e => cond e.1), if_neg cond, if_neg (by simp),
    orderEffects_ring (h := useSlot r false h) ht hop hr.txns hm hr.wins, openTxn_ring (h := useSlot r false h) hr.txns ht hop rfl]

theorem hubWriteDone_txns (job : Nat) (h : Hub) : (hubWriteDone job h).txns = h.txns := by
  unfold hubWriteDone
  split
  · rfl
  · split
    · exact raiseCause_txns ..
    · split
      · unfold movIntr
        dsimp only
        split
        · rfl
        · exact sendMsg_txns ..
      · rfl

section
variable {t : Txn} {h : Hub} (al : Alone t h) (hk : h.mem.ketErr = []) (hw : Memory.wf h.mem.kettle = true) (hpath : h.integ.pathErr = [])
  (ht : t.req.ent.typ = .kettle) (hop : t.req.op = 0x22) (hb : t.req.ent.base * unit2M ≤ t.req.addr)
  (h8 : t.req.addr % 8 = 0) (hl8 : t.req.data.length % 8 = 0) (hfit : t.req.addr % 128 + t.req.data.length ≤ 128)
  (hm : t.req.mask = List.replicate t.req.data.length true)

/-- What the write stores: its bytes at the region's offset, and no other (R60). -/
def StoresRing (r : Req) (h : Hub) (K : List Host.Cell) : Prop :=
  Memory.wf K = true
    ∧ ∀ x, memRead K x = if r.ent.off r.addr ≤ x ∧ x < r.ent.off r.addr + r.data.length then r.data.getD (x - r.ent.off r.addr) 0#8 else memRead h.mem.kettle x

include hk hw hpath ht hop hb h8 hl8 hfit hm in
theorem applyLine_ring : ∃ K inj, applyLine t h = .done (withKettle K inj h) ∧ StoresRing t.req h K := by
  have path : pathCheck t.req.addr h = (false, h) := by rw [pathCheck, hpath]; rfl
  have whole : (List.range 16).any (fun i =>
      let w := slice t.req.lineMask (8 * i) 8
      w.any id && !(w.all id) && (readKettleWord (t.req.ent.off (t.req.addr / 128 * 128 + 8 * i)) (homeDie t.req.addr) (whoOf t.req.pid t.req.cls) h).err) = false := by
    rw [List.any_eq_false]
    intro i hi
    rw [lineMask_word h8 hl8 hfit hm (List.mem_range.1 hi)]
    cases decide (t.req.addr % 128 ≤ 8 * i ∧ 8 * i < t.req.addr % 128 + t.req.data.length) <;> simp
  have len : t.req.lineData.length = 128 := by
    simp only [Req.lineData, splice, zeroLine, List.length_append, List.length_take, List.length_drop, List.length_replicate]; omega
  obtain ⟨K, inj, hK, wf, hread⟩ := writeKettle_words (who := whoOf t.req.pid t.req.cls) hk hw hb h8 hl8 hfit hm 16 (by decide)
  refine ⟨K, inj, ?_, wf, fun x => ?_⟩
  · rw [applyLine, hop, path]
    dsimp only
    rw [if_neg (by simp), if_neg (by decide), writeHome, ht]
    dsimp only
    rw [whole, if_neg (by simp), writeKettle, len, ← hK]
    rfl
  · have unit : unit2M = 2097152 := rfl
    have off : t.req.ent.off t.req.addr = t.req.ent.off (t.req.addr / 128 * 128) + t.req.addr % 128 := by
      rw [REntry.off, REntry.off]; rw [unit] at hb ⊢; omega
    rw [hread, laidOver]
    refine if_congr (by omega) rfl rfl

include al hk hw hpath ht hop hb h8 hl8 hfit hm in
/-- A ring write that is open alone is settled in two turns. -/
theorem settle_ring (hp : t.ph = .stalled) (hs : t.req.src = .hub0) (hwb : t.wb = false) :
    ∃ K inj, settle h = hubWriteDone t.req.job { withKettle K inj h with txns := [] } ∧ StoresRing t.req h K := by
  have ready := al.phased .ready
  have hfirst : advance t.id h = some (phased t .ready h) := by
    rw [advance_stalled_kettle al hp ht, phased, ← al.setPh]
    simp [evalReq, servedAs, ht, RType.sieve, hop, readsLine, opDirty]
  obtain ⟨K, inj, hK, stored⟩ := applyLine_ring (t := { t with ph := .ready }) (h := phased t .ready h) hk hw hpath ht hop hb h8 hl8 hfit hm
  have stays : Alone { t with ph := .ready } (withKettle K inj (phased t .ready h)) := ⟨rfl, al.tongs, al.evict, al.echo, al.snps, al.recov⟩
  have unchanged : updTxn t.id (fun x => { x with wb := false }) (phased t .ready h) = phased t .ready h := by
    simp only [updTxn, phased, List.map_cons, List.map_nil, beq_self_eq_true, if_true]
    rw [← hwb]
  have hsecond : advance t.id (phased t .ready h) = some (hubWriteDone t.req.job { withKettle K inj h with txns := [] }) := by
    have served : advReady { t with ph := .ready } (phased t .ready h) = some (hubWriteDone t.req.job { withKettle K inj h with txns := [] }) := by
      rw [advReady, ready.blocked]
      dsimp only
      rw [hop, ht, if_neg (by decide), if_neg (by decide), if_neg (by simp), if_neg (by decide), if_neg (by decide), if_neg (by simp), if_neg (by simp),
        unchanged, hK]
      dsimp only
      rw [if_neg (by decide), if_neg (by decide), if_neg (by decide), if_neg (by decide), finishComp, respond, hs, if_pos (by simp), if_neg (by simp), stays.finish]
      rfl
    rw [advance, ready.txnOf]
    exact served
  refine ⟨K, inj, ?_, stored⟩
  rw [al.settle, al.settleLoop_moves hfirst, ready.settleLoop_moves hsecond]
  exact settleLoop_no_txns _ _ (by rw [hubWriteDone_txns])

end

/-! ### The hub behind a ring write -/

/-- The hub that has stored a ring write, whose transaction took the next number. -/
def ringed (K : List Host.Cell) (inj : List Nat) (slots : Bank (List (Nat × Bool))) (h : Hub) : Hub :=
  { withKettle K inj h with slotUse := slots, nextId := h.nextId + 1, txns := [] }

/-- A ring in the Kettle is written in whole words, and what follows the write is due behind it (R258). -/
theorem hubWrite_ring {h : Hub} {e : REntry} {a : Nat} {d : List Byte} {job : Nat} (hr : Resting h) (hm : h.mons = [])
    (hf : (rmapFind h a).map Prod.snd = some e) (here : e.here h = true) (ht : e.typ = .kettle) (h8 : a % 8 = 0) (hl8 : d.length % 8 = 0)
    (hfit : a % 128 + d.length ≤ 128) :
    ∃ K inj slots, hubWrite a d job h = hubWriteDone job (ringed K inj slots h) ∧ StoresRing (ringReq e a d job h) h K := by
  have base := base_le_of_rmapFind hf
  obtain ⟨⟨k, e'⟩, hfound, rfl⟩ := Option.map_eq_some_iff.1 hf
  have noPmu : hkBytes a 128 h = h := pmu_uncounted hr.uncounted (homeDie_lt a)
  have mapped : ({ op := 0x22, src := .hub0, addr := a, size := d.length, data := d, mask := List.replicate d.length true, at_ := h.now, job := job } : Req).mapped h
      = ringReq e' a d job h := by
    rw [Req.mapped, if_neg (show ¬(({} : REntry).valid = true) by decide)]
    simp only [ringReq, entryOf, hfound]
    rfl
  have rested : Resting (useSlot (ringReq e' a d job h) false h) := (Accepted.of_useSlot _ _ _).resting hr
  obtain ⟨K, inj, hsettle, stored⟩ := settle_ring (t := kettleTxn (ringReq e' a d job h) (useSlot (ringReq e' a d job h) false h)) (rested.opened _) hr.ketErr
    (by have := hr.wf; simp only [Mem.wf, Bool.and_eq_true] at this; exact this.2) hr.pathErr ht rfl base h8 hl8 hfit rfl rfl rfl rfl
  refine ⟨K, inj, (useSlot (ringReq e' a d job h) false h).slotUse, ?_, stored⟩
  have present_ : hubWrite a d job h = settle (opened (kettleTxn (ringReq e' a d job h) (useSlot (ringReq e' a d job h) false h)) (useSlot (ringReq e' a d job h) false h)) := by
    rw [hubWrite, hfound]
    dsimp only
    rw [here, if_neg (by simp), noPmu, present, tidyTongs_none h hr.tongs, orderReq_ring hr hm mapped ht rfl]
  rw [present_, hsettle]
  rfl

/-- What is due behind a ring write, an interrupt at the most, is a report. -/
theorem hubWriteDone_reports (job : Nat) (h : Hub) : Reports h (hubWriteDone job h) := by
  unfold hubWriteDone
  refine .ite (.refl h) (.ite (.of_raiseCause ..) (.ite ?_ (.refl h)))
  exact .ite (.refl h) (.of_sendMsg ..)

/-! ### Completions -/

theorem toBytes_add (n m v : Nat) : toBytes (n + m) v = toBytes n v ++ toBytes m (v / 256 ^ n) := by
  induction n generalizing v with
  | zero => simp [toBytes]
  | succ n ih =>
    rw [Nat.succ_add, toBytes, toBytes, ih, List.cons_append, Nat.div_div_eq_div_mul, Nat.pow_succ, Nat.mul_comm 256]

theorem toBytes_congr {n v w : Nat} (h : v % 256 ^ n = w % 256 ^ n) : toBytes n v = toBytes n w := by
  induction n generalizing v w with
  | zero => rfl
  | succ n ih =>
    rw [Nat.pow_succ, Nat.mul_comm, Nat.mod_mul, Nat.mod_mul] at h
    have hv : v % 256 = w % 256 := by have := congrArg (· % 256) h; simpa [Nat.add_mod] using this
    have rest : v / 256 % 256 ^ n = w / 256 % 256 ^ n := by omega
    rw [toBytes, toBytes, ih rest]
    congr 1
    exact BitVec.eq_of_toNat_eq (by rw [BitVec.toNat_ofNat, BitVec.toNat_ofNat]; exact hv)

/-- The 16 bytes of a completion: its entry with the frame and the ring's phase (R266). -/
theorem splice_cplEntry (tag status op result info frame : Nat) (phase : Bool) :
    (let ent := splice (cplEntry tag status op result info true) 4 (toBytes 4 frame)
     splice ent 15 [(ent.getD 15 0#8) ||| (if phase then 0x80#8 else 0#8)])
      = toBytes 16 (tag % 65536 + status % 256 * 2 ^ 16 + op % 256 * 2 ^ 24 + frame % 2 ^ 32 * 2 ^ 32 + result % 2 ^ 48 * 2 ^ 64
          + info % 256 * 2 ^ 112 + 2 ^ 120 + b2n phase * 2 ^ 127) := by
  have cut (v : Nat) : toBytes 16 v = toBytes 4 v ++ (toBytes 4 (v / 2 ^ 32) ++ (toBytes 7 (v / 2 ^ 64) ++ toBytes 1 (v / 2 ^ 120))) := by
    rw [show 16 = 4 + (4 + (7 + 1)) from rfl, toBytes_add, toBytes_add 4, toBytes_add 7, Nat.div_div_eq_div_mul, Nat.div_div_eq_div_mul]
    norm_num
  rw [cplEntry, cut, cut]
  obtain ⟨b, hb⟩ : ∃ b, b = tag % 65536 + status % 256 * 2 ^ 16 + op % 256 * 2 ^ 24 + result % 2 ^ 48 * 2 ^ 64 + info % 256 * 2 ^ 112 + b2n true * 2 ^ 120 := ⟨_, rfl⟩
  obtain ⟨t, ht⟩ : ∃ t, t = tag % 65536 + status % 256 * 2 ^ 16 + op % 256 * 2 ^ 24 + frame % 2 ^ 32 * 2 ^ 32 + result % 2 ^ 48 * 2 ^ 64
          + info % 256 * 2 ^ 112 + 2 ^ 120 + b2n phase * 2 ^ 127 := ⟨_, rfl⟩
  rw [← hb, ← ht]
  have one : b2n true = 1 := rfl
  have ph : b2n phase < 2 := b2n_lt_two phase
  rw [one] at hb
  have first : toBytes 4 b = toBytes 4 t := toBytes_congr (by omega)
  have second : toBytes 4 frame = toBytes 4 (t / 2 ^ 32) := toBytes_congr (by omega)
  have third : toBytes 7 (b / 2 ^ 64) = toBytes 7 (t / 2 ^ 64) := toBytes_congr (by omega)
  have last : b / 2 ^ 120 = 1 ∧ t / 2 ^ 120 = 1 + 128 * b2n phase := by omega
  have lengths (x y z : Nat) : (toBytes 4 x).length = 4 ∧ (toBytes 4 y).length = 4 ∧ (toBytes 7 z).length = 7 := by simp
  have framed : splice (toBytes 4 b ++ (toBytes 4 (b / 2 ^ 32) ++ (toBytes 7 (b / 2 ^ 64) ++ toBytes 1 (b / 2 ^ 120)))) 4 (toBytes 4 frame)
      = (toBytes 4 t ++ (toBytes 4 (t / 2 ^ 32) ++ toBytes 7 (t / 2 ^ 64))) ++ [1#8] := by
    rw [splice, List.take_left' (by simp), toBytes_length, List.drop_append, toBytes_length, List.drop_eq_nil_of_le (by simp), List.nil_append,
      show 4 + 4 - 4 = 4 from rfl, List.drop_left' (by simp), first, second, third, last.1]
    simp [toBytes]
  dsimp only
  rw [framed, List.getD_append_right _ _ _ _ (by simp), splice, List.take_left' (by simp), List.drop_eq_nil_of_le (by simp), last.2]
  cases phase <;> simp [toBytes, b2n]

/-- What a manager's ring looks like is the same in two hubs, and so are the Kettle and the frame. -/
structure RingKept (m : Nat) (h h' : Hub) : Prop where
  base : cplBase h' m = cplBase h m
  size : cplSize h' m = cplSize h m
  tail : (mgr h' m).cplTail = (mgr h m).cplTail
  head : (mgr h' m).cplHead = (mgr h m).cplHead
  phase : (mgr h' m).phase = (mgr h m).phase
  held : (mgr h' m).held = (mgr h m).held
  rmap : h'.rmap = h.rmap
  hubId : h'.life.hubId = h.life.hubId
  mons : h'.mons = h.mons
  kettle : h'.mem.kettle = h.mem.kettle
  frame : h'.fs.frame = h.fs.frame

namespace RingKept

theorem refl (m : Nat) (h : Hub) : RingKept m h h := ⟨rfl, rfl, rfl, rfl, rfl, rfl, rfl, rfl, rfl, rfl, rfl⟩

theorem trans {m : Nat} {a b c : Hub} (x : RingKept m a b) (y : RingKept m b c) : RingKept m a c :=
  ⟨y.base.trans x.base, y.size.trans x.size, y.tail.trans x.tail, y.head.trans x.head, y.phase.trans x.phase, y.held.trans x.held, y.rmap.trans x.rmap,
    y.hubId.trans x.hubId, y.mons.trans x.mons, y.kettle.trans x.kettle, y.frame.trans x.frame⟩

theorem slot {m : Nat} {h h' : Hub} (x : RingKept m h h') : h'.cplSlot m = h.cplSlot m := by rw [Hub.cplSlot, Hub.cplSlot, x.base, x.size, x.tail]

theorem ringIn {m : Nat} {h h' : Hub} {e : REntry} (x : RingKept m h h') (hring : h.ringIn m e) : h'.ringIn m e := by
  obtain ⟨hf, here, ht, held, free, mons⟩ := hring
  refine ⟨?_, ?_, ht, x.held.trans held, ?_, x.mons.trans mons⟩
  · rw [x.slot]; unfold rmapFind at hf ⊢; rw [x.rmap]; exact hf
  · unfold REntry.here at here ⊢; rw [x.hubId]; exact here
  · rw [cplFree, x.size, x.tail, x.head]; exact free

theorem posted {m : Nat} {h h' t : Hub} {e : REntry} {tag status op result info : Nat} (x : RingKept m h h')
    (hp : h'.posted t m e tag status op result info) : h.posted t m e tag status op result info := by
  obtain ⟨bytes, others, tail⟩ := hp
  rw [x.slot] at bytes others
  rw [x.frame, x.phase] at bytes
  rw [x.tail] at tail
  exact ⟨bytes, fun a ha => by rw [others a ha, x.kettle], tail⟩

end RingKept

/-- The final completion of a command is in its ring, and otherwise only the ring's own indices changed and reports were made. -/
theorem postFinal_ring {h : Hub} {m : Nat} {e : REntry} (hr : Resting h) (hring : h.ringIn m e) (tag status op result info : Nat) (irq : Bool) :
    h.posted (postFinal m tag status op result info irq h) m e tag status op result info
      ∧ ∃ K inj slots f, Reports (ringed K inj slots (setMgr h m f)) (postFinal m tag status op result info irq h) ∧ ∀ r, (f r).head = r.head := by
  obtain ⟨hf, here, ht, held, free, mons⟩ := hring
  let f : Mgr → Mgr := fun r => { r with cplTail := (r.cplTail + 1) % 65536, phase := if r.cplTail % cplSize h m + 1 = cplSize h m then !r.phase else r.phase }
  have rested : Resting (setMgr h m f) := ⟨hr.txns, hr.waiting, hr.tongs, hr.evict, hr.echo, hr.snps, hr.recov, hr.undef, hr.wbs, hr.parity, hr.warm, hr.run,
    hr.pathErr, hr.wins, hr.wf, hr.ketErr, hr.uncounted⟩
  let entry := toBytes 16 (tag % 65536 + status % 256 * 2 ^ 16 + op % 256 * 2 ^ 24 + h.fs.frame % 2 ^ 32 * 2 ^ 32 + result % 2 ^ 48 * 2 ^ 64
          + info % 256 * 2 ^ 112 + 2 ^ 120 + b2n (mgr h m).phase * 2 ^ 127)
  have len : entry.length = 16 := toBytes_length ..
  have aligned : h.cplSlot m % 16 = 0 := by
    rw [Hub.cplSlot, cplBase]; omega
  have post : postFinal m tag status op result info irq h = hubWrite (h.cplSlot m) entry (if irq then m + 1 else 0) (setMgr h m f) := by
    rw [postFinal, if_pos ⟨free, held⟩]
    exact congrArg (fun d => hubWrite (h.cplSlot m) d (if irq then m + 1 else 0) (setMgr h m f)) (splice_cplEntry ..)
  obtain ⟨K, inj, slots, hwrite, wf, hread⟩ := hubWrite_ring (job := if irq then m + 1 else 0) (d := entry) rested mons hf here ht (by omega) (by omega) (by omega)
  have reports := hubWriteDone_reports (if irq then m + 1 else 0) (ringed K inj slots (setMgr h m f))
  rw [post, hwrite]
  refine ⟨?_, K, inj, slots, f, reports, fun r => rfl⟩
  obtain ⟨_, _, _, _, _, _, _, hrest⟩ := reports.rest
  rw [hrest]
  have inside (i : Nat) (hi : i < 16) : memRead K (e.off (h.cplSlot m) + i) = entry.getD i 0#8 := by
    rw [hread, if_pos ⟨Nat.le_add_right .., by simp only [ringReq]; omega⟩]
    exact congrArg (fun k => entry.getD k 0#8) (by simp only [ringReq]; omega)
  refine ⟨?_, fun a ha => ?_, congrArg Mgr.cplTail (bget_bupd_same ..)⟩
  · refine List.ext_getElem (by rw [memReadN_length, toBytes_length]) fun i hi hi' => ?_
    rw [memReadN_length] at hi
    have byte := (memReadN_getD K (e.off (h.cplSlot m)) 16 i hi).trans (inside i hi)
    rw [List.getD_eq_getElem _ _ (by rw [memReadN_length]; exact hi), List.getD_eq_getElem _ _ (by omega)] at byte
    exact byte
  · exact (hread a).trans (if_neg (by simp only [ringReq, len]; omega))

end Sys2Proof.Machine

/-!
Commands of a manager's ring: what taking one changes (R267, R273, R274), and what a completion asks of the hub that its effect leaves.
-/

namespace Sys2Proof.Machine

/-! ### What a hub at rest is made of -/

/-- All of a hub that its being at rest speaks of, but the register words. -/
def restView (h : Hub) :=
  (h.txns, h.waiting, h.tongs, h.integ.evict, h.cache.echoDue, h.snps, h.recov, h.undef, h.wbs, h.sieve, h.life.warm, h.life.phase, h.integ.pathErr, h.wins, h.mem)

theorem Resting.of_view {h h' : Hub} (hr : Resting h) (hv : restView h' = restView h) (hg : ∀ n, geomWord h' n = geomWord h n) (hu : Uncounted h') : Resting h' := by
  simp only [restView, Prod.mk.injEq] at hv
  obtain ⟨txns, waiting, tongs, evict, echo, snps, recov, undef, wbs, sieve, warm, run, path, wins, mem⟩ := hv
  have parity (e : SEnt) : parityBad h' e = parityBad h e := by rw [parityBad, parityBad, sieveWords, sieveWords, hg]
  exact ⟨txns.trans hr.txns, waiting.trans hr.waiting, tongs.trans hr.tongs, evict.trans hr.evict, echo.trans hr.echo, snps.trans hr.snps, recov.trans hr.recov,
    undef.trans hr.undef, wbs.trans hr.wbs, fun e he => (parity e).trans (hr.parity e (sieve ▸ he)), warm.trans hr.warm, run.trans hr.run, path.trans hr.pathErr,
    wins.trans hr.wins, mem ▸ hr.wf, mem ▸ hr.ketErr, hu⟩

/-- Where no register word changed. -/
theorem Resting.of_rest {h h' : Hub} (hr : Resting h) (hv : restView h' = restView h) (hregs : h'.regs = h.regs) (hpeer : h'.twin.peerGeom = h.twin.peerGeom) :
    Resting h' :=
  hr.of_view hv (fun n => by rw [geomWord, geomWord, regGet_of_regs_eq hregs, hpeer]) (hr.uncounted.of_regs hregs)

/-- A register word whose offset is no PMU counter's leaves the PMU without events. -/
theorem Uncounted.regPut {h : Hub} (hu : Uncounted h) {die off v : Nat} (ho : ∀ n < 8, off % 0x100000 ≠ 0x4910 + 8 * n) : Uncounted (regPut h die off v) := by
  intro d n hd hn
  rw [Machine.regPut]
  split
  · exact hu d n hd hn
  · next r _ =>
    have key : d * 0x100000 + 0x4910 + 8 * n ≠ regKey r die off := by
      intro e
      have hm := congrArg (· % 0x100000) e
      simp only [regKey_mod] at hm
      exact ho n hn (by omega)
    exact (bfind_bset_other _ _ _ _ key).trans (hu d n hd hn)

/-! ### A manager's ring -/

/-- All of a hub that a completion ring's looks speak of, but the register words. -/
def ringView (m : Nat) (h : Hub) := (mgr h m, h.rmap, h.life.hubId, h.mons, h.mem.kettle, h.fs.frame)

/-- The offsets of a manager's completion ring registers. -/
def ringOffs (m : Nat) : List Nat := [0x440C + 0x20 * m, 0x4410 + 0x20 * m, 0x4414 + 0x20 * m]

theorem RingKept.of_view {m : Nat} {h h' : Hub} (hv : ringView m h' = ringView m h) (hw : ∀ off ∈ ringOffs m, regGet h' 0 off = regGet h 0 off) : RingKept m h h' := by
  simp only [ringView, Prod.mk.injEq] at hv
  obtain ⟨hm, rmap, hubId, mons, kettle, frame⟩ := hv
  simp only [ringOffs, List.mem_cons, List.not_mem_nil, or_false, forall_eq_or_imp, forall_eq] at hw
  obtain ⟨w1, w2, w3⟩ := hw
  exact ⟨by rw [cplBase, cplBase, regField, regField, regField, regField, w1, w2], by rw [cplSize, cplSize, regField, regField, w3], congrArg _ hm, congrArg _ hm,
    congrArg _ hm, congrArg _ hm, rmap, hubId, mons, kettle, frame⟩

theorem RingKept.of_rest {m : Nat} {h h' : Hub} (hv : ringView m h' = ringView m h) (hregs : h'.regs = h.regs) : RingKept m h h' :=
  .of_view hv fun _ _ => regGet_of_regs_eq hregs ..

/-! ### Taking a command -/

/-- The hub that has taken a command, with its managers' rings as `ms`. -/
def tookCmd (ms : Bank Mgr) (h : Hub) : Hub := { h with mgrs := ms }

/-- Only the indices that the completion ring does not have changed. -/
theorem RingKept.of_mgr {h : Hub} {ms : Bank Mgr} {m : Nat} {r : Mgr} (same : mgr (tookCmd ms h) m = r) (ht : r.cplTail = (mgr h m).cplTail)
    (hh : r.cplHead = (mgr h m).cplHead) (hp : r.phase = (mgr h m).phase) (hd : r.held = (mgr h m).held) : RingKept m h (tookCmd ms h) := by
  subst same
  exact ⟨rfl, rfl, ht, hh, hp, hd, rfl, rfl, rfl, rfl, rfl⟩

theorem mgr_setMgr (h : Hub) (m : Nat) (f : Mgr → Mgr) : mgr (setMgr h m f) m = f (mgr h m) := bget_bupd_same ..

/-- What becomes of what a command's own part gave: the completion of one that ended. -/
def cmdAnswered (m op : Nat) (c : CmdWord) (p : Hub × Option Ans) : Hub :=
  match p.2 with
  | some a => postFinal m c.tag.toNat a.status op a.result a.info c.irq p.1
  | none => p.1

/-- What the checks of a command that may be taken leave: its ring's head one further, and the counter it bore. -/
theorem takeCmd_passes {h : Hub} {m op : Nat} {c : CmdWord} (ht : h.takesCmd m op c) (body : CmdBody) :
    ∃ ms, (mgr (tookCmd ms h) m).head = ((mgr h m).head + 1) % 65536 ∧ RingKept m h (tookCmd ms h)
      ∧ takeCmd m op c body h = cmdAnswered m op c (body m c (tookCmd ms h)) := by
  obtain ⟨-, can, ⟨k, hspec, hmgr, hres⟩, hauth⟩ := ht
  let head : Mgr → Mgr := fun r => { r with head := (r.head + 1) % 65536 }
  have mgr0 : (k.mgr0 && m != 0) = false := by
    cases hk : k.mgr0
    · rfl
    · simp [hmgr hk]
  have pass (g : Hub) (ha : authCheck m op c (setMgr h m head) = (g, none)) : takeCmd m op c body h = cmdAnswered m op c (body m c g) := by
    rw [takeCmd, can, if_neg (by simp)]
    dsimp only
    rw [checkCmd, hspec]
    dsimp only
    rw [ha]
    dsimp only
    rw [mgr0, hres, if_neg (by simp), if_neg (by simp), cmdAnswered]
    obtain ⟨u, a⟩ := body m c g
    cases a <;> rfl
  rcases hauth with ⟨hplain, hcrit⟩ | ⟨hsigned, hloaded, hmac, hctr, hfloor⟩
  · have none_ : authCheck m op c (setMgr h m head) = (setMgr h m head, none) := by
      have crit : isCritical op m c (setMgr h m head) = false := hcrit
      rw [authCheck, crit, hplain]
      rfl
    exact ⟨(setMgr h m head).mgrs, congrArg Mgr.head (mgr_setMgr h m head), .of_mgr (mgr_setMgr h m head) rfl rfl rfl rfl, pass _ none_⟩
  · let ctr : Mgr → Mgr := fun r => { r with lastCtr := c.counter.toNat }
    have same : mgr (setMgr (setMgr h m head) m ctr) m = ctr (head (mgr h m)) := by rw [mgr_setMgr, mgr_setMgr]
    have none_ : authCheck m op c (setMgr h m head) = (setMgr (setMgr h m head) m ctr, none) := by
      have loaded : keyLoaded (setMgr h m head) m = true := hloaded
      have mac : macGood (setMgr h m head) m op c = true := hmac
      have fresh : ¬ c.counter.toNat ≤ (mgr (setMgr h m head) m).lastCtr := by rw [mgr_setMgr]; exact Nat.not_le.2 hctr
      have below : ¬ bget (setMgr (setMgr h m head) m ctr).led.floor m 0 + 4096 ≤ c.counter.toNat := by
        have : (setMgr (setMgr h m head) m ctr).led = h.led := rfl
        rw [this]; omega
      rw [authCheck, hsigned, loaded, mac]
      simp only [Bool.not_true, Bool.false_and, Bool.false_eq_true, if_false]
      rw [if_neg fresh, consumeCounter]
      dsimp only
      rw [if_neg below]
      rfl
    exact ⟨(setMgr (setMgr h m head) m ctr).mgrs, congrArg Mgr.head same, .of_mgr same rfl rfl rfl rfl, pass _ none_⟩

theorem Resting.tookCmd {h : Hub} (hr : Resting h) (ms : Bank Mgr) : Resting (tookCmd ms h) := hr.of_rest rfl rfl rfl

/-- A light command whose part ends at once posts its completion, and its effect stands but for reports. -/
theorem takeCmd_light {h : Hub} {m op : Nat} {c : CmdWord} {e : REntry} {body : CmdBody} {status result info : Nat} (u : Bank Mgr → Hub)
    (ht : h.takesCmd m op c) (hring : h.ringIn m e) (hbody : ∀ ms, body m c (tookCmd ms h) = ended (u ms) status result info)
    (hrest : ∀ ms, Resting (u ms)) (hkept : ∀ ms, RingKept m (tookCmd ms h) (u ms)) :
    h.posted (takeCmd m op c body h) m e c.tag.toNat status op result info
      ∧ ∃ ms K inj slots f, Reports (ringed K inj slots (setMgr (u ms) m f)) (takeCmd m op c body h) := by
  obtain ⟨ms, -, kept, htake⟩ := takeCmd_passes ht body
  rw [htake, hbody]
  have all := kept.trans (hkept ms)
  obtain ⟨posted, K, inj, slots, f, reports, -⟩ := postFinal_ring (hrest ms) (all.ringIn hring) c.tag.toNat status op result info c.irq
  exact ⟨all.posted posted, ms, K, inj, slots, f, reports⟩

/-- What a report does not change of a hub that posted a completion. -/
theorem parts_of_posted {h t : Hub} {K : List Host.Cell} {inj : List Nat} {slots : Bank (List (Nat × Bool))} {m : Nat} {f : Mgr → Mgr}
    (hr : Reports (ringed K inj slots (setMgr h m f)) t) : t.parts = h.parts ∧ t.warm = h.warm ∧ t.cache = h.cache := by
  obtain ⟨_, _, _, _, _, _, _, rfl⟩ := hr.rest
  exact ⟨rfl, rfl, rfl⟩

/-! ### Register words -/

theorem restView_regPut (h : Hub) (die off v : Nat) : restView (regPut h die off v) = restView h := by unfold regPut; split <;> rfl

theorem ringView_regPut (m : Nat) (h : Hub) (die off v : Nat) : ringView m (regPut h die off v) = ringView m h := by unfold regPut; split <;> rfl

theorem peerGeom_regPut (h : Hub) (die off v : Nat) : (regPut h die off v).twin.peerGeom = h.twin.peerGeom := by unfold regPut; split <;> rfl

/-- A word above the hosts' and rings' registers, and no PMU counter's, changes nothing of what rests. -/
theorem Resting.regPut {h : Hub} (hr : Resting h) {die off v : Nat} (hlo : 0x4970 ≤ off) (hhi : off < 0x100000) : Resting (regPut h die off v) :=
  hr.of_view (restView_regPut ..) (fun n => by
    rw [geomWord, geomWord, peerGeom_regPut]
    exact if_ctx_congr Iff.rfl (fun hn => regGet_regPut_ne _ _ _ _ _ (by omega)) (fun _ => rfl)) (hr.uncounted.regPut (fun n hn => by omega))

theorem RingKept.regPut {m : Nat} {h : Hub} {die off v : Nat} (hm : m < 4) (hlo : 0x4970 ≤ off) (hhi : off < 0x100000) : RingKept m h (regPut h die off v) :=
  .of_view (ringView_regPut ..) fun o ho => regGet_regPut_ne _ _ _ _ _ (by
    simp only [ringOffs, List.mem_cons, List.not_mem_nil, or_false] at ho
    omega)

/-! ### PART_CREATE (R294 to R296) -/

/-- The hub with a partition created. -/
def createdPart (p : Nat) (k : Part) (h : Hub) : Hub := regPut (regPut (resetCold p (putPart p k h)) 0 (0x5400 + 16 * p) 0) 0 (0x5404 + 16 * p) 0

theorem parts_createdPart (p : Nat) (k : Part) (h : Hub) : (createdPart p k h).parts = bset h.parts p k := by
  rw [createdPart, regPut_parts, regPut_parts]; rfl

theorem Resting.createdPart {h : Hub} (hr : Resting h) {p : Nat} (hp : p < 64) (k : Part) : Resting (createdPart p k h) :=
  have parted : Resting (resetCold p (putPart p k h)) := hr.of_rest rfl rfl rfl
  (parted.regPut (by omega) (by omega)).regPut (by omega) (by omega)

theorem RingKept.createdPart {m : Nat} {h : Hub} (hm : m < 4) {p : Nat} (hp : p < 64) (k : Part) : RingKept m h (createdPart p k h) :=
  have parted : RingKept m h (resetCold p (putPart p k h)) := .of_rest rfl rfl
  (parted.trans (.regPut (off := 0x5400 + 16 * p) hm (by omega) (by omega))).trans (.regPut (off := 0x5404 + 16 * p) hm (by omega) (by omega))

/-- What the settings of PART_CREATE leave of its grants (R294, R297). -/
theorem putSettings_all (a1 a2 a3 : Nat) (k : Part) : (putSettings 31 a1 a2 a3 k).st = k.st ∧ (putSettings 31 a1 a2 a3 k).kbase = k.kbase
    ∧ (putSettings 31 a1 a2 a3 k).bud = threeOf a2 := by
  have set (i : Nat) (hi : i < 5) : Nat.testBit 31 i = true := by interval_cases i <;> rfl
  simp [putSettings, set]

/-! ### The capacity check and the Kettle's blocks -/

theorem Uncounted.regSetField_far {h : Hub} (hu : Uncounted h) {die off hi lo x : Nat} (ho : ∀ n < 8, off % 0x100000 ≠ 0x4910 + 8 * n) :
    Uncounted (Machine.regSetField h die off hi lo x) := hu.regPut ho

theorem Uncounted.raiseEvt {h : Hub} (hu : Uncounted h) (die : Nat) : Uncounted (raiseEvt die h) := by
  have intr (g : Hub) (hg : Uncounted g) (k : Nat) : Uncounted (sendIntr k g) := hg.of_regs (sendIntr_regs ..)
  have intrs (l : List Nat) (g : Hub) (hg : Uncounted g) : Uncounted (forEach l sendIntr g) := by
    induction l generalizing g with
    | nil => exact hg
    | cons k r ih => exact ih _ (intr g hg k)
  unfold Machine.raiseEvt raiseCause
  split
  · exact hu
  · have set : Uncounted (Machine.regSetField h 0 0x4480 (4 + die % 2) (4 + die % 2) 1) := hu.regSetField_far (by decide)
    generalize Machine.regSetField h 0 0x4480 (4 + die % 2) (4 + die % 2) 1 = g at set ⊢
    dsimp only
    split
    · exact Uncounted.of_regs (intr g set _) rfl
    · exact Uncounted.of_regs (intrs _ g set) rfl

theorem Uncounted.record {h : Hub} (hu : Uncounted h) (typ sev blk die pid payload : Nat) : Uncounted (record typ sev blk die pid payload h) := by
  unfold Machine.record recordInj offerRecord
  generalize mkRecord h typ sev blk die pid false payload = r
  have gap : Uncounted (colGap die (Machine.countType typ h)) := hu.of_regs (by simp)
  generalize colGap die (Machine.countType typ h) = g at gap
  dsimp only
  have set : Uncounted (if sev ≥ 2 then Machine.regSetField g die 0x20 blk blk 1 else g) := by
    split
    · exact gap.regSetField_far (by decide)
    · exact gap
  generalize (if sev ≥ 2 then Machine.regSetField g die 0x20 blk blk 1 else g) = k at set
  split
  · exact Uncounted.of_regs set rfl
  · exact Uncounted.of_regs set rfl

/-- Reports leave a hub at rest, where no PMU event is selected. -/
theorem Reports.resting {h h' : Hub} (hrep : Reports h h') (hu : Uncounted h') (hr : Resting h) : Resting h' := by
  have words := hrep.words
  obtain ⟨_, _, _, _, _, _, _, rfl⟩ := hrep.rest
  exact hr.of_view rfl (fun n => if_ctx_congr Iff.rfl (fun hn => words 0 _ (by simp only [reportOffs, List.mem_cons, List.not_mem_nil, or_false]; omega)) (fun _ => rfl)) hu

/-- Reports leave a manager's completion ring. -/
theorem Reports.ringKept {h h' : Hub} (hrep : Reports h h') (m : Nat) : RingKept m h h' := by
  have words := hrep.words
  obtain ⟨_, _, _, _, _, _, _, rfl⟩ := hrep.rest
  refine .of_view rfl fun o ho => words 0 o ?_
  simp only [ringOffs, List.mem_cons, List.not_mem_nil, or_false] at ho
  simp only [reportOffs, List.mem_cons, List.not_mem_nil, or_false]
  omega

/-- What the capacity check changes: the note of an overcommitment, and reports. -/
theorem checkOvercommit_reports (h : Hub) : ∃ b, Reports { h with fs := { h.fs with overcommit := b } } (checkOvercommit h)
    ∧ (Uncounted h → Uncounted (checkOvercommit h)) := by
  rw [checkOvercommit]
  dsimp only
  split
  · exact ⟨true, (Reports.of_record ..).trans (.of_raiseEvt ..), fun hu =>
      Uncounted.raiseEvt (Uncounted.record (h := { h with fs := { h.fs with overcommit := true } }) (hu.of_regs rfl) _ _ _ _ _ _) 0⟩
  · exact ⟨_, .refl _, fun hu => hu.of_regs rfl⟩

theorem Resting.checkOvercommit {h : Hub} (hr : Resting h) : Resting (checkOvercommit h) := by
  obtain ⟨b, reports, counts⟩ := checkOvercommit_reports h
  exact reports.resting (counts hr.uncounted) (hr.of_rest rfl rfl rfl)

theorem RingKept.checkOvercommit (m : Nat) (h : Hub) : RingKept m h (checkOvercommit h) := by
  obtain ⟨b, reports, -⟩ := checkOvercommit_reports h
  have noted : RingKept m h { h with fs := { h.fs with overcommit := b } } := .of_rest rfl rfl
  exact noted.trans (reports.ringKept m)

theorem parts_checkOvercommit (h : Hub) : (checkOvercommit h).parts = h.parts := by
  obtain ⟨b, reports, -⟩ := checkOvercommit_reports h
  obtain ⟨_, _, _, _, _, _, _, hrest⟩ := reports.rest
  rw [hrest]

/-! ### PART_SET, PART_RESUME, PART_RESET and PART_DESTROY (R297 to R305) -/

/-- The budgets alone. -/
theorem putSettings_budgets (a1 a2 a3 : Nat) (k : Part) : putSettings 2 a1 a2 a3 k = { k with bud := threeOf a2 } := by
  have clear (i : Nat) (hi : i < 5) (h1 : i ≠ 1) : Nat.testBit 2 i = false := by interval_cases i <;> first | rfl | exact absurd rfl h1
  simp [putSettings, clear, show Nat.testBit 2 1 = true from rfl]

/-- A partition's cold counts, ghost tags, locks and warm list gone. -/
def clearedPart (p : Nat) (h : Hub) : Hub := resetCold p (clearGhosts p (clearLocks p (stopWarm p h)))

/-- Its reservations gone, its page and rings at their start. -/
def resetPart (p : Nat) (h : Hub) : Hub :=
  setPart { h with mons := h.mons.filter (fun m => m.pid != p) } p (fun k => { k with st := .created, page := [], run := [], movHead := 0, movTail := 0 })

theorem parts_clearedPart (p : Nat) (h : Hub) : (clearedPart p h).parts = bupd h.parts p {} (fun k => { k with warming := false }) := by
  rw [clearedPart, resetCold, clearGhosts, clearLocks, stopWarm, setPart]

theorem part_resetPart_same (p : Nat) (h : Hub) :
    part (resetPart p (clearedPart p h)) p = { part h p with warming := false, st := .created, page := [], run := [], movHead := 0, movTail := 0 } := by
  rw [part, resetPart, setPart]
  dsimp only
  rw [bget_bupd_same, parts_clearedPart, bget_bupd_same, part]

theorem part_resetPart_other (h : Hub) {p q : Nat} (hq : q ≠ p) : part (resetPart p (clearedPart p h)) q = part h q := by
  rw [part, resetPart, setPart]
  dsimp only
  rw [parts_clearedPart]
  exact (bget_bset_other _ _ _ _ _ hq).trans (bget_bset_other _ _ _ _ _ hq)

theorem Resting.clearedPart {h : Hub} (hr : Resting h) (p : Nat) : Resting (clearedPart p h) := by
  have warm : Resting (stopWarm p h) := hr.of_rest rfl rfl rfl
  rw [Machine.clearedPart]
  generalize stopWarm p h = g at warm ⊢
  have locks : Resting (clearLocks p g) := warm.of_rest rfl rfl rfl
  generalize clearLocks p g = g at locks ⊢
  exact locks.of_rest rfl rfl rfl

theorem RingKept.clearedPart (m : Nat) (h : Hub) (p : Nat) : RingKept m h (clearedPart p h) := by
  have warm : RingKept m h (stopWarm p h) := .of_rest rfl rfl
  rw [Machine.clearedPart]
  generalize stopWarm p h = g at warm ⊢
  have locks : RingKept m h (clearLocks p g) := warm.trans (.of_rest rfl rfl)
  generalize clearLocks p g = g at locks ⊢
  exact locks.trans (.of_rest rfl rfl)

theorem Resting.resetPart {h : Hub} (hr : Resting h) (p : Nat) : Resting (resetPart p h) := hr.of_rest rfl rfl rfl

theorem RingKept.resetPart {m : Nat} {h : Hub} (hm : h.mons = []) (p : Nat) : RingKept m h (resetPart p h) := by
  refine .of_rest ?_ rfl
  rw [ringView, ringView, Machine.resetPart, hm]
  rfl

theorem disarmAll_none {h : Hub} (hw : h.wins = []) (p : Nat) : disarmAll p h = h := by rw [disarmAll, hw]; rfl

/-- Kettle blocks of a partition that has none. -/
theorem zeroKettle_none {h : Hub} (hm : h.mons = []) (hk : h.mem.ketErr = []) (base : Nat) : zeroKettle base 0 h = h := by
  have lost (p : Mon → Bool) : loseMons p 31 h = h := by rw [loseMons, hm]; rfl
  have outside (x : Nat) : (!(decide (base * 65536 ≤ x) && decide (x < base * 65536 + 0 * 65536))) = true := by
    rw [Bool.not_eq_true', Bool.and_eq_false_iff, decide_eq_false_iff_not, decide_eq_false_iff_not]; omega
  rw [zeroKettle]
  dsimp only
  rw [lost, hk, List.filter_nil, List.filter_eq_self.2 (fun c _ => outside c.1), ← hk]

/-- A partition that is freed and held no Kettle block. -/
def freedPart (p : Nat) (h : Hub) : Hub := checkOvercommit { clearLocks p (stopWarm p h) with parts := bdel (stopWarm p h).parts p }

theorem freePart_no_blocks {h : Hub} (hr : Resting h) (hm : h.mons = []) {p : Nat} (hk : (part h p).kcount = 0) : freePart p h = freedPart p h := by
  rw [freePart]
  rw [disarmAll_none (h := stopWarm p h) hr.wins, hk, zeroKettle_none (h := clearLocks p (stopWarm p h)) hm hr.ketErr, freedPart]
  rfl

theorem Resting.freedPart {h : Hub} (hr : Resting h) (p : Nat) : Resting (freedPart p h) :=
  Resting.checkOvercommit (hr.of_rest rfl rfl rfl)

theorem RingKept.freedPart (m : Nat) (h : Hub) (p : Nat) : RingKept m h (freedPart p h) :=
  have freed : RingKept m h { clearLocks p (stopWarm p h) with parts := bdel (stopWarm p h).parts p } := .of_rest rfl rfl
  freed.trans (.checkOvercommit m _)

theorem part_freedPart (p : Nat) (h : Hub) : part (freedPart p h) p = {} ∧ ∀ q, q ≠ p → part (freedPart p h) q = part h q := by
  have parts : (Machine.freedPart p h).parts = bdel (bupd h.parts p {} fun k => { k with warming := false }) p := parts_checkOvercommit _
  constructor
  · rw [part, parts, bget, bfind_bdel_same]; rfl
  · intro q hq
    rw [part, parts, bget_bdel_other _ _ _ _ hq]
    exact bget_bset_other _ _ _ _ _ hq

/-! ### Light partition commands as a whole -/

/-- A light command's completion is posted and the partitions are as its part leaves them. -/
theorem takeCmd_light_parts {h : Hub} {m op : Nat} {c : CmdWord} {e : REntry} {body : CmdBody} {status result info : Nat} (u : Bank Mgr → Hub)
    (ht : h.takesCmd m op c) (hring : h.ringIn m e) (hbody : ∀ ms, body m c (tookCmd ms h) = ended (u ms) status result info)
    (hrest : ∀ ms, Resting (u ms)) (hkept : ∀ ms, RingKept m (tookCmd ms h) (u ms)) {P : Bank Part} (hparts : ∀ ms, (u ms).parts = P) :
    h.posted (takeCmd m op c body h) m e c.tag.toNat status op result info ∧ ∀ p, part (takeCmd m op c body h) p = bget P p {} := by
  obtain ⟨posted, ms, K, inj, slots, f, reports⟩ := takeCmd_light u ht hring hbody hrest hkept
  obtain ⟨parts, -, -⟩ := parts_of_posted reports
  exact ⟨posted, fun p => by rw [part, parts, hparts]⟩

section
variable {h : Hub} {m : BitVec 2} {c : CmdWord} {e : REntry} (hi : h.idle) (hring : h.ringIn m.toNat e)
include hi hring

/-- PART_CREATE of a FREE partition with settings that pass their checks. -/
theorem partCreate_posts {k : Part} (hk : k = putSettings 31 c.arg1.toNat c.arg2.toNat c.arg3.toNat (grantsOf c.arg0.toNat)) (ht : h.takesCmd m.toNat 0x10 c)
    (hp : c.pid ≠ 0#6) (hgrants : grantsOk k = true) (hset : settingsBad h 31 k = false) (hfree : (part h c.pid.toNat).st = .free)
    (hpools : poolsOk h c.pid.toNat k = true) :
    h.posted (effPartCreate m.toNat c h) m.toNat e c.tag.toNat 0 0x10 0 0 ∧ ∀ p, part (effPartCreate m.toNat c h) p = bget (bset h.parts c.pid.toNat k) p {} := by
  have pid : c.pid.toNat ≠ 0 := fun h0 => hp (BitVec.eq_of_toNat_eq h0)
  have pidLt : c.pid.toNat < 64 := c.pid.isLt
  refine takeCmd_light_parts (body := bodyPartCreate) (fun ms => createdPart c.pid.toNat k (tookCmd ms h)) ht hring (fun ms => ?_)
    (fun ms => (hi.resting.tookCmd ms).createdPart pidLt k) (fun ms => .createdPart m.isLt pidLt k) (fun ms => parts_createdPart ..)
  have set : settingsBad (tookCmd ms h) 31 k = false := hset
  have free : (part (tookCmd ms h) c.pid.toNat).st = .free := hfree
  have pools : poolsOk (tookCmd ms h) c.pid.toNat k = true := hpools
  rw [bodyPartCreate]
  rw [← hk, hgrants, set, free, pools, if_neg (by simpa using pid), if_neg (by decide), if_neg (by decide)]
  rfl

/-- PART_SET of the budgets alone. -/
theorem partSet_posts {k : Part} (hk : k = putSettings 2 0 c.arg2.toNat 0 (part h c.pid.toNat)) (ht : h.takesCmd m.toNat 0x11 c)
    (hsel : bits c.arg0.toNat 4 0 = 2) (hst : (part h c.pid.toNat).st = .active) (hbusy : (part h c.pid.toNat).busy = false)
    (hset : settingsBad h 2 k = false) (hadm : admitsWith h c.pid.toNat k = true) (hways : waysShort h k = false) :
    h.posted (effPartSet m.toNat c h) m.toNat e c.tag.toNat 0 0x11 0 0 ∧ ∀ p, part (effPartSet m.toNat c h) p = bget (bset h.parts c.pid.toNat k) p {} := by
  refine takeCmd_light_parts (body := bodyPartSet) (fun ms => checkOvercommit (putPart c.pid.toNat k (tookCmd ms h))) ht hring (fun ms => ?_)
    (fun ms => Resting.checkOvercommit ((hi.resting.tookCmd ms).of_rest rfl rfl rfl)) (fun ms => ?_) (fun ms => parts_checkOvercommit _)
  · have set : settingsBad (tookCmd ms h) 2 k = false := hset
    have adm : admitsWith (tookCmd ms h) c.pid.toNat k = true := hadm
    have ways : waysShort (tookCmd ms h) k = false := hways
    have allowed : setRefused (tookCmd ms h) c.pid.toNat = false := by
      have same : part (tookCmd ms h) c.pid.toNat = part h c.pid.toNat := rfl
      rw [setRefused, same, hst, hbusy]
      rfl
    have same : putSettings 2 c.arg1.toNat c.arg2.toNat c.arg3.toNat (part (tookCmd ms h) c.pid.toNat) = k := by
      rw [hk, putSettings_budgets, putSettings_budgets]; rfl
    rw [bodyPartSet]
    dsimp only
    rw [hsel, same, set, allowed, adm, ways]
    rfl
  · have put : RingKept m.toNat (tookCmd ms h) (putPart c.pid.toNat k (tookCmd ms h)) := .of_rest rfl rfl
    exact put.trans (.checkOvercommit ..)

/-- PART_RESUME of a partition CREATED or QUIESCED. -/
theorem partResume_posts (ht : h.takesCmd m.toNat 0x13 c) (hbusy : (part h c.pid.toNat).busy = false)
    (hst : (part h c.pid.toNat).st = .created ∨ (part h c.pid.toNat).st = .quiesced) :
    h.posted (effPartResume m.toNat c h) m.toNat e c.tag.toNat 0 0x13 0 0
      ∧ ∀ p, part (effPartResume m.toNat c h) p
          = bget (bset h.parts c.pid.toNat { part h c.pid.toNat with st := .active, movStop := false, resumeTicks := 0 }) p {} := by
  refine takeCmd_light_parts (body := bodyPartResume)
    (fun ms => setPart (tookCmd ms h) c.pid.toNat (fun k => { k with st := .active, movStop := false, resumeTicks := 0 })) ht hring (fun ms => ?_)
    (fun ms => (hi.resting.tookCmd ms).of_rest rfl rfl rfl) (fun ms => .of_rest rfl rfl) (fun ms => rfl)
  have same : part (tookCmd ms h) c.pid.toNat = part h c.pid.toNat := rfl
  rw [bodyPartResume]
  rw [same, hbusy]
  rcases hst with st | st <;> rw [st] <;> rfl

/-- PART_DESTROY of a FROZEN partition without Kettle blocks. -/
theorem partDestroy_posts (ht : h.takesCmd m.toNat 0x18 c) (hbusy : (part h c.pid.toNat).busy = false) (hst : (part h c.pid.toNat).st = .frozen)
    (hk : (part h c.pid.toNat).kcount = 0) :
    h.posted (effPartDestroy m.toNat c h) m.toNat e c.tag.toNat 0 0x18 0 0
      ∧ ∀ p, part (effPartDestroy m.toNat c h) p = part (freedPart c.pid.toNat h) p := by
  have parts (ms : Bank Mgr) : (freedPart c.pid.toNat (tookCmd ms h)).parts = (freedPart c.pid.toNat h).parts :=
    (parts_checkOvercommit _).trans (Eq.symm (parts_checkOvercommit _))
  refine takeCmd_light_parts (body := bodyPartDestroy) (fun ms => freedPart c.pid.toNat (tookCmd ms h)) ht hring (fun ms => ?_)
    (fun ms => (hi.resting.tookCmd ms).freedPart _) (fun ms => .freedPart ..) parts
  have same : part (tookCmd ms h) c.pid.toNat = part h c.pid.toNat := rfl
  have mons : h.mons = [] := by obtain ⟨-, -, -, -, -, mons⟩ := hring; exact mons
  rw [bodyPartDestroy]
  rw [same, hbusy, hst, freePart_no_blocks (hi.resting.tookCmd ms) mons (same ▸ hk)]
  rfl

/-- PART_RESET of a QUIESCED partition. -/
theorem partReset_posts (ht : h.takesCmd m.toNat 0x14 c) (hbusy : (part h c.pid.toNat).busy = false) (hst : (part h c.pid.toNat).st = .quiesced) :
    h.posted (effPartReset m.toNat c h) m.toNat e c.tag.toNat 0 0x14 0 0
      ∧ ∃ ms, (effPartReset m.toNat c h).parts = (resetPart c.pid.toNat (clearedPart c.pid.toNat (tookCmd ms h))).parts
        ∧ (effPartReset m.toNat c h).warm = (clearedPart c.pid.toNat (tookCmd ms h)).warm
        ∧ (effPartReset m.toNat c h).cache = (clearedPart c.pid.toNat (tookCmd ms h)).cache := by
  obtain ⟨-, -, -, -, -, mons⟩ := id hring
  have hbody (ms : Bank Mgr) : bodyPartReset m.toNat c (tookCmd ms h) = ended (resetPart c.pid.toNat (clearedPart c.pid.toNat (tookCmd ms h))) 0 0 0 := by
    have same : part (tookCmd ms h) c.pid.toNat = part h c.pid.toNat := rfl
    rw [bodyPartReset, same, hbusy, hst, disarmAll_none (h := clearLocks c.pid.toNat (stopWarm c.pid.toNat (tookCmd ms h))) hi.resting.wins, ← clearedPart]
    rfl
  have none_ (ms : Bank Mgr) : (clearedPart c.pid.toNat (tookCmd ms h)).mons = [] := mons
  obtain ⟨posted, ms, K, inj, slots, f, reports⟩ := takeCmd_light (body := bodyPartReset) (fun ms => resetPart c.pid.toNat (clearedPart c.pid.toNat (tookCmd ms h)))
    ht hring hbody (fun ms => ((hi.resting.tookCmd ms).clearedPart _).resetPart _) (fun ms => (RingKept.clearedPart ..).trans (.resetPart (none_ ms) _))
  obtain ⟨parts, warm, cache⟩ := parts_of_posted reports
  exact ⟨posted, ms, parts, warm, cache⟩

end

end Sys2Proof.Machine

namespace Sys2Proof.Machine.Slice0

/-- Settles O45: each command passes its checks, and what it posts leaves the partitions as its part left them. -/
theorem partitionCommandsComplete : Obligations.PartitionCommandsComplete := by
  unfold Obligations.PartitionCommandsComplete
  intro h q m c e hi hring
  refine ⟨fun ht hp hgrants hset hfree hpools => ?_, fun ht hsel hst hbusy hset hadm hways => ?_, fun ht hbusy hst => ?_, fun ht hbusy hst => ?_,
    fun ht hbusy hst hk => ?_⟩
  · obtain ⟨posted, parts⟩ := partCreate_posts hi hring rfl ht hp (by rw [← hgrants]; rfl) hset hfree hpools
    obtain ⟨st, kbase, bud⟩ := putSettings_all c.arg1.toNat c.arg2.toNat c.arg3.toNat (grantsOf c.arg0.toNat)
    have made := (parts c.pid.toNat).trans (bget_bset_same ..)
    exact ⟨_, rfl, posted, made, by rw [made, st]; rfl, by rw [made, kbase]; rfl, by rw [made, bud], fun p hne => (parts p).trans (bget_bset_other _ _ _ _ _ hne)⟩
  · obtain ⟨posted, parts⟩ := partSet_posts hi hring rfl ht hsel hst hbusy hset hadm hways
    exact ⟨_, rfl, posted, (parts c.pid.toNat).trans ((bget_bset_same ..).trans (putSettings_budgets ..)),
      fun p hne => (parts p).trans (bget_bset_other _ _ _ _ _ hne)⟩
  · obtain ⟨posted, parts⟩ := partResume_posts hi hring ht hbusy hst
    exact ⟨_, rfl, posted, (parts c.pid.toNat).trans (bget_bset_same ..), fun p hne => (parts p).trans (bget_bset_other _ _ _ _ _ hne)⟩
  · obtain ⟨posted, ms, parts, warm, cache⟩ := partReset_posts hi hring ht hbusy hst
    have all : part (effPartReset m.toNat c h) c.pid.toNat
        = { part (tookCmd ms h) c.pid.toNat with warming := false, st := .created, page := [], run := [], movHead := 0, movTail := 0 } := by
      rw [part, parts, ← part, part_resetPart_same]
    refine ⟨_, rfl, posted, congrArg Part.st all, congrArg Part.page all, congrArg Part.run all, congrArg Part.movHead all, congrArg Part.movTail all,
      by rw [all]; rfl, by rw [all]; rfl, ?_, fun k hk => ?_, fun p hne => ?_⟩
    · have gone : (clearedPart c.pid.toNat (tookCmd ms h)).warm = bdel h.warm c.pid.toNat := by rw [clearedPart, resetCold, clearGhosts, clearLocks, stopWarm, setPart]; rfl
      rw [warm, gone, bget, bfind_bdel_same]; rfl
    · rw [cache] at hk
      obtain ⟨mem, keep⟩ := List.mem_filter.1 hk
      have same : sector (stopWarm c.pid.toNat (tookCmd ms h)) k.1 k.2.1 k.2.2 = sector h k.1 k.2.1 k.2.2 := by rw [sector, sector]; rfl
      exact ⟨mem, by simpa [same] using keep⟩
    · rw [part, parts, ← part, part_resetPart_other _ hne]; rfl
  · obtain ⟨posted, parts⟩ := partDestroy_posts hi hring ht hbusy hst hk
    obtain ⟨freed, kept⟩ := part_freedPart c.pid.toNat h
    have made := (parts c.pid.toNat).trans freed
    exact ⟨_, rfl, posted, by rw [made], by rw [made], fun p hne => (parts p).trans (kept p hne)⟩

end Sys2Proof.Machine.Slice0

/-!
Heavy commands of a manager's ring as they start (R268): each takes its place among the heavy commands and sets its engine to work.
-/

namespace Sys2Proof.Machine

/-! ### A command that starts -/

/-- The entry of a heavy command that starts. -/
def begun (h : Hub) (m op : Nat) (c : CmdWord) : Heavy := { job := h.nextId, mgr := m, opcode := op, tag := c.tag.toNat, irq := c.irq, pid := c.pid.toNat }

/-- A hub that runs one heavy command more. -/
def started (m op : Nat) (c : CmdWord) (h : Hub) : Hub := { h with nextId := h.nextId + 1, heavy := h.heavy ++ [begun h m op c] }

theorem startHeavy_eq (m op : Nat) (c : CmdWord) (h : Hub) : startHeavy m op c h = (h.nextId, started m op c h) := rfl

/-- A command whose own part starts an engine and writes no completion. -/
theorem takeCmd_starts {h : Hub} {m op : Nat} {c : CmdWord} {body : CmdBody} (u : Bank Mgr → Hub) (ht : h.takesCmd m op c)
    (hbody : ∀ ms, body m c (tookCmd ms h) = (u ms, none)) (hheavy : ∀ ms, (u ms).heavy = h.heavy ++ [begun h m op c]) (hmgrs : ∀ ms, (u ms).mgrs = ms)
    (hmem : ∀ ms, (u ms).mem = h.mem) : ∃ ms, takeCmd m op c body h = u ms ∧ h.startedHeavy (u ms) m op c := by
  obtain ⟨ms, head, kept, htake⟩ := takeCmd_passes ht body
  have same : mgr (u ms) m = mgr (tookCmd ms h) m := by rw [mgr, mgr, hmgrs]; rfl
  refine ⟨ms, by rw [htake, hbody]; rfl, ⟨begun h m op c, hheavy ms, rfl, rfl, rfl, rfl, rfl, rfl⟩, ?_, ?_, hmem ms⟩
  · rw [same]; exact kept.tail
  · rw [same]; exact head

/-- A command answers what its effect comes to. -/
theorem next_of_eff {i : Instr} {h g u : Hub} {q : List Instr} (hx : exec i ⟨h, q⟩ = .next ⟨g, q⟩) (hg : g = u) : exec i ⟨h, q⟩ = .next ⟨u, q⟩ := hg ▸ hx

/-! ### Prefetched lines that are killed -/

/-- What a killed prefetch leaves, of partition `p` its state. -/
def killView (p : Nat) (h : Hub) := ((h.heavy, h.mgrs, h.mem, h.now, h.walks, h.movs, h.warm), h.cache, h.sieve, h.txns, h.waiting, h.tongs, h.integ, (part h p).st, (part h p).busy)

theorem part_setPart_same (h : Hub) (p : Nat) (f : Part → Part) : part (setPart h p f) p = f (part h p) := bget_bupd_same ..

theorem part_setPart_other (h : Hub) {p q : Nat} (f : Part → Part) (hq : q ≠ p) : part (setPart h p f) q = part h q := bget_bset_other _ _ _ _ _ hq

theorem pageAdd_part (pid i x : Nat) (h : Hub) (p : Nat) : (part (pageAdd pid i x h) p).st = (part h p).st ∧ (part (pageAdd pid i x h) p).busy = (part h p).busy := by
  unfold pageAdd
  split
  · split
    · exact ⟨rfl, rfl⟩
    · by_cases hp : p = pid
      · subst hp; rw [part_setPart_same]; exact ⟨rfl, rfl⟩
      · rw [part_setPart_other _ _ hp]; exact ⟨rfl, rfl⟩
  · exact ⟨rfl, rfl⟩

theorem killView_countDrop (p : Nat) (e : LadleE) (index : Nat) (h : Hub) : killView p (countDrop e index h) = killView p h := by
  obtain ⟨st1, busy1⟩ := pageAdd_part e.pid index 1 h p
  obtain ⟨st2, busy2⟩ := pageAdd_part e.pid 9 1 (pageAdd e.pid index 1 h) p
  rw [killView, part, countDrop, pmu_parts, ← part, st2, busy2, st1, busy1]
  simp [killView]

theorem killView_ladleKill (p line : Nat) (h : Hub) : killView p (ladleKill line h) = killView p h := by
  rw [ladleKill]
  split
  · rfl
  · next e _ =>
    have drop := killView_countDrop p e 26 h
    generalize countDrop e 26 h = g at drop ⊢
    dsimp only
    split <;> exact drop

theorem killView_killLadleRange (p base len : Nat) (h : Hub) : killView p (killLadleRange base len h) = killView p h :=
  forEach_keeps (killView p) ladleKill (killView_ladleKill p) _ h

theorem killView_dropLadle (p k : Nat) (h : Hub) : killView p (dropLadle k h) = killView p h :=
  forEach_keeps (killView p) ladleKill (killView_ladleKill p) _ h

/-! ### Each command's engine -/

section
variable {h : Hub} {m : BitVec 2} {c : CmdWord}

/-- CACHE_DISABLE (R80) starts a drain. -/
theorem cacheDisable_starts (ht : h.takesCmd m.toNat 0x02 c) (hon : h.cache.cst = .on) :
    ∃ ms, effCacheDisable m.toNat c h = startDrain h.nextId (started m.toNat 0x02 c (tookCmd ms h))
      ∧ h.startedHeavy (startDrain h.nextId (started m.toNat 0x02 c (tookCmd ms h))) m.toNat 0x02 c := by
  refine takeCmd_starts (fun ms => startDrain h.nextId (started m.toNat 0x02 c (tookCmd ms h))) ht (fun ms => ?_) (fun _ => rfl) (fun _ => rfl) (fun _ => rfl)
  have on : (tookCmd ms h).cache.cst = .on := hon
  rw [on]
  rfl

/-- The walk of CACHE_RANGE (R73). -/
def rangeWalk (c : CmdWord) (h : Hub) : Walk :=
  { job := h.nextId, kind := 1, op := bits c.arg0.toNat 1 0, setMode := !(probes h c.arg2.toNat), base := c.arg1.toNat, len := c.arg2.toNat, lastAt := h.now }

/-- CACHE_RANGE as it starts: an operation that drops lines kills the prefetches of its range first. -/
def rangeBegun (m : Nat) (c : CmdWord) (h : Hub) : Hub :=
  if bits c.arg0.toNat 1 0 = 0 then started m 0x03 c h else killLadleRange c.arg1.toNat c.arg2.toNat (started m 0x03 c h)

theorem killView_rangeBegun (p m : Nat) (c : CmdWord) (h : Hub) : killView p (rangeBegun m c h) = killView p (started m 0x03 c h) := by
  unfold rangeBegun
  split
  · rfl
  · exact killView_killLadleRange ..

theorem probes_of_cache {h h' : Hub} (hc : h'.cache = h.cache) (len : Nat) : probes h' len = probes h len := by rw [probes, probes, setsInUse, setsInUse, hc]

/-- CACHE_RANGE (R73) starts a walk of its range. -/
theorem cacheRange_starts (hi : h.idle) (ht : h.takesCmd m.toNat 0x03 c) (hon : h.cache.cst = .on) (hop : bits c.arg0.toNat 1 0 ≠ 3)
    (hrange : rangeBad 128 c.arg1.toNat c.arg2.toNat = false) :
    ∃ u, effCacheRange m.toNat c h = u ∧ h.startedHeavy u m.toNat 0x03 c ∧ u.walks = h.walks ++ [rangeWalk c h] := by
  have view (ms : Bank Mgr) := killView_rangeBegun 0 m.toNat c (tookCmd ms h)
  have heavy (ms : Bank Mgr) := congrArg (fun v => v.1.1) (view ms)
  have mgrs (ms : Bank Mgr) := congrArg (fun v => v.1.2.1) (view ms)
  have mem (ms : Bank Mgr) := congrArg (fun v => v.1.2.2.1) (view ms)
  have now (ms : Bank Mgr) : (rangeBegun m.toNat c (tookCmd ms h)).now = h.now := congrArg (fun v => v.1.2.2.2.1) (view ms)
  have walks (ms : Bank Mgr) := congrArg (fun v => v.1.2.2.2.2.1) (view ms)
  have cache (ms : Bank Mgr) : (rangeBegun m.toNat c (tookCmd ms h)).cache = h.cache := congrArg (fun v => v.2.1) (view ms)
  have hbody (ms : Bank Mgr) : bodyCacheRange m.toNat c (tookCmd ms h) = (pushWalk (rangeWalk c h) (rangeBegun m.toNat c (tookCmd ms h)), none) := by
    have on : (tookCmd ms h).cache.cst = .on := hon
    have wbs : (tookCmd ms h).wbs = [] := hi.resting.wbs
    have chosen : (if bits c.arg0.toNat 1 0 = 0 then started m.toNat 0x03 c (tookCmd ms h)
        else killLadleRange c.arg1.toNat c.arg2.toNat (started m.toNat 0x03 c (tookCmd ms h))) = rangeBegun m.toNat c (tookCmd ms h) := rfl
    rw [bodyCacheRange]
    dsimp only
    rw [hrange, on, wbs, if_neg (by simpa using hop), if_neg (by decide), startHeavy_eq]
    dsimp only
    rw [chosen, probes_of_cache (cache ms), List.filter_nil, List.map_nil, ite_self]
    rfl
  obtain ⟨ms, eq, begins⟩ := takeCmd_starts _ ht hbody heavy mgrs mem
  refine ⟨_, eq, begins, ?_⟩
  rw [pushWalk, now ms]
  exact congrArg (· ++ [rangeWalk c h]) (walks ms)

/-- What the entries of the region map say about a range is said of them alone. -/
theorem inCached_of_rmap {h h' : Hub} (hr : h'.rmap = h.rmap) (hid : h'.life.hubId = h.life.hubId) (n a last : Nat) : inCached h' n a last = inCached h n a last := by
  induction n generalizing a with
  | zero => rfl
  | succ n ih =>
    have here (e : REntry) : e.here h' = e.here h := by rw [REntry.here, REntry.here, hid]
    rw [inCached, inCached, rmapFind, rmapFind, hr]
    simp only [here, ih]

/-- WAY_LOCK with LOCK (R75) starts a walk of its range. -/
theorem wayLock_starts (ht : h.takesCmd m.toNat 0x05 c) (hon : h.cache.cst = .on) (hlock : bitOf c.arg0.toNat 0 = true)
    (hrange : rangeBad 1024 c.arg1.toNat c.arg2.toNat = false) (hin : inCached h 192 c.arg1.toNat (c.arg1.toNat + c.arg2.toNat) = true)
    (hst : shownSt (part h c.pid.toNat) = .active) :
    ∃ u w, effWayLock m.toNat c h = u ∧ h.startedHeavy u m.toNat 0x05 c ∧ u.walks = h.walks ++ [w] ∧ w.kind = 4 ∧ w.op = 0
        ∧ w.base = c.arg1.toNat ∧ w.len = c.arg2.toNat ∧ w.pid = c.pid.toNat := by
  let w : Walk := { job := h.nextId, kind := 4, op := 0, setMode := !(probes h c.arg2.toNat), base := c.arg1.toNat, len := c.arg2.toNat, pid := c.pid.toNat }
  have hbody (ms : Bank Mgr) : bodyWayLock m.toNat c (tookCmd ms h) = (pushWalk w (started m.toNat 0x05 c (tookCmd ms h)), none) := by
    have on : (tookCmd ms h).cache.cst = .on := hon
    have active : shownSt (part (tookCmd ms h) c.pid.toNat) = .active := hst
    have cached : inCached (tookCmd ms h) 192 c.arg1.toNat (c.arg1.toNat + c.arg2.toNat) = true := (inCached_of_rmap (h := h) (h' := tookCmd ms h) rfl rfl 192 _ _).trans hin
    rw [bodyWayLock, hlock, hrange, on, active, cached]
    rfl
  obtain ⟨ms, eq, begins⟩ := takeCmd_starts _ ht hbody (fun _ => rfl) (fun _ => rfl) (fun _ => rfl)
  exact ⟨_, { w with lastAt := h.now }, eq, begins, rfl, rfl, rfl, rfl, rfl, rfl⟩

/-- PART_FREEZE (R303) starts a walk of its partition's lines. -/
theorem partFreeze_starts (ht : h.takesCmd m.toNat 0x15 c) (hst : (part h c.pid.toNat).st = .quiesced) (hbusy : (part h c.pid.toNat).busy = false) (hon : h.cache.cst = .on) :
    ∃ u w, effPartFreeze m.toNat c h = u ∧ h.startedHeavy u m.toNat 0x15 c ∧ (part u c.pid.toNat).busy = true
        ∧ u.walks = h.walks ++ [w] ∧ w.kind = 6 ∧ w.op = 0 ∧ w.pid = c.pid.toNat ∧ w.setMode = true := by
  let w : Walk := { job := h.nextId, kind := 6, op := 0, setMode := true, pid := c.pid.toNat }
  have hbody (ms : Bank Mgr) : bodyPartFreeze m.toNat c (tookCmd ms h) = (pushWalk w (setBusy c.pid.toNat true (started m.toNat 0x15 c (tookCmd ms h))), none) := by
    have on : (setBusy c.pid.toNat true (started m.toNat 0x15 c (tookCmd ms h))).cache.cst = .on := hon
    have same : part (tookCmd ms h) c.pid.toNat = part h c.pid.toNat := rfl
    rw [bodyPartFreeze, same, hst, hbusy, startHeavy_eq]
    dsimp only
    rw [on]
    rfl
  obtain ⟨ms, eq, begins⟩ := takeCmd_starts _ ht hbody (fun _ => rfl) (fun _ => rfl) (fun _ => rfl)
  have busy : part (setBusy c.pid.toNat true (started m.toNat 0x15 c (tookCmd ms h))) c.pid.toNat = _ := part_setPart_same ..
  exact ⟨_, { w with lastAt := h.now }, eq, begins, congrArg Part.busy busy, rfl, rfl, rfl, rfl, rfl⟩

/-- The image job of a PART_SAVE at the level the hub writes. -/
def saveJob (c : CmdWord) (h : Hub) : ImgJob :=
  { job := h.nextId, pid := c.pid.toNat, save := true, addr := c.arg1.toNat, level := h.life.wrMax, hot := false, image := [], arg0 := c.arg0 }

/-- PART_SAVE as it starts. -/
def saveBegun (m : Nat) (c : CmdWord) (h : Hub) : Hub := { started m 0x16 c h with images := h.images ++ [saveJob c h] }

/-- PART_SAVE (R304, R306) lists its image. -/
theorem partSave_starts (ht : h.takesCmd m.toNat 0x16 c) (hok : saveBad h c.pid.toNat h.life.wrMax c.arg1.toNat c.arg2.toNat = false) (harg : bits c.arg0.toNat 4 0 = 0)
    (hst : (part h c.pid.toNat).st = .frozen) (hbusy : (part h c.pid.toNat).busy = false) (hcap : imgLength h c.pid.toNat none ≤ c.arg2.toNat) :
    ∃ u j, effPartSave m.toNat c h = u ∧ h.startedHeavy u m.toNat 0x16 c ∧ (part u c.pid.toNat).busy = true
        ∧ u.images = h.images ++ [j] ∧ j.pid = c.pid.toNat ∧ j.save = true ∧ j.addr = c.arg1.toNat ∧ j.level = h.life.wrMax := by
  have hbody (ms : Bank Mgr) : bodyPartSave m.toNat c (tookCmd ms h) = (setBusy c.pid.toNat true (saveBegun m.toNat c (tookCmd ms h)), none) := by
    have same : part (tookCmd ms h) c.pid.toNat = part h c.pid.toNat := rfl
    have level : (tookCmd ms h).life.wrMax = h.life.wrMax := rfl
    have ok : saveBad (tookCmd ms h) c.pid.toNat h.life.wrMax c.arg1.toNat c.arg2.toNat = false := hok
    have fits : ¬ c.arg2.toNat < imgLength (tookCmd ms h) c.pid.toNat none := Nat.not_lt.2 hcap
    have low : bits c.arg0.toNat 3 0 = 0 := by
      simp only [bits, Nat.shiftRight_zero] at harg ⊢
      omega
    have cold : bitOf c.arg0.toNat 4 = false := by
      simp only [bits, Nat.shiftRight_zero] at harg
      rw [bitOf, Nat.testBit_eq_decide_div_mod_eq]
      simp
      omega
    rw [bodyPartSave]
    dsimp only
    rw [low, cold, same, level, if_pos rfl, ok, hst, hbusy, Bool.false_and, if_neg (by decide), if_neg (by decide), if_neg Bool.false_ne_true, if_neg fits]
    rfl
  obtain ⟨ms, eq, begins⟩ := takeCmd_starts _ ht hbody (fun _ => rfl) (fun _ => rfl) (fun _ => rfl)
  have busy : part (setBusy c.pid.toNat true (saveBegun m.toNat c (tookCmd ms h))) c.pid.toNat = _ := part_setPart_same ..
  exact ⟨_, saveJob c h, eq, begins, congrArg Part.busy busy, rfl, rfl, rfl, rfl, rfl⟩

/-- FW_STAGE as it starts: the slot, and where the image lies. -/
def stageBegun (m : Nat) (c : CmdWord) (h : Hub) : Hub :=
  { started m 0x38 c h with stage := some (h.nextId, bitOf c.arg0.toNat 0, toBytes 8 c.arg1.toNat ++ toBytes 4 c.arg2.toNat) }

/-- FW_STAGE (R414) takes the slot that does not run. -/
theorem fwStage_starts (ht : h.takesCmd m.toNat 0x38 c) (hmin : 128 ≤ c.arg2.toNat) (hmax : c.arg2.toNat ≤ 4194304) (hslot : bitOf c.arg0.toNat 0 ≠ h.life.fwSlot)
    (hnone : h.stage = none) :
    ∃ u, effFwStage m.toNat c h = u ∧ h.startedHeavy u m.toNat 0x38 c
        ∧ u.stage = some (h.nextId, bitOf c.arg0.toNat 0, toBytes 8 c.arg1.toNat ++ toBytes 4 c.arg2.toNat) := by
  have hbody (ms : Bank Mgr) : bodyFwStage m.toNat c (tookCmd ms h) = (stageBegun m.toNat c (tookCmd ms h), none) := by
    have slot : ¬ (bitOf c.arg0.toNat 0 = (tookCmd ms h).life.fwSlot) := hslot
    have none_ : (tookCmd ms h).stage = none := hnone
    rw [bodyFwStage]
    dsimp only
    rw [if_neg (by simp; omega), none_, if_neg (by simpa using slot)]
    rfl
  obtain ⟨ms, eq, begins⟩ := takeCmd_starts _ ht hbody (fun _ => rfl) (fun _ => rfl) (fun _ => rfl)
  exact ⟨_, eq, begins, rfl⟩

/-- PART_QUIESCE before its Movers are asked: the partition QUIESCING. -/
def quiesceMarked (m : Nat) (c : CmdWord) (h : Hub) : Hub :=
  stopWarm c.pid.toNat (setPart (started m 0x12 c h) c.pid.toNat (fun k => { k with st := .quiescing, busy := true }))

/-- Its Movers asked to stop. -/
def stopMovers (p : Nat) (h : Hub) : Hub := { h with movs := h.movs.map (fun r => if r.pid == p then { r with stop := true } else r) }

/-- PART_QUIESCE before its partition's prefetches are dropped. -/
def quiesceBegun (m : Nat) (c : CmdWord) (h : Hub) : Hub := stopMovers c.pid.toNat (quiesceMarked m c h)

theorem quiesceBegun_homes (m : Nat) (c : CmdWord) (h : Hub) : (quiesceBegun m c h).cache = h.cache ∧ (quiesceBegun m c h).sieve = h.sieve
    ∧ (quiesceBegun m c h).txns = h.txns ∧ (quiesceBegun m c h).waiting = h.waiting ∧ (quiesceBegun m c h).tongs = h.tongs ∧ (quiesceBegun m c h).integ = h.integ :=
  ⟨rfl, rfl, rfl, rfl, rfl, rfl⟩

theorem quiesceBegun_runs (m : Nat) (c : CmdWord) (h : Hub) : (quiesceBegun m c h).heavy = h.heavy ++ [begun h m 0x12 c] ∧ (quiesceBegun m c h).mgrs = h.mgrs
    ∧ (quiesceBegun m c h).mem = h.mem ∧ (quiesceBegun m c h).warm = bdel h.warm c.pid.toNat
    ∧ (quiesceBegun m c h).movs = h.movs.map (fun r => if r.pid == c.pid.toNat then { r with stop := true } else r) :=
  ⟨rfl, rfl, rfl, rfl, rfl⟩

/-- An engine that asks for no line, in a hub where nothing waits. -/
theorem engineReqs_none {h : Hub} (hq : h.quiet) (op : Nat) (src : Src) (pid job : Nat) : engineReqs op src pid job [] h = h := settle_quiet h hq

theorem part_stopWarm (h : Hub) (p : Nat) : (part (stopWarm p h) p).st = (part h p).st ∧ (part (stopWarm p h) p).busy = (part h p).busy := by
  rw [stopWarm, part_setPart_same]
  exact ⟨rfl, rfl⟩

theorem part_quiesceBegun (m : Nat) (c : CmdWord) (h : Hub) :
    (part (quiesceBegun m c h) c.pid.toNat).st = .quiescing ∧ (part (quiesceBegun m c h) c.pid.toNat).busy = true := by
  obtain ⟨st, busy⟩ := part_stopWarm (setPart (started m 0x12 c h) c.pid.toNat (fun k => { k with st := .quiescing, busy := true })) c.pid.toNat
  rw [part_setPart_same] at st busy
  exact ⟨st, busy⟩

/-- PART_QUIESCE's own part, where no host owns a line. -/
theorem bodyPartQuiesce_eq {m : Nat} {g : Hub} (hq : g.quiet) (hst : (part g c.pid.toNat).st = .active) (hbusy : (part g c.pid.toNat).busy = false) (hsieve : g.sieve = []) :
    bodyPartQuiesce m c g = (dropLadle c.pid.toNat (quiesceBegun m c g), none) := by
  have drops := killView_dropLadle c.pid.toNat c.pid.toNat (quiesceBegun m c g)
  simp only [killView, Prod.mk.injEq] at drops
  obtain ⟨-, cache, sieve, txns, waiting, tongs, integ, -, -⟩ := drops
  obtain ⟨cache', sieve', txns', waiting', tongs', integ'⟩ := quiesceBegun_homes m c g
  obtain ⟨qtxns, qwaiting, qtongs, qevict, qecho⟩ := hq
  rw [bodyPartQuiesce, hst, hbusy, startHeavy_eq]
  dsimp only
  rw [← quiesceMarked, ← stopMovers, ← quiesceBegun]
  have quiet : (dropLadle c.pid.toNat (quiesceBegun m c g)).quiet :=
    ⟨(txns.trans txns').trans qtxns, (waiting.trans waiting').trans qwaiting, (tongs.trans tongs').trans qtongs,
      (congrArg Integ.evict (integ.trans integ')).trans qevict, (congrArg Cache.echoDue (cache.trans cache')).trans qecho⟩
  have unowned (a n : Nat) : ownedIn (dropLadle c.pid.toNat (quiesceBegun m c g)) a n = [] := by rw [ownedIn, (sieve.trans sieve').trans hsieve]; rfl
  rw [unowned, ite_self, engineReqs_none quiet]
  rfl

/-- PART_QUIESCE (R301) stops its partition; no host owns a line of its log, so nothing is read. -/
theorem partQuiesce_starts (hi : h.idle) (ht : h.takesCmd m.toNat 0x12 c) (hst : (part h c.pid.toNat).st = .active) (hbusy : (part h c.pid.toNat).busy = false)
    (hsieve : h.sieve = []) :
    ∃ u, effPartQuiesce m.toNat c h = u ∧ h.startedHeavy u m.toNat 0x12 c ∧ (part u c.pid.toNat).st = .quiescing ∧ (part u c.pid.toNat).busy = true
        ∧ bget u.warm c.pid.toNat [] = [] ∧ (∀ r ∈ u.movs, r.pid = c.pid.toNat → r.stop = true) := by
  have view (ms : Bank Mgr) := killView_dropLadle c.pid.toNat c.pid.toNat (quiesceBegun m.toNat c (tookCmd ms h))
  simp only [killView, Prod.mk.injEq] at view
  have quiet (ms : Bank Mgr) : (tookCmd ms h).quiet := ⟨hi.resting.txns, hi.resting.waiting, hi.resting.tongs, hi.resting.evict, hi.resting.echo⟩
  have hbody (ms : Bank Mgr) := bodyPartQuiesce_eq (m := m.toNat) (c := c) (quiet ms) hst hbusy hsieve
  have runs (ms : Bank Mgr) := quiesceBegun_runs m.toNat c (tookCmd ms h)
  obtain ⟨ms, eq, begins⟩ := takeCmd_starts (fun ms => dropLadle c.pid.toNat (quiesceBegun m.toNat c (tookCmd ms h))) ht hbody
    (fun ms => (view ms).1.1.trans (runs ms).1) (fun ms => (view ms).1.2.1.trans (runs ms).2.1) (fun ms => (view ms).1.2.2.1.trans (runs ms).2.2.1)
  obtain ⟨⟨-, -, -, -, -, movs, warm⟩, -, -, -, -, -, -, st, busy⟩ := view ms
  obtain ⟨-, -, -, warm', movs'⟩ := runs ms
  obtain ⟨quiescing, isBusy⟩ := part_quiesceBegun m.toNat c (tookCmd ms h)
  refine ⟨_, eq, begins, st.trans quiescing, busy.trans isBusy, ?_, fun r hr hpid => ?_⟩
  · rw [warm, warm', bget, bfind_bdel_same]; rfl
  · rw [movs, movs'] at hr
    obtain ⟨r', -, rfl⟩ := List.mem_map.1 hr
    by_cases hp : r'.pid = c.pid.toNat
    · simp [hp]
    · simp [hp] at hpid

end

end Sys2Proof.Machine

namespace Sys2Proof.Machine.Slice0

/-- Settles O46: each command passes its checks, and its own part lists it among the heavy commands and sets its engine to work. -/
theorem heavyCommandsStart : Obligations.HeavyCommandsStart := by
  unfold Obligations.HeavyCommandsStart
  intro h q m c hi
  refine ⟨fun ht hon => ?_, fun ht hon hop hrange => ?_, fun ht hon hlock hrange hin hst => ?_, fun ht hst hbusy hsieve => ?_, fun ht hst hbusy hon => ?_,
    fun ht hok harg hst hbusy hcap => ?_, fun ht hmin hmax hslot hnone => ?_⟩
  · obtain ⟨ms, eq, begins⟩ := cacheDisable_starts ht hon
    exact ⟨_, { job := h.nextId, kind := 2, op := 2, setMode := true, lastAt := h.now }, next_of_eff rfl eq, begins, rfl, rfl, rfl, rfl, rfl, rfl⟩
  · obtain ⟨u, eq, begins, walks⟩ := cacheRange_starts hi ht hon hop hrange
    exact ⟨u, rangeWalk c h, next_of_eff rfl eq, begins, walks, rfl, rfl, rfl, rfl, rfl, rfl⟩
  · obtain ⟨u, w, eq, begins⟩ := wayLock_starts ht hon hlock hrange hin hst
    exact ⟨u, w, next_of_eff rfl eq, begins⟩
  · obtain ⟨u, eq, begins⟩ := partQuiesce_starts hi ht hst hbusy hsieve
    exact ⟨u, next_of_eff rfl eq, begins⟩
  · obtain ⟨u, w, eq, begins⟩ := partFreeze_starts ht hst hbusy hon
    exact ⟨u, w, next_of_eff rfl eq, begins⟩
  · obtain ⟨u, j, eq, begins⟩ := partSave_starts ht hok harg hst hbusy hcap
    exact ⟨u, j, next_of_eff rfl eq, begins⟩
  · obtain ⟨u, eq, begins⟩ := fwStage_starts ht hmin hmax hslot hnone
    exact ⟨u, next_of_eff rfl eq, begins⟩

end Sys2Proof.Machine.Slice0

/-!
Heavy commands of a manager's ring as they end (R267): the engine's state is what the command leaves, and the completion is in the ring.
-/

namespace Sys2Proof.Machine

/-! ### The completion of a heavy command -/

/-- What the completion of a heavy command leaves of the hub that its effect left. -/
structure Finished (h u : Hub) : Prop where
  heavy : u.heavy = []
  walks : u.walks = h.walks
  cache : u.cache = h.cache
  parts : u.parts = h.parts
  life : ∃ pins, u.life = { h.life with intN := pins }
  led : ∃ t s, u.led = { h.led with typeNew := t, sev3 := s }
  quiet : u.quiet

/-- The one heavy command of a hub at rest ends with its completion in its manager's ring. -/
theorem finishHeavy_ring {h0 h : Hub} {v : Heavy} {e : REntry} (hr : Resting h) (kept : RingKept v.mgr h0 h) (hring : h0.ringIn v.mgr e) (hv : h.heavy = [v])
    (status result : Nat) :
    h0.posted (finishHeavy v.job status result h) v.mgr e v.tag status v.opcode result 0 ∧ Finished h (finishHeavy v.job status result h) := by
  let g : Hub := { h with heavy := [] }
  have eq : finishHeavy v.job status result h = postFinal v.mgr v.tag status v.opcode result 0 v.irq g := by
    rw [finishHeavy, hv]
    simp only [List.find?, beq_self_eq_true, List.filter, bne_self_eq_false]
    rfl
  have rest : Resting g := hr.of_rest rfl rfl rfl
  have same : RingKept v.mgr h g := .of_rest rfl rfl
  have all := kept.trans same
  obtain ⟨posted, K, inj, slots, f, reports, -⟩ := postFinal_ring rest (all.ringIn hring) v.tag status v.opcode result 0 v.irq
  rw [eq]
  refine ⟨all.posted posted, ?_⟩
  have waiting : h.waiting = [] := hr.waiting
  have tongs : h.tongs = [] := hr.tongs
  have evict : h.integ.evict = [] := hr.evict
  have echo : h.cache.echoDue = [] := hr.echo
  generalize postFinal v.mgr v.tag status v.opcode result 0 v.irq g = u at reports ⊢
  obtain ⟨_, _, _, _, pins, t, s, rfl⟩ := reports.rest
  exact ⟨rfl, rfl, rfl, rfl, ⟨pins, rfl⟩, ⟨t, s, rfl⟩, rfl, waiting, tongs, evict, echo⟩

section
variable {h : Hub} {v : Heavy} {e : REntry} (hi : h.idle) (hring : h.ringIn v.mgr e) (hv : h.heavy = [v])
include hi hring hv

/-- A command's walk taken off, and the cache as its end leaves it. -/
def walkedOff (C : Cache) (h : Hub) : Hub := { h with walks := [], cache := C }

/-- A walk's command ends. -/
theorem finish_walkedOff {C : Cache} (hC : C.echoDue = []) (status result : Nat) :
    h.posted (finishHeavy v.job status result (walkedOff C h)) v.mgr e v.tag status v.opcode result 0
      ∧ Finished (walkedOff C h) (finishHeavy v.job status result (walkedOff C h)) := by
  have rest : Resting (walkedOff C h) := by
    have hr := hi.resting
    exact hr.of_view (by rw [restView, restView, hr.echo, ← hC]; rfl) (fun _ => rfl) hr.uncounted
  exact finishHeavy_ring (h0 := h) rest (.of_rest rfl rfl) hring hv status result

end

theorem doneWalk_eq {h : Hub} {w : Walk} (hw : h.walks = [w]) (hend : w.ended h = true) (hwait : w.waits = []) {kind : Nat} (hk : w.kind = kind) :
    doneWalk h kind = some w := by
  rw [doneWalk, hw, List.find?_cons, hk, hend, hwait]
  simp

theorem dropWalk_eq {h : Hub} {w : Walk} (hw : h.walks = [w]) : dropWalk w h = walkedOff h.cache h := by
  rw [dropWalk, hw, delFirst]
  simp [walkedOff]

section
variable {h : Hub} {v : Heavy} {e : REntry} {w : Walk} (hi : h.idle) (hring : h.ringIn v.mgr e) (hv : h.heavy = [v]) (hw : h.walks = [w]) (hjob : w.job = v.job)
  (hend : w.ended h = true) (hwait : w.waits = [])
include hi hring hv hw hjob hend hwait

/-- CACHE_DISABLE ends (R80): the cache is off. -/
theorem cacheDisable_ends (hk : w.kind = 2) (hdrain : h.cache.cst = .draining) (hd : h.integ.degraded = false) :
    ∃ u, effCacheDisableDrainDone h = u ∧ u.cache.cst = .off ∧ u.cache.size = 0 ∧ u.cache.sectors = [] ∧ u.cache.powered = 0#16
      ∧ u.walks = [] ∧ u.heavy = [] ∧ h.posted u v.mgr e v.tag 0 v.opcode w.done 0 := by
  let C : Cache := { h.cache with cst := .off, size := 0, sectors := [], locks := [], echoDue := [], powered := 0#16, pending := 0#16 }
  obtain ⟨posted, done⟩ := finish_walkedOff hi hring hv (C := C) rfl 0 w.done
  have off : cacheOff (walkedOff h.cache h) = walkedOff C h := rfl
  have whole : (walkedOff C h).integ.degraded = false := hd
  have eq : effCacheDisableDrainDone h = finishHeavy v.job 0 w.done (walkedOff C h) := by
    rw [effCacheDisableDrainDone, hdrain, doneWalk_eq hw hend hwait hk, if_neg (by decide)]
    dsimp only
    rw [dropWalk_eq hw, off, whole, if_neg Bool.false_ne_true, hjob]
    exact settle_quiet _ done.quiet
  have cache := done.cache
  exact ⟨_, eq, congrArg Cache.cst cache, congrArg Cache.size cache, congrArg Cache.sectors cache, congrArg Cache.powered cache, done.walks, done.heavy, posted⟩

/-- CACHE_RANGE ends (R74). -/
theorem cacheRange_ends (hk : w.kind = 1) (hbad : w.bad = 0) :
    ∃ u, effCacheRangeDone h = u ∧ u.walks = [] ∧ u.heavy = [] ∧ u.cache = h.cache ∧ h.posted u v.mgr e v.tag 0 v.opcode w.done 0 := by
  obtain ⟨posted, done⟩ := finish_walkedOff hi hring hv (C := h.cache) hi.resting.echo 0 w.done
  refine ⟨_, ?_, done.walks, done.heavy, done.cache, posted⟩
  rw [effCacheRangeDone, doneWalk_eq hw hend hwait hk]
  dsimp only
  rw [hbad, if_pos rfl, dropWalk_eq hw, hjob]
  rfl

/-- WAY_POWER ends (R83): its ways are off. -/
theorem wayPower_ends (hk : w.kind = 3) (hlast : w.lastAt + 2500 ≤ h.now) :
    ∃ u, effWayPowerOffDone h = u ∧ u.walks = [] ∧ u.heavy = [] ∧ u.cache.powered = h.cache.powered &&& ~~~w.mask
      ∧ u.cache.pending = h.cache.pending &&& ~~~w.mask ∧ h.posted u v.mgr e v.tag 0 v.opcode w.done 0 := by
  let C : Cache := { h.cache with powered := h.cache.powered &&& ~~~w.mask, pending := (h.cache.pending &&& ~~~w.mask) ||| (h.cache.pending &&& 0#16) }
  obtain ⟨posted, done⟩ := finish_walkedOff hi hring hv (C := C) hi.resting.echo 0 w.done
  have cache := done.cache
  refine ⟨_, ?_, done.walks, done.heavy, congrArg Cache.powered cache, (congrArg Cache.pending cache).trans (by simp [walkedOff, C]), posted⟩
  rw [effWayPowerOffDone, doneWalk_eq hw hend hwait hk]
  dsimp only
  rw [if_neg (Nat.not_lt.2 hlast), dropWalk_eq hw, hjob]
  rfl

/-- WAY_LOCK ends (R75, R76). -/
theorem wayLock_ends (hk : w.kind = 4) :
    ∃ u, effWayLockDone h = u ∧ u.walks = [] ∧ u.heavy = [] ∧ u.cache.locks = h.cache.locks
      ∧ h.posted u v.mgr e v.tag (if w.missed = 0 then 0 else 7) v.opcode w.count 0 := by
  obtain ⟨posted, done⟩ := finish_walkedOff hi hring hv (C := h.cache) hi.resting.echo (if w.missed = 0 then 0 else 7) w.count
  refine ⟨_, ?_, done.walks, done.heavy, congrArg Cache.locks done.cache, posted⟩
  rw [effWayLockDone, doneWalk_eq hw hend hwait hk]
  dsimp only
  rw [dropWalk_eq hw, hjob]
  rfl

/-- The partition frozen, its warming stopped (R303). -/
def frozenPart (p : Nat) (h : Hub) : Hub := setPart (stopWarm p h) p (fun k => { k with st := .frozen, busy := false })

/-- PART_FREEZE ends (R303). -/
theorem partFreeze_ends {p : Nat} (hk : w.kind = 6) (hop : v.opcode = 0x15) (hp : v.pid = p) (hbad : w.bad = 0) :
    ∃ u, effPartFreezeDone p h = u ∧ (part u p).st = .frozen ∧ (part u p).busy = false ∧ u.walks = [] ∧ u.heavy = []
      ∧ h.posted u v.mgr e v.tag 0 0x15 w.count 0 := by
  obtain ⟨-, -, -, -, -, mons⟩ := id hring
  let g := frozenPart p (walkedOff h.cache h)
  have rest : Resting g := hi.resting.of_rest rfl rfl rfl
  have kept : RingKept v.mgr h g := .of_rest rfl rfl
  obtain ⟨posted, done⟩ := finishHeavy_ring rest kept hring hv 0 w.count
  have lost : loseMons (fun m => m.pid == p) 7 g = g := by
    have none_ : g.mons = [] := mons
    rw [loseMons, none_]; rfl
  have eq : effPartFreezeDone p h = finishHeavy v.job 0 w.count g := by
    have run : heavyFor h p 0x15 = some v := by rw [heavyFor, hv, List.find?_cons, hp, hop]; simp
    have walk : walkOf h v.job = some w := by rw [walkOf, hw, List.find?_cons, hjob, hk]; simp
    rw [effPartFreezeDone, run]
    dsimp only
    rw [walk]
    dsimp only
    rw [hend, hwait, hbad, dropWalk_eq hw, if_neg (by decide), ← frozenPart, lost]
    rfl
  have st : part (finishHeavy v.job 0 w.count g) p = { part (stopWarm p (walkedOff h.cache h)) p with st := .frozen, busy := false } := by
    rw [part, done.parts, ← part]
    exact part_setPart_same ..
  exact ⟨_, eq, by rw [st], by rw [st], done.walks, done.heavy, hop ▸ posted⟩

end

section
variable {h : Hub} {v : Heavy} {e : REntry} (hi : h.idle) (hring : h.ringIn v.mgr e) (hv : h.heavy = [v])
include hi hring hv

/-- PART_QUIESCE ends (R301), of a partition without a log of Mover addresses. -/
theorem partQuiesce_ends {p : Nat} (hop : v.opcode = 0x12) (hp : v.pid = p) (hlog : (part h p).movLog = 0) (hw : quiesceWaits h p = false) :
    ∃ u, effPartQuiesceDone p h = u ∧ (part u p).st = .quiesced ∧ (part u p).busy = false ∧ u.heavy = [] ∧ h.posted u v.mgr e v.tag 0 0x12 0 0 := by
  let g := setPart h p (fun k => { k with st := .quiesced, busy := false })
  have rest : Resting g := hi.resting.of_rest rfl rfl rfl
  have kept : RingKept v.mgr h g := .of_rest rfl rfl
  obtain ⟨posted, done⟩ := finishHeavy_ring rest kept hring hv 0 0
  have eq : effPartQuiesceDone p h = finishHeavy v.job 0 0 g := by
    have run : heavyFor h p 0x12 = some v := by rw [heavyFor, hv, List.find?_cons, hp, hop]; simp
    have closed : jobOpen h .hub0 v.job = false := by rw [jobOpen, hi.resting.txns, hi.resting.waiting]; rfl
    rw [effPartQuiesceDone, run]
    dsimp only
    rw [hw, closed, hlog, if_neg (by decide), if_neg (by simp), if_pos rfl, hi.resting.txns, if_neg (by simp)]
    rfl
  have st : part (finishHeavy v.job 0 0 g) p = { part h p with st := .quiesced, busy := false } := by
    rw [part, done.parts, ← part]
    exact part_setPart_same ..
  exact ⟨_, eq, by rw [st], by rw [st], done.heavy, hop ▸ posted⟩

/-- The image of a slot runs and is the one to boot (R415). -/
def handedOver (s : Bool) (h : Hub) : Hub := setLife (fun l => { l with handover := none, handRun := false, named := false }) (runSlot s h)

/-- FW_SWITCH ends (R415). -/
theorem fwHandover_ends {s : Bool} (hs : h.life.handover = some s) (hrun : h.life.handRun = true) (hop : v.opcode = 0x39) (hfail : h.led.failing.contains 0x30 = false) :
    ∃ u, effFwHandoverDone h = u ∧ u.life.fwSlot = s ∧ u.led.bootSlot = s ∧ u.life.handover = none ∧ u.life.handRun = false ∧ u.heavy = []
      ∧ h.posted u v.mgr e v.tag 0 0x39 0 0 := by
  let L : Ledger := { h.led with recs := bset h.led.recs 0x30 ((bget h.led.recs 0x30 (0, 0)).1 + 1, ((bget h.led.recs 0x30 (0, 0)).2 + 1) % ledgerPairs 0x30), bootSlot := s }
  let k : Hub := { h with led := L }
  let g := handedOver s k
  have put : ledgerPut 0x30 (fun l => { l with bootSlot := s }) h = k := by rw [ledgerPut, ledgerWrite, hfail]; rfl
  have rest : Resting g := hi.resting.of_rest rfl rfl rfl
  have kept : RingKept v.mgr h g := .of_rest rfl rfl
  obtain ⟨posted, done⟩ := finishHeavy_ring rest kept hring hv 0 0
  have eq : effFwHandoverDone h = finishHeavy v.job 0 0 g := by
    have heavy : g.heavy = [v] := hv
    rw [effFwHandoverDone, hs]
    dsimp only
    rw [hrun, put, ← handedOver, heavy, List.filter_cons, hop]
    rfl
  obtain ⟨pins, life⟩ := done.life
  obtain ⟨t, n, led⟩ := done.led
  exact ⟨_, eq, congrArg Life.fwSlot life, congrArg Ledger.bootSlot led, congrArg Life.handover life, congrArg Life.handRun life, done.heavy, hop ▸ posted⟩

end

/-- A handover that waits begins with the next frame (R415). -/
theorem fwHandover_begins {h : Hub} (hi : h.idle) (hs : h.life.handover.isSome = true) (hrun : h.life.handRun = false) (hat : h.fs.frame ≠ h.life.handAt) :
    effFwHandover h = { h with life := { h.life with handRun := true }, fs := { h.fs with skipPass := true } } := by
  have some_ : h.life.handover.isNone = false := by rw [← Option.not_isSome, hs]; rfl
  rw [effFwHandover, some_, hrun, hi.resting.run, if_neg (by simpa using hat)]
  rfl

end Sys2Proof.Machine

namespace Sys2Proof.Machine.Slice0

/-- Settles O47: what each end leaves is a hub at rest whose one heavy command posts its completion. -/
theorem heavyCommandsEnd : Obligations.HeavyCommandsEnd := by
  unfold Obligations.HeavyCommandsEnd
  intro h q v e hi hring hv
  refine ⟨fun w hw hjob hend hwait => ⟨fun hk hdrain hd => ?_, fun hk hbad => ?_, fun hk hlast => ?_, fun hk => ?_, fun p hk hop hp hbad => ?_⟩,
    fun p hop hp hlog hwaits => ?_, fun s hs hrun hop hfail => ?_, fun hs hrun hat => ?_⟩
  · obtain ⟨u, eq, ends⟩ := cacheDisable_ends hi hring hv hw hjob hend hwait hk hdrain hd
    exact ⟨u, next_of_eff rfl eq, ends⟩
  · obtain ⟨u, eq, ends⟩ := cacheRange_ends hi hring hv hw hjob hend hwait hk hbad
    exact ⟨u, next_of_eff rfl eq, ends⟩
  · obtain ⟨u, eq, ends⟩ := wayPower_ends hi hring hv hw hjob hend hwait hk hlast
    exact ⟨u, next_of_eff rfl eq, ends⟩
  · obtain ⟨u, eq, ends⟩ := wayLock_ends hi hring hv hw hjob hend hwait hk
    exact ⟨u, next_of_eff rfl eq, ends⟩
  · obtain ⟨u, eq, ends⟩ := partFreeze_ends hi hring hv hw hjob hend hwait hk hop hp hbad
    exact ⟨u, next_of_eff rfl eq, ends⟩
  · obtain ⟨u, eq, ends⟩ := partQuiesce_ends hi hring hv hop hp hlog hwaits
    exact ⟨u, next_of_eff rfl eq, ends⟩
  · obtain ⟨u, eq, ends⟩ := fwHandover_ends hi hring hv hs hrun hop hfail
    exact ⟨u, next_of_eff rfl eq, ends⟩
  · exact next_of_eff rfl (fwHandover_begins hi hs hrun hat)

end Sys2Proof.Machine.Slice0

/-!
A seal whose window lies in a set with lost tags: the seal waits for the set's rebuild before its placement is judged.
-/

namespace Sys2Proof.Machine

/-- An empty sector of the first window's set whose tags fail their parity. -/
def badTags : Sector :=
  { slice := homeSlice 0x1000, set := setIndex Slice0.wkOn 0x1000, way := 0, addr := 0x1000, lines := List.replicate 8 .invalid, pid := 1, age := 7, echo := false, tagPar := true }

/-- A window being sealed in a region without a mirror, and the running package that has it. -/
def unplacedWin : Win := { Slice0.wWin with base := 0x1000 }
def tagsLost : Hub := { Slice0.wh with cache := { Slice0.wOn with sectors := [badTags] }, wins := [(0, unplacedWin)] }

theorem exec_sealComplete (n : BitVec 4) (h : Hub) (q : List Instr) : exec (.sealComplete n) ⟨h, q⟩ = .next ⟨effSealComplete n.toNat h, q⟩ := rfl

end Sys2Proof.Machine

namespace Sys2Proof.Machine.Slice0

/-- Refutes O30: a seal that has lost its placement does not end while the tags of a set of its window's are being rebuilt. -/
theorem not_recordsAndSeals : ¬ Obligations.RecordsAndSeals := by
  unfold Obligations.RecordsAndSeals
  intro holds
  obtain ⟨-, seals⟩ := holds tagsLost []
  obtain ⟨-, lost⟩ := seals 0#4 unplacedWin wNwt (idle_of _ (by decide +kernel) (by decide +kernel)) rfl rfl rfl rfl
  obtain ⟨u, hexec, hwin, -⟩ := lost (by decide +kernel)
  rw [exec_sealComplete] at hexec
  rw [hub_of_next_eq hexec] at hwin
  exact absurd (congrArg Win.st hwin) (by decide +kernel)

end Sys2Proof.Machine.Slice0

/-!
The cache's walks: a walker's turn on a set of a drain (R68), the rebuild of a set from its Echo (R93, R94), and a turn of cache warming (R308).
-/

namespace Sys2Proof.Machine

/-! ### The one sector of a cache -/

/-- The hub whose cache's one sector is `s`. -/
def sectored (s : Sector) (h : Hub) : Hub := { h with cache := { h.cache with sectors := [s] } }

theorem sectored_self {h : Hub} {s : Sector} (hs : h.cache.sectors = [s]) : sectored s h = h := by rw [sectored, ← hs]

theorem sectored_twice (s t : Sector) (h : Hub) : sectored s (sectored t h) = sectored s h := rfl

theorem sector_sectored (s : Sector) (h : Hub) : sector (sectored s h) s.slice s.set s.way = s := by
  rw [sector, sectored]
  simp

theorem sector_sectored_other {s : Sector} (h : Hub) {sl set way : Nat} (hw : way ≠ s.way) : (sector (sectored s h) sl set way).lines = List.replicate 8 .invalid := by
  rw [sector, sectored]
  have other : (s.way == way) = false := by simpa using Ne.symm hw
  simp [other]

theorem putSector_sectored {s t : Sector} (h : Hub) (hsl : t.slice = s.slice) (hset : t.set = s.set) (hway : t.way = s.way) : putSector t (sectored s h) = sectored t h := by
  rw [putSector, sectored]
  simp [hsl, hset, hway, sectored]

/-- A line of a sector without castouts and without an Echo entry goes. -/
theorem setSlotLine_sectored_invalid {s : Sector} (h : Hub) (hc : s.cast = []) (he : s.echo = false) (ix : Nat) :
    setSlotLine s.slice s.set s.way ix .invalid (sectored s h) = sectored { s with lines := s.lines.set ix .invalid } h := by
  have gone (g : Hub) : castGone s ix g = g := by rw [castGone, hc]; rfl
  rw [setSlotLine, sector_sectored, gone, hc, List.filter_nil, putSector_sectored]
  · rw [echoLine, he, ← hc]; simp
  · rfl
  · rfl
  · rfl

/-! ### A walker's turn on a set of a drain (R68) -/

/-- Lines that a drain invalidates without moving data. -/
def quietLines (ls : List LineSt) : Prop := ∀ x ∈ ls, x = .clean ∨ x = .invalid

theorem quietLines_getD {ls : List LineSt} (hq : quietLines ls) (i : Nat) : ls.getD i .invalid = .clean ∨ ls.getD i .invalid = .invalid := by
  rw [List.getD_eq_getElem?_getD]
  cases hi : ls[i]? with
  | none => exact .inr rfl
  | some x => exact hq x (List.mem_of_getElem? hi)

/-- A drain's look at a line of the sector. -/
theorem walkLine_own {w : Walk} {s : Sector} {h : Hub} (hk : w.kind = 2) (hop : w.op = 2) (hq : quietLines s.lines) (hc : s.cast = []) (he : s.echo = false) (ix : Nat) :
    walkLine w s.slice s.set s.way ix (w, sectored s h) = (w, sectored { s with lines := s.lines.set ix .invalid } h) := by
  have takes : w.takes (sectored s h) s ix = true := by rw [Walk.takes, hk]; rfl
  rw [walkLine]
  dsimp only
  rw [sector_sectored, takes, hop, hk]
  rcases quietLines_getD hq ix with line | line
  · rw [line]
    exact congrArg (Prod.mk w) (setSlotLine_sectored_invalid h hc he ix)
  · rw [line]
    have same : s.lines.set ix .invalid = s.lines := by
      apply List.ext_getElem?
      intro j
      rw [List.getElem?_set]
      split
      · next hj =>
        subst hj
        rw [List.getD_eq_getElem?_getD] at line
        cases hg : s.lines[ix]? with
        | none => simpa using hg
        | some x =>
          rw [hg] at line
          have : ix < s.lines.length := (List.getElem?_eq_some_iff.1 hg).1
          simp only [Option.getD_some] at line
          simp [this, line]
      · rfl
    rw [same]
    rfl

theorem walkLine_other {w : Walk} {s : Sector} {h : Hub} {sl set way : Nat} (hw : way ≠ s.way) (ix : Nat) :
    walkLine w sl set way ix (w, sectored s h) = (w, sectored s h) := by
  have line : (sector (sectored s h) sl set way).lines.getD ix .invalid = .invalid := by
    rw [sector_sectored_other h hw, List.getD_eq_getElem?_getD, List.getElem?_replicate]
    split <;> rfl
  rw [walkLine]
  dsimp only
  rw [line]
  split <;> rfl

/-- What a drain leaves of a sector: nothing. -/
def drained (s : Sector) : Sector := { s with lines := (List.range 8).foldl (fun ls i => ls.set i .invalid) s.lines }

theorem walkLines_own {w : Walk} {s : Sector} {h : Hub} (hk : w.kind = 2) (hop : w.op = 2) (hq : quietLines s.lines) (hc : s.cast = []) (he : s.echo = false) (ixs : List Nat) :
    ixs.foldl (fun p i => walkLine w s.slice s.set s.way i p) (w, sectored s h)
      = (w, sectored { s with lines := ixs.foldl (fun ls i => ls.set i .invalid) s.lines } h) := by
  induction ixs generalizing s with
  | nil => rfl
  | cons ix r ih =>
    have quiet : quietLines (s.lines.set ix .invalid) := fun x hx => (List.mem_or_eq_of_mem_set hx).elim (hq x) .inr
    rw [List.foldl_cons, walkLine_own hk hop hq hc he]
    exact ih (s := { s with lines := s.lines.set ix .invalid }) quiet hc he

theorem mustMove_quiet {ls : List LineSt} (hq : quietLines ls) (nwb : Bool) (i : Nat) : mustMove nwb (ls.getD i .invalid) = false := by
  rcases quietLines_getD hq i with line | line <;> rw [line] <;> rfl

/-- A way slot whose lines need no moving has its lines looked at in order. -/
theorem walkSlot_quiet {w : Walk} {h : Hub} {sl set way : Nat} (hq : quietLines (sector h sl set way).lines) :
    walkSlot w sl set way (w, h) = some ((List.range 8).foldl (fun p i => walkLine w sl set way i p) (w, h)) := by
  have none_ : ((List.range 8).filter (fun i => w.takes h (sector h sl set way) i
      && mustMove (isNwb h (sector h sl set way).addr) ((sector h sl set way).lines.getD i .invalid)
      && (w.op != 0 || (sector h sl set way).lines.getD i .invalid != .poisoned))) = [] := by
    rw [List.filter_eq_nil_iff]
    intro i _
    rw [mustMove_quiet hq, Bool.and_false, Bool.false_and]
    exact Bool.false_ne_true
  rw [walkSlot]
  dsimp only
  rw [none_, if_neg (by simp)]

theorem walkSlot_own {w : Walk} {s : Sector} {h : Hub} (hk : w.kind = 2) (hop : w.op = 2) (hq : quietLines s.lines) (hc : s.cast = []) (he : s.echo = false) :
    walkSlot w s.slice s.set s.way (w, sectored s h) = some (w, sectored (drained s) h) := by
  rw [walkSlot_quiet (by rw [sector_sectored]; exact hq), walkLines_own hk hop hq hc he]
  rfl

theorem walkSlot_other {w : Walk} {s : Sector} {h : Hub} {sl set way : Nat} (hw : way ≠ s.way) : walkSlot w sl set way (w, sectored s h) = some (w, sectored s h) := by
  have quiet : quietLines (sector (sectored s h) sl set way).lines := by
    rw [sector_sectored_other h hw]
    exact fun x hx => .inr (List.eq_of_mem_replicate hx)
  have same (ixs : List Nat) : ixs.foldl (fun p i => walkLine w sl set way i p) (w, sectored s h) = (w, sectored s h) := by
    induction ixs with
    | nil => rfl
    | cons ix r ih => rw [List.foldl_cons, walkLine_other hw, ih]
  rw [walkSlot_quiet quiet, same]

/-- The ways of a set, of which one is the sector's. -/
theorem walkWays {w : Walk} {s : Sector} {h : Hub} (hk : w.kind = 2) (hop : w.op = 2) (hq : quietLines s.lines) (hc : s.cast = []) (he : s.echo = false) (ways : List Nat)
    (hnd : ways.Nodup) :
    eachOpt (fun way p => walkSlot w s.slice s.set way p) ways (w, sectored s h) = some (w, sectored (if s.way ∈ ways then drained s else s) h) := by
  have rest (t : Sector) (ht : t.way = s.way) (l : List Nat) (hl : s.way ∉ l) :
      eachOpt (fun way p => walkSlot w s.slice s.set way p) l (w, sectored t h) = some (w, sectored t h) := by
    induction l with
    | nil => rfl
    | cons way r ih =>
      rw [List.mem_cons, not_or] at hl
      rw [eachOpt, walkSlot_other (by rw [ht]; exact Ne.symm hl.1)]
      exact ih hl.2
  induction ways with
  | nil => rfl
  | cons way r ih =>
    obtain ⟨hnot, hnd⟩ := List.nodup_cons.1 hnd
    by_cases hw : way = s.way
    · subst hw
      rw [eachOpt, walkSlot_own hk hop hq hc he, if_pos List.mem_cons_self]
      exact rest (drained s) rfl r hnot
    · rw [eachOpt, walkSlot_other hw]
      simp only [List.mem_cons, Ne.symm hw, false_or]
      exact ih hnd

theorem drained_invalid {s : Sector} (hlen : s.lines.length = 8) : ∀ x ∈ (drained s).lines, x = .invalid := by
  rw [drained]
  match s.lines, hlen with
  | [_, _, _, _, _, _, _, _], _ => simp [List.range_succ]

/-- A hub at rest in which a walk has passed a set of a slice. -/
def turned (w : Walk) (sl : Nat) (s : Sector) (h : Hub) : Hub :=
  { sectored s h with slotUse := bupd h.slotUse sl [] (· ++ [(0, false)]), walks := [w] }

theorem turned_quiet {h : Hub} (hr : Resting h) (w : Walk) (sl : Nat) (s : Sector) : (turned w sl s h).quiet := ⟨hr.txns, hr.waiting, hr.tongs, hr.evict, hr.echo⟩

theorem walkerTurn_eq {h : Hub} {w : Walk} {s : Sector} {sl : Nat} (hi : h.idle) (hw : h.walks = [w]) (hend : w.ended h = false) (hk : w.kind = 2) (hmode : w.setMode = true)
    (hn : bget w.next sl 0 < setsInUse h) (hs : h.cache.sectors = [s]) (hsl : s.slice = sl) (hset : s.set = bget w.next sl 0) (hway : s.way < 16) (hop : w.op = 2)
    (hq : quietLines s.lines) (he : s.echo = false) (hc : s.cast = []) :
    ∃ again, effWalkerTurn sl h
      = turned { w with next := bset w.next sl (bget w.next sl 0 + 1), again := again, done := w.done + 1, lastAt := h.now } sl (drained s) h := by
  have hr := hi.resting
  have running : runningWalk h = some w := by rw [runningWalk, hw, List.find?_cons, hend]; rfl
  have total : w.total h = setsInUse h := by rw [Walk.total, hmode]; rfl
  have passes : walkItem w sl (bget w.next sl 0) h = some (w, sectored (drained s) h) := by
    have ways := walkWays (h := h) hk hop hq hc he (List.range 16) List.nodup_range
    rw [sectored_self hs, if_pos (List.mem_range.2 hway), hsl, hset] at ways
    rw [walkItem, hmode, if_pos rfl, walkSet, hk, if_neg (by decide), if_neg (by simp)]
    exact ways
  have cold : (bfind h.life.warm (dieOfSlice sl)).isSome = false := by rw [hr.warm]; rfl
  rw [effWalkerTurn, running]
  dsimp only
  rw [hr.run, cold, total, if_pos hn, passes, if_neg (by decide)]
  dsimp only
  have listed (f : Walk → Walk) : updWalk w.job w.kind f { sectored (drained s) h with slotUse := bupd h.slotUse sl [] (· ++ [(0, false)]) }
      = turned (f w) sl (drained s) h := by
    have walks : ({ sectored (drained s) h with slotUse := bupd h.slotUse sl [] (· ++ [(0, false)]) } : Hub).walks = [w] := hw
    rw [updWalk, walks, updFirst, beq_self_eq_true, beq_self_eq_true]
    rfl
  refine ⟨if mustAgain w sl (bget w.next sl 0) h then bupd w.again sl [] (· ++ [bget w.next sl 0]) else w.again, ?_⟩
  refine (congrArg settle (listed _)).trans ((settle_quiet _ (turned_quiet hr ..)).trans ?_)
  rw [hmode]
  rfl

/-! ### The rebuild of a set from its Echo (R93, R94) -/

/-- What a rebuild without an Echo table keeps of a line. -/
def keptLine (s : Sector) (i : Nat) : LineSt := if (s.lines.getD i .invalid).moving then s.lines.getD i .invalid else .invalid

theorem ownedLines_contains {s : Sector} {i : Nat} (hi : i < 8) : (ownedLines s).contains i = (s.lines.getD i .invalid).moving := by
  rw [ownedLines, Bool.eq_iff_iff, List.contains_iff_mem, List.mem_filter, List.mem_range]
  exact ⟨fun h => h.2, fun h => ⟨hi, h⟩⟩

/-- The way of the sector is rebuilt: its lines in transit stay, and its tags are good again. -/
theorem rebuildWay_own {s : Sector} {h : Hub} (hck : chipKill h = false) (hlocks : h.cache.locks = []) (hc : s.cast = []) :
    ∃ t : Sector, rebuildWay s.slice s.set s.way false (sectored s h) = sectored t h ∧ t.slice = s.slice ∧ t.set = s.set ∧ t.way = s.way ∧ t.tagPar = false
      ∧ t.statePar = false ∧ t.lines = (List.range 8).map (keptLine s) := by
  have ck : chipKill (sectored s h) = false := hck
  have present_ : (sectored s h).cache.sectors.any (fun x => x.slice == s.slice && x.set == s.set && x.way == s.way) = true := by simp [sectored]
  have gone (l : List Nat) (g : Hub) : forEach l (fun i h => castGone s i h) g = g := by
    induction l generalizing g with
    | nil => rfl
    | cons i r ih => rw [forEach_cons, castGone, hc]; exact ih g
  have lines : (List.range 8).map (fun i => if (ownedLines s).contains i then s.lines.getD i .invalid else .invalid) = (List.range 8).map (keptLine s) := by
    refine List.map_congr_left fun i hi => ?_
    rw [ownedLines_contains (List.mem_range.1 hi), keptLine]
  have unlocked (t : Sector) : isLocked (sectored t h) s.slice s.set s.way = false := by
    have locks : (sectored t h).cache.locks = [] := hlocks
    rw [isLocked, locks]; rfl
  rw [rebuildWay]
  dsimp only
  have noEcho : (if (false || !false) = true then 0 else echoOf (sectored s h) s.slice s.set s.way) = 0 := rfl
  rw [sector_sectored, ck, noEcho, gone, present_, if_pos rfl, putSector_sectored, unlocked]
  · exact ⟨_, rfl, rfl, rfl, rfl, rfl, rfl, lines⟩
  · rfl
  · rfl
  · rfl

/-- A way that no sector names has nothing to rebuild. -/
theorem rebuildWay_other {s : Sector} {h : Hub} (hlocks : h.cache.locks = []) {sl set way : Nat} (hw : way ≠ s.way) :
    rebuildWay sl set way false (sectored s h) = sectored s h := by
  have absent : (sectored s h).cache.sectors.any (fun x => x.slice == sl && x.set == set && x.way == way) = false := by
    have other : (s.way == way) = false := by simpa using Ne.symm hw
    simp [sectored, other]
  have lines := sector_sectored_other h (s := s) (sl := sl) (set := set) hw
  have unlocked : isLocked (sectored s h) sl set way = false := by
    have locks : (sectored s h).cache.locks = [] := hlocks
    rw [isLocked, locks]; rfl
  have blank (i : Nat) : (List.replicate 8 LineSt.invalid).getD i .invalid = .invalid := by
    rw [List.getD_eq_getElem?_getD, List.getElem?_replicate]
    split <;> rfl
  rw [rebuildWay]
  dsimp only
  have none_ (f : Nat → Bool) : (List.range 8).filter (fun i => ((List.replicate 8 LineSt.invalid).getD i .invalid).present && f i) = [] := by
    rw [List.filter_eq_nil_iff]
    intro i _
    rw [blank]
    exact Bool.false_ne_true
  rw [lines, none_, forEach_nil, absent, if_neg Bool.false_ne_true, unlocked]
  rfl

theorem rebuildWays {s : Sector} {h : Hub} (hck : chipKill h = false) (hlocks : h.cache.locks = []) (hc : s.cast = []) (hway : s.way < 16) :
    ∃ t : Sector, forEach (List.range 16) (fun w h => rebuildWay s.slice s.set w false h) (sectored s h) = sectored t h ∧ t.tagPar = false
      ∧ t.statePar = false ∧ t.lines = (List.range 8).map (keptLine s) := by
  obtain ⟨t, own, hsl, hset, htway, tags, states, lines⟩ := rebuildWay_own (s := s) hck hlocks hc
  have rest (u : Sector) (hu : u.way = s.way) (l : List Nat) (hl : s.way ∉ l) :
      forEach l (fun w h => rebuildWay s.slice s.set w false h) (sectored u h) = sectored u h := by
    induction l with
    | nil => rfl
    | cons way r ih =>
      rw [List.mem_cons, not_or] at hl
      rw [forEach_cons, rebuildWay_other hlocks (by rw [hu]; exact Ne.symm hl.1)]
      exact ih hl.2
  obtain ⟨before, after, split⟩ := List.append_of_mem (List.mem_range.2 hway)
  have nodup : (before ++ s.way :: after).Nodup := split ▸ List.nodup_range
  have notBefore : s.way ∉ before := fun hm => (List.nodup_append.1 nodup).2.2 s.way hm s.way List.mem_cons_self rfl
  have notAfter : s.way ∉ after := (List.nodup_cons.1 (List.nodup_append.1 nodup).2.1).1
  refine ⟨t, ?_, tags, states, lines⟩
  have first := rest s rfl before notBefore
  have last := rest t htway after notAfter
  rw [forEach] at first last ⊢
  rw [split, List.foldl_append, first, List.foldl_cons, own]
  exact last

theorem Reports.quiet {h h' : Hub} (e : Reports h h') (hq : h.quiet) : h'.quiet := by
  obtain ⟨_, _, _, _, _, _, _, rfl⟩ := e.rest
  exact hq

/-- A set whose one sector has bad tags is rebuilt. -/
theorem tagSetRebuild_rebuilds {h : Hub} {s : Sector} {sl set : Nat} (hi : h.idle) (hs : h.cache.sectors = [s]) (hsl : s.slice = sl) (hset : s.set = set) (hway : s.way < 16)
    (hpar : s.tagPar = true) (hck : chipKill h = false) (hlocks : h.cache.locks = []) (hc : s.cast = []) :
    ∃ x : Sector, (effTagSetRebuild sl set h).cache.sectors = [x] ∧ x.tagPar = false ∧ x.statePar = false ∧ x.lines = (List.range 8).map (keptLine s)
      ∧ regField (effTagSetRebuild sl set h) (sl / 16) 0x4020 31 16 = min (regField h (sl / 16) 0x4020 31 16 + 1) 65535
      ∧ (effTagSetRebuild sl set h).mem = h.mem := by
  have hr := hi.resting
  obtain ⟨t, ways, tags, states, lines⟩ := rebuildWays (s := s) hck hlocks hc hway
  rw [sectored_self hs, hsl, hset] at ways
  have bad : h.cache.sectors.any (fun s => s.slice == sl && s.set == set && (s.tagPar || s.statePar)) = true := by
    rw [hs, List.any_cons, hsl, hset, hpar]; simp
  let g := regSetField (sectored t h) (dieOfSlice sl) 0x4020 31 16 (satAdd (regField (sectored t h) (dieOfSlice sl) 0x4020 31 16) 1 16)
  have quiet : (sectored t h).quiet := ⟨hr.txns, hr.waiting, hr.tongs, hr.evict, hr.echo⟩
  have counted : g.quiet := by simpa [Hub.quiet, g] using quiet
  have reports : Reports g (record 0x01 2 0 (dieOfSlice sl) 0 (sl + 32 * set) g) := .of_record ..
  have eq : effTagSetRebuild sl set h = record 0x01 2 0 (dieOfSlice sl) 0 (sl + 32 * set) g := by
    rw [effTagSetRebuild, bad]
    simp only [hck, Bool.false_and, Bool.not_true, Bool.false_eq_true, if_false, ways]
    exact retrySlice_quiet sl _ (reports.quiet counted)
  have cache : (record 0x01 2 0 (dieOfSlice sl) 0 (sl + 32 * set) g).cache = g.cache := by
    obtain ⟨_, _, _, _, _, _, _, rest⟩ := reports.rest
    rw [rest]
  have sectors : g.cache.sectors = [t] := by rw [regSetField_cache]; rfl
  have mem : g.mem = h.mem := by rw [regSetField_mem]; rfl
  rw [eq]
  refine ⟨t, by rw [cache, sectors], tags, states, lines, ?_, reports.mem.trans mem⟩
  rw [reports.words.field _ _ _ _ (by decide), show sl / 16 = dieOfSlice sl from rfl, regField_regSetField_same _ _ _ _ _ _ (by decide) (by decide)]
  have same : regField (sectored t h) (dieOfSlice sl) 0x4020 31 16 = regField h (dieOfSlice sl) 0x4020 31 16 := regField_of_regs_eq rfl ..
  rw [same, satAdd]
  exact Nat.mod_eq_of_lt (by omega)

/-! ### A turn of cache warming (R308) -/

/-- What a charge leaves of what warming speaks of. -/
def warmView (h : Hub) := (h.warm, h.warmAt, h.txns, h.mem, h.sieve, h.now)

theorem warmView_pageAdd (pid i x : Nat) (h : Hub) : warmView (pageAdd pid i x h) = warmView h := by
  unfold pageAdd
  split
  · split <;> rfl
  · rfl

theorem warmView_pmu (ev die x : Nat) (a : Attr) (h : Hub) : warmView (pmu ev die x a h) = warmView h := by simp [warmView]

theorem warmView_serve (rg pid cls bytes : Nat) (h : Hub) : warmView (serve rg pid cls bytes h) = warmView h := rfl

theorem warmView_charge (rg pid cls bytes : Nat) (h : Hub) : warmView (charge rg pid cls bytes h) = warmView h := by
  unfold charge
  dsimp only
  split
  · exact warmView_pageAdd ..
  · rfl

theorem warmView_chargeRequest (a pid cls bytes port : Nat) (h : Hub) : warmView (chargeRequest a pid cls bytes port h).2 = warmView h := by
  unfold chargeRequest
  dsimp only
  split
  · exact (warmView_serve ..).trans (warmView_pmu ..)
  · split
    · exact (warmView_pageAdd ..).trans (warmView_serve ..)
    · split
      · exact (warmView_serve ..).trans ((warmView_pmu ..).trans (warmView_pageAdd ..))
      · exact warmView_charge ..

/-- The hub after the charges of a warmed sector's lines. -/
def warmCharged (p a : Nat) (rest : List Nat) (h : Hub) : Hub :=
  forEach ((List.range 8).map (fun i => a + 128 * i)) (fun x h => (chargeRequest x p 3 128 8 h).2) { h with warm := bset h.warm p rest, warmAt := h.now + 1 }

theorem warmView_warmCharged (p a : Nat) (rest : List Nat) (h : Hub) :
    warmView (warmCharged p a rest h) = (bset h.warm p rest, h.now + 1, h.txns, h.mem, h.sieve, h.now) :=
  forEach_keeps warmView _ (fun x g => warmView_chargeRequest x p 3 128 8 g) _ _

/-- The first listed sector of a partition that has more, taken. -/
theorem cacheWarmSector_eq {h : Hub} {p a : Nat} {rest : List Nat} (hw : bget h.warm p [] = a :: rest) (hrest : rest ≠ []) (hst : (part h p).st = .active)
    (hat : h.warmAt = 0 ∨ h.warmAt + 64 ≤ h.now + 1) (hmap : mappedHere h a = true) :
    effCacheWarmSector p h = presentAll ((List.range 8).map (fun i =>
      { op := 0x13, src := .warm, pid := p, cls := 3, carried := 3, addr := a + 128 * i, at_ := h.now })) (warmCharged p a rest h) := by
  have due : (h.warmAt != 0 && decide (h.now + 1 < h.warmAt + 64)) = false := by
    rcases hat with zero | late
    · simp [zero]
    · simp; omega
  have more : rest.isEmpty = false := by simpa using hrest
  have mapped : mappedHere { h with warm := bset h.warm p rest } a = true := hmap
  have now : (warmCharged p a rest h).now = h.now := congrArg (fun v => v.2.2.2.2.2) (warmView_warmCharged p a rest h)
  rw [effCacheWarmSector]
  dsimp only
  rw [hst, hw]
  dsimp only
  rw [due, more, if_neg (by decide), if_neg Bool.false_ne_true, if_neg Bool.false_ne_true, mapped, if_neg (by decide), List.map_map]
  have charged : forEach ((List.range 8).map (fun i => a + 128 * i)) (fun x h => (chargeRequest x p 3 128 8 h).2)
      { h with warm := bset h.warm p rest, warmAt := h.now + 1 } = warmCharged p a rest h := rfl
  rw [charged, now]
  rfl

end Sys2Proof.Machine

namespace Sys2Proof.Machine.Slice0

/-- Settles O28: a quiet set is drained line by line, a rebuild keeps only lines in transit, and a warmed sector's charges touch no memory. -/
theorem walksAndTags : Obligations.WalksAndTags := by
  unfold Obligations.WalksAndTags
  intro h q sl hi
  refine ⟨fun w s hw hend hk hmode hn hs hsl hset hway hop hlen hlines he hc => ?_, fun set s hs hsl hset hway hpar hck hlocks hc hlen => ?_,
    fun p a rest hw hrest hst hat hmap => ?_⟩
  · obtain ⟨again, eq⟩ := walkerTurn_eq hi hw hend hk hmode hn hs hsl hset hway hop hlines he hc
    refine ⟨_, _, next_of_eff rfl eq, fun x hx y hy => ?_, rfl, bget_bset_same .., rfl, rfl, hi.resting.wbs⟩
    rw [turned, sectored, List.mem_singleton] at hx
    subst hx
    exact drained_invalid hlen y hy
  · obtain ⟨x, sectors, tags, states, lines, count, mem⟩ := tagSetRebuild_rebuilds hi hs hsl hset hway hpar hck hlocks hc
    refine ⟨_, x, rfl, sectors, tags, states, fun i hlt => ?_, count, mem⟩
    rw [lines, List.getD_eq_getElem?_getD, List.getElem?_map, List.getElem?_range hlt]
    rfl
  · have view := warmView_warmCharged p.toNat a rest h
    simp only [warmView, Prod.mk.injEq] at view
    obtain ⟨warm, warmAt, txns, mem, sieve, -⟩ := view
    exact ⟨_, next_of_eff rfl (cacheWarmSector_eq hw hrest hst hat hmap), warm, warmAt, txns.trans hi.resting.txns, mem, sieve⟩

end Sys2Proof.Machine.Slice0

/-!
Notices of a host at a home at rest (R57, R61, R102, R142): EVICT_NOTE and WRITE_BACK give up a granule of main memory.
-/

namespace Sys2Proof.Machine

/-! ### A notice on its way to its home -/

/-- A request that names an address homed here comes to its slice, behind counts only (R211, R289). -/
theorem effRequest_homed {op l : Nat} {r : ReqHdr} {d : List Byte} {wd : Bool} {e : REntry} {h : Hub} (hl : l < 8) (hu : Uncounted h)
    (hrun : h.life.phase = .run) (ht : h.takes l op r d e) (hop : op ≠ 0x39 ∧ op ≠ 0x3A ∧ op ≠ 0x3B) (hcfg : e.typ ≠ .cfg) :
    ∃ h0, Accepted h h0 ∧ effRequest op l r d wd h = toSlice e { takenReq op l r d h with ent := e } true h0 := by
  obtain ⟨htr, hin, hlist, hadm, hmap, hhere, hform⟩ := ht
  have counted : Accepted h (countVcErr l (takenMsg op l r d h) (numbered h)) := (Accepted.of_numbered h).trans (.of_countVcErr _ _ hl)
  have formed : formStatus (countVcErr l (takenMsg op l r d h) (numbered h)) (takenReq op l r d h) r.len.toNat (ceilDiv d.length 16) = 0 :=
    (counted.formStatus ..).trans hform
  rw [effRequest_taken htr hin hlist, request_formed formed]
  generalize countVcErr l (takenMsg op l r d h) (numbered h) = h0 at counted formed ⊢
  have hrun0 : h0.life.phase = .run := by obtain ⟨_, _, _, _, _, rfl⟩ := counted.rest; exact hrun
  obtain ⟨⟨k, e⟩, hfound, rfl⟩ := Option.map_eq_some_iff.1 hmap
  have hfound0 : rmapFind h0 r.addr.toNat = some (k, e) := by obtain ⟨_, _, _, _, _, rfl⟩ := counted.rest; exact hfound
  have crossed : Accepted h0 (seamBytes { takenReq op l r d h with ent := e } (dieOfLink l) (takenReq op l r d h).data.length h0) := by
    rw [seamBytes]
    split
    · exact .of_pmu (counted.uncounted hu) (by unfold dieOfLink; omega)
    · exact .refl _
  have acc := counted.trans crossed
  have hhere1 : e.here (seamBytes { takenReq op l r d h with ent := e } (dieOfLink l) (takenReq op l r d h).data.length h0) = true := by
    obtain ⟨_, _, _, _, _, e1⟩ := acc.rest
    rw [e1]; exact hhere
  refine ⟨_, acc, ?_⟩
  calc admitReq (takenReq op l r d h) h0
    _ = route (takenReq op l r d h) true h0 := admitReq_admitted hadm hrun0 hop
    _ = _ := route_here hfound0 hcfg hhere1

/-- A host's notice for main memory is classified and goes to its home (R142). -/
theorem toSlice_notice {e : REntry} {r : Req} {h : Hub} (hop : r.op ∈ [0x31, 0x33, 0x34]) (hhost : r.host ≠ 8) (ht : e.typ = .nwt) :
    toSlice e r true h = settle (orderNotice (classify e r true h).1 (classify e r true h).2) := by
  have notice : isNotice r.op = true := by
    have all : ∀ op ∈ [0x31, 0x33, 0x34], isNotice op = true := by decide
    exact all _ hop
  have other : r.op ≠ 0x32 := by intro e2; rw [e2] at hop; revert hop; decide
  have host : (r.host == 8) = false := by simpa using hhost
  have same : (classify e r true h).1.op = r.op := by
    rw [classify, if_neg (by simp)]
    dsimp only
    split <;> rfl
  rw [toSlice, notice, host, ht]
  dsimp only
  rw [if_neg (by decide), kettleBars, ht, if_neg (by simp), same, if_neg (fun e3 => other e3.1), notice, if_pos rfl]

/-- A notice of a hub at rest is ordered, behind counts only. -/
theorem effRequest_noticed {op l : Nat} {r : ReqHdr} {d : List Byte} {wd : Bool} {e : REntry} {h : Hub} (hl : l < 8) (hr : Resting h) (ht : h.takes l op r d e)
    (hop : op ∈ [0x31, 0x33, 0x34]) (hhost : hostOfLink h l < 7) (hnwt : e.typ = .nwt) :
    ∃ h1 c c', Accepted h h1 ∧ effRequest op l r d wd h = settle (orderNotice (homeReq op l r d e c c' h) h1)
      ∧ (chargedOp op = false → c' = max r.cls.toNat e.cls) := by
  have plain : op ≠ 0x39 ∧ op ≠ 0x3A ∧ op ≠ 0x3B := by
    have all : ∀ op ∈ [0x31, 0x33, 0x34], op ≠ 0x39 ∧ op ≠ 0x3A ∧ op ≠ 0x3B := by decide
    exact all op hop
  obtain ⟨h0, acc, heff⟩ := effRequest_homed (wd := wd) hl hr.uncounted hr.run ht plain (by rw [hnwt]; decide)
  obtain ⟨c, c', hclass, charged⟩ := classify_admitted e { takenReq op l r d h with ent := e } (acc.uncounted hr.uncounted)
  have host : ({ takenReq op l r d h with ent := e } : Req).host ≠ 8 := Nat.ne_of_lt (show hostOfLink h l < 8 by omega)
  refine ⟨_, c, c', acc.trans charged, ?_, fun hfree => ?_⟩
  · rw [heff, toSlice_notice hop host hnwt, hclass]
    rfl
  · have free : (classify e { takenReq op l r d h with ent := e } true h0).1.cls = max r.cls.toNat e.cls := by
      have hfree' : chargedOp ({ takenReq op l r d h with ent := e } : Req).op = false := hfree
      rw [classify, if_neg (by simp)]
      dsimp only
      rw [hfree', if_neg Bool.false_ne_true]
      rfl
    rw [hclass] at free
    exact free

/-- A hub at rest orders a notice at once. -/
theorem orderNotice_resting {r : Req} {h : Hub} (hr : Resting h) (hm : (rmapFind h r.addr).map Prod.snd = some r.ent) (hj : r.job = 0) :
    orderNotice r h = if r.op = 0x33 then orderWriteBack r h else if r.op = 0x34 then orderEvict r h else orderCast r h := by
  have none_ : h.sieve.filter (fun e => e.set == hostSet h e.host r.addr && homeDie e.addr == homeDie r.addr && parityBad h e) = [] := by
    rw [List.filter_eq_nil_iff]
    intro e he
    simp [hr.parity e he]
  have quiet : detectSieve r.addr h = h := by rw [detectSieve, none_, forEach_nil]
  have undef : undefinedAt h r.addr r.size = false := by simp [undefinedAt, hr.undef]
  have recov : underRecovery h r.addr = false := by rw [underRecovery, hr.recov]; rfl
  rw [orderNotice, mapped_same hm]
  rw [quiet, undef, recov, hr.warm, hj, if_neg (by simp), if_neg (by simp [bfind]), if_neg (by simp), if_neg (c := (0 : Nat) = 1 ∨ (0 : Nat) = 3) (by decide)]

/-- Nothing at a hub at rest makes a notice a violation, of a host that is shown a copy or while no Tongs line is held. -/
theorem noticeBreaks_resting {h : Hub} (hr : Resting h) (r : Req) : noticeBreaks h r = false := by
  simp [noticeBreaks, hr.txns, hr.snps, hr.tongs]

theorem streamHeld_resting {h : Hub} (hr : Resting h) (r : Req) : streamHeld h r = false := by simp [streamHeld, hr.waiting]

theorem noticeCloses_resting {h : Hub} (hs : h.snps = []) (host a n : Nat) : noticeCloses host a n h = h := by rw [noticeCloses, hs]; rfl

/-- The request's slot is used and its host shown I. -/
def givenUp (r : Req) (h : Hub) : Hub := setHostSt r.host r.addr 0 (useSlot r false h)

theorem givenUp_eq (r : Req) (h : Hub) : givenUp r h
    = { useSlot r false h with sieve := h.sieve.filter (fun e => !(e.host == r.host && e.addr == r.addr / granOf h r.host * granOf h r.host)) } := rfl

theorem Accepted.hostSt {h h' : Hub} (acc : Accepted h h') (n a : Nat) : hostSt h' n a = hostSt h n a := by
  have gran := acc.granOf n
  obtain ⟨_, _, _, _, _, rfl⟩ := acc.rest
  rw [Machine.hostSt, Machine.hostSt, gran]

/-- An EVICT_NOTE of a host that is shown a clean copy, or none (R102, R142). -/
theorem orderEvict_resting {r : Req} {h : Hub} (hr : Resting h) (hst : hostSt h r.host r.addr < 4) : orderEvict r h = givenUp r h := by
  have slot : pmuReq 0x01 r (useSlot r false h) = useSlot r false h := pmu_uncounted (hr.uncounted.of_regs rfl) (homeDie_lt _)
  have bad : ¬ (4 ≤ hostSt h r.host r.addr ∨ noticeBreaks h r = true) := by
    rw [noticeBreaks_resting hr]
    simp; omega
  rw [orderEvict, if_neg bad, streamHeld_resting hr, if_neg Bool.false_ne_true, slot]
  exact noticeCloses_resting (h := givenUp r h) hr.snps ..

theorem Resting.givenUp {h : Hub} (hr : Resting h) (r : Req) : Resting (givenUp r h) :=
  ⟨hr.txns, hr.waiting, hr.tongs, hr.evict, hr.echo, hr.snps, hr.recov, hr.undef, hr.wbs, fun x hx => hr.parity x (List.mem_filter.1 hx).1, hr.warm, hr.run, hr.pathErr,
    hr.wins, hr.wf, hr.ketErr, hr.uncounted⟩

/-! ### A WRITE_BACK of uncached memory (R57) -/

/-- The transaction of a WRITE_BACK as it is opened. -/
def backTxn (r : Req) (h : Hub) : Txn :=
  { id := h.nextId, req := r, slice := homeSlice r.addr, ph := .ready, lo := r.addr / r.size * r.size, n := r.size, wb := true, crossed := [] }

/-- A hub without a cache and without prefetched lines. -/
structure Uncached (h : Hub) : Prop where
  off : h.cache.cst = .off
  ladle : h.ladle = []

theorem Uncached.findSector {h : Hub} (hc : Uncached h) (a : Nat) : findSector h a = none := by rw [Machine.findSector, hc.off]

theorem Uncached.lineSt {h : Hub} (hc : Uncached h) (a : Nat) : lineSt h a = .invalid := by rw [Machine.lineSt, hc.findSector]

/-- A WRITE_BACK of a host that is shown E, O or M takes a place in the write buffer at once. -/
theorem orderWriteBack_resting {r : Req} {h : Hub} (hr : Resting h) (hc : Uncached h) (hop : r.op = 0x33)
    (hst : 3 ≤ hostSt h r.host r.addr) (hwb : canWb h r.cl r.cls = true) : orderWriteBack r h = opened (backTxn r (givenUp r h)) (givenUp r h) := by
  have bad : ¬ (hostSt h r.host r.addr = 1 ∨ hostSt h r.host r.addr = 2 ∨ noticeBreaks h r = true) := by
    rw [noticeBreaks_resting hr]
    simp; omega
  have held : setHeld h r.addr = false := by rw [setHeld, hc.off]; rfl
  have room : fullFill h r.op r = false := by rw [fullFill, hc.lineSt, hop]; simp [demandRead, readsLine]
  have slot : pmuReq 0x01 r (useSlot r false h) = useSlot r false h := pmu_uncounted (hr.uncounted.of_regs rfl) (homeDie_lt _)
  have ghost : ghostTouch r (useSlot r false h) = useSlot r false h := by
    have off : (useSlot r false h).cache.cst = .off := hc.off
    rw [ghostTouch, off]
    exact if_pos (.inr (.inl (by decide)))
  have rested := hr.givenUp r
  have effects : orderEffects r.ent r (givenUp r h) = givenUp r h := by
    have wins : (givenUp r h).wins = [] := hr.wins
    have ladle : (givenUp r h).ladle = [] := hc.ladle
    have served : servedAs r.ent.typ r = 0x33 := by rw [servedAs, hop]; simp
    have seals (a n : Nat) : breakSeals a n (givenUp r h) = givenUp r h := by rw [breakSeals, wins]; rfl
    have killed (line : Nat) : ladleKill line (givenUp r h) = givenUp r h := by rw [ladleKill, ladleFind, ladle]; rfl
    simp [orderEffects, served, hop, seals, killed]
  have back : setHostSt r.host r.addr 0 (useSlot r false h) = givenUp r h := rfl
  rw [orderWriteBack]
  dsimp only
  rw [if_neg bad, streamHeld_resting hr, held, room, hwb, slot, ghost, ite_self, back, effects, hr.snps, hr.txns,
    Bool.and_false, if_neg Bool.false_ne_true, if_neg Bool.false_ne_true, if_neg Bool.false_ne_true, if_neg (by decide), rested.txns]
  rfl

/-- The line of the write buffer that a WRITE_BACK fills. -/
def backLine (r : Req) (h : Hub) : WbLine :=
  { id := h.nextId, cluster := homeCluster r.addr, line := r.addr / 128, tgt := 0, off := r.ent.off (r.addr / 128 * 128), mirror := r.ent.mirror, ecc := r.ent.ecc,
    data := r.lineData, mask := r.lineMask, poison := false, pid := whoOf r.pid r.cls, txn := 0, dev := false }

/-- The hub with that line in the buffer. -/
def backed (r : Req) (h : Hub) : Hub := { h with wbs := [backLine r h], nextId := h.nextId + 1 }

section
variable {r : Req} {h : Hub} (hc : Uncached h) (hw : h.wbs = []) (hpath : h.integ.pathErr = []) (htongs : h.tongs = []) (ht : r.ent.typ = .nwt) (hop : r.op = 0x33)
  (h8 : r.addr % 8 = 0) (hl8 : r.data.length % 8 = 0) (hfit : r.addr % 128 + r.data.length ≤ 128) (hm : r.mask = List.replicate r.data.length true)
  (hmem : memReadable h r.ent r.addr = true)

include h8 hl8 hfit hm in
/-- A write of whole words checks none of them (R234). -/
theorem partialBad_words (e : REntry) (who : Nat) (h : Hub) : partialBad e r.addr who r.lineMask h = (false, h) := by
  rw [partialBad]
  split
  · rfl
  · have none_ (l : List Nat) (hl : ∀ i ∈ l, i < 16) : l.foldl (fun (p : Bool × Hub) i =>
        let w := fitMask 8 (slice r.lineMask (8 * i) 8)
        if w.any id && !(w.all id) then
          match wbWord p.2 (r.addr / 128) i with
          | some bad => (p.1 || bad, p.2)
          | none =>
            let g := readMainWord e (r.addr / 128 * 128 + 8 * i) who p.2
            (p.1 || g.err, g.h)
        else p) (false, h) = (false, h) := by
      induction l with
      | nil => rfl
      | cons i rest ih =>
        rw [List.foldl_cons, lineMask_word h8 hl8 hfit hm (hl i List.mem_cons_self)]
        refine Eq.trans ?_ (ih fun j hj => hl j (List.mem_cons_of_mem _ hj))
        cases decide (r.addr % 128 ≤ 8 * i ∧ 8 * i < r.addr % 128 + r.data.length) <;> rfl
    exact none_ _ fun i hi => List.mem_range.1 hi

include hc hw hpath ht hop h8 hl8 hfit hm hmem in
/-- Uncached, its bytes go into the write buffer (R57). -/
theorem applyLine_back {t : Txn} (ht' : t.req = r) : applyLine t h = .done (backed r h) := by
  have path : pathCheck r.addr h = (false, h) := by rw [pathCheck, hpath]; rfl
  have bars : memBars h r.ent r.addr = false := by rw [memBars, hmem, Bool.not_true, Bool.and_false]
  rw [applyLine, ht', path, hop, ht]
  dsimp only
  rw [if_neg (by simp), if_neg (by simp), writeHome, ht]
  dsimp only
  rw [writeCached, hc.findSector]
  dsimp only
  rw [ht, if_neg (by decide), throughBuffer, bars, ht, if_neg (by simp), if_neg (by decide), if_pos (by rfl), partialBad_words h8 hl8 hfit hm]
  dsimp only
  rw [if_neg Bool.false_ne_true, bufferWrite, hw, ht]
  rfl

/-- The transaction once its bytes are in the buffer. -/
def backClosing (r : Req) (h : Hub) : Txn := { backTxn r h with wb := false, ph := .closing, trk := false, slot := none }

/-- The hub whose WRITE_BACK is in the buffer and not yet answered. -/
def backHeld (r : Req) (h : Hub) : Hub := { backed r (opened (backTxn r h) h) with txns := [backClosing r h] }

include hc hw hpath htongs ht hop h8 hl8 hfit hm hmem in
theorem advance_back (al : Alone (backTxn r h) (opened (backTxn r h) h)) : advance (backTxn r h).id (opened (backTxn r h) h) = some (backHeld r h) := by
  have marked : updTxn (backTxn r h).id (fun x => { x with wb := false }) (opened (backTxn r h) h) = opened { backTxn r h with wb := false } h := by
    rw [updTxn, al.txns, opened, opened]
    simp
  have same : backed r (opened { backTxn r h with wb := false } h) = { backed r (opened (backTxn r h) h) with txns := [{ backTxn r h with wb := false }] } := rfl
  have stored : applyLine (backTxn r h) (opened { backTxn r h with wb := false } h) = .done (backed r (opened { backTxn r h with wb := false } h)) :=
    applyLine_back (h := opened { backTxn r h with wb := false } h) ⟨hc.off, hc.ladle⟩ hw hpath ht hop h8 hl8 hfit hm hmem rfl
  have merged (g : Hub) (hg : g.tongs = []) : tongMerge r g = g := by
    rw [tongMerge, hg, List.map_nil, ← hg]
  have step : advance (backTxn r h).id (opened (backTxn r h) h) = advReady (backTxn r h) (opened (backTxn r h) h) := by rw [advance, al.txnOf]; rfl
  have op : (backTxn r h).req.op = 0x33 := hop
  have typ : (backTxn r h).req.ent.typ = .nwt := ht
  have wb : (backTxn r h).wb = true := rfl
  have tongs : (backed r (opened { backTxn r h with wb := false } h)).tongs = [] := htongs
  have closing : wbApplied (backTxn r h) (backed r (opened { backTxn r h with wb := false } h)) = backHeld r h := by
    rw [same, wbApplied, updTxn]
    simp [backHeld, backClosing]
  rw [step, advReady]
  dsimp only
  rw [marked, stored, op, typ, wb, al.blocked, if_neg (by decide), if_neg (by decide), if_neg Bool.false_ne_true, if_neg (by decide), if_neg (by decide),
    if_neg (by simp), if_neg (by simp)]
  dsimp only
  rw [if_pos (by decide)]
  exact congrArg some ((congrArg (wbApplied (backTxn r h)) (merged _ tongs)).trans closing)

/-- Its answer (Table: Responses). -/
def wbAck (r : Req) : Msg := replyTo r { op := 0xA3 }

/-- An uncached WRITE_BACK that is open alone is in the buffer and answered. -/
def wbDone (r : Req) (h : Hub) : Hub := answeredBy r.link (wbAck r) (backHeld r h)

include hop in
theorem advance_backClosing (hsrc : r.src = .link) (hu : Uncounted h) (al : Alone (backClosing r h) (backHeld r h)) :
    advance (backClosing r h).id (backHeld r h) = some (wbDone r h) := by
  have step : advance (backClosing r h).id (backHeld r h) = advClosing (backClosing r h) (backHeld r h) := by rw [advance, al.txnOf]; rfl
  have op : (backClosing r h).req.op = 0x33 := hop
  rw [step, advClosing, if_pos op, al.snps, List.filter_nil, minBy]
  dsimp only
  rw [if_neg (by simp [backClosing, backTxn])]
  exact congrArg some (al.finish_respond (hu.of_regs rfl) hsrc rfl (show b2n false ≠ 1 by decide))

include hc hw hpath ht hop h8 hl8 hfit hm hmem in
theorem settle_back (hr : Resting h) (hsrc : r.src = .link) : settle (opened (backTxn r h) h) = wbDone r h := by
  have al := hr.opened (backTxn r h)
  have al' : Alone (backClosing r h) (backHeld r h) := ⟨rfl, hr.tongs, hr.evict, hr.echo, hr.snps, hr.recov⟩
  rw [al.settle, al.settleLoop_moves (advance_back hc hw hpath hr.tongs ht hop h8 hl8 hfit hm hmem al),
    al'.settleLoop_moves (advance_backClosing hop hsrc hr.uncounted al'), settleLoop_no_txns _ _ rfl]

end

/-! ### The bytes of a granule -/

theorem getD_splice_inside {α : Type} {l new : List α} {i k : Nat} {x : α} (hi : i ≤ l.length) (hk : k < new.length) : (splice l i new).getD (i + k) x = new.getD k x := by
  have len : (l.take i).length = i := List.length_take_of_le hi
  rw [splice, List.append_assoc, List.getD_append_right _ _ _ _ (by omega), List.getD_append _ _ _ _ (by omega), len]
  congr 1
  omega

theorem fitBytes_getD {n k : Nat} (hk : k < n) (d : List Byte) : (fitBytes n d).getD k 0#8 = d.getD k 0#8 := by
  rw [fitBytes, List.getD_eq_getElem?_getD, List.getElem?_take_of_lt hk, ← List.getD_eq_getElem?_getD]
  rcases Nat.lt_or_ge k d.length with lt | ge
  · rw [List.getD_append _ _ _ _ lt]
  · rw [List.getD_append_right _ _ _ _ ge, List.getD_eq_default d _ ge, List.getD_eq_getElem?_getD, List.getElem?_replicate]
    split <;> rfl

/-- The byte enables and bytes of a granule's WRITE_BACK, in the hub line. -/
theorem lineBytes_granule {r : Req} {n : Nat} {d : List Byte} (hd : r.data = fitBytes n d) (hm : r.mask = List.replicate n true) (hfit : r.addr % 128 + n ≤ 128)
    {k : Nat} (hk : k < n) : r.lineMask.getD (r.addr % 128 + k) false = true ∧ r.lineData.getD (r.addr % 128 + k) 0#8 = d.getD k 0#8 := by
  constructor
  · rw [Req.lineMask, hm, List.take_of_length_le (by rw [List.length_replicate]; omega), getD_splice_inside (by rw [List.length_replicate]; omega)
      (by rw [List.length_replicate]; exact hk), List.getD_eq_getElem?_getD, List.getElem?_replicate, if_pos hk]
    rfl
  · rw [Req.lineData, hd, List.take_of_length_le (by rw [fitBytes_length]; omega), getD_splice_inside (by rw [zeroLine, List.length_replicate]; omega)
      (by rw [fitBytes_length]; exact hk), fitBytes_getD hk]

/-- A notice that is formed names a whole granule (R331). -/
theorem granule_of_takes {op l : Nat} {r : ReqHdr} {d : List Byte} {e : REntry} {h : Hub} (ht : h.takes l op r d e) (hop : op ∈ [0x31, 0x32, 0x33, 0x34])
    (hhost : hostOfLink h l < 7) : 2 ^ r.len.toNat = granOf h (hostOfLink h l) ∧ r.addr.toNat % 2 ^ r.len.toNat = 0 := by
  obtain ⟨-, -, -, -, -, -, hform⟩ := ht
  have host : ¬ hostOfLink h l = 8 := by omega
  have addressed : ∀ op ∈ [0x31, 0x32, 0x33, 0x34], noAddr op = false ∧ op ≠ 0x3B ∧ op ≠ 0x25
      ∧ (op = 0x11 ∨ op = 0x12 ∨ op = 0x15 ∨ op = 0x16 ∨ op = 0x21 ∨ op = 0x31 ∨ op = 0x32 ∨ op = 0x33 ∨ op = 0x34) := by decide
  obtain ⟨named, hint, atomic, granules⟩ := addressed op hop
  have len : lenOk h (hostOfLink h l) op r.len.toNat = (2 ^ r.len.toNat == granOf h (hostOfLink h l)) := by rw [lenOk, if_pos granules, lenIsGranule, if_neg host]
  have denied : lstatDenied ≠ 0 := by decide
  have misaligned : lstatAddrError ≠ 0 := by decide
  rw [formStatus, reqOf, reqMsg] at hform
  dsimp only at hform
  rw [named, len, if_neg Bool.false_ne_true, if_neg hint] at hform
  split at hform
  · exact absurd hform denied
  · next formed =>
    rw [if_neg (by simp [atomic])] at hform
    split at hform
    · exact absurd hform misaligned
    · next aligned =>
      simp only [Bool.or_eq_true, Bool.not_eq_true', not_or, Bool.not_eq_false, beq_iff_eq] at formed
      exact ⟨formed.1, Decidable.not_not.1 aligned⟩

theorem granOf_cases (h : Hub) (n : Nat) : granOf h n = 64 ∨ granOf h n = 128 := by
  rw [granOf, wordLine]
  split
  · exact .inr rfl
  · exact .inl rfl

/-- Room in the write buffer for a class B request is room for any (R37). -/
theorem canWb_of_classB {h : Hub} {cl : Nat} (hwb : canWb h cl 3 = true) (cls : Nat) : canWb h cl cls = true := by
  have free : bits (trkCtl h cl) 21 16 < wbFree h cl := by simpa [canWb] using hwb
  rw [canWb]
  split
  · simp; omega
  · simpa using free

theorem Accepted.canWb {h h' : Hub} (acc : Accepted h h') (cl cls : Nat) : canWb h' cl cls = canWb h cl cls := by
  have ctl : trkCtl h' cl = trkCtl h cl := acc.words _ _ (by decide)
  have used : wbUsed h' cl = wbUsed h cl := by
    obtain ⟨_, _, _, _, _, rfl⟩ := acc.rest
    rfl
  rw [Machine.canWb, Machine.canWb, wbFree, wbFree, ctl, used]

end Sys2Proof.Machine

namespace Sys2Proof.Machine.Slice0

/-- Settles O37: a notice of a hub at rest shows its host I at once, and an uncached WRITE_BACK is alone at its home, which buffers and answers it in two turns. -/
theorem noticesGiveUpTheGranule : Obligations.NoticesGiveUpTheGranule := by
  unfold Obligations.NoticesGiveUpTheGranule
  intro h q l r d e hidle hhost hnwt
  have hr := hidle.resting
  refine ⟨fun ht hst => ?_, fun ht hst hoff hsec hladle hmons hmem hwb => ?_⟩
  · obtain ⟨h1, c, c', acc, heff, -⟩ := effRequest_noticed (wd := false) l.isLt hr ht (by decide) hhost hnwt
    obtain ⟨-, -, -, -, hmap, -, -⟩ := ht
    have hmap1 : (rmapFind h1 r.addr.toNat).map Prod.snd = some e := by obtain ⟨_, _, _, _, _, rfl⟩ := acc.rest; exact hmap
    have shown : hostSt h1 (hostOfLink h l.toNat) r.addr.toNat < 4 := by rw [acc.hostSt]; exact hst
    have hr1 := acc.resting hr
    have noted : orderNotice (homeReq 0x34 l.toNat r [] e c c' h) h1 = givenUp (homeReq 0x34 l.toNat r [] e c c' h) h1 := by
      rw [orderNotice_resting hr1 hmap1 rfl]
      exact (if_neg (show ¬ (0x34 : Nat) = 0x33 by decide)).trans ((if_pos rfl).trans (orderEvict_resting hr1 shown))
    have rested := hr1.givenUp (homeReq 0x34 l.toNat r [] e c c' h)
    rw [noted, settle_quiet _ ⟨rested.txns, rested.waiting, rested.tongs, rested.evict, rested.echo⟩] at heff
    refine ⟨_, next_of_eff rfl heff, ?_, ?_, ?_, rested.txns, rested.wbs⟩
    · have gran := acc.granOf (hostOfLink h l.toNat)
      rw [givenUp_eq]
      dsimp only [homeReq, takenReq, reqOf, takenMsg, reqMsg]
      rw [gran]
      obtain ⟨_, _, _, _, _, rfl⟩ := acc.rest
      rfl
    · obtain ⟨_, _, _, _, _, rfl⟩ := acc.rest
      exact fun _ => rfl
    · obtain ⟨_, _, _, _, _, rfl⟩ := acc.rest
      rfl
  · obtain ⟨h1, c, c', acc, heff, -⟩ := effRequest_noticed (wd := true) l.isLt hr ht (by decide) hhost hnwt
    obtain ⟨granule, aligned⟩ := granule_of_takes ht (by decide) hhost
    obtain ⟨htr, -, -, -, hmap, -, -⟩ := ht
    have hmap1 : (rmapFind h1 r.addr.toNat).map Prod.snd = some e := by obtain ⟨_, _, _, _, _, rfl⟩ := acc.rest; exact hmap
    have shown : 3 ≤ hostSt h1 (hostOfLink h l.toNat) r.addr.toNat := by rw [acc.hostSt]; exact hst
    have room : canWb h1 (homeCluster r.addr.toNat) c' = true := canWb_of_classB ((acc.canWb _ _).trans hwb) c'
    have hr1 := acc.resting hr
    have uncached : Uncached h1 := by obtain ⟨_, _, _, _, _, rfl⟩ := acc.rest; exact ⟨hoff, hladle⟩
    have readable : memReadable h1 e r.addr.toNat = true := by obtain ⟨_, _, _, _, _, rfl⟩ := acc.rest; exact hmem
    let R := homeReq 0x33 l.toNat r d e c c' h
    have noted : orderNotice R h1 = opened (backTxn R (givenUp R h1)) (givenUp R h1) := by
      rw [orderNotice_resting hr1 hmap1 rfl]
      exact (if_pos rfl).trans (orderWriteBack_resting hr1 uncached rfl shown room)
    have size : 2 ^ r.len.toNat = 64 ∨ 2 ^ r.len.toNat = 128 := by rw [granule]; exact granOf_cases ..
    have slots : ¬ tableSlots 0x33 r.len.toNat 0 = 0 := by
      rw [tableSlots, if_pos (.inr (.inr rfl))]
      rcases size with n | n <;> rw [n] <;> decide
    have data : R.data = fitBytes (2 ^ r.len.toNat) d := by
      show writeBytes 0x33 r.addr.toNat r.len.toNat d = _
      rw [writeBytes, if_neg (by decide), if_neg (by decide), if_neg (by decide), if_neg slots]
    have mask : R.mask = List.replicate (2 ^ r.len.toNat) true := by
      show writeMask 0x33 r.len.toNat d = _
      rw [writeMask, if_neg (by simp), if_neg (fun both => slots both.1)]
    have len : R.data.length = 2 ^ r.len.toNat := by rw [data, fitBytes_length]
    have addr : R.addr = r.addr.toNat := rfl
    have fit : R.addr % 128 + 2 ^ r.len.toNat ≤ 128 := by rcases size with n | n <;> rw [addr, n] <;> rw [n] at aligned <;> omega
    have done : settle (opened (backTxn R (givenUp R h1)) (givenUp R h1)) = wbDone R (givenUp R h1) := by
      refine settle_back (r := R) (h := givenUp R h1) ⟨uncached.off, uncached.ladle⟩ hr1.wbs hr1.pathErr hnwt rfl ?_ ?_ ?_ ?_ readable (hr1.givenUp R) rfl
      · rcases size with n | n <;> rw [n] at aligned <;> rw [addr] <;> omega
      · rcases size with n | n <;> rw [len, n]
      · rw [len]; exact fit
      · rw [len]; exact mask
    rw [noted, done] at heff
    have gran := acc.granOf (hostOfLink h l.toNat)
    have links : (backHeld R (givenUp R h1)).links = h.links := by obtain ⟨_, _, _, _, _, rfl⟩ := acc.rest; rfl
    refine ⟨_, backLine R (opened (backTxn R (givenUp R h1)) (givenUp R h1)), next_of_eff rfl heff, ?_, answered_answeredBy links htr rfl rfl rfl ⟨rfl, rfl⟩,
      (sendMsg_wbs ..).trans rfl, rfl, rfl, rfl, fun k hk => lineBytes_granule data mask fit hk, (sendMsg_mem ..).trans ?_, rfl⟩
    · refine (sendMsg_sieve ..).trans ((congrArg Hub.sieve (givenUp_eq R h1)).trans ?_)
      dsimp only [R, homeReq, takenReq, reqOf, takenMsg, reqMsg]
      rw [gran]
      obtain ⟨_, _, _, _, _, rfl⟩ := acc.rest
      rfl
    · obtain ⟨_, _, _, _, _, rfl⟩ := acc.rest
      rfl

end Sys2Proof.Machine.Slice0

/-!
Castouts at a home at rest (R61, R62): an offer of a clean granule takes a slot of the array, and its data makes the line CLEAN.
-/

namespace Sys2Proof.Machine

/-! ### A place in an empty cache -/

/-- A cache that is on, holds no sector, and whose ways are all in use. -/
structure EmptyCache (h : Hub) : Prop where
  on : h.cache.cst = .on
  sectors : h.cache.sectors = []
  locks : h.cache.locks = []
  retired : h.cache.retired = []
  powered : h.cache.powered = 0xFFFF#16
  pending : h.cache.pending = 0#16

/-- A way slot that no sector is in. -/
def blankSector (sl set way : Nat) : Sector :=
  { slice := sl, set := set, way := way, addr := 0, lines := List.replicate 8 .invalid, pid := 0, age := 7, echo := false }

/-- A sector as it is placed (R30). -/
def freshSector (sl set way a pid age : Nat) : Sector :=
  { blankSector sl set way with addr := a / 1024 * 1024, pid := pid, age := age }

theorem allWays_testBit : ∀ w < 16, (65535 : Nat).testBit w = true := by decide

theorem blankLines_getD (i : Nat) : (List.replicate 8 LineSt.invalid).getD i .invalid = .invalid := by
  rw [List.getD_eq_getElem?_getD, List.getElem?_replicate]
  split <;> rfl

namespace EmptyCache

variable {h : Hub} (hc : EmptyCache h)
include hc

theorem sector (sl set way : Nat) : Machine.sector h sl set way = blankSector sl set way := by rw [Machine.sector, hc.sectors]; rfl

theorem findSector (a : Nat) : Machine.findSector h a = none := by rw [Machine.findSector, hc.on, hc.sectors]; rfl

theorem lineSt (a : Nat) : Machine.lineSt h a = .invalid := by rw [Machine.lineSt, hc.findSector]

theorem wayPowered {w : Nat} (hw : w < 16) : Machine.wayPowered h w = true := by
  have on : (CacheSt.on == CacheSt.on) = true := by decide
  have powered : (0xFFFF#16).toNat.testBit w = true := allWays_testBit w hw
  have pending : (0#16).toNat.testBit w = false := by simp
  rw [Machine.wayPowered, hc.on, hc.powered, hc.pending, on, powered, pending]
  rfl

/-- Every way of a set may be taken. -/
theorem eligible {pid : Nat} (hm : wayMask h pid = 65535) (sl set : Nat) : Machine.eligible h sl set pid = List.range 16 := by
  rw [Machine.eligible, List.filter_eq_self]
  intro w hw
  have hw16 := List.mem_range.1 hw
  dsimp only
  rw [hm, allWays_testBit w hw16, hc.retired, hc.wayPowered hw16, isLocked, hc.locks, hc.sector]
  rfl

/-- The first way is the victim, and nothing changes (R30). -/
theorem chooseVictim {pid : Nat} (hm : wayMask h pid = 65535) (sl set : Nat) : Machine.chooseVictim h sl set pid = some (0, h) := by
  have unlocked (w : Nat) : isLocked h sl set w = false := by rw [isLocked, hc.locks]; rfl
  have lockedNone : (List.range 16).find? (fun w => !(Machine.sector h sl set w).valid && isLocked h sl set w) = none := by
    rw [List.find?_eq_none]
    intro w _
    rw [unlocked, Bool.and_false]
    exact Bool.false_ne_true
  have invalid : (fun w => !(Machine.sector h sl set w).valid) = fun _ => true := by
    funext w
    rw [hc.sector]
    rfl
  rw [Machine.chooseVictim, hc.eligible hm]
  dsimp only
  rw [lockedNone, invalid]
  rfl

/-- Nothing need be moved out of an empty way. -/
theorem evictSector (sl set way : Nat) : Machine.evictSector sl set way h = some (sectored (blankSector sl set way) h) := by
  have quiet (nwb : Bool) : (List.range 8).filter (fun i => mustMove nwb ((blankSector sl set way).lines.getD i .invalid)) = [] := by
    rw [List.filter_eq_nil_iff]
    intro i _
    have line : (blankSector sl set way).lines.getD i .invalid = .invalid := blankLines_getD i
    rw [line]
    cases nwb <;> decide
  have gone (l : List Nat) (g : Hub) : forEach l (fun i h => castGone (blankSector sl set way) i h) g = g := by
    induction l generalizing g with
    | nil => rfl
    | cons i r ih => rw [forEach_cons]; exact ih g
  have echo (g : Hub) : echoGone (blankSector sl set way) g = g := by
    rw [echoGone]
    exact if_neg (by simp [blankSector])
  rw [Machine.evictSector]
  dsimp only
  rw [hc.sector, quiet, forEach_nil, gone, echo, if_neg (by simp), putSector, hc.sector, hc.sectors]
  rfl

/-- The line gets the sector's first place (R30). -/
theorem placeLine {pid : Nat} (hm : wayMask h pid = 65535) (a owner age : Nat) :
    Machine.placeLine a pid owner age h = .got (sectored (freshSector (homeSlice a) (setIndex h a) 0 a owner age) h) (setIndex h a) 0 := by
  have on : (CacheSt.on != CacheSt.on) = false := by decide
  have sect (sl set way : Nat) : Machine.sector (sectored (blankSector sl set way) h) sl set way = blankSector sl set way := sector_sectored (blankSector sl set way) h
  rw [Machine.placeLine, hc.findSector]
  dsimp only
  rw [hc.on, on, if_neg Bool.false_ne_true, hc.chooseVictim hm]
  dsimp only
  rw [hc.evictSector]
  dsimp only
  rw [sect, putSector_sectored]
  · rfl
  · rfl
  · rfl
  · rfl

end EmptyCache

/-- A line of a sector becomes FILLING or CLEAN. -/
theorem setSlotLine_sectored {s : Sector} {st : LineSt} (hst : st = .filling ∨ st = .clean) (h : Hub) (ix : Nat) :
    setSlotLine s.slice s.set s.way ix st (sectored s h) = sectored { s with lines := s.lines.set ix st } h := by
  have echo (old : LineSt) (g : Hub) : echoLine s ix old st g = g := by
    rw [echoLine]
    split
    · rfl
    · rcases hst with rfl | rfl <;> rfl
  rcases hst with rfl | rfl
  · rw [setSlotLine, sector_sectored, echo]
    · exact putSector_sectored h rfl rfl rfl
    · exact nofun
  · rw [setSlotLine, sector_sectored, echo]
    · exact putSector_sectored h rfl rfl rfl
    · exact nofun

/-- A slot's line waits for a castout. -/
theorem fillingSlot {s : Sector} (ix who : Nat) (h : Hub) :
    putSector { sector (setSlotLine s.slice s.set s.way ix .filling (sectored s h)) s.slice s.set s.way with
        cast := (sector (setSlotLine s.slice s.set s.way ix .filling (sectored s h)) s.slice s.set s.way).cast ++ [who] }
      (setSlotLine s.slice s.set s.way ix .filling (sectored s h))
      = sectored { s with lines := s.lines.set ix .filling, cast := s.cast ++ [who] } h := by
  have same : sector (sectored { s with lines := s.lines.set ix .filling } h) s.slice s.set s.way = { s with lines := s.lines.set ix .filling } :=
    sector_sectored { s with lines := s.lines.set ix .filling } h
  rw [setSlotLine_sectored (.inl rfl), same]
  exact putSector_sectored h rfl rfl rfl

/-! ### An offer (R61) -/

/-- The sector that waits for a castout's line. -/
def castSector (r : Req) (h : Hub) : Sector :=
  { freshSector (homeSlice r.addr) (setIndex h r.addr) 0 r.addr r.pid (insAge h (homeSlice r.addr) 4) with
    lines := (List.replicate 8 .invalid).set (lineIx r.addr) .filling, cast := [lineIx r.addr + 8 * r.pid] }

/-- The transaction of an accepted offer as it is opened, and as it waits for its data. -/
def offerTxn (r : Req) (h : Hub) : Txn :=
  { id := h.nextId, req := { r with job := 0 }, slice := homeSlice r.addr, ph := .alloc, lo := r.addr / r.size * r.size, n := r.size, trk := true }

def castTxn (r : Req) (h : Hub) : Txn := { offerTxn r h with ph := .cast, slot := some (setIndex h r.addr, 0) }

/-- The hub in which an offer is accepted. -/
def castHeld (r : Req) (h : Hub) : Hub := opened (castTxn r h) (sectored (castSector r h) h)

section
variable {r : Req} {h : Hub} (hc : EmptyCache h) (hm : wayMask h r.pid = 65535) (hx : h.txns = [])

include hc in
theorem EmptyCache.opened (t : Txn) : EmptyCache (opened t h) := ⟨hc.on, hc.sectors, hc.locks, hc.retired, hc.powered, hc.pending⟩

include hc hm in
/-- An accepted offer has its place, and its line is FILLING (R61). -/
theorem advAlloc_offer (hsrc : r.src = .link) (hop : r.op = 0x31) :
    advAlloc (offerTxn r h) (opened (offerTxn r h) h) = some (sendMsg r.link (replyTo r { op := 0xB1 }) (castHeld r h)) := by
  have open_ := hc.opened (offerTxn r h)
  have mask : wayMask (opened (offerTxn r h) h) r.pid = 65535 := hm
  have line : lineSt (opened (offerTxn r h) h) (offerTxn r h).req.addr = .invalid := open_.lineSt _
  have place : placeLine (offerTxn r h).req.addr (offerTxn r h).req.pid (offerTxn r h).req.pid (insAge (opened (offerTxn r h) h) (offerTxn r h).slice 4) (opened (offerTxn r h) h)
      = _ := open_.placeLine mask _ _ _
  have op : ¬ (castTxn r h).req.op = 0x32 := by rw [show (castTxn r h).req.op = r.op from rfl, hop]; decide
  have moved : updTxn (offerTxn r h).id (fun x => { x with ph := .cast, slot := some (setIndex h r.addr, 0) }) (sectored (castSector r h) (opened (offerTxn r h) h))
      = castHeld r h := by
    rw [updTxn, sectored, Machine.opened]
    simp only [List.map_cons, List.map_nil, beq_self_eq_true, if_true]
    rfl
  rw [advAlloc]
  dsimp only
  rw [line, if_neg (show ¬ (offerTxn r h).cancelled = true from nofun), if_neg (by decide), place]
  dsimp only
  refine congrArg some ((congrArg (castBegin (castTxn r h)) (fillingSlot (s := freshSector (homeSlice r.addr) (setIndex h r.addr) 0 r.addr r.pid
    (insAge h (homeSlice r.addr) 4)) (lineIx r.addr) (lineIx r.addr + 8 * r.pid) (opened (offerTxn r h) h))).trans ?_)
  rw [castBegin]
  dsimp only
  rw [if_neg op, if_neg (show ¬ (castTxn r h).req.job = 1 from nofun)]
  refine (congrArg (reply (castTxn r h).req { op := 0xB1 }) moved).trans ?_
  exact reply_short hsrc rfl (show (0 : Nat) ≠ 1 by decide)

include hc hm in
/-- Nothing refuses an offer of a class B request where the partition's share of cold lines is not used up (R61, R64). -/
theorem castReason_free (hcls : 3 ≤ r.cls) (ht : r.ent.typ = .nwt) (hpol : bitOf (regGet h 0 0x4000) 8 = false)
    (hshare : 63 * (part h r.pid).castDen ≤ 64 * (part h r.pid).castFrac) : castReason r.ent r h = (none, h) := by
  have paid : spent h (homeRg r.addr) r.pid r.cls = false := by
    rw [spent, decide_eq_false (by omega : ¬ r.cls < 3)]
    rfl
  have cold : castCold r h = (false, h) := by
    have share (c : Nat) : bits c 7 2 * (part h r.pid).castDen ≤ (part h r.pid).castFrac * 64 := by
      have few : bits c 7 2 ≤ 63 := by rw [bits]; exact Nat.le_of_lt_succ (Nat.mod_lt _ (by decide))
      calc bits c 7 2 * (part h r.pid).castDen
        _ ≤ 63 * (part h r.pid).castDen := Nat.mul_le_mul_right _ few
        _ ≤ (part h r.pid).castFrac * 64 := by rw [Nat.mul_comm _ 64]; exact hshare
    rw [castCold]
    dsimp only
    rw [hpol, if_neg Bool.false_ne_true, if_neg (by decide), if_neg (by decide), if_pos (share _)]
  have way (w : Nat) (hw : w < 16) : ((65535 : Nat).testBit w && !h.cache.retired.contains (homeSlice r.addr, setIndex h r.addr, w) && wayPowered h w) = true := by
    rw [allWays_testBit w hw, hc.retired, hc.wayPowered hw]
    rfl
  have live : (List.range 16).any (fun w => (65535 : Nat).testBit w && !h.cache.retired.contains (homeSlice r.addr, setIndex h r.addr, w) && wayPowered h w) = true :=
    List.any_eq_true.2 ⟨0, by decide, way 0 (by decide)⟩
  rw [castReason]
  dsimp only
  rw [hc.lineSt, ht, paid, hm, live, hc.findSector, if_neg (by decide), if_neg Bool.false_ne_true, if_neg (by decide)]
  dsimp only
  rw [hc.eligible hm, if_neg (by decide), cold]
  rfl

include hc hm hx in
theorem castIn_free (hcls : 3 ≤ r.cls) (ht : r.ent.typ = .nwt) (hpol : bitOf (regGet h 0 0x4000) 8 = false)
    (hshare : 63 * (part h r.pid).castDen ≤ 64 * (part h r.pid).castFrac) (hop : r.op = 0x31) (hsrc : r.src = .link) (htrk : canTrk h r.cl 3 = true)
    (hrun : h.life.phase = .run) : castIn false r h = sendMsg r.link (replyTo r { op := 0xB1 }) (castHeld r h) := by
  have op : ¬ (r.op = 0x32 ∧ false = true) := fun both => Bool.false_ne_true both.2
  have tracker : canTrk h r.cl r.cls = true := by
    rw [canTrk] at htrk ⊢
    rw [if_neg (by omega), if_neg (by omega)]
    exact htrk
  have same : ({ h with txns := h.txns ++ [offerTxn r h], nextId := h.nextId + 1 } : Hub) = opened (offerTxn r h) h := by rw [hx]; rfl
  rw [castIn, castReason_free hc hm hcls ht hpol hshare]
  dsimp only
  rw [if_neg op, tracker, hrun, if_neg (by decide)]
  refine (congrArg (fun g => (advAlloc (offerTxn r h) g).getD g) same).trans ?_
  rw [advAlloc_offer hc hm hsrc hop]
  rfl

end

theorem setHostSt_none (n a : Nat) (h : Hub) : setHostSt n a 0 h = { h with sieve := h.sieve.filter (fun e => !(e.host == n && e.addr == a / granOf h n * granOf h n)) } :=
  rfl

theorem setHostSt_none_snps (n a : Nat) (h : Hub) : (setHostSt n a 0 h).snps = h.snps := rfl

/-- The hub in which an offer is counted. -/
def offerCounted (r : Req) (h : Hub) : Hub := pageAdd r.pid 16 1 (useSlot r false h)

theorem accepted_offerCounted (r : Req) (h : Hub) : Accepted h (offerCounted r h) := (Accepted.of_useSlot r false h).trans (.of_pageAdd ..)

/-- An offer of a host that is shown a clean copy, while no set is under repair (R61). -/
theorem orderCast_resting {r : Req} {h : Hub} (hr : Resting h) (hsec : h.cache.sectors = []) (h0 : 0 < hostSt h r.host r.addr) (h4 : hostSt h r.host r.addr < 4)
    (hadm : r.admitted = true) (hop : r.op = 0x31) : orderCast r h = castIn false r (setHostSt r.host r.addr 0 (offerCounted r h)) := by
  have bad : ¬ (4 ≤ hostSt h r.host r.addr ∨ noticeBreaks h r = true) := by
    rw [noticeBreaks_resting hr]
    simp; omega
  have held : setHeld h r.addr = false := by rw [setHeld, hsec, List.any_nil, Bool.and_false]
  have acc := accepted_offerCounted r h
  have slot : pmuReq 0x01 r (useSlot r false h) = useSlot r false h := pmu_uncounted (hr.uncounted.of_regs rfl) (homeDie_lt _)
  have offer : countOffer r (useSlot r false h) = offerCounted r h := by
    rw [countOffer, ← offerCounted]
    exact pmu_uncounted (acc.uncounted hr.uncounted) (homeDie_lt _)
  have snps : (offerCounted r h).snps = [] := by
    obtain ⟨_, _, _, _, _, e⟩ := acc.rest
    rw [e]
    exact hr.snps
  have shown : (hostSt h r.host r.addr == 0) = false := by simpa using Nat.ne_of_gt h0
  rw [orderCast]
  dsimp only
  rw [if_neg bad, streamHeld_resting hr, held, if_neg Bool.false_ne_true, if_neg Bool.false_ne_true, slot, offer,
    noticeCloses_resting ((setHostSt_none_snps ..).trans snps), hadm, if_neg (by decide), shown, if_neg (by rw [hop]; decide)]

theorem hostSt_setHostSt_none (n a : Nat) (h : Hub) : hostSt (setHostSt n a 0 h) n a = 0 := by
  have gone : (h.sieve.filter (fun e => !(e.host == n && e.addr == a / granOf h n * granOf h n))).find? (fun e => e.host == n && e.addr == a / granOf h n * granOf h n)
      = none := by
    rw [List.find?_eq_none]
    intro e he
    exact ne_true_of_eq_false (by simpa only [Bool.not_eq_true'] using (List.mem_filter.1 he).2)
  have same : granOf (setHostSt n a 0 h) n = granOf h n := rfl
  rw [hostSt, same, setHostSt_none, gone]

theorem lineIx_lt (a : Nat) : lineIx a < 8 := Nat.mod_lt _ (by decide)

/-- A present line of the sector that serves its address is found there. -/
theorem lineSt_sectored {s : Sector} {h : Hub} {a : Nat} {st : LineSt} (hon : h.cache.cst = .on) (hsl : s.slice = homeSlice a) (haddr : s.addr = a / 1024 * 1024)
    (hlen : s.lines.length = 8) (hp : st.present = true) : lineSt (sectored { s with lines := s.lines.set (lineIx a) st } h) a = st := by
  have ix : lineIx a < s.lines.length := by rw [hlen]; exact lineIx_lt a
  have valid : (s.lines.set (lineIx a) st).any LineSt.present = true :=
    List.any_eq_true.2 ⟨st, List.mem_set ix st, hp⟩
  have found : findSector (sectored { s with lines := s.lines.set (lineIx a) st } h) a = some { s with lines := s.lines.set (lineIx a) st } := by
    have on : (sectored { s with lines := s.lines.set (lineIx a) st } h).cache.cst = .on := hon
    rw [findSector, on]
    simp only [sectored, List.find?_cons, hsl, haddr, beq_self_eq_true, Bool.true_and, Sector.valid, valid]
  rw [lineSt, found]
  simp [List.getD_eq_getElem?_getD, ix]

theorem hostSt_sendMsg (l : Nat) (m : Msg) (h : Hub) (n a : Nat) : hostSt (sendMsg l m h) n a = hostSt h n a := by unfold sendMsg; split <;> rfl

theorem lineSt_sendMsg (l : Nat) (m : Msg) (h : Hub) (a : Nat) : lineSt (sendMsg l m h) a = lineSt h a := by unfold sendMsg; split <;> rfl

/-- An accepted offer waits for its data. -/
theorem settle_castHeld {r : Req} {h : Hub} (hr : Resting h) (l : Nat) (m : Msg) : settle (sendMsg l m (castHeld r h)) = sendMsg l m (castHeld r h) := by
  have al : Alone (castTxn r h) (castHeld r h) := ⟨rfl, hr.tongs, hr.evict, hr.echo, hr.snps, hr.recov⟩
  have sent := al.sendMsg l m
  have waits : advance (castTxn r h).id (sendMsg l m (castHeld r h)) = none := by
    rw [advance, sent.txnOf]
    rfl
  rw [sent.settle, sent.settleLoop_waits waits]

theorem Resting.setHostSt_none {h : Hub} (hr : Resting h) (n a : Nat) : Resting (setHostSt n a 0 h) :=
  ⟨hr.txns, hr.waiting, hr.tongs, hr.evict, hr.echo, hr.snps, hr.recov, hr.undef, hr.wbs, fun x hx => hr.parity x (List.mem_filter.1 hx).1, hr.warm, hr.run, hr.pathErr,
    hr.wins, hr.wf, hr.ketErr, hr.uncounted⟩

/-- A request of a link other than the twin's has a PID other than 0 where it is admitted (R289). -/
theorem pid_ne_zero_of_admitted {h : Hub} {l pid stream : Nat} (hadm : admitted h l pid stream = true) (hhost : hostOfLink h l < 7) : pid ≠ 0 := by
  have other : isTwinLink h l = false := by
    by_contra twin
    rw [Bool.not_eq_false] at twin
    rw [hostOfLink, if_pos twin] at hhost
    omega
  intro zero
  rw [admitted, if_pos zero, other] at hadm
  exact Bool.false_ne_true hadm

theorem Accepted.canTrk {h h' : Hub} (acc : Accepted h h') (cl cls : Nat) : canTrk h' cl cls = canTrk h cl cls := by
  have ctl : trkCtl h' cl = trkCtl h cl := acc.words _ _ (by decide)
  have used : trkUsed h' cl = trkUsed h cl := by
    obtain ⟨_, _, _, _, _, rfl⟩ := acc.rest
    rfl
  rw [Machine.canTrk, Machine.canTrk, ctl, used]

/-! ### A castout's data (R62) -/

/-- A castout's data on a link of the revision that offers castouts goes to the castout it names (R62). -/
theorem toSlice_castData {e : REntry} {r : Req} {h : Hub} (hop : r.op = 0x32) (hhost : r.host ≠ 8) (ht : e.typ = .nwt) (hrev : (link h r.link).rev11 = true) :
    ∃ c c', toSlice e r true h = settle (castDataIn { r with cls := c, carried := c' } h) := by
  have host : (r.host == 8) = false := by simpa using hhost
  have free : chargedOp r.op = false := by rw [hop]; decide
  refine ⟨max r.cls e.cls, max r.cls e.cls, ?_⟩
  have same : classify e r true h = ({ r with cls := max r.cls e.cls, carried := max r.cls e.cls }, h) := by
    rw [classify, free]
    rfl
  have notice : isNotice r.op = true := by rw [hop]; decide
  rw [toSlice, notice, host, ht, kettleBars, ht, if_neg (by decide), if_neg (by simp), same]
  exact if_pos ⟨hop, hrev⟩

/-- The array behind the write of a line. -/
theorem writeArrayLine_eq {off a who : Nat} {d : List Byte} {h : Hub} (hu : Uncounted h) :
    ∃ m i, writeArrayLine off a who d h = { h with mem := m, integ := i } ∧ m.array = memWriteN h.mem.array off d ∧ m.main = h.mem.main ∧ i.evict = h.integ.evict := by
  rw [writeArrayLine, pmu_uncounted hu (homeDie_lt a)]
  exact ⟨_, _, rfl, rfl, rfl, rfl⟩

/-- The last transaction ends. -/
theorem finish_last {t u : Txn} {h : Hub} (hx : h.txns = [u]) (hid : u.id = t.id) (hs : h.snps = []) : finish t h = { h with txns := [] } := by
  have gone : dropTxn t.id h = { h with txns := [] } := by simp [dropTxn, hx, hid]
  rw [finish, gone, releaseHeld]
  cases h
  cases hs
  rfl

/-- Echo words that wait go to the write buffer, and nothing else changes. -/
theorem settleEcho_eq (h : Hub) : ∃ w due, settleEcho h = { h with wbs := w, cache := { h.cache with echoDue := due } } := by
  have moved (l : List WbLine) (g : Hub) (hg : ∃ w due, g = { h with wbs := w, cache := { h.cache with echoDue := due } }) :
      ∃ w due, forEach l (fun w h => if 0 < wbFree h w.cluster then
        { h with wbs := h.wbs ++ [w], cache := { h.cache with echoDue := h.cache.echoDue.filter (fun x => x.id != w.id) } } else h) g
        = { h with wbs := w, cache := { h.cache with echoDue := due } } := by
    induction l generalizing g with
    | nil => exact hg
    | cons x r ih =>
      rw [forEach_cons]
      refine ih _ ?_
      obtain ⟨w, due, rfl⟩ := hg
      split
      · exact ⟨_, _, rfl⟩
      · exact ⟨_, _, rfl⟩
  exact moved _ h ⟨_, _, rfl⟩

/-- A hub without transactions settles by its Echo words alone. -/
theorem settle_done {h : Hub} (hx : h.txns = []) (ht : h.tongs = []) (he : h.integ.evict = []) :
    ∃ w due, settle h = { h with wbs := w, cache := { h.cache with echoDue := due } } := by
  have evicted : settleEvict h = h := by rw [settleEvict, he, forEach_nil]
  obtain ⟨w, due, e⟩ := settleEcho_eq h
  refine ⟨w, due, ?_⟩
  rw [settle, tidyTongs_none h ht, evicted, e]
  exact settleLoop_no_txns _ _ hx

theorem memReadN_memWriteN {m : List Host.Cell} (hm : Memory.wf m = true) (a : Nat) (d : List Byte) : memReadN (memWriteN m a d) a d.length = d := by
  refine List.ext_getElem (memReadN_length ..) fun k h1 h2 => ?_
  rw [← List.getD_eq_getElem _ 0#8 h1, ← List.getD_eq_getElem _ 0#8 h2, memReadN_getD _ _ _ _ h2, memRead_memWriteN hm, if_pos ⟨Nat.le_add_right .., by omega⟩,
    Nat.add_sub_cancel_left]

/-- A castout's data finds its offer by host, line and tag (R62). -/
theorem castDataIn_found {x : Txn} {r : Req} {h : Hub} (hw : h.life.warm = []) (hun : h.undef = []) (hla : h.ladle = []) (hx : h.txns = [x]) (hop : x.req.op = 0x31)
    (hph : x.ph = .cast) (hhost : x.req.host = r.host) (haddr : x.req.addr = r.addr) (htag : x.req.tag = r.tag) : castDataIn r h = castArrived x r.data h := by
  have warm : (bfind h.life.warm (homeDie r.addr)).isSome = false := by rw [hw]; rfl
  have defined : undefinedAt h r.addr r.size = false := by rw [undefinedAt, hun]; rfl
  have line : x.req.line = r.line := by rw [Req.line, Req.line, haddr]
  have found : h.txns.find? (fun t => t.req.op == 0x31 && t.ph == .cast && t.req.host == r.host && t.req.line == r.line && t.req.tag == r.tag) = some x := by
    rw [hx]
    exact List.find?_cons_of_pos (by simp [hop, hph, hhost, line, htag])
  have killed : ladleKill r.line h = h := by rw [ladleKill, ladleFind, hla]; rfl
  rw [castDataIn, warm, defined, found, if_neg Bool.false_ne_true, if_neg Bool.false_ne_true, killed]

/-- The hub whose one transaction has its data. -/
def castPieces (x : Txn) (d : List Byte) (h : Hub) : Hub := { h with txns := [{ x with pieces := [(x.req.addr, d)] }] }

/-- A whole line's data lands, behind the charge of its class (R62). -/
theorem castArrived_whole {x : Txn} {d : List Byte} {h : Hub} (hlive : x.cancelled = false) (hlen : 128 ≤ d.length) (hx : h.txns = [x]) :
    ∃ h', Accepted h h' ∧ castArrived x d h = landCast x d (castPieces x d h') := by
  have charged : Accepted h (if x.req.admitted then charge (homeRg x.req.addr) x.req.pid x.req.cls 128 h else h) := by
    split
    · exact .of_charge ..
    · exact .refl h
  refine ⟨_, charged, ?_⟩
  rw [castArrived, hlive, if_neg Bool.false_ne_true]
  generalize (if x.req.admitted then charge (homeRg x.req.addr) x.req.pid x.req.cls 128 h else h) = h' at charged ⊢
  have txns : h'.txns = [x] := by
    obtain ⟨_, _, _, _, _, rfl⟩ := charged.rest
    exact hx
  have pieces : updTxn x.id (fun u => { u with pieces := [(x.req.addr, d)] }) h' = castPieces x d h' := by
    rw [updTxn, txns, castPieces]
    simp
  dsimp only
  rw [pieces]
  exact if_pos hlen

section
variable {x : Txn} {s : Sector} {d : List Byte} {h : Hub} {set way : Nat} (hslot : x.slot = some (set, way)) (hsl : s.slice = x.slice) (hset : s.set = set) (hway : s.way = way)
  (hs : h.cache.sectors = [s]) (hsnps : h.snps = []) (hu : Uncounted h) (hsrc : x.req.src = .link) (hcnt : x.cnt = false)

include hslot hsl hset hway hs hsnps hu hsrc hcnt in
/-- A castout's data is in the array, its line CLEAN, and the castout is answered (R62). -/
theorem landCast_eq : ∃ g m i, landCast x d (castPieces x d h) = answeredBy x.req.link (replyTo x.req { op := 0xB3 }) g
    ∧ Accepted (sectored { s with lines := s.lines.set (lineIx x.req.addr) .clean } { castPieces x d h with mem := m, integ := i }) g
    ∧ m.array = memWriteN h.mem.array (slotOffset x.slice set way (lineIx x.req.addr)) d ∧ m.main = h.mem.main ∧ i.evict = h.integ.evict := by
  obtain ⟨m, i, written, array, main, evict⟩ := writeArrayLine_eq (off := slotOffset x.slice set way (lineIx x.req.addr)) (a := x.req.addr) (who := x.req.who) (d := d)
    (h := castPieces x d h) (hu.of_regs rfl)
  have self : ({ castPieces x d h with mem := m, integ := i } : Hub) = sectored s { castPieces x d h with mem := m, integ := i } := (sectored_self (h := { castPieces x d h with mem := m, integ := i }) hs).symm
  have clean : setSlotLine x.slice set way (lineIx x.req.addr) .clean { castPieces x d h with mem := m, integ := i }
      = sectored { s with lines := s.lines.set (lineIx x.req.addr) .clean } { castPieces x d h with mem := m, integ := i } := by
    rw [self, ← hsl, ← hset, ← hway, sectored_twice]
    exact setSlotLine_sectored (.inr rfl) _ _
  rw [landCast, hslot]
  dsimp only
  rw [written, clean]
  generalize hg : sectored { s with lines := s.lines.set (lineIx x.req.addr) .clean } { castPieces x d h with mem := m, integ := i } = g0
  have counted : Accepted g0 (pageAdd x.req.pid 17 1 g0) := .of_pageAdd ..
  have hu0 : Uncounted g0 := by rw [← hg]; exact hu.of_regs rfl
  have txns0 : g0.txns = [{ x with pieces := [(x.req.addr, d)] }] := by rw [← hg]; rfl
  have snps0 : g0.snps = [] := by rw [← hg]; exact hsnps
  have hu1 := counted.uncounted hu0
  refine ⟨pageAdd x.req.pid 17 1 g0, m, i, ?_, ?_, array, main, evict⟩
  · have counts : pmuReq 0x0D x.req (pageAdd x.req.pid 17 1 g0) = pageAdd x.req.pid 17 1 g0 := pmu_uncounted hu1 (homeDie_lt _)
    have txns1 : (pageAdd x.req.pid 17 1 g0).txns = [{ x with pieces := [(x.req.addr, d)] }] := by
      obtain ⟨_, _, _, _, _, e⟩ := counted.rest
      rw [e]; exact txns0
    have snps1 : (pageAdd x.req.pid 17 1 g0).snps = [] := by
      obtain ⟨_, _, _, _, _, e⟩ := counted.rest
      rw [e]; exact snps0
    rw [counts, respond_untimed hu1 hsrc hcnt (show (0 : Nat) ≠ 1 by decide), finish_last (t := x) ((sendMsg_txns ..).trans txns1) rfl ((sendMsg_snps ..).trans snps1)]
    rfl
  · rw [hg]
    exact counted

end

end Sys2Proof.Machine

namespace Sys2Proof.Machine.Slice0

/-- Settles O38: an offer takes the first way of an empty set and waits; its data lands in that slot, and only Echo words may move behind the answer. -/
theorem castoutIsTakenIn : Obligations.CastoutIsTakenIn := by
  unfold Obligations.CastoutIsTakenIn
  intro h q l r e hnwt hhost hon hrev
  refine ⟨fun hidle ht hsec hlocks hret hpow hpend hways hshare hcls h0 h4 htrk hpol => ?_, ?_⟩
  · have hr := hidle.resting
    obtain ⟨h1, c, c', acc, heff, hcls'⟩ := effRequest_noticed (wd := false) l.isLt hr ht (by decide) hhost hnwt
    obtain ⟨htr, -, -, hadm, hmap, -, -⟩ := ht
    let R := homeReq 0x31 l.toNat r [] e c c' h
    have hmap1 : (rmapFind h1 r.addr.toNat).map Prod.snd = some e := by obtain ⟨_, _, _, _, _, rfl⟩ := acc.rest; exact hmap
    have hr1 := acc.resting hr
    have sectors : h1.cache.sectors = [] := by obtain ⟨_, _, _, _, _, rfl⟩ := acc.rest; exact hsec
    have counted : Accepted h (offerCounted R h1) := acc.trans (accepted_offerCounted R h1)
    have ordered : orderNotice R h1 = castIn false R (setHostSt R.host R.addr 0 (offerCounted R h1)) := by
      rw [orderNotice_resting hr1 hmap1 rfl]
      refine (if_neg (show ¬ (0x31 : Nat) = 0x33 by decide)).trans ((if_neg (show ¬ (0x31 : Nat) = 0x34 by decide)).trans ?_)
      exact orderCast_resting hr1 sectors ((acc.hostSt ..).symm ▸ h0) ((acc.hostSt ..).symm ▸ h4) hadm rfl
    rw [ordered] at heff
    generalize offerCounted R h1 = h2 at counted heff
    have hr2 := (counted.resting hr).setHostSt_none R.host R.addr
    have cache : (setHostSt R.host R.addr 0 h2).cache = h.cache := by
      rw [setHostSt_none]
      obtain ⟨_, _, _, _, _, rfl⟩ := counted.rest
      rfl
    have empty : EmptyCache (setHostSt R.host R.addr 0 h2) := by
      constructor <;> rw [cache] <;> assumption
    obtain ⟨run, part2⟩ := counted.parts r.pid.toNat
    have mask : wayMask (setHostSt R.host R.addr 0 h2) R.pid = 65535 := by
      have granted : part (setHostSt R.host R.addr 0 h2) r.pid.toNat = part h2 r.pid.toNat := rfl
      rw [wayMask]
      refine (if_neg (pid_ne_zero_of_admitted hadm hhost)).trans ?_
      show (part (setHostSt R.host R.addr 0 h2) r.pid.toNat).wayMask.toNat = 65535
      rw [granted, part2]
      exact congrArg BitVec.toNat hways
    have shared : 63 * (part (setHostSt R.host R.addr 0 h2) R.pid).castDen ≤ 64 * (part (setHostSt R.host R.addr 0 h2) R.pid).castFrac := by
      show 63 * (part h2 r.pid.toNat).castDen ≤ 64 * (part h2 r.pid.toNat).castFrac
      rw [part2]
      exact hshare
    have classB : 3 ≤ R.cls := by
      show 3 ≤ c'
      rw [hcls' rfl, hcls]
      exact Nat.le_max_left ..
    have policy : bitOf (regGet (setHostSt R.host R.addr 0 h2) 0 0x4000) 8 = false := by
      show bitOf (regGet h2 0 0x4000) 8 = false
      rw [counted.words 0 0x4000 (by decide)]
      exact hpol
    have tracker : canTrk (setHostSt R.host R.addr 0 h2) R.cl 3 = true := by
      show canTrk h2 (homeCluster r.addr.toNat) 3 = true
      rw [counted.canTrk]
      exact htrk
    rw [castIn_free empty mask hr2.txns classB hnwt policy shared rfl rfl tracker hr2.run, settle_castHeld hr2] at heff
    have gone : hostSt (setHostSt R.host R.addr 0 h2) R.host R.addr = 0 := hostSt_setHostSt_none ..
    have links : (setHostSt R.host R.addr 0 h2).links = h.links := by
      rw [setHostSt_none]
      obtain ⟨_, _, _, _, _, rfl⟩ := counted.rest
      rfl
    have mem : (setHostSt R.host R.addr 0 h2).mem = h.mem := by
      rw [setHostSt_none]
      obtain ⟨_, _, _, _, _, rfl⟩ := counted.rest
      rfl
    generalize setHostSt R.host R.addr 0 h2 = h3 at links mem gone empty heff
    refine ⟨_, castTxn R h3, next_of_eff rfl heff, answered_sendMsg links htr rfl rfl rfl ⟨rfl, rfl⟩, (hostSt_sendMsg ..).trans gone, (lineSt_sendMsg ..).trans ?_,
      (sendMsg_txns ..).trans rfl, rfl, rfl, rfl, (sendMsg_mem ..).trans mem⟩
    have filling : lineSt (sectored (castSector R h3) h3) R.addr = .filling :=
      lineSt_sectored (s := { freshSector (homeSlice R.addr) (setIndex h3 R.addr) 0 R.addr R.pid (insAge h3 (homeSlice R.addr) 4) with
        cast := [lineIx R.addr + 8 * R.pid] }) empty.on rfl rfl rfl rfl
    exact filling
  · intro d x set way s htr hin hlen hlen7 haligned hadm hmap hhere hgran hrun hwarm hundef hsnps hwait htongs hevict hladle htwin hu hx hxop hxsrc hxph hxhost hxaddr
      hxsize hxtag hxlink hxstream hxvc hxlive hxcnt hxslice hxslot hsec hslen hfind hssl hsset hsway hwf
    have listed : listedOp h l.toNat 0x32 = true := by rw [listedOp]; rfl
    have size : r.len.toNat = 7 := by rw [hlen7]; rfl
    have slots : ceilDiv d.length 16 = 8 := by rw [hlen]; rfl
    have formed : formStatus h (reqOf l.toNat h.nextId (reqMsg 0x32 r d) h) r.len.toNat (ceilDiv d.length 16) = 0 := by
      have host : ¬ hostOfLink h l.toNat = 8 := by omega
      have len : lenOk h (hostOfLink h l.toNat) 0x32 7 = true := by
        rw [lenOk, if_pos (by decide), lenIsGranule, if_neg host, hgran]
        rfl
      rw [formStatus, reqOf, reqMsg]
      dsimp only
      have aligned : r.addr.toNat % 2 ^ 7 = 0 := haligned
      rw [size, slots, len, aligned]
      rfl
    obtain ⟨h0, acc, heff⟩ := effRequest_homed (wd := true) l.isLt hu hrun ⟨htr, hin, listed, hadm, hmap, hhere, formed⟩ (by decide) (by rw [hnwt]; decide)
    generalize hR : ({ takenReq 0x32 l.toNat r d h with ent := e } : Req) = R at heff
    have op : R.op = 0x32 := by rw [← hR]; rfl
    have host : R.host = hostOfLink h l.toNat := by rw [← hR]; rfl
    have port : R.link = l.toNat := by rw [← hR]; rfl
    have addr : R.addr = r.addr.toNat := by rw [← hR]; rfl
    have tag : R.tag = r.tag.toNat := by rw [← hR]; rfl
    have data : R.data = d := by
      have bytes : R.data = writeBytes 0x32 r.addr.toNat r.len.toNat d := by rw [← hR]; rfl
      rw [bytes, writeBytes, size, if_neg (by decide), if_neg (by decide), if_neg (by decide), if_neg (by decide)]
      exact fitBytes_of_length hlen
    obtain ⟨c, c', slice⟩ := toSlice_castData (e := e) (r := R) (h := h0) op (by rw [host]; omega) hnwt (by rw [acc.link, port]; exact hrev)
    have arrived : castDataIn { R with cls := c, carried := c' } h0 = castArrived x d h0 := by
      rw [← data]
      obtain ⟨_, _, _, _, _, rfl⟩ := acc.rest
      exact castDataIn_found (r := { R with cls := c, carried := c' }) hwarm hundef hladle hx hxop hxph (hxhost.trans host.symm) (hxaddr.trans addr.symm) (hxtag.trans tag.symm)
    replace heff := heff.trans (slice.trans (congrArg settle arrived))
    have txns0 : h0.txns = [x] := by obtain ⟨_, _, _, _, _, rfl⟩ := acc.rest; exact hx
    obtain ⟨h1, charged, landed⟩ := castArrived_whole hxlive (Nat.le_of_eq hlen.symm) txns0
    have acc1 := acc.trans charged
    have sectors : h1.cache.sectors = [s] := by obtain ⟨_, _, _, _, _, rfl⟩ := acc1.rest; exact hsec
    have snps : h1.snps = [] := by obtain ⟨_, _, _, _, _, rfl⟩ := acc1.rest; exact hsnps
    obtain ⟨g, m, i, done, acc2, array, main, evict⟩ := landCast_eq (d := d) hxslot hssl hsset hsway sectors snps (acc1.uncounted hu) hxsrc hxcnt
    replace heff := heff.trans (congrArg settle (landed.trans done))
    have cacheG : g.cache = { h.cache with sectors := [{ s with lines := s.lines.set (lineIx x.req.addr) .clean }] } := by
      obtain ⟨_, _, _, _, _, rfl⟩ := acc1.rest
      obtain ⟨_, _, _, _, _, rfl⟩ := acc2.rest
      rfl
    have memG : g.mem = m := by obtain ⟨_, _, _, _, _, rfl⟩ := acc2.rest; rfl
    have mem1 : h1.mem = h.mem := by obtain ⟨_, _, _, _, _, rfl⟩ := acc1.rest; rfl
    have linksG : g.links = h.links := by
      obtain ⟨_, _, _, _, _, rfl⟩ := acc1.rest
      obtain ⟨_, _, _, _, _, rfl⟩ := acc2.rest
      rfl
    have tongsG : g.tongs = [] := by
      obtain ⟨_, _, _, _, _, rfl⟩ := acc1.rest
      obtain ⟨_, _, _, _, _, rfl⟩ := acc2.rest
      exact htongs
    have evictG : g.integ.evict = [] := by
      obtain ⟨_, _, _, _, _, rfl⟩ := acc1.rest
      obtain ⟨_, _, _, _, _, rfl⟩ := acc2.rest
      exact evict.trans hevict
    have port' : x.req.link = l.toNat := hxlink
    obtain ⟨w, due, settled⟩ := settle_done (h := answeredBy x.req.link (replyTo x.req { op := 0xB3 }) g) rfl ((sendMsg_tongs ..).trans tongsG)
      ((congrArg Integ.evict (sendMsg_integ ..)).trans evictG)
    have answer : h.answered (answeredBy x.req.link (replyTo x.req { op := 0xB3 }) g) l.toNat r (fun m => m.op = 0xB3 ∧ m.lstat = 0 ∧ m.declined = false) := by
      rw [port']
      exact answered_answeredBy linksG htr hxvc hxstream hxtag ⟨rfl, rfl, rfl⟩
    have bytes : memReadN m.array (slotOffset x.slice set way (lineIx x.req.addr)) 128 = d := by
      have canonical : Memory.wf h.mem.array = true := by
        simp only [Mem.wf, Bool.and_eq_true] at hwf
        exact hwf.1.2
      rw [array, mem1, ← hlen]
      exact memReadN_memWriteN canonical _ d
    have clean : lineSt (answeredBy x.req.link (replyTo x.req { op := 0xB3 }) g) r.addr.toNat = .clean := by
      rw [findSector, hon, hsec] at hfind
      have named := List.find?_some hfind
      simp only [Bool.and_eq_true, beq_iff_eq] at named
      obtain ⟨⟨home, base⟩, -⟩ := named
      have cache : (answeredBy x.req.link (replyTo x.req { op := 0xB3 }) g).cache = (sectored { s with lines := s.lines.set (lineIx r.addr.toNat) .clean } h).cache := by
        rw [← hxaddr]
        exact (sendMsg_cache ..).trans cacheG
      rw [lineSt, findSector, cache]
      exact lineSt_sectored hon home base hslen rfl
    have memory : (answeredBy x.req.link (replyTo x.req { op := 0xB3 }) g).mem = m := (sendMsg_mem ..).trans memG
    rw [settled] at heff
    rw [hxaddr] at bytes
    refine ⟨_, next_of_eff rfl heff, answer, (congrArg (fun k : Mem => memReadN k.array _ 128) memory).trans bytes, clean, (congrArg Mem.main memory).trans ?_, rfl⟩
    exact main.trans (congrArg Mem.main mem1)

end Sys2Proof.Machine.Slice0

/-!
What every change of the hub keeps: canonical memories (R7) and, at the homes, how partitions and heavy commands stand.
-/

namespace Sys2Proof.Machine

/-- What a home and the twin's side of a line leave: each partition's state, whether a command works on it and its level, the heavy commands and their images. -/
structure Standing where
  life : Nat → PartSt × Bool × Nat
  heavy : List Heavy
  images : List ImgJob

def Part.life (k : Part) : PartSt × Bool × Nat := (k.st, k.busy, k.level)

def Hub.standing (h : Hub) : Standing := ⟨fun p => (part h p).life, h.heavy, h.images⟩

/-- The hub stands as `o` says; where `o` says nothing, its memories are canonical. -/
def Kept (o : Option Standing) (h : Hub) : Prop := (o = none → h.mem.wf = true) ∧ ∀ S ∈ o, h.standing = S

/-- The hub of an answer, where it has one, is kept. -/
def KeptOpt (o : Option Standing) : Option Hub → Prop
  | some h => Kept o h
  | none => True

def KeptOptSnd {α : Type} (o : Option Standing) : Option (α × Hub) → Prop
  | some p => Kept o p.2
  | none => True

def KeptOptTrd {α β : Type} (o : Option Standing) : Option (α × β × Hub) → Prop
  | some p => Kept o p.2.2
  | none => True

def KeptPlace (o : Option Standing) : Place → Prop
  | .got h _ _ => Kept o h
  | _ => True

def KeptCRead (o : Option Standing) : CRead → Prop
  | .good h _ => Kept o h
  | .bad h => Kept o h
  | .miss h => Kept o h

def KeptWRes (o : Option Standing) : WRes → Prop
  | .done h => Kept o h
  | .derr h => Kept o h
  | .fetch h _ _ => Kept o h
  | .wait => True

def KeptHRead (o : Option Standing) : HRead → Prop
  | .good h _ => Kept o h
  | .bad h => Kept o h
  | .wait h => Kept o h
  | .miss h => Kept o h

def KeptTwinSpot (o : Option Standing) : TwinSpot → Prop
  | .moved h => Kept o h
  | _ => True

def KeptFetch (o : Option Standing) : Fetch → Prop
  | .wait h => Kept o h
  | .got _ _ h => Kept o h

def KeptStored (o : Option Standing) : Stored → Prop
  | .wait h => Kept o h
  | .done _ h => Kept o h

section
variable {o : Option Standing} {h : Hub}

/-- Dropping bytes leaves a memory canonical. -/
theorem wf_filter {m : List Host.Cell} (hm : Memory.wf m = true) (p : Host.Cell → Bool) : Memory.wf (m.filter p) = true := by
  induction m with
  | nil => rfl
  | cons c r ih =>
    obtain ⟨a, v⟩ := c
    obtain ⟨hv, hlow, hr⟩ := wf_cons.1 hm
    rw [List.filter_cons]
    split
    · exact wf_cons.2 ⟨hv, fun c hc => hlow c (List.mem_filter.1 hc).1, ih hr⟩
    · exact ih hr

theorem Mem.wf_iff (m : Mem) : m.wf = true ↔ Memory.wf m.main = true ∧ Memory.wf m.array = true ∧ Memory.wf m.kettle = true := by
  rw [Mem.wf, Bool.and_eq_true, Bool.and_eq_true, and_assoc]

namespace Kept

section

variable {now free : Nat} {regs : Bank Word32} {life : Life} {led : Ledger} {rmap : Bank REntry} {cache : Cache} {sieve : List SEnt} {recov : List Recovery}
    {txns : List Txn} {nextId : Nat} {snps : List Snp} {orphans : List (Nat × Nat)} {waiting : List Waiting} {wbs : List WbLine} {tongs : List Tong}
    {ladle : List LadleE} {pfSkip : Bank Nat} {dets : List Det} {mons : List Mon} {links : Bank Link} {twin : Twin} {wins : Bank Win} {mgrs : Bank Mgr}
    {walks : List Walk} {shadows : List (Nat × Nat × REntry)} {warm : Bank (List Nat)} {warmAt : Nat}
    {stage : Option (Nat × Bool × List Byte)} {movs : List MovRun} {fs : FrameSeq} {col : Bank Col} {lid : Bank Lid} {mbox : Bank Mbox} {pmu : Bank Pmu}
    {bwLeft : Nat} {bwLat : Bank (Nat × Nat)} {lat latDone : Bank LatRec} {occ : Bank (List Nat)} {occDone : Bank (Nat × List Nat)} {rounds : Bank (List Nat)}
    {slotUse : Bank (List (Nat × Bool))} {integ : Integ} {bt : Bank BtPos} {side : Side} {undef : List Nat}

/-- A hub with the memories, partitions and heavy commands of one that is kept. -/
theorem upd (k : Kept o h) : Kept o (Hub.mk now free regs life led rmap h.mem cache sieve recov txns nextId snps orphans waiting wbs tongs ladle pfSkip dets
    mons links twin h.parts wins mgrs h.heavy walks shadows h.images warm warmAt stage movs fs col lid mbox pmu bwLeft bwLat lat latDone occ occDone rounds slotUse
    integ bt side undef) := k

/-- A hub with the memories of one that is kept, where nothing is said of the rest. -/
theorem updParts {parts : Bank Part} {heavy : List Heavy} {images : List ImgJob} (k : Kept none h) : Kept none (Hub.mk now free regs life led rmap h.mem
    cache sieve recov txns nextId snps orphans waiting wbs tongs ladle pfSkip dets mons links twin parts wins mgrs heavy walks shadows images warm warmAt stage movs fs col lid mbox pmu bwLeft bwLat lat latDone
    occ occDone rounds slotUse integ bt side undef) := ⟨k.1, nofun⟩

/-- A hub with the bytes and partitions of one that is kept, and other marks of its memories. -/
theorem updMarks {mainErr mirrErr ketErr : Bank (BitVec 72)} {beatErr : Bank (BitVec 128)} {crcErr : Bank Word32} {encLine : Bank Nat} {encRange : List (Nat ×
    Nat × Nat)} {injected : List Nat} (k : Kept o h) : Kept o (Hub.mk now free regs life led rmap (Mem.mk h.mem.main h.mem.array h.mem.kettle mainErr mirrErr
    ketErr beatErr crcErr encLine encRange injected) cache sieve recov txns nextId snps orphans waiting wbs tongs ladle pfSkip dets mons links twin h.parts wins
    mgrs h.heavy walks shadows h.images warm warmAt stage movs fs col lid mbox pmu bwLeft bwLat lat latDone occ occDone rounds slotUse integ bt side undef) := k

/-- A hub with other bytes, each memory's canonical where it was so. -/
theorem updMems {main array kettle : List Host.Cell} {mainErr mirrErr ketErr : Bank (BitVec 72)} {beatErr : Bank (BitVec 128)} {crcErr : Bank Word32} {encLine : Bank Nat} {encRange : List (Nat ×
    Nat × Nat)} {injected : List Nat} (k : Kept o h) (hmain : Memory.wf h.mem.main = true → Memory.wf main = true)
    (harray : Memory.wf h.mem.array = true → Memory.wf array = true) (hkettle : Memory.wf h.mem.kettle = true → Memory.wf kettle = true) : Kept o (Hub.mk now free regs life led rmap (Mem.mk main array kettle mainErr mirrErr
    ketErr beatErr crcErr encLine encRange injected) cache sieve recov txns nextId snps orphans waiting wbs tongs ladle pfSkip dets mons links twin h.parts wins
    mgrs h.heavy walks shadows h.images warm warmAt stage movs fs col lid mbox pmu bwLeft bwLat lat latDone occ occDone rounds slotUse integ bt side undef) := by
  refine ⟨fun ho => ?_, k.2⟩
  obtain ⟨wmain, warray, wkettle⟩ := (Mem.wf_iff _).1 (k.1 ho)
  exact (Mem.wf_iff _).2 ⟨hmain wmain, harray warray, hkettle wkettle⟩

end

/-- What leaves the rest and keeps memories canonical. -/
theorem of_wf {h' : Hub} (k : Kept o h) (hm : h.mem.wf = true → h'.mem.wf = true) (hs : h'.standing = h.standing) : Kept o h' :=
  ⟨fun ho => hm (k.1 ho), fun S hS => hs.trans (k.2 S hS)⟩

/-- Where nothing is said of the rest, memories alone count. -/
theorem of_mem {h' : Hub} (k : Kept none h) (hm : h'.mem = h.mem) : Kept none h' := ⟨fun _ => by rw [hm]; exact k.1 rfl, nofun⟩

theorem ite {c : Prop} [Decidable c] {a b : Hub} (ka : Kept o a) (kb : Kept o b) : Kept o (if c then a else b) := by split <;> assumption

theorem iteSnd {α : Type} {c : Prop} [Decidable c] {a b : α × Hub} (ka : Kept o a.2) (kb : Kept o b.2) : Kept o (if c then a else b).2 := by split <;> assumption

theorem iteTrd {α β : Type} {c : Prop} [Decidable c] {a b : α × β × Hub} (ka : Kept o a.2.2) (kb : Kept o b.2.2) : Kept o (if c then a else b).2.2 := by split <;> assumption

theorem iteFst {α : Type} {c : Prop} [Decidable c] {a b : Hub × α} (ka : Kept o a.1) (kb : Kept o b.1) : Kept o (if c then a else b).1 := by split <;> assumption

theorem iteFill {c : Prop} [Decidable c] {a b : Fill} (ka : Kept o a.h) (kb : Kept o b.h) : Kept o (if c then a else b).h := by split <;> assumption

theorem iteLine {c : Prop} [Decidable c] {a b : Line} (ka : Kept o a.h) (kb : Kept o b.h) : Kept o (if c then a else b).h := by split <;> assumption

theorem iteSndH {α : Type} {c : Prop} [Decidable c] {a b : α × Got} (ka : Kept o a.2.h) (kb : Kept o b.2.h) : Kept o (if c then a else b).2.h := by split <;> assumption

theorem foldlGot {α : Type} {f : Got → α → Got} {l : List α} {g : Got} (hf : ∀ g x, Kept o g.h → Kept o (f g x).h) (k : Kept o g.h) : Kept o (l.foldl f g).h := by
  induction l generalizing g with
  | nil => exact k
  | cons x r ih => exact ih (hf g x k)

theorem iteGot {c : Prop} [Decidable c] {a b : Got} (ka : Kept o a.h) (kb : Kept o b.h) : Kept o (if c then a else b).h := by split <;> assumption

theorem forEach {α : Type} {f : α → Hub → Hub} {l : List α} (hf : ∀ x h, Kept o h → Kept o (f x h)) (k : Kept o h) : Kept o (forEach l f h) := by
  induction l generalizing h with
  | nil => exact k
  | cons x r ih => exact ih (hf x h k)

theorem foldl {α : Type} {f : Hub → α → Hub} {l : List α} (hf : ∀ h x, Kept o h → Kept o (f h x)) (k : Kept o h) : Kept o (l.foldl f h) := by
  induction l generalizing h with
  | nil => exact k
  | cons x r ih => exact ih (hf h x k)

theorem foldlSnd {α β : Type} {f : β × Hub → α → β × Hub} {l : List α} {p : β × Hub}
    (hf : ∀ p x, Kept o p.2 → Kept o (f p x).2) (k : Kept o p.2) : Kept o (l.foldl f p).2 := by
  induction l generalizing p with
  | nil => exact k
  | cons x r ih => exact ih (hf p x k)

theorem mkSnd {α : Type} {a : α} (k : Kept o h) : Kept o (a, h).2 := k

theorem mkFst {α : Type} {a : α} (k : Kept o h) : Kept o (h, a).1 := k

theorem mkTrd {α β : Type} {a : α} {b : β} (k : Kept o h) : Kept o (a, b, h).2.2 := k

theorem mkGot {err : Bool} {d : List Byte} (k : Kept o h) : Kept o (Got.mk h err d).h := k

theorem mkSndGot {α : Type} {a : α} {err : Bool} {d : List Byte} (k : Kept o h) : Kept o (a, Got.mk h err d).2.h := k

theorem mkLine {out : EccOut} {d : List Byte} {inj : Bool} (k : Kept o h) : Kept o (Line.mk h out d inj).h := k

theorem mkFill {b : List Byte} {n s : Nat} {e : List Msg} (k : Kept o h) : Kept o (Fill.mk h b n s e).h := k

/-- The hub that a pair was found to hold. -/
theorem of_snd {α : Type} {p : α × Hub} {a : α} {g : Hub} (k : Kept o p.2) (e : p = (a, g)) : Kept o g := by subst e; exact k

theorem of_fst {α : Type} {p : Hub × α} {a : α} {g : Hub} (k : Kept o p.1) (e : p = (g, a)) : Kept o g := by subst e; exact k

theorem of_trd {α β : Type} {p : α × β × Hub} {a : α} {b : β} {g : Hub} (k : Kept o p.2.2) (e : p = (a, b, g)) : Kept o g := by subst e; exact k

end Kept

theorem KeptOpt.mkSome (k : Kept o h) : KeptOpt o (some h) := k

theorem KeptOptSnd.mkSome {α : Type} {p : α × Hub} (k : Kept o p.2) : KeptOptSnd o (some p) := k

theorem KeptOptTrd.mkSome {α β : Type} {p : α × β × Hub} (k : Kept o p.2.2) : KeptOptTrd o (some p) := k

theorem KeptOpt.map {α : Type} {f : α → Hub} {r : Option α} (hf : ∀ x, Kept o (f x)) : KeptOpt o (r.map f) := by cases r <;> [trivial; exact hf _]

theorem KeptOptSnd.map {α β : Type} {f : α → β × Hub} {r : Option α} (hf : ∀ x, Kept o (f x).2) : KeptOptSnd o (r.map f) := by cases r <;> [trivial; exact hf _]

theorem KeptOpt.mapHub {f : Hub → Hub} {r : Option Hub} (hf : ∀ h, Kept o h → Kept o (f h)) (k : KeptOpt o r) : KeptOpt o (r.map f) := by
  cases r <;> [trivial; exact hf _ k]

theorem KeptOpt.getD {r : Option Hub} (kr : KeptOpt o r) (k : Kept o h) : Kept o (r.getD h) := by cases r <;> assumption

theorem KeptOpt.findSome {α : Type} {f : α → Option Hub} {l : List α} (hf : ∀ x, KeptOpt o (f x)) : KeptOpt o (l.findSome? f) := by
  induction l with
  | nil => trivial
  | cons x r ih =>
    have kx := hf x
    rw [List.findSome?_cons]
    cases e : f x with
    | none => exact ih
    | some g => rw [e] at kx; exact kx

theorem KeptOptSnd.mapSnd {α β : Type} {f : α × Hub → β × Hub} {r : Option (α × Hub)} (hf : ∀ p, Kept o p.2 → Kept o (f p).2) (k : KeptOptSnd o r) : KeptOptSnd o (r.map f) := by
  cases r <;> [trivial; exact hf _ k]

theorem KeptPlace.got {s w : Nat} (k : Kept o h) : KeptPlace o (.got h s w) := k

theorem KeptCRead.good {d : List Byte} (k : Kept o h) : KeptCRead o (.good h d) := k

theorem KeptCRead.bad (k : Kept o h) : KeptCRead o (.bad h) := k

theorem KeptCRead.miss (k : Kept o h) : KeptCRead o (.miss h) := k

theorem KeptWRes.done (k : Kept o h) : KeptWRes o (.done h) := k

theorem KeptWRes.derr (k : Kept o h) : KeptWRes o (.derr h) := k

theorem KeptWRes.fetch {s w : Nat} (k : Kept o h) : KeptWRes o (.fetch h s w) := k

theorem KeptHRead.good {d : List Byte} (k : Kept o h) : KeptHRead o (.good h d) := k

theorem KeptHRead.bad (k : Kept o h) : KeptHRead o (.bad h) := k

theorem KeptHRead.wait (k : Kept o h) : KeptHRead o (.wait h) := k

theorem KeptHRead.miss (k : Kept o h) : KeptHRead o (.miss h) := k

theorem KeptTwinSpot.moved (k : Kept o h) : KeptTwinSpot o (.moved h) := k

theorem KeptTwinSpot.of_moved {r : TwinSpot} {g : Hub} (k : KeptTwinSpot o r) (e : r = .moved g) : Kept o g := by subst e; exact k

theorem KeptFetch.wait (k : Kept o h) : KeptFetch o (.wait h) := k

theorem KeptFetch.got {b : Option Nat} {d : List Byte} (k : Kept o h) : KeptFetch o (.got b d h) := k

theorem KeptStored.wait (k : Kept o h) : KeptStored o (.wait h) := k

theorem KeptStored.done {n : Nat} (k : Kept o h) : KeptStored o (.done n h) := k

theorem KeptOpt.of_some {r : Option Hub} {g : Hub} (k : KeptOpt o r) (e : r = some g) : Kept o g := by subst e; exact k

theorem KeptOptSnd.of_some {α : Type} {r : Option (α × Hub)} {a : α} {g : Hub} (k : KeptOptSnd o r) (e : r = some (a, g)) : Kept o g := by subst e; exact k

theorem KeptOptTrd.of_some {α β : Type} {r : Option (α × β × Hub)} {a : α} {b : β} {g : Hub} (k : KeptOptTrd o r) (e : r = some (a, b, g)) : Kept o g := by
  subst e; exact k

theorem KeptPlace.of_got {r : Place} {g : Hub} {s w : Nat} (k : KeptPlace o r) (e : r = .got g s w) : Kept o g := by subst e; exact k

theorem KeptCRead.of_good {r : CRead} {g : Hub} {d : List Byte} (k : KeptCRead o r) (e : r = .good g d) : Kept o g := by subst e; exact k

theorem KeptCRead.of_bad {r : CRead} {g : Hub} (k : KeptCRead o r) (e : r = .bad g) : Kept o g := by subst e; exact k

theorem KeptCRead.of_miss {r : CRead} {g : Hub} (k : KeptCRead o r) (e : r = .miss g) : Kept o g := by subst e; exact k

theorem KeptWRes.of_done {r : WRes} {g : Hub} (k : KeptWRes o r) (e : r = .done g) : Kept o g := by subst e; exact k

theorem KeptWRes.of_derr {r : WRes} {g : Hub} (k : KeptWRes o r) (e : r = .derr g) : Kept o g := by subst e; exact k

theorem KeptWRes.of_fetch {r : WRes} {g : Hub} {s w : Nat} (k : KeptWRes o r) (e : r = .fetch g s w) : Kept o g := by subst e; exact k

theorem KeptHRead.of_good {r : HRead} {g : Hub} {d : List Byte} (k : KeptHRead o r) (e : r = .good g d) : Kept o g := by subst e; exact k

theorem KeptHRead.of_bad {r : HRead} {g : Hub} (k : KeptHRead o r) (e : r = .bad g) : Kept o g := by subst e; exact k

theorem KeptHRead.of_wait {r : HRead} {g : Hub} (k : KeptHRead o r) (e : r = .wait g) : Kept o g := by subst e; exact k

theorem KeptHRead.of_miss {r : HRead} {g : Hub} (k : KeptHRead o r) (e : r = .miss g) : Kept o g := by subst e; exact k

theorem KeptFetch.of_wait {r : Fetch} {g : Hub} (k : KeptFetch o r) (e : r = .wait g) : Kept o g := by subst e; exact k

theorem KeptFetch.of_got {r : Fetch} {b : Option Nat} {d : List Byte} {g : Hub} (k : KeptFetch o r) (e : r = .got b d g) : Kept o g := by subst e; exact k

theorem KeptStored.of_wait {r : Stored} {g : Hub} (k : KeptStored o r) (e : r = .wait g) : Kept o g := by subst e; exact k

theorem KeptStored.of_done {r : Stored} {n : Nat} {g : Hub} (k : KeptStored o r) (e : r = .done n g) : Kept o g := by subst e; exact k

theorem kept_ite {α : Type} {P : α → Prop} {c : Prop} [Decidable c] {a b : α} (ka : P a) (kb : P b) : P (if c then a else b) := by split <;> assumption

theorem setPart_kept {p : Nat} {f : Part → Part} (hf : ∀ k, (f k).life = k.life) (k : Kept o h) : Kept o (setPart h p f) := by
  refine k.of_wf id (congrArg (Standing.mk · h.heavy h.images) (funext fun p' => ?_))
  by_cases e : p' = p
  · subst e
    exact (congrArg Part.life (bget_bupd_same h.parts p' {} f)).trans (hf _)
  · exact congrArg Part.life (bget_bupd_other h.parts p p' {} f e)

theorem setPart_kept_none {p : Nat} {f : Part → Part} (k : Kept none h) : Kept none (setPart h p f) := k.of_mem rfl

/-- Changes made one after the other keep what each keeps. -/
theorem eachOpt_kept {α β : Type} {f : α → β × Hub → Option (β × Hub)} {l : List α} {p : β × Hub} (kf : ∀ x p, Kept o p.2 → KeptOptSnd o (f x p)) (k : Kept o p.2) :
    KeptOptSnd o (eachOpt f l p) := by
  induction l generalizing p with
  | nil => exact k
  | cons x r ih =>
    have kx := kf x p k
    rw [eachOpt]
    cases e : f x p with
    | none => exact trivial
    | some p' =>
      rw [e] at kx
      exact ih kx

end

end Sys2Proof.Machine

/-!
Records, counts, snoops and cache sectors keep the memories and how the rest stands.
-/

namespace Sys2Proof.Machine

section
variable {o : Option Standing} {h : Hub}

theorem setLink_kept {l : Nat} {f : Link → Link} (k : Kept o h) : Kept o (setLink h l f) := k.upd

theorem oweCredit_kept {l : Nat} {uid : Nat} {pool : Nat} {slots : Nat} (k : Kept o h) : Kept o (oweCredit l uid pool slots h) := setLink_kept k

theorem takeIn_kept {l : Nat} {m : Msg} {withData : Bool} (k : Kept o h) : KeptOptTrd o (takeIn l m withData h) := by
  unfold takeIn
  extract_lets bump1 whole2
  have k1 : Kept o bump1 := k.upd
  have k2 : KeptOptTrd o whole2 := kept_ite (KeptOptTrd.mkSome (Kept.mkTrd k1)) trivial
  clear_value *
  split
  · exact k2
  · exact kept_ite (KeptOptTrd.mkSome (Kept.mkTrd (oweCredit_kept (setLink_kept k)))) k2

theorem countType_kept {typ : Nat} (k : Kept o h) : Kept o (countType typ h) := by
  unfold countType
  extract_lets
  exact k.upd

theorem colGap_kept {die : Nat} (k : Kept o h) : Kept o (colGap die h) := by
  unfold colGap
  extract_lets
  exact Kept.ite (countType_kept k.upd) k

theorem regPut_kept {die : Nat} {off : Nat} {v : Nat} (k : Kept o h) : Kept o (regPut h die off v) := by
  unfold regPut
  split
  · exact k
  · exact k.upd

theorem regSetField_kept {die : Nat} {off : Nat} {hi : Nat} {lo : Nat} {x : Nat} (k : Kept o h) : Kept o (regSetField h die off hi lo x) := regPut_kept k

theorem offerRecord_kept {die : Nat} {sev : Nat} {blk : Nat} {typ : Nat} {r : BitVec 128} (k : Kept o h) : Kept o (offerRecord die sev blk typ r h) := by
  unfold offerRecord
  extract_lets h1 h2 _ h3
  have k1 : Kept o h1 := colGap_kept (countType_kept k)
  have k2 : Kept o h2 := Kept.ite (regSetField_kept k1) k1
  have k3 : Kept o h3 := Kept.ite k2.upd k2
  exact k3.upd

theorem recordInj_kept {typ : Nat} {sev : Nat} {blk : Nat} {die : Nat} {pid : Nat} {inj : Bool} {payload : Nat} (k : Kept o h) : Kept o (recordInj typ sev blk die
    pid inj payload h) :=
  offerRecord_kept k

theorem record_kept {typ : Nat} {sev : Nat} {blk : Nat} {die : Nat} {pid : Nat} {payload : Nat} (k : Kept o h) : Kept o (record typ sev blk die pid payload h) :=
  recordInj_kept k

theorem linkCount_kept {l : Nat} {hi : Nat} {lo : Nat} (k : Kept o h) : Kept o (linkCount l hi lo h) := by
  unfold linkCount
  extract_lets
  exact regSetField_kept k

theorem protoDiscard_kept {l : Nat} {op : Nat} (k : Kept o h) : Kept o (protoDiscard l op h) := record_kept (linkCount_kept k)

theorem onListed_kept {l : Nat} {m : Msg} {withData : Bool} {f : Msg → Nat → Hub → Hub} (kf : ∀ x0 x1 h, Kept o h → Kept o (f x0 x1 h)) (k : Kept o h) : Kept o
    (onListed l m withData f h) := by
  unfold onListed
  split
  · exact k
  · rename_i g e
    have k1 := KeptOptTrd.of_some (takeIn_kept k) e
    exact Kept.ite (kf _ _ _ k1) (protoDiscard_kept k1)

theorem countDeny_kept {pid : Nat} (k : Kept o h) : Kept o (countDeny pid h) := by
  unfold countDeny
  extract_lets
  exact Kept.ite (regSetField_kept k) k

theorem sendMsg_kept {l : Nat} {m : Msg} (k : Kept o h) : Kept o (sendMsg l m h) := by
  unfold sendMsg
  exact Kept.ite (setLink_kept k) k

theorem sendIntr_kept {m : Nat} (k : Kept o h) : Kept o (sendIntr m h) := by
  unfold sendIntr
  extract_lets
  exact Kept.ite (sendMsg_kept k) k

theorem setIntPins_kept (k : Kept o h) : Kept o (setIntPins h) := by
  unfold setIntPins
  extract_lets
  exact k.upd

theorem raiseCause_kept {b : Nat} (k : Kept o h) : Kept o (raiseCause b h) := by
  unfold raiseCause
  extract_lets h1 h2
  have k1 : Kept o h1 := regSetField_kept k
  have k2 : Kept o h2 := Kept.ite (sendIntr_kept k1) (Kept.forEach (fun _ _ k3 => sendIntr_kept k3) k1)
  exact Kept.ite k (setIntPins_kept k2)

theorem raiseEvt_kept {die : Nat} (k : Kept o h) : Kept o (raiseEvt die h) := raiseCause_kept k

theorem pmuOverflow_kept {die : Nat} {b : Nat} (k : Kept o h) : Kept o (pmuOverflow die b h) := by
  unfold pmuOverflow
  extract_lets h1 _ h2
  have k1 : Kept o h1 := regSetField_kept k
  have k2 : Kept o h2 := Kept.ite (regSetField_kept k1.upd) k1
  exact Kept.ite (raiseEvt_kept k2) k2

theorem pmuAdd_kept {die : Nat} {n : Nat} {x : Nat} (k : Kept o h) : Kept o (pmuAdd die n x h) := by
  unfold pmuAdd
  extract_lets _ _ h1
  have k1 : Kept o h1 := k.upd
  exact Kept.ite (pmuOverflow_kept k1) k1

theorem pmu_kept {ev : Nat} {die : Nat} {x : Nat} {a : Attr} (k : Kept o h) : Kept o (pmu ev die x a h) := by
  unfold pmu
  refine Kept.forEach (fun _ _ k1 => ?_) k
  · extract_lets
    clear_value *
    split
    · exact k1
    · exact Kept.ite (pmuAdd_kept k1) k1

theorem seamBytes_kept {r : Req} {die : Nat} {n : Nat} (k : Kept o h) : Kept o (seamBytes r die n h) := by
  unfold seamBytes
  exact Kept.ite (pmu_kept k) k

theorem pmuReq_kept {ev : Nat} {r : Req} (k : Kept o h) : Kept o (pmuReq ev r h) := pmu_kept k

theorem pageAdd_kept {pid : Nat} {i : Nat} {x : Nat} (k : Kept o h) : Kept o (pageAdd pid i x h) := by
  unfold pageAdd
  refine Kept.ite ?_ k
  · split
    · exact k
    · exact setPart_kept (fun _ => rfl) k

theorem countDataErr_kept {r : Req} {m : Msg} (k : Kept o h) : Kept o (countDataErr r m h) := by
  unfold countDataErr
  exact Kept.ite (pmuReq_kept (pageAdd_kept k)) k

theorem reply_kept {r : Req} {m : Msg} (k : Kept o h) : Kept o (reply r m h) := by
  unfold reply
  exact Kept.ite (sendMsg_kept (seamBytes_kept (countDataErr_kept k))) k

theorem refuse_kept {r : Req} {lstat : Nat} (k : Kept o h) : Kept o (refuse r lstat h) := by
  unfold refuse
  split
  · exact k
  · exact reply_kept k

theorem settleEcho_kept (k : Kept o h) : Kept o (settleEcho h) := by
  unfold settleEcho
  exact Kept.forEach (fun _ _ k1 => Kept.ite k1.upd k1) k

theorem bufferWrite_kept {e : REntry} {a : Nat} {d : List Byte} {m : List Bool} {poison : Bool} {who : Nat} {txn : Nat} (k : Kept o h) : Kept o (bufferWrite e a d m
    poison who txn h) := by
  unfold bufferWrite
  extract_lets _ _ _ _ _ add1
  have k1 : Kept o add1 := k.upd
  clear_value *
  split
  · exact k1
  · extract_lets
    exact Kept.ite k1 k.upd

theorem hkBytes_kept {a : Nat} {bytes : Nat} (k : Kept o h) : Kept o (hkBytes a bytes h) := pmu_kept k

theorem ledgerWrite_kept {rec : Nat} (k : Kept o h) : Kept o (ledgerWrite rec h).2 := by
  unfold ledgerWrite
  extract_lets h1 h2
  have k1 : Kept o h1 := record_kept k
  have k2 : Kept o h2 := raiseEvt_kept k1
  exact Kept.iteSnd (Kept.mkSnd (regSetField_kept k2)) (Kept.mkSnd k.upd)

theorem ledgerPut_kept {rec : Nat} {f : Ledger → Ledger} (k : Kept o h) : Kept o (ledgerPut rec f h) := by
  unfold ledgerPut
  split
  · rename_i g e
    have k1 := Kept.of_snd (ledgerWrite_kept k) e
    exact Kept.ite k1.upd k1

theorem startDrain_kept {job : Nat} (k : Kept o h) : Kept o (startDrain job h) := by
  unfold startDrain
  extract_lets
  exact k.upd

theorem degrade_kept (k : Kept o h) : Kept o (degrade h) := by
  unfold degrade
  extract_lets
  clear_value *
  split
  · exact startDrain_kept k
  · exact k.upd
  · exact k

theorem declareFailed_kept {k' : Nat} {cause : Nat} (k : Kept o h) : Kept o (declareFailed k' cause h) := by
  unfold declareFailed
  extract_lets _ _ h1 h2 h3 _ h4
  have k1 : Kept o h1 := k.upd
  have k2 : Kept o h2 := ledgerPut_kept k1
  have k3 : Kept o h3 := raiseEvt_kept (record_kept k2)
  have k4 : Kept o h4 := k3.upd
  exact Kept.ite k (Kept.ite (degrade_kept (raiseEvt_kept (record_kept k4))) k3)

theorem spreadRow_kept {pos : Nat} {row : Nat} (k : Kept o h) : Kept o (spreadRow pos row h) := by
  unfold spreadRow
  extract_lets h1
  have k1 : Kept o h1 := ledgerPut_kept k
  exact Kept.ite (Kept.ite (declareFailed_kept k1) k1) k

theorem retireSlot_kept {slice : Nat} {set : Nat} {way : Nat} (k : Kept o h) : Kept o (retireSlot slice set way h) := by
  unfold retireSlot
  extract_lets _ _ _ h1
  have k1 : Kept o h1 := k.upd
  exact Kept.ite k (Kept.ite (ledgerPut_kept k1) (record_kept k1))

theorem remapRow_kept {lane : Nat} {row : Nat} (k : Kept o h) : Kept o (remapRow lane row h) := by
  unfold remapRow
  extract_lets
  clear_value *
  split
  · exact record_kept k
  · exact Kept.ite k (ledgerPut_kept k)

theorem hardError_kept {die : Nat} {loc : Nat} {pos : Nat} (k : Kept o h) : Kept o (hardError die loc pos h) := by
  unfold hardError
  extract_lets _ _ h1 _ h2 _ h3
  have k1 : Kept o h1 := regSetField_kept k
  have k2 : Kept o h2 := record_kept k1
  have k3 : Kept o h3 := record_kept k1
  exact Kept.ite (spreadRow_kept (retireSlot_kept k2)) (Kept.ite (spreadRow_kept (remapRow_kept (record_kept k1))) (Kept.ite k3 (ledgerPut_kept k3)))

theorem corrNote_kept {die : Nat} {loc : Nat} {pos : Nat} (k : Kept o h) : Kept o (corrNote die loc pos h) := by
  unfold corrNote
  extract_lets
  clear_value *
  split
  · exact Kept.ite (hardError_kept k.upd) k.upd
  · exact k.upd

theorem correctAt_kept {die : Nat} {loc : Nat} {pos : Nat} {kind : Nat} {key : Nat} {a : Nat} {bytes : Nat} (k : Kept o h) : Kept o (correctAt die loc pos kind key
    a bytes h) := by
  unfold correctAt
  extract_lets
  exact Kept.ite k (corrNote_kept (pmu_kept k.upd))

theorem readArrayLine_kept {off : Nat} {a : Nat} {who : Nat} {loc : Nat} (k : Kept o h) : Kept o (readArrayLine off a who loc h).h := by
  unfold readArrayLine
  extract_lets _ _ _ _ _ h1 _ _ _ _ _ h2 h3 h4 h5 h6
  have k1 : Kept o h1 := pmu_kept k
  have k2 : Kept o h2 := Kept.forEach (fun _ _ k3 => k3.upd) k1
  have k4 : Kept o h3 := Kept.forEach (fun _ _ k5 => pmu_kept k5) k2
  have k6 : Kept o h4 := pageAdd_kept k4
  have k7 : Kept o h5 := by
    unfold h5
    clear_value *
    split
    · exact Kept.ite k6 (correctAt_kept k6)
    · exact k6
  have k8 : Kept o h6 := by
    unfold h6
    clear_value *
    split
    · exact declareFailed_kept k7
    · exact k7
  exact Kept.iteLine (Kept.mkLine k8) (Kept.mkLine k1)

theorem arrayUe_kept {a : Nat} {who : Nat} {inj : Bool} (k : Kept o h) : Kept o (arrayUe a who inj h) := by
  unfold arrayUe
  extract_lets _ h1 h2
  have k1 : Kept o h1 := regSetField_kept k
  have k2 : Kept o h2 := pmu_kept k1
  exact recordInj_kept k2

theorem moveOut_kept {s : Sector} {ix : Nat} {st : LineSt} (k : Kept o h) : Kept o (moveOut s ix st h).2 := by
  unfold moveOut
  extract_lets _ r1
  have k1 : Kept o (r1).h := readArrayLine_kept k
  clear_value *
  split
  · exact Kept.mkSnd k
  · split
    · exact Kept.mkSnd (bufferWrite_kept (hkBytes_kept k))
    · exact Kept.mkSnd (bufferWrite_kept (hkBytes_kept k))
    · split
      · exact Kept.mkSnd (bufferWrite_kept (hkBytes_kept k1))
      · exact Kept.mkSnd (bufferWrite_kept (hkBytes_kept k1))
      · exact Kept.mkSnd (bufferWrite_kept (hkBytes_kept (Kept.ite k1 (arrayUe_kept k1))))

theorem castGone_kept {s : Sector} {ix : Nat} (k : Kept o h) : Kept o (castGone s ix h) := by
  unfold castGone
  exact Kept.forEach (fun _ _ k1 => setPart_kept (fun _ => rfl) k1) k

theorem putEcho_kept {sl : Nat} {set : Nat} {way : Nat} {v : Nat} (k : Kept o h) : Kept o (putEcho sl set way v h) := by
  unfold putEcho
  extract_lets _ _ _ _ _ _ h1
  have k1 : Kept o h1 := hkBytes_kept k.upd
  exact Kept.ite k.upd (Kept.ite k.upd (Kept.ite k1.upd k1.upd))

theorem echoGone_kept {s : Sector} (k : Kept o h) : Kept o (echoGone s h) := by
  unfold echoGone
  exact Kept.ite (putEcho_kept k) k

theorem putSector_kept {s : Sector} (k : Kept o h) : Kept o (putSector s h) := by
  unfold putSector
  extract_lets
  exact k.upd

theorem evictSector_kept {sl : Nat} {set : Nat} {way : Nat} (k : Kept o h) : KeptOpt o (evictSector sl set way h) := by
  unfold evictSector
  extract_lets _ _ _ h1 h2 h3
  have k1 : Kept o h1 := Kept.forEach (fun _ _ k2 => moveOut_kept k2) k
  have k3 : Kept o h2 := Kept.forEach (fun _ _ k4 => castGone_kept k4) k1
  have k5 : Kept o h3 := echoGone_kept k3
  exact kept_ite trivial (KeptOpt.mkSome (putSector_kept k5))

theorem settleEvict_kept (k : Kept o h) : Kept o (settleEvict h) := by
  unfold settleEvict
  refine Kept.forEach (fun _ _ k1 => ?_) k
  · split
    · rename_i g e
      have k2 := KeptOpt.of_some (evictSector_kept k1) e
      extract_lets
      exact k2.upd
    · exact k1

theorem tidyTongs_kept (k : Kept o h) : Kept o (tidyTongs h) := by
  unfold tidyTongs
  extract_lets
  exact k.upd

theorem setWin_kept {n : Nat} {f : Win → Win} (k : Kept o h) : Kept o (setWin h n f) := k.upd

theorem sealError_kept {n : Nat} {code : Nat} (k : Kept o h) : Kept o (sealError n code h) := record_kept (setWin_kept k)

theorem breakSeal_kept {n : Nat} {a : Nat} (k : Kept o h) : Kept o (breakSeal n a h) := by
  unfold breakSeal
  extract_lets _ h1 h2 h3
  have k1 : Kept o h1 := regSetField_kept k
  have k2 : Kept o h2 := pmu_kept k1
  have k3 : Kept o h3 := setWin_kept k2
  clear_value *
  split
  · exact sealError_kept k3
  · exact record_kept (setWin_kept k3)

theorem breakSeals_kept {a : Nat} {n : Nat} (k : Kept o h) : Kept o (breakSeals a n h) := by
  unfold breakSeals
  exact Kept.forEach (fun _ _ k1 => breakSeal_kept k1) k

theorem countLoss_kept {die : Nat} {pid : Nat} {hi : Nat} (k : Kept o h) : Kept o (countLoss die pid hi h) := pmu_kept (regSetField_kept k)

theorem loseMon_kept {m : Mon} {hi : Nat} (k : Kept o h) : Kept o (loseMon m hi h) := by
  unfold loseMon
  exact countLoss_kept k.upd

theorem loseMons_kept {p : Mon → Bool} {hi : Nat} (k : Kept o h) : Kept o (loseMons p hi h) := by
  unfold loseMons
  exact Kept.forEach (fun _ _ k1 => loseMon_kept k1) k

theorem loseResv_kept {id : Nat} {a : Nat} {n : Nat} {p : Nat → Nat → Bool} (k : Kept o h) : Kept o (loseResv id a n p h) := by
  unfold loseResv
  extract_lets h1
  have k1 : Kept o h1 := loseMons_kept k
  exact Kept.forEach (fun _ _ k2 => countLoss_kept k2) k1.upd

theorem writeLoss_kept {id : Nat} {a : Nat} {n : Nat} {l : Nat} {stream : Nat} (k : Kept o h) : Kept o (writeLoss id a n l stream h) := loseResv_kept k

theorem updTxn_kept {id : Nat} {f : Txn → Txn} (k : Kept o h) : Kept o (updTxn id f h) := k.upd

theorem echoLine_kept {s : Sector} {ix : Nat} {old : LineSt} {st : LineSt} (k : Kept o h) : Kept o (echoLine s ix old st h) := by
  unfold echoLine
  extract_lets _ _ _ _ mark1
  have k1 : ∀ x0 x1, Kept o (mark1 x0 x1) := by
    intro _ _ 
    unfold mark1
    exact putEcho_kept (putSector_kept k)
  refine Kept.ite k ?_
  · clear_value *
    split
    · exact k1 _ _
    · exact Kept.ite (k1 _ _) k
    · exact Kept.ite (putEcho_kept k) k
    · exact k

theorem setSlotLine_kept {sl : Nat} {set : Nat} {way : Nat} {ix : Nat} {st : LineSt} (k : Kept o h) : Kept o (setSlotLine sl set way ix st h) := by
  unfold setSlotLine
  extract_lets _ _ h1 _ h2
  have k1 : Kept o h1 := by
    unfold h1
    clear_value *
    split
    · exact castGone_kept k
    · exact k
  have k2 : Kept o h2 := putSector_kept k1
  exact echoLine_kept k2

theorem setLineSt_kept {a : Nat} {st : LineSt} (k : Kept o h) : Kept o (setLineSt a st h) := by
  unfold setLineSt
  split
  · exact setSlotLine_kept k
  · exact k

theorem fillStart_kept {t : Txn} {slot : Option (Nat × Nat)} (k : Kept o h) : Kept o (fillStart t slot h) := by
  unfold fillStart
  extract_lets
  exact updTxn_kept k.upd

theorem cancelCast_kept {line : Nat} (k : Kept o h) : Kept o (cancelCast line h) := by
  unfold cancelCast
  split
  · exact k
  · extract_lets h1 h2
    have k1 : Kept o h1 := updTxn_kept k
    have k2 : Kept o h2 := setLineSt_kept k1
    exact Kept.ite k1 (Kept.forEach (fun _ _ k3 => fillStart_kept k3) k2)

theorem countDrop_kept {e : LadleE} {index : Nat} (k : Kept o h) : Kept o (countDrop e index h) := pmu_kept (pageAdd_kept (pageAdd_kept k))

theorem ladleKill_kept {line : Nat} (k : Kept o h) : Kept o (ladleKill line h) := by
  unfold ladleKill
  split
  · exact k
  · extract_lets h1
    have k1 : Kept o h1 := countDrop_kept k
    exact Kept.ite k1.upd k1.upd

theorem condPasses_kept {t : Txn} {e : REntry} (k : Kept o h) : Kept o (condPasses t e h) := by
  unfold condPasses
  extract_lets _ _ h1
  have k1 : Kept o h1 := breakSeals_kept (writeLoss_kept k)
  exact Kept.ite (cancelCast_kept (ladleKill_kept k1)) k1

theorem launchSnp_kept {s : Snp} (k : Kept o h) : Kept o (launchSnp s h) := by
  unfold launchSnp
  extract_lets
  exact pmu_kept (sendMsg_kept k)

theorem releaseHeld_kept {id : Nat} (k : Kept o h) : Kept o (releaseHeld id h) := by
  unfold releaseHeld
  extract_lets _ h1
  have k1 : Kept o h1 := k.upd
  exact Kept.forEach (fun _ _ k2 => launchSnp_kept k2) k1

theorem dropTxn_kept {id : Nat} (k : Kept o h) : Kept o (dropTxn id h) := k.upd

theorem finish_kept {t : Txn} (k : Kept o h) : Kept o (finish t h) := releaseHeld_kept (dropTxn_kept k)

theorem sendLat_kept {l : Nat} {m : Msg} {lat : Option (Nat × Nat × Nat)} (k : Kept o h) : Kept o (sendLat l m lat h) := by
  unfold sendLat
  exact Kept.ite (setLink_kept k) k

theorem respond_kept {t : Txn} {m : Msg} (k : Kept o h) : Kept o (respond t m h) := by
  unfold respond
  extract_lets
  exact Kept.ite (sendLat_kept (seamBytes_kept (countDataErr_kept k))) k

theorem setPh_kept {id : Nat} {ph : TxnPh} (k : Kept o h) : Kept o (setPh id ph h) := updTxn_kept k

theorem movIntr_kept {pid : Nat} (k : Kept o h) : Kept o (movIntr pid h) := by
  unfold movIntr
  extract_lets
  exact Kept.ite k (sendMsg_kept k)

theorem hubWriteDone_kept {job : Nat} (k : Kept o h) : Kept o (hubWriteDone job h) := by
  unfold hubWriteDone
  exact Kept.ite k (Kept.ite (raiseCause_kept k) (Kept.ite (movIntr_kept k) k))

theorem finishComp_kept {t : Txn} {bad : Bool} (k : Kept o h) : Kept o (finishComp t bad h) := by
  unfold finishComp
  extract_lets _ h1
  have k1 : Kept o h1 := finish_kept (respond_kept k)
  exact Kept.ite (hubWriteDone_kept k1) k1

theorem freeReply_kept {r : Req} (k : Kept o h) : Kept o (freeReply r h) := by
  unfold freeReply
  extract_lets g1
  have k1 : Kept o g1 := k.upd
  refine Kept.ite k1 ?_
  · clear_value *
    split
    · exact k1
    · exact reply_kept k1

theorem violate_kept {lo : Nat} {n : Nat} (k : Kept o h) : Kept o (violate lo n h) := by
  unfold violate
  extract_lets _ _ h1 h2
  have k1 : Kept o h1 := k.upd
  have k2 : Kept o h2 := by
    unfold h2
    refine Kept.forEach (fun _ _ k3 => ?_) k1
    · clear_value *
      split
      · exact Kept.ite (setSlotLine_kept k3) k3
      · exact k3
  exact Kept.forEach (fun _ _ k4 => releaseHeld_kept (freeReply_kept k4)) k2

theorem issueSnp_kept {kind : Nat} {e : SEnt} {owner : Bool} {t : Txn} (k : Kept o h) : Kept o (issueSnp kind e owner t h) := by
  unfold issueSnp
  extract_lets
  clear_value *
  split
  · exact k
  · extract_lets _ h1
    have k1 : Kept o h1 := k.upd
    exact Kept.ite k (Kept.ite k1 (launchSnp_kept k1))

theorem setHostSt_kept {n : Nat} {a : Nat} {st : Nat} (k : Kept o h) : Kept o (setHostSt n a st h) := by
  unfold setHostSt
  extract_lets
  exact Kept.ite k.upd k.upd

theorem backInval_kept {t : Txn} {v : SEnt} (k : Kept o h) : Kept o (backInval t v h) := by
  unfold backInval
  extract_lets _ _ _ h1 h2
  have k1 : Kept o h1 := k.upd
  have k2 : Kept o h2 := issueSnp_kept k1
  exact setPh_kept (Kept.ite k2 (setHostSt_kept k2))

theorem withSpot_kept {t : Txn} {k' : Nat → Hub → Hub} (kk' : ∀ x0 h, Kept o h → Kept o (k' x0 h)) (k : Kept o h) : Kept o (withSpot t k' h) := by
  unfold withSpot
  split
  · exact kk' _ _ (updTxn_kept k)
  · exact setPh_kept (Kept.ite k (pmuReq_kept k))
  · exact backInval_kept k

theorem putEntry_kept {n : Nat} {a : Nat} {way : Nat} {st : Nat} (k : Kept o h) : Kept o (putEntry n a way st h) := by
  unfold putEntry
  extract_lets
  exact k.upd

theorem grantLoss_kept {id : Nat} {a : Nat} {n : Nat} {host : Nat} (k : Kept o h) : Kept o (grantLoss id a n host h) := loseResv_kept k

theorem recordGrant_kept {t : Txn} {way : Nat} {st : Nat} (k : Kept o h) : Kept o (recordGrant t way st h) := by
  unfold recordGrant
  extract_lets _ h1 h2
  have k1 : Kept o h1 := Kept.ite (putEntry_kept k) (setHostSt_kept k)
  have k2 : Kept o h2 := Kept.ite (grantLoss_kept k1) k1
  exact updTxn_kept k2

theorem invalAll_kept {t : Txn} {es : List SEnt} (k : Kept o h) : Kept o (invalAll t es h) := by
  unfold invalAll
  exact Kept.forEach (fun _ _ k1 => setHostSt_kept (issueSnp_kept k1)) k

theorem dropHost_kept {n : Nat} {lo : Nat} {len : Nat} (k : Kept o h) : Kept o (dropHost n lo len h) := k.upd

theorem askTongs_kept {line : Nat} {l : List (Nat × Nat)} (k : Kept o h) : Kept o (askTongs line l h) := k.upd

theorem evalReq_kept {t : Txn} (k : Kept o h) : Kept o (evalReq t h) := by
  unfold evalReq
  extract_lets _ _ _ h1 _ _ _ _ _ _ _ h2 h3 _ h4 h5 h6
  have k1 : Kept o h1 := Kept.ite (condPasses_kept k) k
  have k2 : Kept o h2 := updTxn_kept k1
  have k3 : Kept o h3 := putEntry_kept k2
  have k4 : Kept o h4 := Kept.ite (dropHost_kept k1) k1
  have k5 : Kept o h5 := invalAll_kept k4
  have k6 : Kept o h6 := Kept.ite (askTongs_kept k5) k5
  refine Kept.ite (finish_kept (respond_kept k1)) (Kept.ite (setPh_kept k1) (Kept.ite (setPh_kept k1) (Kept.ite (Kept.ite (finishComp_kept k1) (setPh_kept k1))
      (Kept.ite (violate_kept k1) (Kept.ite (Kept.ite (violate_kept k1) (withSpot_kept (fun _ _ k7 => ?_) k1)) (Kept.ite (Kept.ite (violate_kept k1) (withSpot_kept
          (fun _ _ k11 => ?_) k1)) (Kept.ite (Kept.ite (violate_kept k2) (Kept.ite (Kept.ite (violate_kept k2) (setPh_kept (updTxn_kept (recordGrant_kept
              (invalAll_kept k2))))) ?_)) (Kept.ite (Kept.ite (violate_kept k1) (Kept.ite (setPh_kept k1) (setPh_kept (Kept.forEach (fun _ _ k17 => issueSnp_kept
                  k17) (pmuReq_kept k1))))) (Kept.ite (violate_kept k1) (setPh_kept (Kept.forEach (fun _ _ k18 => issueSnp_kept k18) k6)))))))))))
  · extract_lets h7
    have k8 : Kept o h7 := putEntry_kept k7
    clear_value *
    split
    · exact setPh_kept (recordGrant_kept k7)
    · extract_lets h8
      have k9 : Kept o h8 := Kept.ite (issueSnp_kept (pmuReq_kept k8)) (Kept.forEach (fun _ _ k10 => issueSnp_kept k10) k8)
      exact setPh_kept k9
  · extract_lets h9
    have k12 : Kept o h9 := Kept.forEach (fun _ _ k13 => setHostSt_kept (issueSnp_kept k13)) (putEntry_kept k11)
    clear_value *
    split
    · exact setPh_kept (recordGrant_kept (invalAll_kept k11))
    · exact Kept.ite (setPh_kept (issueSnp_kept (pmuReq_kept (invalAll_kept (putEntry_kept k11))))) (setPh_kept (Kept.forEach (fun _ _ k14 => issueSnp_kept k14)
        k12))
  · clear_value *
    split
    · exact setPh_kept (updTxn_kept (recordGrant_kept (invalAll_kept k2)))
    · exact Kept.ite (violate_kept k2) (setPh_kept (Kept.ite (issueSnp_kept (pmuReq_kept (invalAll_kept k3))) (Kept.forEach (fun _ _ k16 => issueSnp_kept k16)
        (Kept.forEach (fun _ _ k15 => setHostSt_kept (issueSnp_kept k15)) k3))))

theorem reissueReq_kept {t : Txn} (k : Kept o h) : Kept o (reissueReq t h) := by
  unfold reissueReq
  extract_lets
  exact Kept.ite (setPh_kept (Kept.forEach (fun _ _ k1 => issueSnp_kept k1) k)) (evalReq_kept k)

theorem afterSnoops_kept {t : Txn} (k : Kept o h) : Kept o (afterSnoops t h) := by
  unfold afterSnoops
  extract_lets _ h1 _ h2
  have k1 : Kept o h1 := reply_kept k
  have k2 : Kept o h2 := Kept.ite k (Kept.ite (recordGrant_kept k) (Kept.ite (recordGrant_kept k) k))
  exact Kept.ite (finish_kept k) (Kept.ite (Kept.ite (releaseHeld_kept (setPh_kept k1)) (finish_kept k1)) (Kept.ite (Kept.ite (setPh_kept k) (fillStart_kept k))
      (Kept.ite (setPh_kept k2) (setPh_kept k))))

theorem pathCheck_kept {a : Nat} (k : Kept o h) : Kept o (pathCheck a h).2 := by
  unfold pathCheck
  extract_lets _ _ h1
  have k1 : Kept o h1 := k.upd
  clear_value *
  split
  · exact Kept.mkSnd k
  · exact Kept.mkSnd (regSetField_kept k1)

theorem finishRead_kept {t : Txn} {bad : Bool} {d : List Byte} (k : Kept o h) : Kept o (finishRead t bad d h) := by
  unfold finishRead
  extract_lets _ h1 h2
  have k1 : Kept o h1 := Kept.ite (setHostSt_kept k) k
  have k2 : Kept o h2 := Kept.ite k1.upd k1
  exact Kept.ite (finish_kept (respond_kept k2)) (finish_kept (respond_kept k))

theorem takeTrk_kept {t : Txn} {counts : Bool} (k : Kept o h) : KeptOpt o (takeTrk t counts h) := by
  unfold takeTrk
  extract_lets h1
  have k1 : Kept o h1 := updTxn_kept k
  exact kept_ite (KeptOpt.mkSome k) (kept_ite trivial (kept_ite (KeptOpt.mkSome (Kept.ite (pmuReq_kept (pageAdd_kept k1)) k1)) trivial))

theorem countHit_kept {r : Req} (k : Kept o h) : Kept o (countHit r h) := pmuReq_kept (pageAdd_kept k)

end

end Sys2Proof.Machine

/-!
The home: reads, writes and answers of memory and the cache keep them.
-/

namespace Sys2Proof.Machine

section
variable {o : Option Standing} {h : Hub}

theorem readWords_kept {f : Nat → Hub → Got} (kf : ∀ x h, Kept o h → Kept o (f x h).h) {l : List Nat} (k : Kept o h) : Kept o (readWords f l h).h := by
  induction l generalizing h with
  | nil => exact k
  | cons w r ih => exact ih (kf w h k)

theorem setKetErr_kept {w : Nat} {e : Nat} (k : Kept o h) : Kept o (setKetErr w e h) := by
  unfold setKetErr
  extract_lets
  exact k.updMarks

theorem readKettleWord_kept {off : Nat} {die : Nat} {who : Nat} (k : Kept o h) : Kept o (readKettleWord off die who h).h := by
  unfold readKettleWord
  extract_lets _ _ _ h1 h2 h3
  have k1 : Kept o h1 := setKetErr_kept k
  have k2 : Kept o h2 := regSetField_kept k1
  have k3 : Kept o h3 := pmu_kept k2
  clear_value *
  split
  · exact Kept.mkGot k
  · exact Kept.mkGot (regSetField_kept (setKetErr_kept k))
  · exact Kept.mkGot k
  · exact Kept.mkGot (recordInj_kept k3)

theorem readKettle_kept {e : REntry} {a : Nat} {n : Nat} {pid : Nat} (k : Kept o h) : Kept o (readKettle e a n pid h).h := by
  unfold readKettle
  extract_lets g1
  have k1 : Kept o (g1).h := readWords_kept (fun _ _ k2 => readKettleWord_kept k2) k
  exact Kept.mkGot k1

theorem ladleTake_kept {e : LadleE} (k : Kept o h) : Kept o (ladleTake e h) := by
  unfold ladleTake
  extract_lets h1 h2 h3
  have k1 : Kept o h1 := pmu_kept k
  have k2 : Kept o h2 := pageAdd_kept (pageAdd_kept k1)
  have k3 : Kept o h3 := setPart_kept (fun _ => rfl) k2
  exact k3.upd

theorem countSkip_kept {a : Nat} {pid : Nat} (k : Kept o h) : Kept o (countSkip a pid h) := k.upd

theorem serve_kept {rg : Nat} {pid : Nat} {cls : Nat} {bytes : Nat} (k : Kept o h) : Kept o (serve rg pid cls bytes h) := by
  unfold serve
  extract_lets
  exact k.upd

theorem charge_kept {rg : Nat} {pid : Nat} {cls : Nat} {bytes : Nat} (k : Kept o h) : Kept o (charge rg pid cls bytes h) := by
  unfold charge
  extract_lets h1
  have k1 : Kept o h1 := serve_kept k
  exact Kept.ite (pageAdd_kept k1.upd) k1

theorem issuePrefetch_kept {line : Nat} {pid : Nat} {cls : Nat} (k : Kept o h) : Kept o (issuePrefetch line pid cls h) := by
  unfold issuePrefetch
  extract_lets _ _ h1 h2 _ h3
  have k1 : Kept o h1 := pmu_kept (pageAdd_kept k)
  have k2 : Kept o h2 := charge_kept k1
  have k3 : Kept o h3 := by
    unfold h3
    refine Kept.ite k2 ?_
    · clear_value *
      split
      · exact k2
      · exact Kept.ite k2.upd k2.upd
  exact Kept.ite (countSkip_kept k) k3.upd

theorem trainDetector_kept {a : Nat} {l : Nat} {stream : Nat} {pid : Nat} {cls : Nat} (k : Kept o h) : Kept o (trainDetector a l stream pid cls h) := by
  unfold trainDetector
  extract_lets _ _ _ _ _ _ _ _ h1
  have k1 : Kept o h1 := k.upd
  refine Kept.ite (Kept.forEach (fun _ _ k2 => ?_) k1) k1
  · extract_lets
    exact Kept.ite (issuePrefetch_kept k2) k2

theorem chooseVictim_kept {sl : Nat} {set : Nat} {pid : Nat} (k : Kept o h) : KeptOptSnd o (chooseVictim h sl set pid) := by
  unfold chooseVictim
  extract_lets _ _ h1
  have k1 : Kept o h1 := Kept.forEach (fun _ _ k2 => putSector_kept k2) k
  clear_value *
  split
  · exact trivial
  · split
    · exact KeptOptSnd.mkSome (Kept.mkSnd k)
    · split
      · exact KeptOptSnd.mkSome (Kept.mkSnd k)
      · exact KeptOptSnd.map (fun _ => Kept.mkSnd k1)

theorem placeLine_kept {a : Nat} {pid : Nat} {owner : Nat} {age : Nat} (k : Kept o h) : KeptPlace o (placeLine a pid owner age h) := by
  unfold placeLine
  extract_lets
  clear_value *
  split
  · exact kept_ite (KeptPlace.got k) trivial
  · refine kept_ite trivial ?_
    · split
      · exact trivial
      · rename_i g e
        have k1 := KeptOptSnd.of_some (chooseVictim_kept k) e
        split
        · exact trivial
        · rename_i g e
          have k2 := KeptOpt.of_some (evictSector_kept k1) e
          extract_lets
          exact KeptPlace.got (putSector_kept k2)

theorem encodeLine_kept {off : Nat} {a : Nat} (k : Kept o h) : Kept o (encodeLine off a h) := by
  unfold encodeLine
  extract_lets
  exact k.updMarks

theorem dropBack_kept {kind : Nat} {key : Nat} (k : Kept o h) : Kept o (dropBack kind key h) := by
  unfold dropBack
  extract_lets
  exact k.upd

theorem clearLineErr_kept {off : Nat} (k : Kept o h) : Kept o (clearLineErr off h) := by
  unfold clearLineErr
  extract_lets _ h1
  have k1 : Kept o h1 := dropBack_kept k
  exact k1.updMarks

theorem writeArrayLine_kept {off : Nat} {a : Nat} {who : Nat} {d : List Byte} (k : Kept o h) : Kept o (writeArrayLine off a who d h) := by
  unfold writeArrayLine
  extract_lets h1
  have k1 : Kept o h1 := pmu_kept k
  exact encodeLine_kept (clearLineErr_kept (k1.updMems id (wf_memWriteN · _ _) id))

theorem touch_kept {a : Nat} {pid : Nat} (k : Kept o h) : Kept o (touch a pid h) := by
  unfold touch
  extract_lets
  clear_value *
  split
  · exact k
  · extract_lets h1
    have k1 : Kept o h1 := Kept.forEach (fun _ _ k2 => setPart_kept (fun _ => rfl) k2) k
    exact Kept.ite k (putSector_kept k1)

theorem countBypass_kept {a : Nat} {pid : Nat} {cls : Nat} {port : Nat} (k : Kept o h) : Kept o (countBypass a pid cls port h) := pmu_kept (pageAdd_kept k)

theorem ladleMove_kept {r : Req} {d : List Byte} (k : Kept o h) : KeptOpt o (ladleMove r d h) := by
  unfold ladleMove
  extract_lets
  clear_value *
  split
  · rename_i g _ _ e
    have k1 := KeptPlace.of_got (placeLine_kept k) e
    extract_lets h1
    have k2 : Kept o h1 := writeArrayLine_kept (Kept.ite (touch_kept k1) k1)
    exact KeptOpt.mkSome (setSlotLine_kept k2)
  · exact KeptOpt.mkSome (countBypass_kept k)
  · exact trivial

theorem mainCe_kept {e : REntry} {a : Nat} {who : Nat} {partner : Bool} (k : Kept o h) : Kept o (mainCe e a who partner h) := by
  unfold mainCe
  extract_lets _ _ _ h1
  have k1 : Kept o h1 := pmu_kept k
  exact correctAt_kept (pageAdd_kept k1)

theorem putMainErr_kept {partner : Bool} {w : Nat} {e : Nat} (k : Kept o h) : Kept o (putMainErr partner w e h) := by
  unfold putMainErr
  extract_lets
  exact Kept.ite k.updMarks k.updMarks

theorem setMainErr_kept {partner : Bool} {w : Nat} {e : Nat} (k : Kept o h) : Kept o (setMainErr partner w e h) := dropBack_kept (putMainErr_kept k)

theorem poisonCopies_kept {e : REntry} {a : Nat} {w : Nat} (k : Kept o h) : Kept o (poisonCopies e a w h) := by
  unfold poisonCopies
  exact Kept.ite (Kept.forEach (fun _ _ k1 => Kept.ite (setMainErr_kept k1) k1) k) (setMainErr_kept k)

theorem mainUe_kept {a : Nat} {who : Nat} {inj : Bool} (k : Kept o h) : Kept o (mainUe a who inj h) := by
  unfold mainUe
  extract_lets _ h1 h2
  have k1 : Kept o h1 := regSetField_kept k
  have k2 : Kept o h2 := pmu_kept k1
  exact recordInj_kept k2

theorem readMainWord_kept {e : REntry} {a : Nat} {pid : Nat} (k : Kept o h) : Kept o (readMainWord e a pid h).h := by
  unfold readMainWord
  extract_lets _ _ _ _ _ _ _ _ h1 _ h2
  have k1 : Kept o h1 := setMainErr_kept k
  have k2 : Kept o h2 := mainCe_kept (setMainErr_kept k)
  refine Kept.iteGot (Kept.iteGot (Kept.mkGot k) (Kept.iteGot (Kept.mkGot k) ?_)) (Kept.iteGot (Kept.mkGot k) (Kept.iteGot (Kept.mkGot k) ?_))
  · clear_value *
    split
    · exact Kept.mkGot k
    · exact Kept.mkGot (mainCe_kept k)
    · split
      · exact Kept.mkGot (regSetField_kept k1)
      · exact Kept.mkGot (regSetField_kept k2)
      · exact Kept.iteGot (Kept.mkGot k) (Kept.mkGot (poisonCopies_kept (mainUe_kept k)))
  · clear_value *
    split
    · exact Kept.mkGot k
    · exact Kept.mkGot (mainCe_kept k)
    · exact Kept.mkGot k
    · exact Kept.mkGot (setMainErr_kept (mainUe_kept k))

theorem readMain_kept {e : REntry} {a : Nat} {n : Nat} {who : Nat} (k : Kept o h) : Kept o (readMain e a n who h).h := by
  unfold readMain
  extract_lets g1 _ h2
  have k1 : Kept o (g1).h := readWords_kept (fun _ _ k2 => readMainWord_kept k2) k
  have k3 : Kept o h2 := pmu_kept k1
  exact Kept.mkGot k3

theorem readCached_kept {a : Nat} {who : Nat} (k : Kept o h) : KeptCRead o (readCached a who h) := by
  unfold readCached
  split
  · rename_i s _ e _ _
    have k1 : Kept o (readArrayLine (lineOffset s a) a who (locSlot s.slice s.set s.way) h).h := readArrayLine_kept k
    extract_lets line off loc r
    change Kept o r.h at k1
    clear_value r
    split
    · exact KeptCRead.good k
    · exact KeptCRead.bad k
    · exact KeptCRead.good k
    · split
      · exact KeptCRead.good k1
      · exact KeptCRead.good k1
      · extract_lets h2 _ h3 g
        have k2 : Kept o h2 := Kept.ite k1 (arrayUe_kept k1)
        have k3 : Kept o h3 := k2.upd
        clear_value h3
        have k4 : Kept o g.h := readMain_kept k3
        clear_value g
        exact kept_ite (KeptCRead.good k3) (kept_ite (KeptCRead.bad k4) (KeptCRead.good k4))
    · split
      · exact KeptCRead.good k1
      · exact KeptCRead.good k1
      · exact KeptCRead.bad (setLineSt_kept k1)
      · have k2 : Kept o (arrayUe a who r.inj r.h) := arrayUe_kept k1
        have k3 := Kept.ite (c := chipKill (arrayUe a who r.inj r.h)) k2 (corrNote_kept (die := homeDie a) (loc := loc) (pos := 15) k2)
        exact kept_ite (KeptCRead.miss (setLineSt_kept k3)) (KeptCRead.bad (setLineSt_kept k3))
    · split
      · exact KeptCRead.good k1
      · exact KeptCRead.good k1
      · exact KeptCRead.bad (setLineSt_kept k1)
      · exact KeptCRead.bad (setLineSt_kept (arrayUe_kept k1))
    · exact KeptCRead.miss k
  · exact KeptCRead.miss k

theorem readHome_kept {e : REntry} {r : Req} {att : Bool} (k : Kept o h) : KeptHRead o (readHome e r att h) := by
  unfold readHome
  extract_lets _ hit1 g2
  have k1 : ∀ h, Kept o h → Kept o (hit1 h) := by
    intro _ k2
    unfold hit1
    exact Kept.ite k2 (countHit_kept k2)
  have k3 : Kept o (g2).h := readKettle_kept k
  clear_value *
  split
  · exact kept_ite (KeptHRead.bad k3) (KeptHRead.good k3)
  · exact KeptHRead.miss k
  · exact KeptHRead.miss k
  · exact KeptHRead.miss k
  · exact KeptHRead.miss k
  · exact KeptHRead.bad k
  · split
    · exact KeptHRead.wait k
    · split
      · exact KeptHRead.good (k1 _ k)
      · split
        · exact KeptHRead.miss k
        · extract_lets g3 g4
          have k4 : Kept o g3 := ladleTake_kept (Kept.ite k (pmuReq_kept k))
          have k5 : Kept o g4 := Kept.ite (trainDetector_kept k4) k4
          refine kept_ite (KeptHRead.wait k) ?_
          · clear_value *
            split
            · rename_i g e
              have k6 := KeptOpt.of_some (ladleMove_kept k5) e
              exact KeptHRead.good k6
            · exact KeptHRead.wait k
    · split
      · rename_i g _ e
        have k7 := KeptCRead.of_good (readCached_kept k) e
        exact KeptHRead.good (Kept.ite k7 (touch_kept (countHit_kept k7)))
      · rename_i g e
        have k8 := KeptCRead.of_bad (readCached_kept k) e
        exact KeptHRead.bad k8
      · rename_i g e
        have k9 := KeptCRead.of_miss (readCached_kept k) e
        exact KeptHRead.miss k9

theorem advServe_kept {t : Txn} (k : Kept o h) : KeptOpt o (advServe t h) := by
  unfold advServe
  extract_lets _ _ p1
  have k1 : Kept o (p1).2 := pathCheck_kept k
  refine kept_ite trivial (kept_ite (KeptOpt.mkSome (finishComp_kept k)) (kept_ite (KeptOpt.mkSome (finish_kept k)) (kept_ite (KeptOpt.mkSome (finishRead_kept k1))
      (kept_ite (kept_ite trivial (kept_ite (KeptOpt.mkSome (finishRead_kept k)) (KeptOpt.mapHub (fun _ k2 => fillStart_kept k2) (takeTrk_kept k)))) (kept_ite
          (KeptOpt.mkSome (finishRead_kept k)) ?_)))))
  · clear_value *
    split
    · rename_i g _ e
      have k3 := KeptHRead.of_good (readHome_kept k) e
      extract_lets p2
      have k4 : Kept o (p2).2 := pathCheck_kept k3
      exact KeptOpt.mkSome (finishRead_kept k4)
    · rename_i g e
      have k5 := KeptHRead.of_bad (readHome_kept k) e
      exact KeptOpt.mkSome (finishRead_kept k5)
    · rename_i g e
      have k6 := KeptHRead.of_wait (readHome_kept k) e
      exact kept_ite trivial (KeptOpt.mkSome (updTxn_kept k6))
    · rename_i g e
      have k7 := KeptHRead.of_miss (readHome_kept k) e
      refine kept_ite (KeptOpt.mkSome (finishRead_kept k7)) ?_
      · split
        · exact trivial
        · rename_i g e
          have k8 := KeptOpt.of_some (takeTrk_kept k7) e
          extract_lets g3
          have k9 : Kept o g3 := Kept.ite (trainDetector_kept k8) k8
          refine kept_ite (KeptOpt.mkSome (fillStart_kept k8)) ?_
          · clear_value *
            split
            · exact trivial
            · exact KeptOpt.mkSome (fillStart_kept (countBypass_kept k9))
            · rename_i g _ _ e
              have k10 := KeptPlace.of_got (placeLine_kept k9) e
              extract_lets g4
              have k11 : Kept o g4 := Kept.ite (touch_kept k10) k10
              exact KeptOpt.mkSome (fillStart_kept (setSlotLine_kept k11))

theorem landCast_kept {t : Txn} {d : List Byte} (k : Kept o h) : Kept o (landCast t d h) := by
  unfold landCast
  extract_lets
  clear_value *
  split
  · exact finish_kept (respond_kept k)
  · extract_lets h1 h2 h3
    have k1 : Kept o h1 := writeArrayLine_kept k
    have k2 : Kept o h2 := setSlotLine_kept k1
    have k3 : Kept o h3 := pmuReq_kept (pageAdd_kept k2)
    exact finish_kept (respond_kept k3)

theorem failAtomic_kept {t : Txn} (k : Kept o h) : Kept o (failAtomic t h) := by
  unfold failAtomic
  extract_lets h1
  have k1 : Kept o h1 := finish_kept (respond_kept k)
  exact Kept.ite k1 k1.upd

theorem finishAtomic_kept {t : Txn} {old : List Byte} (k : Kept o h) : Kept o (finishAtomic t old h) := finish_kept (respond_kept (pmuReq_kept k))

theorem writeKettleWord_kept {off : Nat} {die : Nat} {pid : Nat} {d : List Byte} {m : List Bool} (k : Kept o h) : Kept o (writeKettleWord off die pid d m h) := by
  have k1 := readKettleWord_kept (off := off / 8 * 8) (die := die) (who := pid) k
  unfold writeKettleWord
  refine Kept.ite k (Kept.ite (setKetErr_kept ?_) (Kept.ite k1 (setKetErr_kept ?_)))
  · exact k.updMems id id (wf_memWriteN · _ _)
  · exact k1.updMems id id (wf_memWriteN · _ _)

theorem writeKettle_kept {e : REntry} {a : Nat} {pid : Nat} {d : List Byte} {m : List Bool} (k : Kept o h) : Kept o (writeKettle e a pid d m h) := by
  unfold writeKettle
  exact Kept.forEach (fun _ _ k1 => writeKettleWord_kept k1) k

theorem holdLine_kept {line : Nat} {d : List Byte} (k : Kept o h) : Kept o (holdLine line d h) := k.upd

theorem partialBad_kept {e : REntry} {a : Nat} {who : Nat} {m : List Bool} (k : Kept o h) : Kept o (partialBad e a who m h).2 := by
  unfold partialBad
  refine Kept.iteSnd (Kept.mkSnd k) (Kept.foldlSnd (fun _ _ k1 => ?_) (Kept.mkSnd k))
  · extract_lets _ g1
    have k2 : Kept o (g1).h := readMainWord_kept k1
    refine Kept.iteSnd ?_ k1
    · clear_value *
      split
      · exact Kept.mkSnd k1
      · exact Kept.mkSnd k2

theorem poisonLine_kept {off : Nat} {a : Nat} (k : Kept o h) : Kept o (poisonLine off a h) := by
  unfold poisonLine
  extract_lets h1
  have k1 : Kept o h1 := encodeLine_kept (clearLineErr_kept k)
  exact Kept.ite k1.updMarks k1.updMarks

theorem readNear_kept {e : REntry} {a : Nat} {pid : Nat} (k : Kept o h) : Kept o (readNear e a pid h).h := by
  unfold readNear
  extract_lets _ r1
  have k1 : Kept o (r1).h := readArrayLine_kept k
  refine Kept.iteGot (Kept.mkGot k) ?_
  · clear_value *
    split
    · exact Kept.mkGot k1
    · exact Kept.mkGot (poisonLine_kept (arrayUe_kept k1))
    · exact Kept.mkGot k1

theorem throughBuffer_kept {e : REntry} {a : Nat} {d : List Byte} {m : List Bool} {who : Nat} {txn : Nat} (k : Kept o h) : KeptWRes o (throughBuffer e a d m who txn
    h) := by
  unfold throughBuffer
  extract_lets _ g1
  have k1 : Kept o (g1).h := readNear_kept k
  refine kept_ite (KeptWRes.derr k) (kept_ite (KeptWRes.done (bufferWrite_kept k)) (kept_ite ?_ (kept_ite (KeptWRes.derr k) (kept_ite (KeptWRes.done
      (bufferWrite_kept k)) (kept_ite (KeptWRes.done (bufferWrite_kept k)) (kept_ite (KeptWRes.derr k1) (KeptWRes.done (bufferWrite_kept k1))))))))
  · clear_value *
    split
    · rename_i g e
      have k2 := Kept.of_snd (partialBad_kept k) e
      exact kept_ite (KeptWRes.derr k2) (KeptWRes.done (bufferWrite_kept k2))

theorem mergeLine_kept {e : REntry} {s : Sector} {a : Nat} {base : List Byte} {d : List Byte} {m : List Bool} {who : Nat} {txn : Nat} {flushing : Option Bool} (k :
    Kept o h) : KeptWRes o (mergeLine e s a base d m who txn flushing h) := by
  unfold mergeLine
  extract_lets h1
  have k1 : Kept o h1 := writeArrayLine_kept k
  exact kept_ite (KeptWRes.done (setLineSt_kept (writeArrayLine_kept k))) (kept_ite (KeptWRes.derr k) (KeptWRes.done (setLineSt_kept (bufferWrite_kept k1))))

theorem writeHit_kept {a : Nat} {pid : Nat} {cls : Nat} {port : Nat} {merge : Bool} (k : Kept o h) : Kept o (writeHit a pid cls port merge h) := by
  unfold writeHit
  exact Kept.ite k (touch_kept (pmu_kept (pageAdd_kept k)))

theorem writeCached_kept {e : REntry} {a : Nat} {d : List Byte} {m : List Bool} {pid : Nat} {cls : Nat} {port : Nat} {txn : Nat} {merge : Bool} (k : Kept o h) :
    KeptWRes o (writeCached e a d m pid cls port txn merge h) := by
  unfold writeCached
  extract_lets _ _ missCase1
  have k1 : ∀ h, Kept o h → KeptWRes o (missCase1 h) := by
    intro _ k2
    unfold missCase1
    extract_lets
    refine kept_ite ?_ (throughBuffer_kept k2)
    · clear_value *
      split
      · exact throughBuffer_kept (countBypass_kept k2)
      · exact trivial
      · rename_i g _ _ e
        have k3 := KeptPlace.of_got (placeLine_kept k2) e
        extract_lets g2
        have k4 : Kept o g2 := Kept.ite (touch_kept k3) k3
        exact kept_ite (KeptWRes.done (setSlotLine_kept (writeArrayLine_kept k4))) (kept_ite (KeptWRes.derr k2) (KeptWRes.fetch (setSlotLine_kept k4)))
  clear_value *
  split
  · exact k1 _ k
  · extract_lets onto3 read4
    have k5 : ∀ x0 x1 h, Kept o h → KeptWRes o (onto3 x0 x1 h) := by
      intro _ _ _ k6
      unfold onto3
      exact mergeLine_kept (writeHit_kept k6)
    have k7 : ∀ x0, KeptWRes o (read4 x0) := by
      intro _ 
      unfold read4
      clear_value *
      split
      · rename_i g _ e
        have k8 := KeptCRead.of_good (readCached_kept k) e
        exact k5 _ _ _ k8
      · rename_i g e
        have k9 := KeptCRead.of_bad (readCached_kept k) e
        exact KeptWRes.derr k9
      · rename_i g e
        have k10 := KeptCRead.of_miss (readCached_kept k) e
        exact k1 _ k10
    clear_value *
    split
    · exact k5 _ _ _ k
    · exact kept_ite (k5 _ _ _ k) (k7 _)
    · exact kept_ite (k5 _ _ _ k) (KeptWRes.derr k)
    · exact kept_ite (k5 _ _ _ k) (k7 _)
    · exact kept_ite (k5 _ _ _ k) (k7 _)
    · exact trivial
    · exact k1 _ k

theorem writeHome_kept {e : REntry} {a : Nat} {d : List Byte} {m : List Bool} {pid : Nat} {cls : Nat} {port : Nat} {txn : Nat} {merge : Bool} (k : Kept o h) :
    KeptWRes o (writeHome e a d m pid cls port txn merge h) := by
  unfold writeHome
  extract_lets
  clear_value *
  split
  · exact writeCached_kept k
  · exact writeCached_kept k
  · exact KeptWRes.derr k
  · exact KeptWRes.derr k
  · exact kept_ite (KeptWRes.derr k) (KeptWRes.done (writeKettle_kept k))
  · exact throughBuffer_kept k

theorem runAtomic_kept {t : Txn} {e : REntry} {line : List Byte} (k : Kept o h) : KeptOpt o (runAtomic t e line h) := by
  unfold runAtomic
  extract_lets
  refine kept_ite (KeptOpt.mkSome (finishAtomic_kept (holdLine_kept k))) (kept_ite trivial ?_)
  · clear_value *
    split
    · rename_i g e
      have k1 := KeptWRes.of_done (writeHome_kept (updTxn_kept k)) e
      exact KeptOpt.mkSome (finishAtomic_kept (holdLine_kept k1))
    · rename_i g e
      have k2 := KeptWRes.of_derr (writeHome_kept (updTxn_kept k)) e
      exact KeptOpt.mkSome (failAtomic_kept k2)
    · exact trivial

theorem advAtomic_kept {t : Txn} (k : Kept o h) : KeptOpt o (advAtomic t h) := by
  unfold advAtomic
  extract_lets _ _ g1
  have k1 : Kept o (g1).h := readKettle_kept k
  clear_value *
  split
  · exact kept_ite (KeptOpt.mkSome (failAtomic_kept k1)) (KeptOpt.mkSome (finishAtomic_kept (Kept.ite (writeKettle_kept k1) k1)))
  · exact KeptOpt.mkSome (failAtomic_kept k)
  · exact KeptOpt.mkSome (failAtomic_kept k)
  · exact kept_ite trivial (kept_ite (KeptOpt.mkSome (failAtomic_kept k)) (KeptOpt.mapHub (fun _ k2 => fillStart_kept k2) (takeTrk_kept k)))
  · split
    · exact runAtomic_kept k
    · refine kept_ite (KeptOpt.mkSome (failAtomic_kept k)) (kept_ite (runAtomic_kept k) (kept_ite (KeptOpt.mkSome (failAtomic_kept k)) ?_))
      · split
        · rename_i g _ e
          have k3 := KeptHRead.of_good (readHome_kept k) e
          exact runAtomic_kept k3
        · rename_i g e
          have k4 := KeptHRead.of_bad (readHome_kept k) e
          exact KeptOpt.mkSome (failAtomic_kept k4)
        · rename_i g e
          have k5 := KeptHRead.of_wait (readHome_kept k) e
          exact kept_ite trivial (KeptOpt.mkSome (updTxn_kept k5))
        · rename_i g e
          have k6 := KeptHRead.of_miss (readHome_kept k) e
          exact kept_ite (KeptOpt.mkSome (failAtomic_kept k6)) (KeptOpt.mapHub (fun _ k7 => fillStart_kept k7) (takeTrk_kept k6))

theorem poisonWrite_kept {e : REntry} {a : Nat} {d : List Byte} {m : List Bool} {pid : Nat} {txn : Nat} (k : Kept o h) : Kept o (poisonWrite e a d m pid txn h) := by
  unfold poisonWrite
  extract_lets h1
  have k1 : Kept o h1 := bufferWrite_kept k
  clear_value *
  split
  · exact Kept.forEach (fun _ _ k2 => Kept.ite (setKetErr_kept k2) k2) k
  · exact Kept.ite (setLineSt_kept k) (bufferWrite_kept k)
  · exact k
  · exact k
  · exact Kept.ite (setLineSt_kept k1) k1

theorem zeroHome_kept {e : REntry} {a : Nat} {pid : Nat} {cls : Nat} {port : Nat} {txn : Nat} (k : Kept o h) : KeptWRes o (zeroHome e a pid cls port txn h) := by
  unfold zeroHome
  extract_lets _ _ put1
  have k1 : ∀ x0 x1 x2 x3 h, Kept o h → Kept o (put1 x0 x1 x2 x3 h) := by
    intro _ _ _ _ _ k2
    unfold put1
    exact setSlotLine_kept (Kept.ite k2 (touch_kept k2))
  clear_value *
  split
  · exact KeptWRes.derr k
  · exact KeptWRes.done (writeKettle_kept k)
  · refine kept_ite trivial (kept_ite (KeptWRes.derr k) ?_)
    · split
      · exact KeptWRes.done (bufferWrite_kept (k1 _ _ _ _ _ k))
      · split
        · rename_i g _ _ e
          have k3 := KeptPlace.of_got (placeLine_kept k) e
          exact KeptWRes.done (bufferWrite_kept (k1 _ _ _ _ _ k3))
        · exact trivial
        · exact KeptWRes.done (bufferWrite_kept (countBypass_kept k))
  · split
    · exact trivial
    · exact kept_ite (KeptWRes.derr k) (KeptWRes.done (bufferWrite_kept (touch_kept (setLineSt_kept k))))
    · refine kept_ite (KeptWRes.done (touch_kept (setLineSt_kept k))) ?_
      · split
        · rename_i g _ _ e
          have k4 := KeptPlace.of_got (placeLine_kept k) e
          exact KeptWRes.done (k1 _ _ _ _ _ k4)
        · exact trivial
        · exact kept_ite (KeptWRes.derr k) (KeptWRes.done (bufferWrite_kept (countBypass_kept k)))
  · exact throughBuffer_kept k

theorem applyLine_kept {t : Txn} (k : Kept o h) : KeptWRes o (applyLine t h) := by
  unfold applyLine
  extract_lets _ _ _ p1
  have k1 : Kept o (p1).2 := pathCheck_kept k
  exact kept_ite (KeptWRes.done (poisonWrite_kept k1)) (kept_ite (zeroHome_kept k1) (writeHome_kept k1))

theorem tongMerge_kept {r : Req} (k : Kept o h) : Kept o (tongMerge r h) := k.upd

theorem wbApplied_kept {t : Txn} (k : Kept o h) : Kept o (wbApplied t h) := updTxn_kept k

theorem advReady_kept {t : Txn} (k : Kept o h) : KeptOpt o (advReady t h) := by
  unfold advReady
  extract_lets
  refine kept_ite (kept_ite trivial (KeptOpt.mkSome (finish_kept (respond_kept k)))) (kept_ite (KeptOpt.mkSome (landCast_kept k)) (kept_ite trivial (kept_ite
      (KeptOpt.mkSome (finish_kept k)) (kept_ite (advAtomic_kept k) (kept_ite trivial (kept_ite trivial ?_))))))
  · clear_value *
    split
    · rename_i g e
      have k1 := KeptWRes.of_done (applyLine_kept (updTxn_kept k)) e
      extract_lets h1
      have k2 : Kept o h1 := Kept.ite (tongMerge_kept k1) k1
      exact kept_ite (KeptOpt.mkSome (wbApplied_kept k2)) (kept_ite (KeptOpt.mkSome (finish_kept k2)) (kept_ite (KeptOpt.mkSome (updTxn_kept k2)) (KeptOpt.mkSome
          (finishComp_kept k2))))
    · rename_i g e
      have k3 := KeptWRes.of_derr (applyLine_kept (updTxn_kept k)) e
      exact kept_ite (KeptOpt.mkSome (wbApplied_kept (updTxn_kept k3))) (kept_ite (KeptOpt.mkSome (finish_kept k3)) (KeptOpt.mkSome (finishComp_kept k3)))
    · rename_i g _ _ e
      have k4 := KeptWRes.of_fetch (applyLine_kept (updTxn_kept k)) e
      exact KeptOpt.mapHub (fun _ k5 => fillStart_kept (updTxn_kept k5)) (takeTrk_kept k4)
    · exact kept_ite trivial (KeptOpt.mkSome (updTxn_kept k))

theorem closeSnp_kept {s : Snp} (k : Kept o h) : Kept o (closeSnp s h) := k.upd

theorem invalSharers_kept {s : Snp} {t : Txn} (k : Kept o h) : Kept o (invalSharers s t h) := invalAll_kept k

theorem wbSatisfy_kept {s : Snp} {w : Txn} (k : Kept o h) : Kept o (wbSatisfy s w h) := by
  unfold wbSatisfy
  extract_lets h1
  have k1 : Kept o h1 := closeSnp_kept k
  clear_value *
  split
  · exact k1
  · extract_lets h2
    have k2 : Kept o h2 := updTxn_kept (updTxn_kept k1)
    exact Kept.ite (setPh_kept k1) (Kept.ite (recordGrant_kept k2) (Kept.ite (recordGrant_kept (invalSharers_kept k2)) (Kept.ite k2 (invalSharers_kept k2))))

theorem advClosing_kept {t : Txn} (k : Kept o h) : KeptOpt o (advClosing t h) := by
  unfold advClosing
  refine kept_ite ?_ (kept_ite trivial (KeptOpt.mkSome (finish_kept k)))
  · split
    · exact kept_ite (KeptOpt.mkSome (wbSatisfy_kept k)) trivial
    · exact kept_ite trivial (KeptOpt.mkSome (finish_kept (respond_kept k)))

theorem castArrived_kept {t : Txn} {d : List Byte} (k : Kept o h) : Kept o (castArrived t d h) := by
  unfold castArrived
  extract_lets _ h1 h2
  have k1 : Kept o h1 := Kept.ite (charge_kept k) k
  have k2 : Kept o h2 := updTxn_kept k1
  exact Kept.ite (finish_kept (respond_kept k)) (Kept.ite (landCast_kept k2) (setPh_kept (Kept.forEach (fun _ _ k3 => issueSnp_kept k3) k2)))

theorem castBegin_kept {t : Txn} (k : Kept o h) : Kept o (castBegin t h) := by
  unfold castBegin
  extract_lets _ h1 h2
  have k1 : Kept o h1 := updTxn_kept k
  have k2 : Kept o h2 := reply_kept k1
  exact Kept.ite (castArrived_kept k1) (Kept.ite (cancelCast_kept k2) k2)

theorem declineCast_kept {r : Req} {reason : Nat} (k : Kept o h) : Kept o (declineCast r reason h) := by
  unfold declineCast
  extract_lets _ h1
  have k1 : Kept o h1 := pmu_kept (pageAdd_kept k)
  exact Kept.ite (reply_kept k1) (reply_kept k1)

theorem advAlloc_kept {t : Txn} (k : Kept o h) : KeptOpt o (advAlloc t h) := by
  unfold advAlloc
  extract_lets
  refine kept_ite (KeptOpt.mkSome (castBegin_kept k)) (kept_ite (KeptOpt.mkSome (declineCast_kept (dropTxn_kept k))) ?_)
  · clear_value *
    split
    · exact trivial
    · exact KeptOpt.mkSome (declineCast_kept (dropTxn_kept k))
    · rename_i g _ _ e
      have k1 := KeptPlace.of_got (placeLine_kept k) e
      extract_lets g1 _ g2
      have k2 : Kept o g1 := setSlotLine_kept k1
      have k3 : Kept o g2 := putSector_kept k2
      exact KeptOpt.mkSome (castBegin_kept k3)

theorem advance_kept {id : Nat} (k : Kept o h) : KeptOpt o (advance id h) := by
  unfold advance
  split
  · exact trivial
  · split
    · exact kept_ite trivial (kept_ite trivial (KeptOpt.mkSome (evalReq_kept k)))
    · exact kept_ite trivial (KeptOpt.mkSome (reissueReq_kept k))
    · split
      · exact trivial
      · exact kept_ite trivial (KeptOpt.mkSome (evalReq_kept k))
    · exact kept_ite trivial (KeptOpt.mkSome (evalReq_kept k))
    · exact kept_ite (KeptOpt.mkSome (afterSnoops_kept k)) trivial
    · exact advServe_kept k
    · exact advReady_kept k
    · exact advClosing_kept k
    · exact advAlloc_kept k
    · exact trivial
    · exact trivial
    · exact trivial

theorem settlePass_kept {l : List Nat} (k : Kept o h) : Kept o (settlePass l h).2 := by
  induction l generalizing h with
  | nil => exact k
  | cons id r ih =>
    unfold settlePass
    split
    · rename_i g e
      exact Kept.mkSnd (ih (KeptOpt.of_some (advance_kept k) e))
    · exact ih k

theorem settleLoop_kept {n : Nat} (k : Kept o h) : Kept o (settleLoop n h) := by
  induction n generalizing h with
  | zero => exact k
  | succ n ih =>
    unfold settleLoop
    extract_lets p1
    have k1 : Kept o p1.2 := settlePass_kept k
    exact Kept.ite (ih k1) k1

theorem settle_kept (k : Kept o h) : Kept o (settle h) := by
  unfold settle
  extract_lets h1
  have k1 : Kept o h1 := settleEcho_kept (settleEvict_kept (tidyTongs_kept k))
  exact settleLoop_kept k1

theorem fence_kept {r : Req} (k : Kept o h) : Kept o (fence r h) := by
  unfold fence
  extract_lets
  exact Kept.ite (refuse_kept k) (settle_kept k.upd)

theorem clearResv_kept {l : Nat} {stream : Nat} {all : Bool} (k : Kept o h) : Kept o (clearResv l stream all h) := loseMons_kept k

theorem hintLines_kept {a : Nat} {count : Nat} {pid : Nat} {cls : Nat} (k : Kept o h) : Kept o (hintLines a count pid cls h) := by
  unfold hintLines
  refine Kept.forEach (fun _ _ k1 => ?_) k
  · extract_lets
    refine Kept.ite ?_ (countSkip_kept k1)
    · clear_value *
      split
      · exact Kept.ite (issuePrefetch_kept k1) (countSkip_kept k1)
      · exact countSkip_kept k1

theorem hint_kept {r : Req} (k : Kept o h) : Kept o (hint r h) := by
  unfold hint
  refine Kept.ite k ?_
  · split
    · exact k
    · exact hintLines_kept k

end

end Sys2Proof.Machine

/-!
The twin's side of a line, and a message's way to its home, keep them.
-/

namespace Sys2Proof.Machine

section
variable {o : Option Standing} {h : Hub}

theorem toTwinCast_kept {r : Req} (k : Kept o h) : KeptOpt o (toTwinCast r h) := by
  unfold toTwinCast
  split
  · exact trivial
  · exact KeptOpt.mkSome (sendMsg_kept k)

theorem setProxy_kept {a : Nat} {way : Nat} {st : Nat} (k : Kept o h) : Kept o (setProxy a way st h) := by
  unfold setProxy
  extract_lets
  exact Kept.ite k.upd k.upd

theorem sendTwin_kept {q : TwinReq} (k : Kept o h) : Kept o (sendTwin q h) := by
  unfold sendTwin
  extract_lets _ _ _ _ h1
  have k1 : Kept o h1 := k.upd
  exact sendMsg_kept k1

theorem proxyNotice_kept {lo : Nat} {n : Nat} {dirty : Bool} {pieces : List (Nat × List Byte)} (k : Kept o h) : Kept o (proxyNotice lo n dirty pieces h) := by
  unfold proxyNotice
  extract_lets _ h1
  have k1 : Kept o h1 := setProxy_kept k
  refine Kept.ite k1 (Kept.ite (Kept.forEach (fun _ _ k2 => ?_) k1) (Kept.ite (sendMsg_kept k1) k1))
  · extract_lets
    exact sendTwin_kept k2.upd

theorem endShared_kept {t : TwinSnp} {ans : Msg} (k : Kept o h) : Kept o (endShared t ans h) := by
  unfold endShared
  extract_lets
  exact Kept.ite (Kept.ite (sendMsg_kept (proxyNotice_kept k)) (sendMsg_kept (setProxy_kept k))) (Kept.ite (sendMsg_kept (setProxy_kept k)) (sendMsg_kept k))

theorem endTake_kept {t : TwinSnp} (k : Kept o h) : Kept o (endTake t h) := by
  unfold endTake
  extract_lets _ h1 _ _ h2 h3
  have k1 : Kept o h1 := k.upd
  have k2 : Kept o h2 := sendMsg_kept (setProxy_kept k1)
  have k3 : Kept o h3 := proxyNotice_kept k1
  exact Kept.ite (Kept.ite (sendMsg_kept (setProxy_kept k1)) (Kept.ite (sendMsg_kept (proxyNotice_kept k1)) (Kept.ite (endShared_kept k1) (sendMsg_kept
      (setProxy_kept k1))))) (Kept.ite (Kept.ite (sendMsg_kept (setProxy_kept k1)) (Kept.ite (sendMsg_kept k1) (sendMsg_kept k2))) (Kept.ite (proxyNotice_kept k1)
          (Kept.ite (Kept.ite (proxyNotice_kept k1) k1) (Kept.ite (Kept.ite (sendMsg_kept k3) (Kept.ite (sendMsg_kept k3) (sendMsg_kept k3))) k1))))

theorem takeCopies_kept {t : TwinSnp} {victim : Bool} {es : List SEnt} (k : Kept o h) : Kept o (takeCopies t victim es h) := by
  unfold takeCopies
  exact Kept.forEach (fun _ _ k1 => issueSnp_kept k1) k

theorem startTwinSnp_kept {t : TwinSnp} (k : Kept o h) : Kept o (startTwinSnp t h) := by
  unfold startTwinSnp
  extract_lets _ _ put1 _ giveUp2
  have k1 : ∀ x0 h, Kept o h → Kept o (put1 x0 h) := by
    intro _ _ k2
    unfold put1
    extract_lets
    exact k2.upd
  have k3 : ∀ x0 h, Kept o h → Kept o (giveUp2 x0 h) := by
    intro _ _ k4
    unfold giveUp2
    exact takeCopies_kept (k1 _ _ k4)
  exact Kept.ite (sendMsg_kept k.upd) (Kept.ite (Kept.ite (k3 _ _ k) (Kept.forEach (fun _ _ k5 => issueSnp_kept k5) (k1 _ _ k))) (Kept.ite (takeCopies_kept (k1 _ _
      k)) (Kept.ite (Kept.forEach (fun _ _ k6 => issueSnp_kept k6) (k1 _ _ k)) (Kept.ite (k1 _ _ k) (Kept.ite (k3 _ _ k) (Kept.forEach (fun _ _ k8 => issueSnp_kept
          k8) (Kept.forEach (fun _ _ k7 => issueSnp_kept k7) (k1 _ _ k))))))))

theorem updTwin_kept {key : Nat} {f : TwinReq → TwinReq} (k : Kept o h) : Kept o (updTwin key f h) := by
  unfold updTwin
  extract_lets
  exact k.upd

theorem deliverTwin_kept {q : TwinReq} (k : Kept o h) : Kept o (deliverTwin q h) := by
  unfold deliverTwin
  extract_lets _ _ drop1 _ _ h2 h3
  have k1 : ∀ h, Kept o h → Kept o (drop1 h) := by
    intro _ k2
    unfold drop1
    extract_lets
    exact k2.upd
  have k3 : Kept o h2 := setHostSt_kept k
  have k4 : Kept o h3 := Kept.ite k (Kept.ite (Kept.ite (putEntry_kept k) (Kept.ite (proxyNotice_kept k3) k3)) (Kept.ite (setHostSt_kept k) k))
  exact Kept.ite (updTwin_kept k) (k1 _ (reply_kept k4))

theorem takeKey_kept (k : Kept o h) : Kept o (takeKey h).2 := by
  unfold takeKey
  exact Kept.mkSnd k.upd

theorem startTake_kept {t : TwinSnp} {victim : Bool} {es : List SEnt} (k : Kept o h) : Kept o (startTake t victim es h) := by
  unfold startTake
  extract_lets
  exact takeCopies_kept k.upd

theorem takeBack_kept {kind : Nat} {forReq : Nat} {lo : Nat} {n : Nat} {vc : Bool} {victim : Bool} {es : List SEnt} (k : Kept o h) : Kept o (takeBack kind forReq lo
    n vc victim es h) := by
  unfold takeBack
  split
  · rename_i g e
    have k1 := Kept.of_snd (takeKey_kept k) e
    exact startTake_kept k1

theorem noticeGo_kept {q : TwinReq} (k : Kept o h) : KeptOpt o (noticeGo q h) := by
  unfold noticeGo
  extract_lets
  exact kept_ite trivial (kept_ite (KeptOpt.mkSome (sendTwin_kept (setProxy_kept k))) (KeptOpt.mkSome (takeBack_kept k)))

theorem goTake_kept {q : TwinReq} (k : Kept o h) : Kept o (goTake q h) := by
  unfold goTake
  extract_lets
  exact Kept.ite (proxyNotice_kept k) (takeBack_kept k)

theorem localSpot_kept {q : TwinReq} (k : Kept o h) : KeptTwinSpot o (localSpot q h) := by
  unfold localSpot
  refine kept_ite trivial ?_
  · split
    · exact KeptTwinSpot.moved (putEntry_kept k)
    · exact trivial
    · extract_lets
      exact kept_ite (KeptTwinSpot.moved (backInval_kept k)) (KeptTwinSpot.moved (takeBack_kept k))

theorem twinRetry_kept {q : TwinReq} (k : Kept o h) : KeptOpt o (twinRetry q h) := by
  unfold twinRetry
  exact kept_ite trivial (KeptOpt.mkSome (updTwin_kept (pmuReq_kept k)))

theorem dropOwn_kept {q : TwinReq} (k : Kept o h) : Kept o (dropOwn q h) := by
  unfold dropOwn
  extract_lets
  exact Kept.ite (setProxy_kept (Kept.ite (dropHost_kept k) k)) k

theorem pickWay_kept {q : TwinReq} (k : Kept o h) : Kept o (pickWay q h).2 := by
  unfold pickWay
  extract_lets
  clear_value *
  split
  · exact Kept.mkSnd k
  · split
    · exact Kept.mkSnd k
    · split
      · exact Kept.mkSnd k
      · exact Kept.mkSnd (takeBack_kept k)

theorem twinGo_kept {q : TwinReq} (k : Kept o h) : KeptOpt o (twinGo q h) := by
  unfold twinGo
  refine kept_ite trivial (kept_ite (noticeGo_kept k) (kept_ite (kept_ite trivial (KeptOpt.mkSome (sendTwin_kept k))) (kept_ite trivial (kept_ite (KeptOpt.mkSome
      (goTake_kept k)) ?_))))
  · split
    · exact twinRetry_kept k
    · rename_i g e
      have k1 := KeptTwinSpot.of_moved (localSpot_kept k) e
      exact KeptOpt.mkSome k1
    · refine kept_ite (KeptOpt.mkSome (sendTwin_kept (dropOwn_kept k))) ?_
      · split
        · exact KeptOpt.mkSome (sendTwin_kept k)
        · split
          · rename_i g e
            have k2 := Kept.of_snd (pickWay_kept k) e
            exact twinRetry_kept k
          · rename_i g e
            have k3 := Kept.of_snd (pickWay_kept k) e
            exact KeptOpt.mkSome (updTwin_kept k3)

theorem twinStep_kept (k : Kept o h) : KeptOpt o (twinStep h) := by
  unfold twinStep
  split
  · exact KeptOpt.mkSome (endTake_kept k)
  · split
    · exact KeptOpt.mkSome (startTwinSnp_kept k)
    · split
      · exact KeptOpt.mkSome (deliverTwin_kept k)
      · exact KeptOpt.findSome (fun _ => twinGo_kept k)

theorem twinLoop_kept {n : Nat} (k : Kept o h) : Kept o (twinLoop n h) := by
  induction n generalizing h with
  | zero => exact k
  | succ n ih =>
    unfold twinLoop
    split
    · rename_i g e
      exact ih (KeptOpt.of_some (twinStep_kept k) e)
    · exact k

theorem twinSettle_kept (k : Kept o h) : Kept o (twinSettle h) := twinLoop_kept k

theorem reissue_kept {s : Snp} (k : Kept o h) : Kept o (reissue s h) := setPh_kept (closeSnp_kept k)

theorem noticeCloses_kept {host : Nat} {a : Nat} {n : Nat} (k : Kept o h) : Kept o (noticeCloses host a n h) := by
  unfold noticeCloses
  exact Kept.forEach (fun _ _ k1 => reissue_kept k1) k

theorem twinNotice_kept {r : Req} (k : Kept o h) : Kept o (twinNotice r h) := by
  unfold twinNotice
  extract_lets _ h1
  have k1 : Kept o h1 := noticeCloses_kept (setHostSt_kept k)
  exact Kept.ite (Kept.ite k1 (sendMsg_kept (setProxy_kept k1))) k1.upd

theorem releaseResv_kept {l : Nat} {stream : Nat} (k : Kept o h) : Kept o (releaseResv l stream h) := k.upd

theorem toTwin_kept {r : Req} (k : Kept o h) : Kept o (toTwin r h) := by
  unfold toTwin
  extract_lets _ _ _ _ h1
  have k1 : Kept o h1 := Kept.ite (releaseResv_kept k) k
  refine Kept.ite (Kept.ite k.upd (freeReply_kept k)) (Kept.ite (refuse_kept (Kept.ite (setHostSt_kept k) k)) (Kept.ite (violate_kept k) (Kept.ite (twinSettle_kept
      (twinNotice_kept k)) ?_)))
  · clear_value *
    split
    · rename_i g e
      have k2 := Kept.of_snd (takeKey_kept k1) e
      extract_lets
      exact twinSettle_kept k2.upd

theorem toPeer_kept {r : Req} (k : Kept o h) : Kept o (toPeer r h) := by
  unfold toPeer
  refine Kept.ite (violate_kept k) (Kept.ite ?_ (toTwin_kept k))
  · split
    · rename_i g e
      have k1 := KeptOpt.of_some (toTwinCast_kept k) e
      exact k1
    · exact violate_kept k

theorem useSlot_kept {r : Req} {lost : Bool} (k : Kept o h) : Kept o (useSlot r lost h) := k.upd

theorem putWaiting_kept {why : WaitWhy} {r : Req} (k : Kept o h) : Kept o (putWaiting why r h) := by
  unfold putWaiting
  extract_lets h1
  have k1 : Kept o h1 := Kept.ite (pmuReq_kept (useSlot_kept k)) k
  exact k1.upd

end

end Sys2Proof.Machine

/-!
Registers and the pages of the hub keep them.
-/

namespace Sys2Proof.Machine

section
variable {o : Option Standing} {h : Hub}

theorem lidErr_kept {die : Nat} {bit : Nat} (k : Kept o h) : Kept o (lidErr die bit h) := regSetField_kept k

theorem setLid_kept {die : Nat} {f : Lid → Lid} (k : Kept o h) : Kept o (setLid die f h) := k.upd

theorem dropPair_kept {die : Nat} (k : Kept o h) : Kept o (dropPair die h) := lidErr_kept (setLid_kept k)

theorem effPairTimeout_kept {die : Nat} (k : Kept o h) : Kept o (effPairTimeout die h) := by
  unfold effPairTimeout
  split
  · exact Kept.ite (dropPair_kept k) k
  · exact k

theorem closeLid_kept {die : Nat} (k : Kept o h) : Kept o (closeLid die h) := setLid_kept k

theorem effLidTimeout_kept {die : Nat} (k : Kept o h) : Kept o (effLidTimeout die h) := by
  unfold effLidTimeout
  exact Kept.ite (closeLid_kept k) k

theorem tidyLid_kept {die : Nat} (k : Kept o h) : Kept o (tidyLid die h) := effPairTimeout_kept (effLidTimeout_kept k)

theorem setMbox_kept {die : Nat} {k' : Nat} {b : Mbox} (k : Kept o h) : Kept o (setMbox die k' b h) := k.upd

theorem afterRead_kept {die : Nat} {off : Nat} (k : Kept o h) : Kept o (afterRead die off h) := by
  unfold afterRead
  extract_lets
  clear_value *
  split
  · exact k
  · extract_lets _ h1
    have k1 : Kept o h1 := regPut_kept k
    exact Kept.ite k (Kept.ite (Kept.ite (setMbox_kept k) k) (Kept.ite k (Kept.ite (setIntPins_kept k1) k1)))

theorem readBlock_kept {die : Nat} {off : Nat} (k : Kept o h) : Kept o (readBlock die off h).2 := by
  unfold readBlock
  extract_lets h1
  have k1 : Kept o h1 := tidyLid_kept k
  exact Kept.iteSnd (Kept.mkSnd k1) (Kept.mkSnd (afterRead_kept k1))

theorem readAlias_kept {die : Nat} {byte : Nat} {bit : Nat} (k : Kept o h) : Kept o (readAlias die byte bit h).2 := by
  unfold readAlias
  extract_lets _ _ h1
  have k1 : Kept o h1 := tidyLid_kept k
  refine Kept.iteSnd (Kept.mkSnd k1) (Kept.iteSnd (Kept.mkSnd k1) ?_)
  · clear_value *
    split
    · exact Kept.iteSnd (Kept.mkSnd (regSetField_kept k1)) (Kept.mkSnd k1)
    · exact Kept.mkSnd k1

theorem windowRead_kept {die : Nat} {off : Nat} {size : Nat} {l : Nat} {pid : Nat} (k : Kept o h) : Kept o (windowRead die off size l pid h).2 := by
  unfold windowRead
  exact Kept.iteSnd (Kept.iteSnd (readBlock_kept k) (Kept.mkSnd k)) (Kept.iteSnd (Kept.mkSnd k) (Kept.iteSnd (Kept.mkSnd k) (Kept.iteSnd (Kept.mkSnd k) (Kept.iteSnd
      (Kept.mkSnd k) (Kept.iteSnd (readAlias_kept k) (Kept.mkSnd k))))))

theorem cfgReply_kept {r : Req} {die : Nat} {m : Msg} (k : Kept o h) : Kept o (cfgReply r die m h) := by
  unfold cfgReply
  extract_lets h1
  have k1 : Kept o h1 := Kept.ite (pmu_kept k) k
  exact sendMsg_kept k1

theorem writeKey_kept {die : Nat} {v : Nat} (k : Kept o h) : Kept o (writeKey die v h) := by
  unfold writeKey
  exact Kept.ite (setLid_kept k) (lidErr_kept (closeLid_kept k))

theorem setLife_kept {f : Life → Life} (k : Kept o h) : Kept o (setLife f h) := k.upd

theorem checkTherm_kept (k : Kept o h) : Kept o (checkTherm h) := by
  unfold checkTherm
  extract_lets h1
  have k1 : Kept o h1 := Kept.forEach (fun _ _ k2 => Kept.ite (regSetField_kept k2) k2) k
  exact setLife_kept k1

theorem applyControl_kept {die : Nat} {off : Nat} {nw : Nat} {opn : Bool} (k : Kept o h) : Kept o (applyControl die off nw opn h) := by
  unfold applyControl
  extract_lets
  exact Kept.ite (Kept.ite (checkTherm_kept (regSetField_kept (regSetField_kept k))) k) (Kept.ite (setMbox_kept (regPut_kept k)) (regPut_kept k))

theorem applyCacheReg_kept {die : Nat} {off : Nat} {nw : Nat} (k : Kept o h) : Kept o (applyCacheReg die off nw h) := by
  unfold applyCacheReg
  extract_lets h1
  have k1 : Kept o h1 := regPut_kept k
  exact Kept.ite (Kept.ite (regPut_kept k) k) (Kept.ite (Kept.ite k (regPut_kept k)) (Kept.ite (Kept.ite k1.upd k) (Kept.ite (Kept.ite (regPut_kept k) k)
      (regPut_kept k))))

theorem allotErr_kept (k : Kept o h) : Kept o (allotErr h) := regSetField_kept (regSetField_kept k)

theorem applyGeom_kept {n : Nat} {old : Nat} {nw : Nat} (k : Kept o h) : Kept o (applyGeom n old nw h) := by
  unfold applyGeom
  extract_lets h1
  have k1 : Kept o h1 := regPut_kept k
  exact Kept.ite k (Kept.ite (allotErr_kept k) (Kept.ite k1.upd k1))

theorem applyTwinGeom_kept {old : Nat} {nw : Nat} (k : Kept o h) : Kept o (applyTwinGeom old nw h) := by
  unfold applyTwinGeom
  extract_lets h1
  have k1 : Kept o h1 := regPut_kept k
  exact Kept.ite k (Kept.ite (allotErr_kept k) (Kept.ite k1.upd k1))

theorem applyCohReg_kept {die : Nat} {off : Nat} {old : Nat} {nw : Nat} {opn : Bool} (k : Kept o h) : Kept o (applyCohReg die off old nw opn h) := by
  unfold applyCohReg
  exact Kept.ite (Kept.ite (applyGeom_kept k) k) (Kept.ite (Kept.ite (applyTwinGeom_kept k) k) (regPut_kept k))

theorem hkErr_kept (k : Kept o h) : Kept o (hkErr h) := regSetField_kept k

theorem applyFsCfg_kept {old : Nat} {nw : Nat} (k : Kept o h) : Kept o (applyFsCfg old nw h) := by
  unfold applyFsCfg
  extract_lets
  exact Kept.ite (regPut_kept k) (Kept.ite (regPut_kept k) (hkErr_kept k))

theorem setFs_kept {f : FrameSeq → FrameSeq} (k : Kept o h) : Kept o (setFs f h) := k.upd

theorem applyPeriod_kept {nw : Nat} (k : Kept o h) : Kept o (applyPeriod nw h) := by
  unfold applyPeriod
  extract_lets _ _ _ h1
  have k1 : Kept o h1 := Kept.ite k (regSetField_kept k)
  exact Kept.ite k (Kept.ite (regPut_kept k) (Kept.ite k1 (hkErr_kept k1)))

theorem applyFrameReg_kept {off : Nat} {old : Nat} {nw : Nat} {opn : Bool} (k : Kept o h) : Kept o (applyFrameReg off old nw opn h) := by
  unfold applyFrameReg
  extract_lets
  exact Kept.ite (Kept.ite (applyFsCfg_kept k) k) (Kept.ite (Kept.ite (setFs_kept (regPut_kept k)) k) (Kept.ite (Kept.ite (applyPeriod_kept k) k) (Kept.ite
      (Kept.ite (regPut_kept k) k) (regPut_kept k))))

theorem applyWhiskReg_kept {off : Nat} {nw : Nat} (k : Kept o h) : Kept o (applyWhiskReg off nw h) := by
  unfold applyWhiskReg
  extract_lets
  exact Kept.ite (Kept.ite (hkErr_kept k) (regPut_kept k)) (Kept.ite (Kept.ite k (regPut_kept k)) (Kept.ite (Kept.ite (regPut_kept k) k) (regPut_kept k)))

theorem applyWitReg_kept {off : Nat} {nw : Nat} (k : Kept o h) : Kept o (applyWitReg off nw h) := by
  unfold applyWitReg
  extract_lets h1
  have k1 : Kept o h1 := regPut_kept k
  exact Kept.ite (Kept.ite (setLife_kept k1) k1) (regPut_kept k)

theorem setMgr_kept {m : Nat} {f : Mgr → Mgr} (k : Kept o h) : Kept o (setMgr h m f) := k.upd

theorem enableMgr_kept {m : Nat} (k : Kept o h) : Kept o (enableMgr m h) := setMgr_kept k

theorem applyMgrCtl_kept {m : Nat} {old : Nat} {nw : Nat} (k : Kept o h) : Kept o (applyMgrCtl m old nw h) := by
  unfold applyMgrCtl
  extract_lets _ h1
  have k1 : Kept o h1 := regPut_kept k
  exact setIntPins_kept (Kept.ite (enableMgr_kept k1) k1)

theorem applyRingReg_kept {die : Nat} {off : Nat} {old : Nat} {nw : Nat} {opn : Bool} (k : Kept o h) : Kept o (applyRingReg die off old nw opn h) := by
  unfold applyRingReg
  extract_lets
  exact Kept.ite k (Kept.ite (Kept.ite (applyMgrCtl_kept k) (Kept.ite k (regPut_kept k))) (Kept.ite (Kept.ite (regPut_kept k) (regPut_kept k)) (Kept.ite (Kept.ite k
      (regPut_kept k)) (regPut_kept k))))

theorem twinDown_kept (k : Kept o h) : Kept o (twinDown h) := by
  unfold twinDown
  extract_lets _ _ _ h1 h2 h3
  have k1 : Kept o h1 := k.upd
  have k2 : Kept o h2 := Kept.forEach (fun _ _ k3 => refuse_kept (Kept.ite (setHostSt_kept k3) k3)) k1
  have k4 : Kept o h3 := by
    unfold h3
    refine Kept.forEach (fun _ _ k5 => ?_) k2
    · clear_value *
      split
      · rename_i g e
        have k6 := Kept.of_snd (takeKey_kept k5) e
        extract_lets _ _ _ h4
        have k7 : Kept o h4 := k6.upd
        exact Kept.forEach (fun _ _ k8 => setHostSt_kept (issueSnp_kept k8)) k7
  exact settle_kept (twinSettle_kept k4)

theorem poisonHome_kept {a : Nat} (k : Kept o h) : Kept o (poisonHome a h) := by
  unfold poisonHome
  extract_lets _ h1
  have k1 : Kept o h1 := Kept.ite (setLineSt_kept k) k
  exact Kept.ite (record_kept k1) (poisonWrite_kept k)

theorem loseLine_kept {a : Nat} {n : Nat} (k : Kept o h) : Kept o (loseLine a n h) := by
  unfold loseLine
  extract_lets
  exact Kept.ite (poisonHome_kept k) (Kept.ite k k.upd)

theorem loseClean_kept {a : Nat} (k : Kept o h) : Kept o (loseClean a h) := by
  unfold loseClean
  extract_lets
  exact Kept.ite k (proxyNotice_kept k)

theorem updGroup_kept {key : Nat} {f : TwinSnp → TwinSnp} (k : Kept o h) : Kept o (updGroup key f h) := by
  unfold updGroup
  extract_lets
  exact k.upd

theorem closeGroup_kept {s : Snp} (k : Kept o h) : Kept o (closeGroup s h) := by
  unfold closeGroup
  extract_lets
  exact updGroup_kept (closeSnp_kept k)

theorem closeLost_kept {s : Snp} (k : Kept o h) : Kept o (closeLost s h) := by
  unfold closeLost
  exact Kept.ite (closeSnp_kept k) (Kept.ite (reissue_kept k) (closeSnp_kept k))

theorem closeAtLoss_kept {s : Snp} (k : Kept o h) : Kept o (closeAtLoss s h) := by
  unfold closeAtLoss
  extract_lets h1
  have k1 : Kept o h1 := Kept.ite (loseLine_kept k) k
  exact Kept.ite (closeGroup_kept k1) (closeLost_kept k1)

theorem castAtLoss_kept {c : Txn} (k : Kept o h) : Kept o (castAtLoss c h) := by
  unfold castAtLoss
  exact dropTxn_kept (Kept.ite k (cancelCast_kept k))

theorem castDataIn_kept {r : Req} (k : Kept o h) : Kept o (castDataIn r h) := by
  unfold castDataIn
  refine Kept.ite (putWaiting_kept k) (Kept.ite (freeReply_kept k) ?_)
  · split
    · exact castArrived_kept (ladleKill_kept k)
    · exact violate_kept k

theorem queryLink_kept {host : Nat} {set : Nat} {die : Nat} {granules : List Nat} {l : Nat} {lost : Nat} (k : Kept o h) : Kept o (queryLink host set die granules l
    lost h) := by
  unfold queryLink
  extract_lets
  exact sendMsg_kept k.upd

theorem startQuery_kept {host : Nat} {set : Nat} {die : Nat} {granules : List Nat} {lost : Nat} (k : Kept o h) : Kept o (startQuery host set die granules lost h) :=
    by
  unfold startQuery
  split
  · exact k
  · exact queryLink_kept k

theorem recoverEntry_kept {e : SEnt} (k : Kept o h) : Kept o (recoverEntry e h) := by
  unfold recoverEntry
  exact Kept.ite k (startQuery_kept k)

theorem detectSieve_kept {a : Nat} (k : Kept o h) : Kept o (detectSieve a h) := by
  unfold detectSieve
  exact Kept.forEach (fun _ _ k1 => recoverEntry_kept k1) k

theorem ghostTouch_kept {r : Req} (k : Kept o h) : Kept o (ghostTouch r h) := by
  unfold ghostTouch
  extract_lets _ _ _ _ _ h1
  have k1 : Kept o h1 := by
    unfold h1
    clear_value *
    split
    · exact k.upd
    · exact k
  exact Kept.ite k k1.upd

theorem setResv_kept {a : Nat} {l : Nat} {stream : Nat} {pid : Nat} (k : Kept o h) : Kept o (setResv a l stream pid h) := by
  unfold setResv
  extract_lets h1 _ _ _ _ h2
  have k1 : Kept o h1 := releaseResv_kept k
  have k2 : Kept o h2 := by
    unfold h2
    refine Kept.ite ?_ (Kept.ite ?_ k1)
    · clear_value *
      split
      · exact loseMon_kept k1
      · exact k1
    · clear_value *
      split
      · exact loseMon_kept k1
      · exact k1
  exact Kept.ite k1 k2.upd

theorem orderEffects_kept {e : REntry} {r : Req} (k : Kept o h) : Kept o (orderEffects e r h) := by
  unfold orderEffects
  extract_lets _ _ _ _ h1 h2 h3
  have k1 : Kept o h1 := Kept.ite (writeLoss_kept k) k
  have k2 : Kept o h2 := Kept.ite (breakSeals_kept k1) k1
  have k3 : Kept o h3 := Kept.ite (ladleKill_kept k2) k2
  exact Kept.ite (setResv_kept k3) k3

theorem orderWriteBack_kept {r : Req} (k : Kept o h) : Kept o (orderWriteBack r h) := by
  unfold orderWriteBack
  extract_lets _ _ _ _ _ h1 h2 h3
  have k1 : Kept o h1 := pmuReq_kept (useSlot_kept k)
  have k2 : Kept o h2 := Kept.ite (ghostTouch_kept k1) k1
  have k3 : Kept o h3 := orderEffects_kept (setHostSt_kept k2)
  exact Kept.ite (violate_kept k) (Kept.ite (putWaiting_kept k) (Kept.ite (putWaiting_kept k) (Kept.ite (putWaiting_kept k) (Kept.ite (putWaiting_kept k) k3.upd))))

theorem orderEvict_kept {r : Req} (k : Kept o h) : Kept o (orderEvict r h) := by
  unfold orderEvict
  extract_lets
  exact Kept.ite (violate_kept k) (Kept.ite (putWaiting_kept k) (noticeCloses_kept (setHostSt_kept (pmuReq_kept (useSlot_kept k)))))

theorem castCold_kept {r : Req} (k : Kept o h) : Kept o (castCold r h).2 := by
  unfold castCold
  extract_lets
  exact Kept.iteSnd (Kept.mkSnd k) (Kept.iteSnd (Kept.mkSnd k) (Kept.iteSnd (Kept.mkSnd k) (Kept.iteSnd (Kept.mkSnd k.upd) (Kept.mkSnd k.upd))))

theorem castReason_kept {e : REntry} {r : Req} (k : Kept o h) : Kept o (castReason e r h).2 := by
  unfold castReason
  extract_lets _ _ _ _ _ c1
  have k1 : Kept o (c1).2 := castCold_kept k
  refine Kept.iteSnd (Kept.mkSnd k) (Kept.iteSnd (Kept.mkSnd k) (Kept.iteSnd (Kept.mkSnd k) ?_))
  · clear_value *
    split
    · exact Kept.iteSnd (Kept.mkSnd k) (Kept.mkSnd k1)
    · exact Kept.iteSnd (Kept.mkSnd k) (Kept.mkSnd k1)

theorem castIn_kept {gone : Bool} {r : Req} (k : Kept o h) : Kept o (castIn gone r h) := by
  unfold castIn
  extract_lets c1 h2 _ h3
  have k1 : Kept o (c1).2 := castReason_kept k
  have k2 : Kept o h2 := k1
  have k3 : Kept o h3 := k2.upd
  clear_value *
  split
  · exact declineCast_kept k1
  · exact Kept.ite (reply_kept k1) (Kept.ite (putWaiting_kept k) (KeptOpt.getD (advAlloc_kept k3) k3))

theorem countOffer_kept {r : Req} (k : Kept o h) : Kept o (countOffer r h) := pmuReq_kept (pageAdd_kept k)

theorem orderCast_kept {r : Req} (k : Kept o h) : Kept o (orderCast r h) := by
  unfold orderCast
  extract_lets _ _ h1 h2 h3
  have k1 : Kept o h1 := countOffer_kept (pmuReq_kept (useSlot_kept k))
  have k2 : Kept o h2 := noticeCloses_kept (setHostSt_kept k1)
  have k3 : Kept o h3 := Kept.ite (ladleKill_kept k2) k2
  exact Kept.ite (violate_kept k) (Kept.ite (putWaiting_kept k) (Kept.ite (putWaiting_kept k) (Kept.ite (declineCast_kept k3) (castIn_kept k3))))

theorem orderNotice_kept {r : Req} (k : Kept o h) : Kept o (orderNotice r h) := by
  unfold orderNotice
  extract_lets _ h1
  have k1 : Kept o h1 := detectSieve_kept k
  exact Kept.ite (freeReply_kept k1) (Kept.ite (putWaiting_kept k1) (Kept.ite k1.upd (Kept.ite (orderWriteBack_kept k1) (Kept.ite (orderEvict_kept k1) (Kept.ite
      (castIn_kept k1) (orderCast_kept k1))))))

theorem failCond_kept {r : Req} (k : Kept o h) : Kept o (failCond r h) := reply_kept (releaseResv_kept k)

theorem openTxn_kept {e : REntry} {r : Req} (k : Kept o h) : Kept o (openTxn e r h) := by
  unfold openTxn
  extract_lets _ _ _ _ _ _ _ h1 h2 h3
  have k1 : Kept o h1 := k.upd
  have k2 : Kept o h2 := Kept.ite (pmuReq_kept (pageAdd_kept k1)) k1
  have k3 : Kept o h3 := Kept.ite (cancelCast_kept k2) k2
  exact Kept.ite k3.upd k3

theorem orderReq_kept {r : Req} (k : Kept o h) : Kept o (orderReq r h) := by
  unfold orderReq
  extract_lets _ _ h1 h2 h3 h4
  have k1 : Kept o h1 := Kept.ite (detectSieve_kept k) k
  have k2 : Kept o h2 := pmuReq_kept (useSlot_kept k1)
  have k3 : Kept o h3 := Kept.ite (ghostTouch_kept k2) k2
  have k4 : Kept o h4 := Kept.ite (releaseResv_kept k3) k3
  refine Kept.ite (freeReply_kept k) (Kept.ite (failCond_kept k1) ?_)
  · clear_value *
    split
    · exact putWaiting_kept k1
    · exact Kept.ite (violate_kept k3) (Kept.ite (failCond_kept k3) (openTxn_kept (orderEffects_kept k4)))

theorem again_kept {r : Req} (k : Kept o h) : Kept o (again r h) := by
  unfold again
  exact Kept.ite (castDataIn_kept k) (Kept.ite (orderNotice_kept k) (orderReq_kept k))

theorem hostLost_kept {n : Nat} (k : Kept o h) : Kept o (hostLost n h) := by
  unfold hostLost
  extract_lets _ _ h1 h2 h3 h4
  have k1 : Kept o h1 := k.upd
  have k2 : Kept o h2 := Kept.forEach (fun _ _ k3 => Kept.ite (loseLine_kept k3) (loseClean_kept k3)) k1
  have k4 : Kept o h3 := Kept.forEach (fun _ _ k5 => closeAtLoss_kept k5) k2
  have k6 : Kept o h4 := Kept.forEach (fun _ _ k7 => castAtLoss_kept k7) k4
  exact twinSettle_kept (settle_kept (Kept.forEach (fun _ _ k8 => again_kept k8) k6))

theorem lostData_kept {s : Snp} (k : Kept o h) : Kept o (lostData s h) := by
  unfold lostData
  extract_lets h1
  have k1 : Kept o h1 := loseLine_kept k
  clear_value *
  split
  · exact closeGroup_kept k1
  · extract_lets h2
    have k2 : Kept o h2 := closeSnp_kept (setHostSt_kept k1)
    clear_value *
    split
    · exact respond_kept k2
    · exact updTxn_kept k2

theorem settleLost_kept {n : Nat} {l : Nat} (k : Kept o h) : Kept o (settleLost n l h) := by
  unfold settleLost
  extract_lets h1 _ h2 _ _ _ h3 h4 h5
  have k1 : Kept o h1 := Kept.forEach (fun _ _ k2 => lostData_kept k2) k
  have k3 : Kept o h2 := k1.upd
  have k4 : Kept o h3 := k3.upd
  have k5 : Kept o h4 := Kept.forEach (fun _ _ k6 => startQuery_kept k6) k4
  have k7 : Kept o h5 := Kept.forEach (fun _ _ k8 => startQuery_kept k8) k5
  exact twinSettle_kept (settle_kept (Kept.forEach (fun _ _ k9 => again_kept k9) k7))

theorem takeDown_kept {l : Nat} (k : Kept o h) : Kept o (takeDown l h) := by
  unfold takeDown
  extract_lets _ _ _ h1 h2
  have k1 : Kept o h1 := setLink_kept k
  have k2 : Kept o h2 := loseMons_kept k1
  exact Kept.ite k1 (Kept.ite (twinDown_kept (hostLost_kept k2)) (Kept.ite (Kept.ite (hostLost_kept k2) (settleLost_kept k2)) k2))

theorem enterRecovery_kept {l : Nat} {full : Bool} (k : Kept o h) : Kept o (enterRecovery l full h) := by
  unfold enterRecovery
  split
  · exact linkCount_kept (setLink_kept k)
  · exact k

theorem writeLinkCtl_kept {l : Nat} {v : Nat} (k : Kept o h) : Kept o (writeLinkCtl l v h) := by
  unfold writeLinkCtl
  extract_lets _ h1
  have k1 : Kept o h1 := regPut_kept k
  refine Kept.ite (takeDown_kept k1) (Kept.ite ?_ (Kept.ite (enterRecovery_kept k1) k1))
  · clear_value *
    split
    · exact setLink_kept k1
    · exact k1

theorem clearCyc_kept {die : Nat} (k : Kept o h) : Kept o (clearCyc die h) := k.upd

theorem clearCnt_kept {die : Nat} {mask : Nat} (k : Kept o h) : Kept o (clearCnt die mask h) := k.upd

theorem keepSel_kept {die : Nat} {n : Nat} (k : Kept o h) : Kept o (keepSel die n h) := by
  unfold keepSel
  extract_lets
  exact k.upd

theorem applyMonReg_kept {die : Nat} {off : Nat} {nw : Nat} {v : Nat} (k : Kept o h) : Kept o (applyMonReg die off nw v h) := by
  unfold applyMonReg
  extract_lets h1 h2
  have k1 : Kept o h1 := regPut_kept k
  have k2 : Kept o h2 := Kept.ite (clearCyc_kept k) k
  exact Kept.ite k1.upd (Kept.ite (clearCnt_kept k2) (Kept.ite k1.upd (Kept.ite (regPut_kept (keepSel_kept k)) (regPut_kept k))))

theorem applyMovReg_kept {off : Nat} {old : Nat} {nw : Nat} (k : Kept o h) : Kept o (applyMovReg off old nw h) := by
  unfold applyMovReg
  extract_lets
  clear_value *
  split
  · exact regPut_kept k
  · exact Kept.ite k (regPut_kept k)

theorem applyReg_kept {die : Nat} {off : Nat} {old : Nat} {nw : Nat} {v : Nat} {opn : Bool} (k : Kept o h) : Kept o (applyReg die off old nw v opn h) := by
  unfold applyReg
  exact Kept.ite (applyControl_kept k) (Kept.ite (applyCacheReg_kept k) (Kept.ite (applyCohReg_kept k) (Kept.ite (applyFrameReg_kept k) (Kept.ite
      (applyWhiskReg_kept k) (Kept.ite (applyWitReg_kept k) (Kept.ite (applyRingReg_kept k) (Kept.ite (Kept.ite (writeLinkCtl_kept k) k) (Kept.ite (applyMonReg_kept
          k) (Kept.ite (applyMovReg_kept k) (regPut_kept k))))))))))

theorem writePlain_kept {die : Nat} {off : Nat} {v : Nat} (k : Kept o h) : Kept o (writePlain die off v h) := by
  unfold writePlain
  extract_lets
  refine Kept.ite (writeKey_kept k) (Kept.ite (Kept.ite (setLid_kept k) (lidErr_kept k)) (Kept.ite (Kept.ite (closeLid_kept k) (lidErr_kept k)) ?_))
  · clear_value *
    split
    · exact k
    · extract_lets h1
      have k1 : Kept o h1 := Kept.ite (Kept.ite (closeLid_kept k) (lidErr_kept k)) k
      exact Kept.ite k (applyReg_kept k1)

theorem startWarm_kept {die : Nat} {cause : Nat} (k : Kept o h) : Kept o (startWarm die cause h) := by
  unfold startWarm
  extract_lets _ h1 h2
  have k1 : Kept o h1 := k.upd
  have k2 : Kept o h2 := loseMons_kept k1
  exact Kept.ite k k2.upd

theorem writeReset_kept {v : Nat} (k : Kept o h) : Kept o (writeReset v h).2 := by
  unfold writeReset
  extract_lets h1
  have k1 : Kept o h1 := Kept.ite (startWarm_kept k) k
  exact Kept.iteSnd (Kept.mkSnd k) (Kept.mkSnd (Kept.ite (startWarm_kept k1) k1))

theorem doSnap_kept (k : Kept o h) : Kept o (doSnap h) := by
  unfold doSnap
  extract_lets
  clear_value *
  split
  · rename_i g e
    have k1 := Kept.of_snd (ledgerWrite_kept k) e
    extract_lets
    exact k1.upd
  · rename_i g e
    have k2 := Kept.of_snd (ledgerWrite_kept k) e
    exact regSetField_kept k2

theorem doPark_kept (k : Kept none h) : Kept none (doPark h) := by
  unfold doPark
  extract_lets _ h1 h2 h3
  have k1 : Kept none h1 := setLife_kept k
  have k2 : Kept none h2 := setLife_kept k1
  have k3 : Kept none h3 := k2.updParts
  exact Kept.ite k1 (Kept.ite (startDrain_kept k3) k3)

theorem commitPair_kept {die : Nat} {off : Nat} {v : Nat} (k : Kept none h) : Kept none (commitPair die off v h) := by
  unfold commitPair
  extract_lets h1
  have k1 : Kept none h1 := Kept.ite (doSnap_kept k) k
  refine Kept.ite ?_ (Kept.ite (regPut_kept k) (Kept.ite (doPark_kept k1) k1))
  · clear_value *
    split
    · rename_i g e
      have k2 := Kept.of_snd (writeReset_kept k) e
      exact k2
    · rename_i g e
      have k3 := Kept.of_snd (writeReset_kept k) e
      exact lidErr_kept k3

theorem writeBlock_kept {die : Nat} {off : Nat} {v : Nat} (k : Kept none h) : Kept none (writeBlock die off v h) := by
  unfold writeBlock
  extract_lets h1 h2
  have k1 : Kept none h1 := tidyLid_kept k
  have k2 : Kept none h2 := dropPair_kept k1
  clear_value *
  split
  · exact writePlain_kept k1
  · exact Kept.ite (commitPair_kept (setLid_kept k1)) (Kept.ite k2 (writePlain_kept k2))

theorem doorCmd_kept {m : Nat} {v : Nat} (k : Kept o h) : Kept o (doorCmd m v h) := by
  unfold doorCmd
  extract_lets
  exact Kept.ite (regSetField_kept k) (setMgr_kept k)

theorem present_kept {r : Req} (k : Kept o h) : Kept o (present r h) := settle_kept (orderReq_kept (tidyTongs_kept k))

theorem hubWrite_kept {a : Nat} {d : List Byte} {job : Nat} (k : Kept o h) : Kept o (hubWrite a d job h) := by
  unfold hubWrite
  split
  · exact k
  · exact Kept.ite k (present_kept (hkBytes_kept k))

theorem writeCpl_kept {m : Nat} {ent : List Byte} {irq : Bool} (k : Kept o h) : Kept o (writeCpl m ent irq h) := by
  unfold writeCpl
  extract_lets _ _ _ _ _ h1
  have k1 : Kept o h1 := setMgr_kept k
  exact hubWrite_kept k1

theorem flushHeld_kept {m : Nat} (k : Kept o h) : Kept o (flushHeld m h) := by
  unfold flushHeld
  exact Kept.forEach (fun _ _ k1 => Kept.ite (writeCpl_kept (setMgr_kept k1)) k1) k

theorem doorCpl_kept {m : Nat} {v : Nat} (k : Kept o h) : Kept o (doorCpl m v h) := by
  unfold doorCpl
  extract_lets
  exact Kept.ite (regSetField_kept k) (flushHeld_kept (setMgr_kept k))

theorem doorEvt_kept {die : Nat} {v : Nat} (k : Kept o h) : Kept o (doorEvt die v h) := by
  unfold doorEvt
  extract_lets
  exact Kept.ite (regSetField_kept k) k.upd

theorem managerPage_kept {die : Nat} {m : Nat} {o' : Nat} {l : Nat} {pid : Nat} {v : Nat} (k : Kept o h) : Kept o (managerPage die m o' l pid v h).2 := by
  unfold managerPage
  extract_lets door1
  have k1 : ∀ f, (∀ h, Kept o h → Kept o (f h)) → Kept o (door1 f).2 := fun _ kf => Kept.iteSnd (Kept.mkSnd (kf _ k)) (Kept.mkSnd k)
  exact Kept.iteSnd (k1 _ fun _ k => doorCmd_kept k) (Kept.iteSnd (k1 _ fun _ k => doorCpl_kept k) (Kept.iteSnd (k1 _ fun _ k => doorEvt_kept k) (Kept.mkSnd k)))

theorem chargeRequest_kept {a : Nat} {pid : Nat} {cls : Nat} {bytes : Nat} {port : Nat} (k : Kept o h) : Kept o (chargeRequest a pid cls bytes port h).2 := by
  unfold chargeRequest
  extract_lets
  exact Kept.iteSnd (Kept.mkSnd (serve_kept (hkBytes_kept k))) (Kept.iteSnd (Kept.mkSnd (pageAdd_kept (serve_kept k))) (Kept.iteSnd (Kept.mkSnd (serve_kept
      (pmu_kept (pageAdd_kept k)))) (Kept.mkSnd (charge_kept k))))

theorem presentAll_kept {rs : List Req} (k : Kept o h) : Kept o (presentAll rs h) := by
  unfold presentAll
  exact settle_kept (Kept.forEach (fun _ _ k1 => orderReq_kept k1) k)

theorem startSeal_kept {n : Nat} (k : Kept o h) : Kept o (startSeal n h) := by
  unfold startSeal
  extract_lets _ h1 c2 h3
  have k1 : Kept o h1 := setWin_kept k
  have k2 : Kept o (c2).2 := by
    unfold c2
    refine Kept.foldlSnd (fun _ _ k3 => ?_) (Kept.mkSnd k1)
    · extract_lets g4
      have k4 : Kept o (g4).2 := chargeRequest_kept k3
      exact Kept.mkSnd k4
  have k5 : Kept o h3 := k2
  exact Kept.ite (sealError_kept k1) (presentAll_kept k5)

theorem writeSeal_kept {n : Nat} {l : Nat} {pid : Nat} {v : Nat} (k : Kept o h) : Kept o (writeSeal n l pid v h).2 := by
  unfold writeSeal
  extract_lets
  exact Kept.iteSnd (Kept.mkSnd k) (Kept.iteSnd (Kept.mkSnd k) (Kept.iteSnd (Kept.mkSnd (setWin_kept k)) (Kept.mkSnd (startSeal_kept k))))

theorem doorMov_kept {p : Nat} {v : Nat} (k : Kept o h) : Kept o (doorMov p v h) := by
  unfold doorMov
  extract_lets
  exact Kept.ite (regSetField_kept k) (setPart_kept (fun _ => rfl) k)

theorem partitionPage_kept {p : Nat} {o' : Nat} {pid : Nat} {v : Nat} (k : Kept o h) : Kept o (partitionPage p o' pid v h).2 := by
  unfold partitionPage
  exact Kept.iteSnd (Kept.mkSnd k) (Kept.iteSnd (Kept.iteSnd (Kept.mkSnd (doorMov_kept k)) (Kept.mkSnd k)) (Kept.mkSnd k))

theorem aliasWrite_kept {die : Nat} {off : Nat} {j : Nat} {opn : Bool} {x : Bool} (k : Kept o h) : Kept o (aliasWrite die off j opn x h) := by
  unfold aliasWrite
  split
  · exact k
  · split
    · exact regSetField_kept k
    · exact Kept.ite k (regSetField_kept k)
    · exact Kept.ite (applyReg_kept k) (lidErr_kept k)
    · exact lidErr_kept k
    · exact k

theorem writeAlias_kept {die : Nat} {byte : Nat} {bit : Nat} {x : Bool} (k : Kept o h) : Kept o (writeAlias die byte bit x h) := by
  unfold writeAlias
  extract_lets _ h1 h2 _ h3
  have k1 : Kept o h1 := tidyLid_kept k
  have k2 : Kept o h2 := Kept.ite (dropPair_kept k1) k1
  have k3 : Kept o h3 := Kept.ite (closeLid_kept k2) k2
  exact Kept.ite k3 (Kept.ite (lidErr_kept (closeLid_kept k3)) (aliasWrite_kept k3))

theorem windowWrite_kept {die : Nat} {off : Nat} {l : Nat} {pid : Nat} {v : Nat} (k : Kept none h) : Kept none (windowWrite die off l pid v h).2 := by
  unfold windowWrite
  refine Kept.iteSnd (Kept.iteSnd (Kept.mkSnd (writeBlock_kept k)) (Kept.mkSnd k)) (Kept.iteSnd (managerPage_kept k) (Kept.iteSnd (Kept.iteSnd ?_ (Kept.mkSnd k))
      (Kept.iteSnd (partitionPage_kept k) (Kept.iteSnd (Kept.mkSnd k) (Kept.iteSnd (Kept.mkSnd (writeAlias_kept k)) (Kept.mkSnd k))))))
  · split
    · rename_i g e
      have k1 := Kept.of_snd (writeSeal_kept k) e
      exact Kept.mkSnd k1
    · rename_i g e
      have k2 := Kept.of_snd (writeSeal_kept k) e
      exact Kept.mkSnd k2

theorem cfgAccess_kept {r : Req} {die : Nat} {off : Nat} (k : Kept none h) : Kept none (cfgAccess r die off h) := by
  unfold cfgAccess
  extract_lets
  refine Kept.ite (refuse_kept (Kept.ite k (countDeny_kept k))) (Kept.ite (refuse_kept k) (Kept.ite ?_ ?_))
  · clear_value *
    split
    · rename_i g e
      have k1 := Kept.of_snd (windowRead_kept k) e
      exact cfgReply_kept k1
  · clear_value *
    split
    · rename_i g e
      have k2 := Kept.of_snd (windowWrite_kept k) e
      exact cfgReply_kept k2

theorem cfgArrive_kept {r : Req} (k : Kept none h) : Kept none (cfgArrive r h) := by
  unfold cfgArrive
  extract_lets
  exact Kept.ite (Kept.ite (putWaiting_kept k.upd) (putWaiting_kept k)) (cfgAccess_kept k)

theorem classify_kept {e : REntry} {r : Req} {adm : Bool} (k : Kept o h) : Kept o (classify e r adm h).2 := by
  unfold classify
  extract_lets
  refine Kept.iteSnd (Kept.mkSnd k) (Kept.iteSnd ?_ (Kept.mkSnd k))
  · clear_value *
    split
    · rename_i g e
      have k1 := Kept.of_snd (chargeRequest_kept k) e
      exact Kept.mkSnd k1

theorem toSlice_kept {e : REntry} {r : Req} {adm : Bool} (k : Kept o h) : Kept o (toSlice e r adm h) := by
  unfold toSlice
  refine Kept.ite (violate_kept k) (Kept.ite (refuse_kept k) ?_)
  · split
    · rename_i g e
      have k1 := Kept.of_snd (classify_kept k) e
      exact Kept.ite (settle_kept (castDataIn_kept k1)) (Kept.ite (settle_kept (orderNotice_kept k1)) (present_kept k1))

theorem route_kept {r : Req} {adm : Bool} (k : Kept none h) : Kept none (route r adm h) := by
  unfold route
  split
  · exact refuse_kept k
  · extract_lets _ h1
    have k1 : Kept none h1 := seamBytes_kept k
    refine Kept.ite (toPeer_kept k1) ?_
    · clear_value *
      split
      · exact Kept.ite (cfgArrive_kept k1) (refuse_kept k1)
      · exact toSlice_kept k1

theorem notAdmitted_kept {r : Req} (k : Kept none h) : Kept none (notAdmitted r h) := by
  unfold notAdmitted
  exact Kept.ite (route_kept k) (Kept.ite (declineCast_kept (countOffer_kept k)) (Kept.ite (Kept.ite (route_kept k) (declineCast_kept (countOffer_kept k)))
      (refuse_kept k)))

theorem admitReq_kept {r : Req} (k : Kept none h) : Kept none (admitReq r h) := by
  unfold admitReq
  extract_lets _ h1
  have k1 : Kept none h1 := Kept.ite k (countDeny_kept k)
  exact Kept.ite (fence_kept k1) (Kept.ite (clearResv_kept k1) (Kept.ite (Kept.ite (hint_kept k1) k1) (Kept.ite (route_kept k1) (notAdmitted_kept k1))))

theorem request_kept {r : Req} {len : Nat} {dslots : Nat} (k : Kept none h) : Kept none (request r len dslots h) := by
  unfold request
  split
  · exact admitReq_kept k
  · exact refuse_kept (Kept.ite (releaseResv_kept k) k)

end

end Sys2Proof.Machine

/-!
Messages, frames and flits keep them.
-/

namespace Sys2Proof.Machine

section
variable {o : Option Standing} {h : Hub}

theorem countVcErr_kept {l : Nat} {m : Msg} (k : Kept o h) : Kept o (countVcErr l m h) := by
  unfold countVcErr
  exact Kept.ite (linkCount_kept k) k

theorem effRequest_kept {op : Nat} {l : Nat} {q : ReqHdr} {d : List Byte} {withData : Bool} (k : Kept none h) : Kept none (effRequest op l q d withData h) := by
  unfold effRequest
  exact onListed_kept (fun _ _ _ k1 => request_kept (countVcErr_kept k1)) k

theorem onSnoop_kept {l : Nat} {id : Nat} {once : Bool} {f : Snp → Hub → Hub} (kf : ∀ x0 h, Kept o h → Kept o (f x0 h)) (k : Kept o h) : Kept o (onSnoop l id once f
    h) := by
  unfold onSnoop
  extract_lets
  clear_value *
  split
  · exact k.upd
  · exact Kept.ite k (kf _ _ k)

theorem lateCheck_kept {s : Snp} (k : Kept o h) : Kept o (lateCheck s h) := by
  unfold lateCheck
  extract_lets
  exact Kept.ite (regSetField_kept k) k

theorem updSnp_kept {s : Snp} {f : Snp → Snp} (k : Kept o h) : Kept o (updSnp s f h) := k.upd

theorem groupRsp_kept {s : Snp} {st : Nat} {dirty : Bool} {wbp : Bool} {d : List Byte} (k : Kept o h) : Kept o (groupRsp s st dirty wbp d h) := by
  unfold groupRsp
  extract_lets _ h1 h2
  have k1 : Kept o h1 := lateCheck_kept k
  have k2 : Kept o h2 := setHostSt_kept k1
  exact Kept.ite (twinSettle_kept (violate_kept k1)) (Kept.ite (updSnp_kept k2) (twinSettle_kept (updGroup_kept (closeSnp_kept k2))))

theorem pendWb_kept {s : Snp} (k : Kept o h) : Kept o (pendWb s h) := updTxn_kept (updSnp_kept (setHostSt_kept k))

theorem dirtyBack_kept {t : Txn} {a : Nat} {d : List Byte} (k : Kept o h) : Kept o (dirtyBack t a d h) := by
  unfold dirtyBack
  extract_lets h1
  have k1 : Kept o h1 := Kept.ite (charge_kept k) k
  exact k1.upd

theorem takeData_kept {s : Snp} {t : Txn} {dirty : Bool} {d : List Byte} (k : Kept o h) : Kept o (takeData s t dirty d h) := by
  unfold takeData
  extract_lets h1
  have k1 : Kept o h1 := updTxn_kept k
  exact Kept.ite (dirtyBack_kept k1) k1

theorem answerSnp_kept {s : Snp} {st : Nat} {dirty : Bool} {wbp : Bool} {d : List Byte} (k : Kept o h) : Kept o (answerSnp s st dirty wbp d h) := by
  unfold answerSnp
  extract_lets bad1 _ _ _ h2 h3
  have k1 : Kept o bad1 := violate_kept k
  have k2 : Kept o h2 := lateCheck_kept k
  have k3 : Kept o h3 := closeSnp_kept (setHostSt_kept k2)
  clear_value *
  split
  · exact closeSnp_kept k
  · exact Kept.ite (Kept.ite (pendWb_kept k2) k1) (Kept.ite k1 (Kept.ite (Kept.ite (Kept.ite (reissue_kept k2) (Kept.ite (updSnp_kept (setHostSt_kept k2)) k1))
      (Kept.ite (Kept.ite (reissue_kept k2) k1) (Kept.ite (takeData_kept (closeSnp_kept (Kept.ite (setHostSt_kept k2) k2))) k1))) (Kept.ite (Kept.ite (Kept.ite
          (takeData_kept k3) k3) (Kept.ite (closeSnp_kept k2) (Kept.ite (takeData_kept (closeSnp_kept (Kept.ite k2 (setHostSt_kept k2)))) k1))) (Kept.ite k1
              (Kept.ite (closeSnp_kept k2) (Kept.ite (Kept.ite (invalSharers_kept (takeData_kept (closeSnp_kept (setHostSt_kept k2)))) (Kept.ite (reissue_kept k2)
                  (Kept.ite (invalSharers_kept (closeSnp_kept (setHostSt_kept k2))) k1))) (Kept.ite (reissue_kept k2) (invalSharers_kept (closeSnp_kept
                      (setHostSt_kept k2))))))))))

theorem effSnpRsp_kept {l : Nat} {id : Nat} {st : Nat} {dirty : Bool} {wbp : Bool} {d : List Byte} (k : Kept o h) : Kept o (effSnpRsp l id st dirty wbp d h) := by
  unfold effSnpRsp
  exact onListed_kept (fun _ _ _ k1 => onSnoop_kept (fun _ _ k2 => Kept.ite (twinSettle_kept (settle_kept (violate_kept k2))) (Kept.ite (settle_kept (groupRsp_kept
      k2)) (twinSettle_kept (settle_kept (answerSnp_kept k2))))) k1) k

theorem groupFwd_kept {s : Snp} {st : Nat} {dirty : Bool} {passed : Bool} (k : Kept o h) : Kept o (groupFwd s st dirty passed h) := by
  unfold groupFwd
  extract_lets h1 _ h2
  have k1 : Kept o h1 := lateCheck_kept k
  have k2 : Kept o h2 := updGroup_kept k1
  exact Kept.ite (twinSettle_kept (violate_kept k1)) (twinSettle_kept (Kept.ite (closeSnp_kept k2) (setHostSt_kept (Kept.ite (closeSnp_kept k2) (updSnp_kept k2)))))

theorem answerFwd_kept {s : Snp} {st : Nat} {dirty : Bool} {passed : Bool} (k : Kept o h) : Kept o (answerFwd s st dirty passed h) := by
  unfold answerFwd
  extract_lets bad1 _ h2 closed3 h4 h5
  have k1 : Kept o bad1 := violate_kept k
  have k2 : Kept o h2 := lateCheck_kept k
  have k3 : ∀ h, Kept o h → Kept o (closed3 h) := by
    intro _ k4
    unfold closed3
    exact Kept.ite (closeSnp_kept k4) (updSnp_kept k4)
  have k5 : Kept o h4 := setHostSt_kept k2
  have k6 : Kept o h5 := setHostSt_kept k2
  clear_value *
  split
  · exact closeSnp_kept k
  · extract_lets h6 h7 h8
    have k7 : Kept o h6 := pmu_kept k2
    have k8 : Kept o h7 := recordGrant_kept k5
    have k9 : Kept o h8 := recordGrant_kept k6
    exact Kept.ite k1 (Kept.ite (Kept.ite k1 (Kept.ite (reissue_kept k7) (Kept.ite (updSnp_kept (setHostSt_kept k7)) k1))) (Kept.ite (Kept.ite (k3 _ (updTxn_kept
        k8)) k1) (Kept.ite (k3 _ (updTxn_kept (invalSharers_kept k9))) k1)))

theorem effFwdDone_kept {l : Nat} {id : Nat} {st : Nat} {dirty : Bool} {passed : Bool} (k : Kept o h) : Kept o (effFwdDone l id st dirty passed h) := by
  unfold effFwdDone
  exact onListed_kept (fun _ _ _ k1 => onSnoop_kept (fun _ _ k2 => Kept.ite (settle_kept (groupFwd_kept k2)) (twinSettle_kept (settle_kept (answerFwd_kept k2))))
      k1) k

theorem settleGrant_kept {q : TwinReq} {m : Msg} (k : Kept o h) : Kept o (settleGrant q m h) := by
  unfold settleGrant
  extract_lets _ _ _ h1 h2
  have k1 : Kept o h1 := Kept.ite (setProxy_kept k) k
  have k2 : Kept o h2 := updTwin_kept k1
  exact Kept.ite (takeBack_kept k2) k2

theorem twinAnswer_kept {stream : Nat} {tag : Nat} {m : Msg} (k : Kept o h) : Kept o (twinAnswer stream tag m h) := by
  unfold twinAnswer
  split
  · exact k
  · extract_lets _ _ h1
    have k1 : Kept o h1 := updTwin_kept k
    exact Kept.ite (reply_kept k) (Kept.ite (settle_kept (twinSettle_kept (settleGrant_kept k1))) k1)

theorem groupData_kept {s : Snp} {d : List Byte} (k : Kept o h) : Kept o (groupData s d h) := by
  unfold groupData
  extract_lets h1
  have k1 : Kept o h1 := updGroup_kept k
  exact Kept.ite (twinSettle_kept (violate_kept k)) (twinSettle_kept (Kept.ite (closeSnp_kept k1) (updSnp_kept k1)))

theorem routeData_kept {s : Snp} {d : List Byte} (k : Kept o h) : Kept o (routeData s d h) := by
  unfold routeData
  split
  · exact closeSnp_kept k
  · extract_lets h1
    have k1 : Kept o h1 := respond_kept k
    exact Kept.ite (violate_kept k) (Kept.ite (closeSnp_kept k1) (updSnp_kept k1))

theorem effData_kept {l : Nat} {r : RspHdr} {id : Nat} {fromHome : Bool} {d : List Byte} (k : Kept o h) : Kept o (effData l r id fromHome d h) := by
  unfold effData
  extract_lets
  exact onListed_kept (fun _ _ _ k1 => Kept.ite (Kept.ite (twinAnswer_kept k1) (protoDiscard_kept k1)) (onSnoop_kept (fun _ _ k2 => Kept.ite (twinSettle_kept
      (settle_kept (violate_kept k2))) (Kept.ite (settle_kept (groupData_kept k2)) (twinSettle_kept (settle_kept (routeData_kept k2))))) k1)) k

theorem onMessage_kept {l : Nat} {m : Msg} {withData : Bool} {f : Hub → Hub} (kf : ∀ h, Kept o h → Kept o (f h)) (k : Kept o h) : Kept o (onMessage l m withData f
    h) := by
  unfold onMessage
  exact onListed_kept (fun _ _ _ k1 => kf _ k1) k

theorem setQuery_kept {qid : Nat} {hset : Nat} (k : Kept o h) : Kept o (setQuery qid hset h) := by
  unfold setQuery
  extract_lets
  exact sendMsg_kept k

theorem effLinkCtlSetQuery_kept {l : Nat} {qid : Nat} {hset : Nat} (k : Kept o h) : Kept o (effLinkCtlSetQuery l qid hset h) := by
  unfold effLinkCtlSetQuery
  exact Kept.ite (setQuery_kept k) k

theorem rewriteSet_kept {v : Recovery} {es : List SEnt} (k : Kept o h) : Kept o (rewriteSet v es h).2 := by
  unfold rewriteSet
  extract_lets _ _ h1
  have k1 : Kept o h1 := k.upd
  exact Kept.iteSnd (Kept.mkSnd k1.upd) (Kept.mkSnd k1.upd)

theorem takeExtra_kept {es : List SEnt} (k : Kept o h) : Kept o (takeExtra es h) := by
  unfold takeExtra
  exact Kept.forEach (fun _ _ k1 => backInval_kept k1) k

theorem relaunch_kept {s : Snp} {l : Nat} (k : Kept o h) : Kept o (relaunch s l h) := by
  unfold relaunch
  extract_lets
  exact launchSnp_kept k.upd

theorem settleSnp_kept {host : Nat} {g : Nat} {n : Nat} {old : Nat} {now : Nat} {s : Snp} (k : Kept o h) : Kept o (settleSnp host g n old now s h) := by
  unfold settleSnp
  extract_lets _ closed1 h2 h3
  have k1 : ∀ h, Kept o h → Kept o (closed1 h) := by
    intro _ k2
    unfold closed1
    exact Kept.ite (closeGroup_kept k2) (closeLost_kept k2)
  have k3 : Kept o h2 := loseLine_kept k
  have k4 : Kept o h3 := Kept.ite (closeGroup_kept k3) (closeSnp_kept k3)
  refine Kept.ite ?_ (Kept.ite ?_ (k1 _ k))
  · clear_value *
    split
    · exact k4
    · exact setHostSt_kept k4
    · exact setHostSt_kept (issueSnp_kept k4)
  · clear_value *
    split
    · exact k1 _ k
    · exact relaunch_kept k

theorem settleGranule_kept {host : Nat} {lost : Nat} {g : Nat} {old : Nat} (k : Kept o h) : Kept o (settleGranule host lost g old h) := by
  unfold settleGranule
  extract_lets _ _ h1
  have k1 : Kept o h1 := Kept.forEach (fun _ _ k2 => settleSnp_kept k2) k
  refine Kept.ite k1 ?_
  · clear_value *
    split
    · exact Kept.ite (dirtyBack_kept k1) k1.upd
    · exact loseClean_kept k1

theorem effLinkCtlSetReport_kept {l : Nat} {qid : Nat} {hset : Nat} {d : List Byte} (k : Kept o h) : Kept o (effLinkCtlSetReport l qid hset d h) := by
  unfold effLinkCtlSetReport
  split
  · exact k
  · extract_lets
    clear_value *
    split
    · rename_i g e
      have k1 := Kept.of_snd (rewriteSet_kept k.upd) e
      extract_lets h1 h2 h3
      have k2 : Kept o h1 := takeExtra_kept k1
      have k3 : Kept o h2 := regSetField_kept k2
      have k4 : Kept o h3 := Kept.ite (record_kept k3) (Kept.forEach (fun _ _ k5 => settleGranule_kept k5) k2)
      exact twinSettle_kept (settle_kept (Kept.forEach (fun _ _ k6 => again_kept k6) k4))

theorem effLinkCtl_kept {kind : Nat} {l : Nat} {qid : Nat} {hset : Nat} {d : List Byte} (k : Kept o h) : Kept o (effLinkCtl kind l qid hset d h) := by
  unfold effLinkCtl
  refine onMessage_kept (fun _ k1 => ?_) k
  split
  · exact effLinkCtlSetQuery_kept k1
  · exact effLinkCtlSetReport_kept k1

theorem setResult_kept {n : Nat} {last : Nat} {reason : Nat} (k : Kept o h) : Kept o (setResult n last reason h) := by
  unfold setResult
  extract_lets h1
  have k1 : Kept o h1 := setWin_kept k
  exact Kept.ite (raiseEvt_kept (record_kept k1)) k1

theorem countFail_kept (k : Kept o h) : Kept o (countFail h) := regSetField_kept k

theorem evalGroup_kept {ns : List Nat} (k : Kept o h) : Kept o (evalGroup ns h) := by
  unfold evalGroup
  extract_lets
  exact Kept.ite (Kept.forEach (fun _ _ k1 => setResult_kept k1) k) (Kept.ite (countFail_kept (Kept.forEach (fun _ _ k2 => setResult_kept k2) k)) (countFail_kept
      (Kept.forEach (fun _ _ k3 => Kept.ite (setResult_kept k3) (setResult_kept k3)) k)))

theorem evalWitness_kept (k : Kept o h) : Kept o (evalWitness h) := by
  unfold evalWitness
  extract_lets _ _ _ _ h1 h2 h3 _ _ h4
  have k1 : Kept o h1 := Kept.forEach (fun _ _ k2 => evalGroup_kept k2) k
  have k3 : Kept o h2 := Kept.forEach (fun _ _ k4 => evalGroup_kept k4) k1
  have k5 : Kept o h3 := Kept.forEach (fun _ _ k6 => setWin_kept k6) k3
  have k7 : Kept o h4 := k5.upd
  exact k7.upd

theorem overrun_kept {cause : Nat} {units : Nat} {dropped : Bool} (k : Kept o h) : Kept o (overrun cause units dropped h) := by
  unfold overrun
  extract_lets h1 h2 _ h3
  have k1 : Kept o h1 := regSetField_kept k
  have k2 : Kept o h2 := regSetField_kept k1
  have k3 : Kept o h3 := regSetField_kept k2
  exact raiseEvt_kept (record_kept k3)

theorem btTick_kept (k : Kept o h) : Kept o (btTick h) := by
  unfold btTick
  extract_lets _ _ _ h1 h2
  have k1 : Kept o h1 := Kept.ite k (overrun_kept k)
  have k2 : Kept o h2 := Kept.forEach (fun _ _ k3 => k3.upd) k1
  exact k2.upd

theorem setWhisk_kept {r : Nat} {f : WhiskPos → WhiskPos} (k : Kept o h) : Kept o (setWhisk r f h) := by
  unfold setWhisk
  extract_lets
  exact k.upd

theorem scrubTick_kept {cause : Nat} {rs : List Nat} (k : Kept o h) : Kept o (scrubTick cause rs h) := by
  unfold scrubTick
  extract_lets _ _ _ h1
  have k1 : Kept o h1 := Kept.ite k (overrun_kept k)
  exact Kept.forEach (fun _ _ k2 => setWhisk_kept k2) k1

theorem effBwWindowEnd_kept (k : Kept o h) : Kept o (effBwWindowEnd h) := by
  unfold effBwWindowEnd
  exact Kept.ite k k.upd

theorem pmuWindow_kept {die : Nat} (k : Kept o h) : Kept o (pmuWindow die h) := by
  unfold pmuWindow
  extract_lets
  exact k.upd

theorem effPmuWindowEnd_kept (k : Kept o h) : Kept o (effPmuWindowEnd h) := by
  unfold effPmuWindowEnd
  refine Kept.forEach (fun _ _ k1 => Kept.ite ?_ k1) k
  · extract_lets h1
    have k2 : Kept o h1 := pmuWindow_kept k1
    exact k2.upd

theorem windowTick_kept (k : Kept o h) : Kept o (windowTick h) := by
  unfold windowTick
  extract_lets h1 h2
  have k1 : Kept o h1 := effBwWindowEnd_kept (effPmuWindowEnd_kept k)
  have k2 : Kept o h2 := by
    unfold h2
    refine Kept.forEach (fun _ _ k3 => ?_) k1
    · extract_lets
      exact k3.upd
  exact k2.upd

theorem postProgress_kept {v : Heavy} {units : Nat} (k : Kept o h) : Kept o (postProgress v units h) := by
  unfold postProgress
  exact Kept.ite (writeCpl_kept k) k

theorem progressAll_kept (k : Kept o h) : Kept o (progressAll h) := by
  unfold progressAll
  exact Kept.forEach (fun _ _ k1 => postProgress_kept k1) k

theorem rebuildLine_kept {pos : Nat} {off : Nat} (k : Kept o h) : Kept o (rebuildLine pos off h) := by
  unfold rebuildLine
  extract_lets
  clear_value *
  split
  · exact poisonLine_kept k
  · exact poisonLine_kept k
  · refine Kept.forEach (fun _ _ k1 => ?_) k
    · extract_lets
      exact k1.updMarks

theorem rebuildTo_kept {p : Nat} (k : Kept o h) : Kept o (rebuildTo p h) := by
  unfold rebuildTo
  extract_lets
  clear_value *
  split
  · exact k
  · extract_lets h1 h2
    have k1 : Kept o h1 := Kept.forEach (fun _ _ k2 => rebuildLine_kept k2) k
    have k3 : Kept o h2 := Kept.forEach (fun _ _ k4 => pmu_kept k4) k1
    exact k3.upd

theorem rebuildTick_kept (k : Kept o h) : Kept o (rebuildTick h) := by
  unfold rebuildTick
  exact Kept.ite k (rebuildTo_kept k.upd)

theorem fallback_kept {f : Nat} (k : Kept o h) : Kept o (fallback f h) := by
  unfold fallback
  extract_lets both1
  have k1 : ∀ x0 h, Kept o h → Kept o (both1 x0 h) := by
    intro _ _ k2
    unfold both1
    exact regPut_kept (regPut_kept k2)
  exact Kept.ite (k1 _ _ (k1 _ _ k)) (Kept.ite (Kept.forEach (fun _ _ k3 => regSetField_kept (regSetField_kept k3)) k) (Kept.ite (regPut_kept (regSetField_kept
      (regSetField_kept k))) (Kept.ite (Kept.forEach (fun _ _ k4 => setWhisk_kept k4) k) k)))

theorem adoptTick_kept (k : Kept o h) : Kept o (adoptTick h) := by
  unfold adoptTick
  extract_lets
  exact setFs_kept k

theorem checkOvercommit_kept (k : Kept o h) : Kept o (checkOvercommit h) := by
  unfold checkOvercommit
  extract_lets _ _ h1
  have k1 : Kept o h1 := record_kept k.upd
  exact Kept.ite (raiseEvt_kept k1) k.upd

theorem releaseStep_kept {k' : Nat} (k : Kept o h) : Kept o (releaseStep k' h) := by
  unfold releaseStep
  refine Kept.forEach (fun _ _ k1 => Kept.forEach (fun _ _ k2 => ?_) k1) k
  · extract_lets
    exact Kept.forEach (fun _ _ k3 => k3.upd) k2

theorem beginFrame_kept (k : Kept o h) : Kept o (beginFrame h) := by
  unfold beginFrame
  extract_lets
  exact releaseStep_kept k.upd

theorem effFrameTick_kept (k : Kept none h) : Kept none (effFrameTick h) := by
  unfold effFrameTick
  extract_lets h1 h2 h3 h4 h5 h6 _ h7 h8 h9
  have k1 : Kept none h1 := evalWitness_kept k
  have k2 : Kept none h2 := btTick_kept (scrubTick_kept (scrubTick_kept k1))
  have k3 : Kept none h3 := k2.updParts
  have k4 : Kept none h4 := k3.upd
  have k5 : Kept none h5 := windowTick_kept (progressAll_kept (rebuildTick_kept k4))
  have k6 : Kept none h6 := Kept.forEach (fun _ _ k7 => fallback_kept k7) k5
  have k8 : Kept none h7 := adoptTick_kept (setFs_kept k6)
  have k9 : Kept none h8 := checkOvercommit_kept (beginFrame_kept k8)
  have k10 : Kept none h9 := Kept.ite (sendMsg_kept k9) k9
  exact Kept.ite k k10.upd

theorem realTick_kept {at_ : Nat} (k : Kept none h) : Kept none (realTick at_ h) := by
  unfold realTick
  exact Kept.ite k (Kept.ite (regSetField_kept k) (setFs_kept (effFrameTick_kept k)))

theorem effTick_kept {l : Nat} {at_ : Nat} (k : Kept none h) : Kept none (effTick l at_ h) := by
  unfold effTick
  exact Kept.ite (realTick_kept k) k

theorem effTickMsg_kept {l : Nat} {frame : Nat} (k : Kept none h) : Kept none (effTickMsg l frame h) := by
  unfold effTickMsg
  exact onListed_kept (fun _ _ _ k1 => effTick_kept k1) k

theorem twinSnoop_kept {kind : Nat} {snpid : Nat} {a : Nat} {n : Nat} {vc : Bool} (k : Kept o h) : Kept o (twinSnoop kind snpid a n vc h) := by
  unfold twinSnoop
  split
  · rename_i g e
    have k1 := Kept.of_snd (takeKey_kept k) e
    extract_lets
    exact twinSettle_kept k1.upd

theorem effTwinSnoop_kept {op : Nat} {l : Nat} {s : SnpHdr} (k : Kept o h) : Kept o (effTwinSnoop op l s h) := by
  unfold effTwinSnoop
  exact onMessage_kept (fun _ k1 => twinSnoop_kept k1) k

theorem effTwinRsp_kept {op : Nat} {l : Nat} {r : RspHdr} {d : List Byte} (k : Kept o h) : Kept o (effTwinRsp op l r d h) := by
  unfold effTwinRsp
  exact onMessage_kept (fun _ k1 => twinAnswer_kept k1) k

theorem startReplay_kept {l : Nat} (k : Kept o h) : Kept o (startReplay l h) := by
  unfold startReplay
  extract_lets _ h1
  have k1 : Kept o h1 := linkCount_kept k
  exact Kept.ite (enterRecovery_kept k1) (setLink_kept k1)

theorem takeAck_kept {l : Nat} {a : Nat} (k : Kept o h) : Kept o (takeAck l a h) := by
  unfold takeAck
  extract_lets _ _ h1 _ h2
  have k1 : Kept o h1 := setLink_kept k
  have k2 : Kept o h2 := Kept.ite k1 (setLink_kept k1)
  exact Kept.ite (startReplay_kept k2) k2

theorem deliver_kept {l : Nat} {m : Msg} (k : Kept o h) : Kept o (deliver l m h) := by
  unfold deliver
  extract_lets
  exact Kept.ite (record_kept (linkCount_kept (oweCredit_kept k))) (Kept.ite (oweCredit_kept k) (setLink_kept k.upd))

theorem takeSlots_kept {l : Nat} {hdr : Nat} {s : Nat} {ds : List (List Byte)} (k : Kept o h) : KeptOpt o (takeSlots l hdr s ds h) := by
  induction ds generalizing s h with
  | nil => exact k
  | cons d r ih =>
    unfold takeSlots
    extract_lets _ whole1
    have k1 : ∀ d h, Kept o h → Kept o (whole1 d h) := fun _ _ k => deliver_kept (setLink_kept k)
    exact kept_ite (kept_ite trivial (kept_ite (ih (k1 _ _ k)) (ih (setLink_kept k)))) (kept_ite (kept_ite (ih (k1 _ _ k)) (ih (setLink_kept k))) (ih k))

theorem effFlitReceived_kept {l : Nat} {flit : List Byte} (k : Kept o h) : KeptOpt o (effFlitReceived l flit h) := by
  unfold effFlitReceived
  extract_lets _ _ h1 _ _ _ h2 h3
  have k1 : Kept o h1 := takeAck_kept k
  have k2 : Kept o h2 := setLink_kept k1
  have k3 : Kept o h3 := Kept.ite k2 (pmu_kept k2)
  clear_value *
  split
  · exact kept_ite (KeptOpt.mkSome (setLink_kept (linkCount_kept k))) (kept_ite (KeptOpt.mkSome (setLink_kept k)) (kept_ite (KeptOpt.mkSome k1) (takeSlots_kept k3)))
  · exact KeptOpt.mkSome k

theorem effReplayTimer_kept {l : Nat} (k : Kept o h) : Kept o (effReplayTimer l h) := by
  unfold effReplayTimer
  extract_lets
  exact Kept.ite (startReplay_kept k) k

theorem reportDown_kept {l : Nat} {stage : Nat} {reason : Nat} (k : Kept o h) : Kept o (reportDown l stage reason h) := by
  unfold reportDown
  extract_lets
  exact Kept.ite (raiseEvt_kept (record_kept (setLink_kept k))) k

theorem effRecoveryTimeout_kept {l : Nat} (k : Kept o h) : Kept o (effRecoveryTimeout l h) := by
  unfold effRecoveryTimeout
  extract_lets
  exact Kept.ite (takeDown_kept (reportDown_kept k)) k

theorem effLinkDown_kept {l : Nat} (k : Kept o h) : Kept o (effLinkDown l h) := by
  unfold effLinkDown
  exact Kept.ite (takeDown_kept (reportDown_kept k)) k

end

end Sys2Proof.Machine

/-!
Training, the boot and frame steps keep them.
-/

namespace Sys2Proof.Machine

section
variable {o : Option Standing} {h : Hub}

theorem trainFail_kept {l : Nat} {stage : Nat} {reason : Nat} (k : Kept o h) : Kept o (trainFail l stage reason h) := by
  unfold trainFail
  extract_lets h1
  have k1 : Kept o h1 := setLink_kept k
  exact reportDown_kept k1

theorem checkFull_kept (k : Kept o h) : Kept o (checkFull h) := by
  unfold checkFull
  extract_lets
  exact k.upd

theorem saveTraining_kept {id : Nat} (k : Kept o h) : Kept o (saveTraining id h) := by
  unfold saveTraining
  exact Kept.ite k (ledgerPut_kept k)

theorem noteDegraded_kept {l : Nat} (k : Kept o h) : Kept o (noteDegraded l h) := by
  unfold noteDegraded
  extract_lets _ _ h1
  have k1 : Kept o h1 := setLink_kept k
  exact Kept.ite (record_kept k1) k1

theorem linkUpFresh_kept {l : Nat} {u : UpInfo} (k : Kept o h) : Kept o (linkUpFresh l u h) := by
  unfold linkUpFresh
  extract_lets _ h1 _ h2
  have k1 : Kept o h1 := setLink_kept k
  have k2 : Kept o h2 := Kept.ite k1.upd k1
  exact checkFull_kept (saveTraining_kept (noteDegraded_kept k2.upd))

theorem linkUpAgain_kept {l : Nat} {u : UpInfo} (k : Kept o h) : Kept o (linkUpAgain l u h) := by
  unfold linkUpAgain
  extract_lets _ _ _ _ _ h1
  have k1 : Kept o h1 := setLink_kept k
  exact Kept.ite k1 (noteDegraded_kept k1)

theorem effLinkUp_kept {l : Nat} {u : UpInfo} (k : Kept o h) : Kept o (effLinkUp l u h) := by
  unfold effLinkUp
  split
  · refine Kept.ite k (Kept.ite (trainFail_kept k) ?_)
    · split
      · exact trainFail_kept k
      · exact linkUpFresh_kept k
  · exact Kept.ite k (linkUpAgain_kept k)
  · exact k

theorem effTrainingStageTimeout_kept {l : Nat} {st : TrainStage} {r : TrainReason} (k : Kept o h) : Kept o (effTrainingStageTimeout l st r h) := by
  unfold effTrainingStageTimeout
  exact Kept.ite (trainFail_kept k) k

theorem effTrainingBackoffExpiry_kept {l : Nat} (k : Kept o h) : Kept o (effTrainingBackoffExpiry l h) := by
  unfold effTrainingBackoffExpiry
  extract_lets
  clear_value *
  split
  · exact Kept.ite (setLink_kept k) k
  · exact k

theorem effMemTrainBackoffExpiry_kept {die : Nat} {j : Nat} (k : Kept o h) : Kept o (effMemTrainBackoffExpiry die j h) := by
  unfold effMemTrainBackoffExpiry
  extract_lets
  exact Kept.ite (setLife_kept k) (Kept.ite (setLife_kept k) k)

theorem repairMain_kept {k' : Nat} (k : Kept o h) : Kept o (repairMain k' h) := by
  unfold repairMain
  refine Kept.forEach (fun _ _ k1 => ?_) k
  · extract_lets _ h1
    have k2 : Kept o h1 := k1.upd
    exact Kept.ite (ledgerPut_kept k2) k2

theorem effChannelTrained_kept {k' : Nat} {rate : Nat} {units : Nat} {full : Bool} (k : Kept o h) : Kept o (effChannelTrained k' rate units full h) := by
  unfold effChannelTrained
  extract_lets _ h1
  have k1 : Kept o h1 := setLife_kept k
  exact Kept.ite k (checkFull_kept (checkOvercommit_kept (repairMain_kept (saveTraining_kept k1))))

theorem repairArray_kept (k : Kept o h) : Kept o (repairArray h) := by
  unfold repairArray
  extract_lets h1
  have k1 : Kept o h1 := by
    unfold h1
    refine Kept.forEach (fun _ _ k2 => ?_) k
    · extract_lets _ h2
      have k3 : Kept o h2 := k2.upd
      exact Kept.ite (ledgerPut_kept k3) k3
  exact Kept.ite k1 k1.upd

theorem effArrayTrained_kept {rate : Nat} {dens : Bool} {full : Bool} (k : Kept o h) : Kept o (effArrayTrained rate dens full h) := by
  unfold effArrayTrained
  extract_lets h1
  have k1 : Kept o h1 := setLife_kept k
  exact Kept.ite k (repairArray_kept (saveTraining_kept k1))

theorem zeroFoot_kept {e : REntry} (k : Kept o h) : Kept o (zeroFoot e h) := k.updMems id (wf_filter · _) id

theorem zeroEcho_kept (k : Kept o h) : Kept o (zeroEcho h) := k.updMems id (wf_filter · _) id

theorem enableCache_kept {size : Nat} (k : Kept o h) : Kept o (enableCache size h) := by
  unfold enableCache
  extract_lets _ h1
  have k1 : Kept o h1 := k.upd
  exact Kept.ite (zeroEcho_kept k1) k1

theorem enableRecorded_kept (k : Kept o h) : Kept o (enableRecorded h) := by
  unfold enableRecorded
  extract_lets
  exact Kept.ite k (enableCache_kept k)

theorem postFinal_kept {m : Nat} {tag : Nat} {status : Nat} {op : Nat} {result : Nat} {info : Nat} {irq : Bool} (k : Kept o h) : Kept o (postFinal m tag status op
    result info irq h) := by
  unfold postFinal
  extract_lets
  exact Kept.ite (writeCpl_kept k) (setMgr_kept k)

theorem finishHeavy_kept {job : Nat} {status : Nat} {result : Nat} (k : Kept none h) : Kept none (finishHeavy job status result h) := by
  unfold finishHeavy
  split
  · exact k
  · exact postFinal_kept k.updParts

theorem effNearZeroFillDone_kept (k : Kept none h) : Kept none (effNearZeroFillDone h) := by
  unfold effNearZeroFillDone
  extract_lets _ h1 h2 h3 h4
  have k1 : Kept none h1 := Kept.forEach (fun _ _ k2 => zeroFoot_kept k2) k
  have k3 : Kept none h2 := enableRecorded_kept (setLife_kept k1)
  have k4 : Kept none h3 := k3.upd
  have k5 : Kept none h4 := Kept.forEach (fun _ _ k6 => finishHeavy_kept k6) k4
  exact Kept.ite k (checkFull_kept k5)

theorem effFwRetryBackoffExpiry_kept (k : Kept o h) : Kept o (effFwRetryBackoffExpiry h) := by
  unfold effFwRetryBackoffExpiry
  split
  · exact Kept.ite (setLife_kept k) k
  · exact k

theorem setFwSlot_kept {b : Bool} {f : FwSlot → FwSlot} (k : Kept o h) : Kept o (setFwSlot b f h) := setLife_kept k

theorem failSlot_kept {b : Bool} (k : Kept o h) : Kept o (failSlot b h) := setFwSlot_kept k

theorem runSlot_kept {b : Bool} (k : Kept o h) : Kept o (runSlot b h) := by
  unfold runSlot
  extract_lets
  exact setLife_kept k

theorem putHeader_kept {b : Bool} {f : FwHdr} (k : Kept o h) : Kept o (putHeader b f h) := setFwSlot_kept k

theorem putExpert_kept {off : Nat} {bit : Nat} {v : Nat} (k : Kept o h) : Kept o (putExpert off bit v h) := regSetField_kept (regSetField_kept k)

theorem applyBoot_kept (k : Kept none h) : Kept none (applyBoot h) := by
  unfold applyBoot
  extract_lets _ h1 h2 h3 h4 h5 h6 h7 h8
  have k1 : Kept none h1 := by
    unfold h1
    refine Kept.forEach (fun _ _ k2 => ?_) k
    · clear_value *
      split
      · exact Kept.ite (putExpert_kept k2) k2
      · exact k2
  have k3 : Kept none h2 := Kept.forEach (fun _ _ k4 => regPut_kept k4) k1
  have k5 : Kept none h3 := regPut_kept k3
  have k6 : Kept none h4 := k5.updParts
  have k7 : Kept none h5 := Kept.forEach (fun _ _ k8 => regPut_kept k8) k6
  have k9 : Kept none h6 := regPut_kept (regPut_kept (regPut_kept k7))
  have k10 : Kept none h7 := setLife_kept k9
  have k11 : Kept none h8 := Kept.forEach (fun _ _ k12 => Kept.ite (setLink_kept k12) k12) k10
  exact checkOvercommit_kept k11

theorem startFrames_kept {frame : Nat} (k : Kept none h) : Kept none (startFrames frame h) := by
  unfold startFrames
  extract_lets _ h1
  have k1 : Kept none h1 := setFs_kept k
  exact beginFrame_kept k1.updParts

theorem setPhase_kept {p : LcPhase} (k : Kept o h) : Kept o (setPhase p h) := setLife_kept k

theorem enterRun_kept {frame : Nat} (k : Kept none h) : Kept none (enterRun frame h) := enableRecorded_kept (startFrames_kept (setPhase_kept k))

theorem effFwImageAuthenticated_kept {b : Bool} {f : FwHdr} (k : Kept none h) : Kept none (effFwImageAuthenticated b f h) := by
  unfold effFwImageAuthenticated
  extract_lets h1 h2 h3
  have k1 : Kept none h1 := Kept.ite k (failSlot_kept k)
  have k2 : Kept none h2 := runSlot_kept (putHeader_kept k1)
  have k3 : Kept none h3 := Kept.ite (applyBoot_kept k2) k2
  exact Kept.ite k (enterRun_kept (setLife_kept k3))

theorem effFtickEdge_kept {ball : Bool} {falling : Bool} (k : Kept none h) : Kept none (effFtickEdge ball falling h) := by
  unfold effFtickEdge
  exact Kept.ite (realTick_kept k) k

theorem effInternalTimerTick_kept (k : Kept none h) : Kept none (effInternalTimerTick h) := by
  unfold effInternalTimerTick
  exact Kept.ite (realTick_kept k) k

theorem effSyntheticTick_kept (k : Kept none h) : Kept none (effSyntheticTick h) := by
  unfold effSyntheticTick
  extract_lets h1
  have k1 : Kept none h1 := regSetField_kept k
  exact Kept.ite (setFs_kept (effFrameTick_kept k1)) k

theorem effTickFailover_kept (k : Kept o h) : Kept o (effTickFailover h) := by
  unfold effTickFailover
  extract_lets _ _ _ h1
  have k1 : Kept o h1 := regSetField_kept k
  exact Kept.ite k (raiseEvt_kept (record_kept (setFs_kept k1)))

theorem reportRegions_kept (k : Kept o h) : Kept o (reportRegions h) := by
  unfold reportRegions
  extract_lets
  exact k.upd

theorem stewardRecord_kept {kind : Nat} {pid : Nat} {old : Nat} {new : Nat} {basis : Nat} (k : Kept o h) : Kept o (stewardRecord kind pid old new basis h) :=
  record_kept k

theorem applyDecision_kept {d : Decision} (k : Kept o h) : Kept o (applyDecision d h) := by
  unfold applyDecision
  extract_lets
  exact Kept.ite (Kept.ite k (Kept.ite k (stewardRecord_kept (setPart_kept (fun _ => rfl) k)))) (Kept.ite (Kept.ite k (Kept.ite k (stewardRecord_kept (setPart_kept
      (fun _ => rfl) k)))) (Kept.ite k (stewardRecord_kept (setWhisk_kept k))))

theorem effSubframeStep_kept (k : Kept o h) : Kept o (effSubframeStep h) := by
  unfold effSubframeStep
  extract_lets _ _ h1
  have k1 : Kept o h1 := setFs_kept (reportRegions_kept k)
  exact Kept.ite k (releaseStep_kept (Kept.forEach (fun _ _ k2 => applyDecision_kept k2) k1))

theorem effStewardPass_kept (k : Kept o h) : Kept o (effStewardPass h) := by
  unfold effStewardPass
  extract_lets
  clear_value *
  split
  · exact k
  · exact Kept.ite k k.upd

theorem effStewardPassDiscard_kept (k : Kept o h) : Kept o (effStewardPassDiscard h) := by
  unfold effStewardPassDiscard
  exact Kept.ite (overrun_kept (setFs_kept k)) k

theorem foldHistory_keptAll (k : Kept o h) : Kept o (foldHistory h) := ledgerPut_kept k

theorem effHistoryFold_kept (k : Kept o h) : Kept o (effHistoryFold h) := by
  unfold effHistoryFold
  exact Kept.ite (foldHistory_keptAll k) k

theorem effLadleExpiry_kept {cluster : Nat} {line : Nat} (k : Kept o h) : Kept o (effLadleExpiry cluster line h) := by
  unfold effLadleExpiry
  split
  · exact k
  · extract_lets g1
    have k1 : Kept o g1 := countDrop_kept k
    exact k1.upd

theorem effResvExpiry_kept {die : Nat} {id : Nat} (k : Kept o h) : Kept o (effResvExpiry die id h) := by
  unfold effResvExpiry
  split
  · exact k
  · exact loseMon_kept k

theorem effClassBPromote_kept {id : Nat} (k : Kept o h) : Kept o (effClassBPromote id h) := updTxn_kept k

theorem effSnoopTimeout_kept {l : Nat} {snpid : Nat} (k : Kept o h) : Kept o (effSnoopTimeout l snpid h) := by
  unfold effSnoopTimeout
  split
  · exact k
  · extract_lets _ h1 h2
    have k1 : Kept o h1 := updSnp_kept k
    have k2 : Kept o h2 := regSetField_kept k1
    exact raiseEvt_kept (record_kept k2)

theorem effTongsHoldEnd_kept {_line : Nat} (k : Kept o h) : Kept o (effTongsHoldEnd _line h) := settle_kept k

end

end Sys2Proof.Machine

/-!
What memory answers, walks, scrubs, repair and seals keep them.
-/

namespace Sys2Proof.Machine

section
variable {o : Option Standing} {h : Hub}

theorem headerFails_kept {die : Nat} (k : Kept o h) : Kept o (headerFails die h) := by
  unfold headerFails
  extract_lets h1
  have k1 : Kept o h1 := regSetField_kept k
  exact startWarm_kept (raiseEvt_kept (record_kept k1.upd))

theorem freeHalves_kept {a : Nat} {g : Got} (k : Kept o g.h) : Kept o (freeHalves a g).h := by
  unfold freeHalves
  exact Kept.foldlGot (fun _ _ k1 => Kept.iteGot (Kept.mkGot (k1.upd)) k1) k

theorem homeLine_kept {a : Nat} {pid : Nat} (k : Kept o h) : Kept o (homeLine a pid h).h := by
  unfold homeLine
  extract_lets _ _ fromMem1 cached2
  have k1 : ∀ h, Kept o h → Kept o (fromMem1 h).h := by
    intro _ k2
    unfold fromMem1
    extract_lets g3
    have k3 : Kept o (g3).h := Kept.iteGot (readMain_kept k2) (readNear_kept k2)
    exact Kept.mkGot k3
  have k4 : ∀ h, Kept o h → Kept o (cached2 h).h := by
    intro _ k5
    unfold cached2
    clear_value *
    split
    · rename_i g _ e
      have k6 := KeptCRead.of_good (readCached_kept k5) e
      exact Kept.mkGot k6
    · rename_i g e
      have k7 := KeptCRead.of_bad (readCached_kept k5) e
      exact Kept.mkGot k7
    · rename_i g e
      have k8 := KeptCRead.of_miss (readCached_kept k5) e
      exact k1 _ k8
  refine freeHalves_kept ?_
  · clear_value *
    split
    · exact readKettle_kept k
    · exact Kept.mkGot k
    · exact k4 _ k
    · exact k4 _ k
    · exact k1 _ k

theorem readShadow_kept {e : REntry} {a : Nat} {pid : Nat} (k : Kept o h) : Kept o (readShadow e a pid h).2.h := by
  unfold readShadow
  extract_lets _ _ _ r1 h2 h3 g4
  have k1 : Kept o (r1).h := readArrayLine_kept k
  have k2 : Kept o h2 := arrayUe_kept k1
  have k3 : Kept o h3 := Kept.ite k2 (corrNote_kept k2)
  have k4 : Kept o (g4).h := homeLine_kept k3
  refine Kept.iteSndH (homeLine_kept k) ?_
  · clear_value *
    split
    · exact Kept.mkSndGot k1
    · exact Kept.iteSndH (Kept.mkSndGot (poisonLine_kept k4)) (Kept.mkSndGot (writeArrayLine_kept k4))
    · exact Kept.mkSndGot k1

theorem shadowOwned_kept {e : REntry} {a : Nat} {pid : Nat} (k : Kept o h) : KeptOpt o (shadowOwned e a pid h) := by
  unfold shadowOwned
  extract_lets
  exact kept_ite (kept_ite (KeptOpt.mkSome k) (KeptOpt.mkSome (settle_kept (openTxn_kept k)))) trivial

theorem pathNote_kept {a : Nat} {n : Nat} (k : Kept o h) : Kept o (pathNote a n h) := by
  unfold pathNote
  extract_lets
  exact Kept.ite k k.upd

theorem xorMainErr_kept {partner : Bool} {w : Nat} {x : Nat} (k : Kept o h) : Kept o (xorMainErr partner w x h) := putMainErr_kept k

theorem disturb_kept {e : REntry} {a : Nat} {x : Disturb} (k : Kept o h) : Kept o (disturb e a x h) := by
  unfold disturb
  refine Kept.ite (Kept.forEach (fun _ _ k1 => Kept.ite (xorMainErr_kept k1) k1) k) ?_
  have k1 : Kept o (forEach x.beats (fun p (h : Hub) =>
      if p.1 < 16 then { h with mem :=
        { h.mem with beatErr := bset h.mem.beatErr (e.off (a / 128 * 128) / 8 + p.1) (BitVec.ofNat 128 (beatErrOf h (e.off (a / 128 * 128)) p.1) ^^^ p.2) } }
      else h) h) := Kept.forEach (fun _ _ k2 => Kept.ite k2.updMarks k2) k
  exact Kept.ite k1 k1.updMarks

theorem landHalf_kept {t : Txn} {e : REntry} (k : Kept o h) : Kept o (landHalf t e h) := by
  unfold landHalf
  extract_lets _ g1
  have k1 : Kept o (g1).h := readMain_kept k
  clear_value *
  split
  · extract_lets h2
    have k2 : Kept o h2 := setSlotLine_kept k1
    exact Kept.ite (finish_kept (respond_kept (setSlotLine_kept k))) (Kept.ite (finish_kept (respond_kept k2)) (landCast_kept k1))
  · exact finish_kept (respond_kept k)

theorem keepHalf_kept {w : WbLine} (k : Kept o h) : Kept o (keepHalf w h) := by
  unfold keepHalf
  extract_lets
  exact Kept.ite k k.upd

theorem putMainWord_kept {e : REntry} {a : Nat} {d : List Byte} (k : Kept o h) : Kept o (putMainWord e a d h) := by
  unfold putMainWord
  exact setMainErr_kept (setMainErr_kept (k.updMems (wf_memWriteN · _ _) id id))

theorem writeMainWord_kept {e : REntry} {a : Nat} {pid : Nat} {d : List Byte} {m : List Bool} (k : Kept o h) : Kept o (writeMainWord e a pid d m h) := by
  unfold writeMainWord
  extract_lets _ _ g1
  have k1 : Kept o (g1).h := readMainWord_kept k
  exact Kept.ite k (Kept.ite (putMainWord_kept k) (Kept.ite (Kept.ite k1 (putMainWord_kept k1)) (putMainWord_kept k)))

theorem writeMain_kept {e : REntry} {a : Nat} {pid : Nat} {d : List Byte} {m : List Bool} (k : Kept o h) : Kept o (writeMain e a pid d m h) := by
  unfold writeMain
  exact Kept.forEach (fun _ _ k1 => writeMainWord_kept k1) k

theorem writeAtomic_kept {r : Req} {e : REntry} {d : List Byte} {m : List Bool} (k : Kept o h) : Kept o (writeAtomic r e d m h) := by
  unfold writeAtomic
  exact keepHalf_kept (writeMain_kept k.upd)

theorem landLoose_kept {t : Txn} {e : REntry} (k : Kept o h) : Kept o (landLoose t e h).h := by
  unfold landLoose
  extract_lets _ _ g1 g2
  have k1 : Kept o (g1).h := readMain_kept k
  have k2 : Kept o (g2).h := by
    unfold g2
    clear_value *
    split
    · exact readNear_kept k
    · exact readShadow_kept k
    · exact Kept.mkGot k1
  exact Kept.mkGot k2

theorem landSlot_kept {t : Txn} {e : REntry} {set : Nat} {way : Nat} (k : Kept o h) : Kept o (landSlot t e set way h).h := by
  unfold landSlot
  extract_lets _ _ _ g1 _ h2
  have k1 : Kept o (g1).h := readMain_kept k
  have k2 : Kept o h2 := writeArrayLine_kept k1
  exact Kept.iteGot (Kept.mkGot (setSlotLine_kept k)) (Kept.iteGot (Kept.mkGot (setSlotLine_kept k1)) (Kept.mkGot (setSlotLine_kept k2)))

theorem landFill_kept {t : Txn} {x : Disturb} (k : Kept o h) : Kept o (landFill t x h) := by
  unfold landFill
  extract_lets _ _ h1 h2 g3 _ _ h4 _ g5 g6 p7
  have k1 : Kept o h1 := pathNote_kept (disturb_kept k)
  have k2 : Kept o h2 := updTxn_kept k1
  have k3 : Kept o (g3).h := readMain_kept k2
  have k4 : Kept o h4 := Kept.ite (writeAtomic_kept k3) k3
  have k5 : Kept o (g5).h := landLoose_kept k2
  have k6 : Kept o (g6).h := landLoose_kept k2
  have k7 : Kept o (p7).2 := pathCheck_kept k6
  clear_value *
  split
  · rename_i g e
    have k8 := KeptOpt.of_some (shadowOwned_kept k) e
    exact k8
  · refine Kept.ite (settle_kept (landHalf_kept k2)) (Kept.ite (Kept.ite (Kept.ite (settle_kept (failAtomic_kept k3)) (settle_kept (finishAtomic_kept k4)))
      (settle_kept (updTxn_kept k5))) ?_)
    · split
      · extract_lets g8 p9
        have k9 : Kept o (g8).h := landSlot_kept k2
        have k10 : Kept o (p9).2 := pathCheck_kept k9
        exact Kept.ite (settle_kept (updTxn_kept k9)) (settle_kept (finishRead_kept k10))
      · exact settle_kept (finishRead_kept k7)

theorem effFillDataLands_kept {id : Nat} {x : Disturb} (k : Kept o h) : Kept o (effFillDataLands id x h) := by
  unfold effFillDataLands
  split
  · exact Kept.ite k (Kept.ite (headerFails_kept k) (landFill_kept k))
  · exact k

theorem effPrefetchLands_kept {cluster : Nat} {line : Nat} {x : Disturb} (k : Kept o h) : Kept o (effPrefetchLands cluster line x h) := by
  unfold effPrefetchLands
  extract_lets _ _ h1 p2
  have k1 : Kept o h1 := pathNote_kept (disturb_kept k)
  have k2 : Kept o (p2).2 := pathCheck_kept k1
  clear_value *
  split
  · exact k
  · extract_lets _ g3 _ g4 _ h5
    have k3 : Kept o (g3).h := readMain_kept k2
    have k4 : Kept o g4 := k3
    have k5 : Kept o h5 := setPart_kept (fun _ => rfl) k4.upd
    exact Kept.ite (headerFails_kept k) (Kept.ite (settle_kept k1.upd) (Kept.ite (settle_kept (Kept.forEach (fun _ _ k6 => finishRead_kept k6) k4.upd)) (settle_kept
        (Kept.forEach (fun _ _ k7 => updTxn_kept k7) k5))))

theorem backDone_kept {b : WBack} (k : Kept o h) : Kept o (backDone b h) := by
  unfold backDone
  extract_lets _ _ _ h1
  have k1 : Kept o h1 := k.upd
  exact Kept.ite k (Kept.ite k1 (Kept.ite (clearLineErr_kept (pmu_kept k1)) (setMainErr_kept (pmu_kept k1))))

theorem goodCopy_kept {p : Bool} {w : WbLine} (k : Kept o h) : Kept o (goodCopy p w h) := by
  unfold goodCopy
  exact Kept.forEach (fun _ _ k1 => setMainErr_kept k1) k

theorem takeOther_kept {w : WbLine} (k : Kept o h) : Kept o (takeOther w h) := by
  unfold takeOther
  extract_lets
  clear_value *
  split
  · exact k
  · extract_lets h1
    have k1 : Kept o h1 := pmu_kept k
    exact goodCopy_kept k1

theorem poisonMain_kept {e : REntry} {a : Nat} {pid : Nat} {d : List Byte} {m : List Bool} (k : Kept o h) : Kept o (poisonMain e a pid d m h) := by
  unfold poisonMain
  exact Kept.ite (Kept.forEach (fun _ _ k1 => poisonCopies_kept k1) k) (record_kept (writeMain_kept k))

theorem writeEcho_kept {w : WbLine} (k : Kept o h) : Kept o (writeEcho w h) := by
  unfold writeEcho
  extract_lets _ r1
  have k1 : Kept o r1.h := readArrayLine_kept k
  clear_value r1
  split
  · exact writeArrayLine_kept k1
  · exact writeArrayLine_kept k1
  · exact k1.updMems id (fun wf => wf_memWriteN wf _ _) (fun wf => wf)

theorem writeNear_kept {e : REntry} {a : Nat} {pid : Nat} {d : List Byte} {m : List Bool} (k : Kept o h) : Kept o (writeNear e a pid d m h) := by
  unfold writeNear
  extract_lets _ r1
  have k1 : Kept o (r1).h := readArrayLine_kept k
  refine Kept.ite (writeArrayLine_kept k) (Kept.ite k ?_)
  · clear_value *
    split
    · exact k1
    · exact poisonLine_kept (arrayUe_kept k1)
    · exact writeArrayLine_kept k1

theorem writeTarget_kept {w : WbLine} (k : Kept o h) : Kept o (writeTarget w h) := by
  unfold writeTarget
  extract_lets _ _ _ _ h1
  have k1 : Kept o h1 := Kept.forEach (fun _ _ k2 => pmu_kept k2) k
  exact Kept.ite (Kept.ite (poisonMain_kept k1) (writeMain_kept k1)) (Kept.ite (writeEcho_kept k) (Kept.ite (poisonLine_kept k) (writeNear_kept k)))

theorem writeDev_kept {w : WbLine} (k : Kept o h) : Kept o (writeDev w h).2 := by
  unfold writeDev
  extract_lets p1 g2
  have k1 : Kept o (p1).2 := Kept.iteSnd (Kept.mkSnd k) (partialBad_kept k.upd)
  have k2 : Kept o g2 := k1
  exact Kept.iteSnd (Kept.mkSnd k2.upd) (Kept.mkSnd (writeTarget_kept k))

theorem flushRepair_kept {a : Nat} (k : Kept o h) : Kept o (flushRepair a h) := by
  unfold flushRepair
  extract_lets _ h1 g2
  have k1 : Kept o h1 := k.upd
  have k2 : Kept o (g2).h := readMain_kept k1
  refine Kept.ite k ?_
  · clear_value *
    split
    · exact k1
    · extract_lets h3
      have k3 : Kept o h3 := writeArrayLine_kept k2
      clear_value *
      split
      · exact Kept.ite (setLineSt_kept k2) (Kept.ite k3 (corrNote_kept k3))
      · exact k1

theorem flushDone_kept {a : Nat} (k : Kept o h) : Kept o (flushDone a h) := by
  unfold flushDone
  extract_lets h1
  have k1 : Kept o h1 := flushRepair_kept k
  refine Kept.ite k ?_
  · clear_value *
    split
    · exact setLineSt_kept k1
    · exact k1

theorem effMemoryWriteComplete_kept {id : Nat} (k : Kept o h) : Kept o (effMemoryWriteComplete id h) := by
  unfold effMemoryWriteComplete
  extract_lets h1
  have k1 : Kept o h1 := k.upd
  clear_value *
  split
  · split
    · exact backDone_kept k
    · exact k
  · refine Kept.ite k (Kept.ite (settle_kept (takeOther_kept k1)) ?_)
    · split
      · rename_i g e
        have k2 := Kept.of_snd (Kept.iteSnd (writeDev_kept k1) (Kept.mkSnd (writeTarget_kept k1))) e
        extract_lets h2 h3 h4
        have k3 : Kept o h2 := flushDone_kept (Kept.ite k2 (keepHalf_kept k2))
        have k4 : Kept o h3 := k3.upd
        have k5 : Kept o h4 := by
          unfold h4
          clear_value *
          split
          · exact Kept.ite (finishComp_kept k4) k4
          · exact k4
        exact settle_kept k5

theorem presentWaiting_kept {rs : List Req} (k : Kept o h) : Kept o (presentWaiting rs h) := by
  unfold presentWaiting
  exact settle_kept (Kept.forEach (fun _ _ k1 => again_kept k1.upd) k)

theorem retrySlice_kept {sl : Nat} (k : Kept o h) : Kept o (retrySlice sl h) := by
  unfold retrySlice
  extract_lets
  exact presentWaiting_kept k

theorem effTrackerFreedRetry_kept {sl : Nat} (k : Kept o h) : Kept o (effTrackerFreedRetry sl h) := retrySlice_kept k

theorem retryStream_kept {l : Nat} {stream : Nat} {cl : Nat} (k : Kept o h) : Kept o (retryStream l stream cl h) := by
  unfold retryStream
  extract_lets
  exact Kept.ite k (presentWaiting_kept k)

theorem effStreamMissRetry_kept {l : Nat} {stream : Nat} {cl : Nat} (k : Kept o h) : Kept o (effStreamMissRetry l stream cl h) := retryStream_kept k

theorem rebuildWay_kept {sl : Nat} {set : Nat} {way : Nat} {lost : Bool} (k : Kept o h) : Kept o (rebuildWay sl set way lost h) := by
  unfold rebuildWay
  extract_lets _ _ _ _ _ _ _ _ _ _ _ h1 h2 _ _ h3 h4
  have k1 : Kept o h1 := Kept.forEach (fun _ _ k2 => castGone_kept k2) k
  have k3 : Kept o h2 := Kept.ite (putSector_kept k1) k1
  have k4 : Kept o h3 := k3.upd
  have k5 : Kept o h4 := regSetField_kept k4
  exact Kept.ite (record_kept k5) k3

theorem echoLost_kept {sl : Nat} {set : Nat} (k : Kept o h) : Kept o (echoLost sl set h) := by
  unfold echoLost
  extract_lets _ _ h1 h2 h3
  have k1 : Kept o h1 := k.upd
  have k2 : Kept o h2 := writeArrayLine_kept k1
  have k3 : Kept o h3 := regSetField_kept k2
  exact raiseEvt_kept (record_kept k3)

theorem effTagSetRebuild_kept {sl : Nat} {set : Nat} (k : Kept o h) : Kept o (effTagSetRebuild sl set h) := by
  unfold effTagSetRebuild
  extract_lets _ r1 _ h2 h3 h4 h5
  have k1 : Kept o (r1).h := readArrayLine_kept k
  have k2 : Kept o h2 := Kept.ite k1 k
  have k3 : Kept o h3 := Kept.forEach (fun _ _ k4 => rebuildWay_kept k4) k2
  have k5 : Kept o h4 := regSetField_kept k3
  have k6 : Kept o h5 := record_kept k5
  exact Kept.ite k (retrySlice_kept (Kept.ite (echoLost_kept k6) k6))

theorem updWalk_kept {job : Nat} {kind : Nat} {f : Walk → Walk} (k : Kept o h) : Kept o (updWalk job kind f h) := k.upd

theorem lockSlot_kept {sl : Nat} {set : Nat} {way : Nat} {pid : Nat} (k : Kept o h) : Kept o (lockSlot sl set way pid h) := by
  unfold lockSlot
  extract_lets _ h1
  have k1 : Kept o h1 := putSector_kept k
  exact Kept.ite k1 k1.upd

theorem lockFill_kept {sl : Nat} {set : Nat} {way : Nat} {ix : Nat} (k : Kept o h) : Kept o (lockFill sl set way ix h) := by
  unfold lockFill
  extract_lets _ _ g1
  have k1 : Kept o (g1).h := readMain_kept (hkBytes_kept k)
  exact Kept.ite k1 (Kept.ite (setSlotLine_kept k1) (setSlotLine_kept (writeArrayLine_kept k1)))

theorem lockSector_kept {a : Nat} {p : Walk × Hub} (k : Kept o (p).2) : KeptOptSnd o (lockSector a p) := by
  unfold lockSector
  extract_lets _ h1
  have k1 : Kept o h1 := k
  clear_value *
  split
  · exact kept_ite (KeptOptSnd.mkSome (Kept.mkSnd k1)) (kept_ite (KeptOptSnd.mkSome (Kept.mkSnd (lockSlot_kept k1))) (kept_ite (KeptOptSnd.mkSome (Kept.mkSnd k1))
      (KeptOptSnd.mkSome (Kept.mkSnd (lockSlot_kept k1)))))
  · split
    · exact KeptOptSnd.mkSome (Kept.mkSnd k1)
    · rename_i g e
      have k2 := KeptOptSnd.of_some (chooseVictim_kept k1) e
      refine kept_ite (KeptOptSnd.mkSome (Kept.mkSnd k1)) ?_
      · split
        · exact trivial
        · rename_i g e
          have k3 := KeptOpt.of_some (evictSector_kept k2) e
          extract_lets _ _ h32
          have k4 : Kept o h32 := Kept.forEach (fun _ _ k5 => lockFill_kept k5) (putSector_kept k3)
          exact KeptOptSnd.mkSome (Kept.mkSnd (lockSlot_kept k4))

theorem unlockSet_kept {w : Walk} {sl : Nat} {set : Nat} (k : Kept o h) : Kept o (unlockSet w sl set h).2 := by
  unfold unlockSet
  extract_lets
  exact Kept.mkSnd k.upd

theorem countLocked_kept {s : Sector} {ix : Nat} (k : Kept o h) : Kept o (countLocked s ix h) := by
  unfold countLocked
  extract_lets _ h1
  have k1 : Kept o h1 := regSetField_kept k
  exact Kept.ite (pmu_kept k1) k

theorem walkLine_kept {w : Walk} {sl : Nat} {set : Nat} {way : Nat} {ix : Nat} {p : Walk × Hub} (k : Kept o (p).2) : Kept o (walkLine w sl set way ix p).2 := by
  unfold walkLine
  extract_lets _ _ _ _ _ drop1 m2 _ _ m3 m4
  have k1 : ∀ h, Kept o h → Kept o (drop1 h) := by
    intro _ k2
    unfold drop1
    exact setSlotLine_kept (Kept.ite (countLocked_kept k2) k2)
  have k3 : Kept o (m2).2 := moveOut_kept k
  have k4 : Kept o (m3).2 := moveOut_kept k
  have k5 : Kept o (m4).2 := moveOut_kept k
  refine Kept.iteSnd k ?_
  · clear_value *
    split
    · exact k
    · exact k
    · exact Kept.iteSnd (Kept.mkSnd (k1 _ k)) k
    · exact Kept.iteSnd (Kept.mkSnd (Kept.ite (k1 _ k3) (setSlotLine_kept k3))) (Kept.mkSnd (setSlotLine_kept (Kept.ite (countLocked_kept k3) k3)))
    · exact Kept.iteSnd (Kept.mkSnd (Kept.ite (k1 _ k4) k4)) (Kept.iteSnd (Kept.mkSnd (k1 _ k)) k)
    · exact Kept.mkSnd (Kept.ite (setSlotLine_kept (Kept.ite (countLocked_kept k) k)) k)
    · exact Kept.iteSnd k (Kept.iteSnd (Kept.mkSnd (k1 _ k5)) (Kept.mkSnd (k1 _ k)))

theorem walkSlot_kept {w : Walk} {sl : Nat} {set : Nat} {way : Nat} {p : Walk × Hub} (k : Kept o (p).2) : KeptOptSnd o (walkSlot w sl set way p) := by
  unfold walkSlot
  extract_lets
  exact kept_ite trivial (KeptOptSnd.mkSome (Kept.foldlSnd (fun _ _ k1 => walkLine_kept k1) k))

theorem walkSet_kept {w : Walk} {sl : Nat} {set : Nat} (k : Kept o h) : KeptOptSnd o (walkSet w sl set h) := by
  unfold walkSet
  extract_lets
  exact kept_ite (kept_ite (eachOpt_kept (fun _ _ k1 => lockSector_kept k1) (Kept.mkSnd k)) (KeptOptSnd.mkSome (unlockSet_kept k))) (kept_ite (KeptOptSnd.mkSome
      (Kept.mkSnd k)) (eachOpt_kept (fun _ _ k2 => walkSlot_kept k2) (Kept.mkSnd k)))

theorem walkProbe_kept {w : Walk} {sl : Nat} {a : Nat} (k : Kept o h) : KeptOptSnd o (walkProbe w sl a h) := by
  unfold walkProbe
  refine kept_ite (lockSector_kept (Kept.mkSnd k)) ?_
  · split
    · exact KeptOptSnd.mkSome (Kept.mkSnd k)
    · exact kept_ite (KeptOptSnd.mkSome (unlockSet_kept k)) (walkSlot_kept (Kept.mkSnd k))

theorem walkItem_kept {w : Walk} {sl : Nat} {i : Nat} (k : Kept o h) : KeptOptSnd o (walkItem w sl i h) := by
  unfold walkItem
  refine kept_ite (walkSet_kept k) ?_
  · split
    · exact KeptOptSnd.mkSome (Kept.mkSnd k)
    · exact walkProbe_kept k

theorem effWalkerTurn_kept {sl : Nat} (k : Kept o h) : Kept o (effWalkerTurn sl h) := by
  unfold effWalkerTurn
  extract_lets slot1
  have k1 : ∀ h, Kept o h → Kept o (slot1 h) := by
    intro _ k2
    unfold slot1
    exact k2.upd
  clear_value *
  split
  · exact k
  · extract_lets _ put2
    have k3 : ∀ x0 h, Kept o h → Kept o (put2 x0 h) := by
      intro _ _ k4
      unfold put2
      exact updWalk_kept (k1 _ k4)
    refine Kept.ite k (Kept.ite ?_ ?_)
    · clear_value *
      split
      · exact k
      · rename_i g e
        have k5 := KeptOptSnd.of_some (walkItem_kept k) e
        extract_lets
        exact settle_kept (k3 _ _ k5)
    · clear_value *
      split
      · exact k
      · refine Kept.ite k ?_
        · split
          · exact k
          · rename_i g e
            have k6 := KeptOptSnd.of_some (walkItem_kept k) e
            exact settle_kept (k3 _ _ k6)

theorem whiskDisturb_kept {r : Nat} {k' : Scrub} {x : Disturb} (k : Kept o h) : Kept o (whiskDisturb r k' x h) := by
  unfold whiskDisturb
  split
  · exact Kept.ite (Kept.forEach (fun _ _ k1 => Kept.ite (xorMainErr_kept k1) k1) k) (disturb_kept k)
  · exact disturb_kept k
  · extract_lets
    exact disturb_kept k
  · extract_lets
    exact disturb_kept k

theorem whiskWord_kept {e : REntry} {p : Bool} {a : Nat} (k : Kept o h) : Kept o (whiskWord e p a h) := by
  unfold whiskWord
  extract_lets _ _ h1
  have k1 : Kept o h1 := mainUe_kept k
  clear_value *
  split
  · exact mainCe_kept k
  · exact Kept.ite (regSetField_kept (setMainErr_kept k1)) (poisonCopies_kept k1)
  · exact k

theorem whiskMain_kept {e : REntry} {c : Nat} {a : Nat} (k : Kept o h) : Kept o (whiskMain e c a h) := by
  unfold whiskMain
  extract_lets h1
  have k1 : Kept o h1 := pmu_kept k
  exact Kept.ite (Kept.forEach (fun _ _ k2 => whiskWord_kept k2) k1) k1

theorem whiskSlot_kept {sl : Nat} {set : Nat} {way : Nat} {ix : Nat} (k : Kept o h) : Kept o (whiskSlot sl set way ix h) := by
  unfold whiskSlot
  extract_lets _ _ r1 h2
  have k1 : Kept o (r1).h := readArrayLine_kept k
  have k2 : Kept o h2 := arrayUe_kept k1
  clear_value *
  split
  · exact Kept.ite (setSlotLine_kept k2) (setSlotLine_kept k2)
  · exact k1

theorem whiskLine_kept {r : Nat} {k' : Scrub} (k : Kept o h) : Kept o (whiskLine r k' h) := by
  unfold whiskLine
  split
  · exact whiskMain_kept (hkBytes_kept k)
  · extract_lets h1
    have k1 : Kept o h1 := hkBytes_kept k
    exact Kept.ite (readShadow_kept k1) (readNear_kept k1)
  · exact whiskSlot_kept (hkBytes_kept k)
  · extract_lets _ q2
    have k2 : Kept o (q2).h := readArrayLine_kept (hkBytes_kept k)
    clear_value *
    split
    · exact echoLost_kept (Kept.forEach (fun _ _ k3 => rebuildWay_kept k3) (arrayUe_kept k2))
    · exact k2

theorem effWhiskLineRead_kept {r : Nat} {line : Nat} {x : Disturb} (k : Kept o h) : Kept o (effWhiskLineRead r line x h) := by
  unfold effWhiskLineRead
  extract_lets
  refine Kept.ite k ?_
  · clear_value *
    split
    · exact k
    · extract_lets h1
      have k1 : Kept o h1 := setWhisk_kept (whiskDisturb_kept k)
      refine Kept.ite k ?_
      · clear_value *
        split
        · rename_i g e
          have k2 : Kept o g := by
            refine KeptOpt.of_some ?_ e
            split
            · exact shadowOwned_kept k1
            · exact trivial
          exact k2
        · exact setWhisk_kept (settle_kept (whiskLine_kept k1))

theorem effWhiskLapEnd_kept {r : Nat} (k : Kept o h) : Kept o (effWhiskLapEnd r h) := by
  unfold effWhiskLapEnd
  extract_lets _ _ _ _ h1
  have k1 : Kept o h1 := k.upd
  exact Kept.ite k (setWhisk_kept k1)

theorem btCopy_kept {die : Nat} {s : Nat} {region : Nat} (k : Kept o h) : Kept o (btCopy die s region h) := by
  unfold btCopy
  exact Kept.ite (Kept.forEach (fun _ _ k1 => readKettleWord_kept k1) k) (Kept.ite (Kept.forEach (fun _ _ k2 => recoverEntry_kept k2) k) k)

theorem btFail_kept {die : Nat} {s : Nat} {region : Nat} (k : Kept o h) : Kept o (btFail die s region h) := by
  unfold btFail
  extract_lets _ h1 h2
  have k1 : Kept o h1 := regSetField_kept k
  have k2 : Kept o h2 := Kept.ite (ledgerPut_kept k1) k1
  exact raiseEvt_kept (record_kept k2)

theorem effBtStep_kept {die : Nat} {st : BtStruct} {fails : Bool} (k : Kept o h) : Kept o (effBtStep die st fails h) := by
  unfold effBtStep
  extract_lets _ _ _ _ _ h1 h2 _ _ h3
  have k1 : Kept o h1 := btCopy_kept k
  have k2 : Kept o h2 := Kept.ite (btFail_kept k1) k1
  have k3 : Kept o h3 := k2.upd
  exact Kept.ite k (Kept.ite (regSetField_kept k3) k3)

theorem effRebuildStart_kept (k : Kept o h) : Kept o (effRebuildStart h) := by
  unfold effRebuildStart
  extract_lets
  exact Kept.ite k.upd k

theorem effRebuildDone_kept (k : Kept o h) : Kept o (effRebuildDone h) := by
  unfold effRebuildDone
  extract_lets h1
  have k1 : Kept o h1 := rebuildTo_kept k
  refine Kept.ite k ?_
  · clear_value *
    split
    · exact k
    · extract_lets _ h2
      have k2 : Kept o h2 := k1.upd
      exact record_kept (ledgerPut_kept k2)

theorem KeptOpt.head_filterMap {α : Type} {f : α → Option Hub} {l : List α} (hf : ∀ x, KeptOpt o (f x)) : KeptOpt o (l.filterMap f).head? := by
  rw [List.head?_filterMap]
  exact KeptOpt.findSome hf

theorem effRemapCopyDone_kept {lane : Nat} {row : Nat} (k : Kept o h) : Kept o (effRemapCopyDone lane row h) := by
  unfold effRemapCopyDone
  split
  · exact k
  · extract_lets _ _ h1 h2
    have k1 : Kept o h1 := Kept.forEach (fun _ _ k1 => kept_ite (P := Kept o) (readShadow_kept k1) (readNear_kept k1)) k
    have k2 : Kept o h2 := Kept.forEach (fun _ _ k2 => hkBytes_kept k2) k1
    clear_value *
    split
    · rename_i e
      exact KeptOpt.of_some (KeptOpt.head_filterMap fun _ => shadowOwned_kept k) e
    · exact k2.upd

theorem drainOne_kept {die : Nat} (k : Kept o h) : Kept o (drainOne die h) := by
  unfold drainOne
  extract_lets
  clear_value *
  split
  · exact k
  · extract_lets h1
    have k1 : Kept o h1 := k.upd
    exact hubWrite_kept k1

theorem effColanderDrain_kept {die : Nat} (k : Kept o h) : Kept o (effColanderDrain die h) := by
  unfold effColanderDrain
  extract_lets
  exact Kept.ite (drainOne_kept k) k

theorem ghostLine_kept {a : Nat} {pid : Nat} (k : Kept o h) : Kept o (ghostLine a pid h) := by
  unfold ghostLine
  exact Kept.ite (ghostTouch_kept k) k

theorem sealSum_kept {pid : Nat} {l : List Nat} (k : Kept o h) : Kept o (sealSum pid l h).2.2 := by
  induction l generalizing h with
  | nil => exact k
  | cons a r ih =>
    unfold sealSum
    extract_lets g1
    have k1 : Kept o g1.h := homeLine_kept (ghostLine_kept k)
    exact Kept.iteTrd (Kept.mkTrd k1) (Kept.mkTrd (ih k1))

theorem effSealComplete_kept {n : Nat} (k : Kept o h) : Kept o (effSealComplete n h) := by
  unfold effSealComplete
  extract_lets
  refine Kept.ite k (Kept.ite (sealError_kept k) ?_)
  · clear_value *
    split
    · rename_i g e
      have k1 := Kept.of_trd (sealSum_kept k) e
      exact sealError_kept k1
    · rename_i g e
      have k2 := Kept.of_trd (sealSum_kept k) e
      extract_lets
      clear_value *
      split
      · exact Kept.ite (setWin_kept k2) (setWin_kept k2)
      · exact setWin_kept k2

end

end Sys2Proof.Machine

/-!
Movers and the manager commands of cache and regions keep them.
-/

namespace Sys2Proof.Machine

section
variable {o : Option Standing} {h : Hub}

theorem stopWarm_kept {p : Nat} (k : Kept o h) : Kept o (stopWarm p h) := by
  unfold stopWarm
  exact setPart_kept (fun _ => rfl) k.upd

theorem effCacheWarmSector_kept {p : Nat} (k : Kept o h) : Kept o (effCacheWarmSector p h) := by
  unfold effCacheWarmSector
  extract_lets
  refine Kept.ite (stopWarm_kept k) ?_
  · clear_value *
    split
    · exact stopWarm_kept k
    · extract_lets h1 h2 _ h3
      have k1 : Kept o h1 := k.upd
      have k2 : Kept o h2 := Kept.ite (stopWarm_kept k1) k1
      have k3 : Kept o h3 := Kept.forEach (fun _ _ k4 => chargeRequest_kept k4) k2.upd
      exact Kept.ite k (Kept.ite k2 (presentAll_kept k3))

theorem writeSlot_kept {p : Nat} {i : Nat} {low : Nat} {status : Nat} {bytes : Nat} {value : Nat} (k : Kept o h) : Kept o (writeSlot p i low status bytes value h)
    := by
  unfold writeSlot
  exact hubWrite_kept k

theorem endMov_kept {r : MovRun} {status : Nat} {bytes : Nat} {value : Nat} (k : Kept o h) : Kept o (endMov r status bytes value h) := by
  unfold endMov
  extract_lets h1
  have k1 : Kept o h1 := writeSlot_kept k
  exact setPart_kept (fun _ => rfl) k1.upd

theorem askChunk_kept {r : MovRun} (k : Kept o h) : Kept o (askChunk r h) := by
  unfold askChunk
  extract_lets
  exact presentAll_kept k

theorem engineLine_kept {a : Nat} {pid : Nat} {cls : Nat} (k : Kept o h) : Kept o (engineLine a pid cls h).h := by
  unfold engineLine
  extract_lets p1 g2
  have k1 : Kept o (p1).2 := pathCheck_kept (ghostLine_kept k)
  have k2 : Kept o (g2).h := by
    unfold g2
    clear_value *
    split
    · exact readShadow_kept k1
    · exact homeLine_kept k1
  exact Kept.mkGot k2

theorem readChunk_kept {m : MovRun} {l : List (Nat × Nat × Nat)} (k : Kept o h) : Kept o (readChunk m l h).2 := by
  induction l generalizing h with
  | nil => exact k
  | cons c r ih => exact ih (engineLine_kept k)

theorem chargeChunk_kept {pid : Nat} {cls : Nat} {wr : Nat} {a : Nat} {n : Nat} {p : List Nat × Hub} (k : Kept o (p).2) : Kept o (chargeChunk pid cls wr a n p).2 :=
    by
  unfold chargeChunk
  refine Kept.foldlSnd (fun _ _ k1 => ?_) (Kept.mkSnd (pageAdd_kept k))
  · extract_lets c1
    have k2 : Kept o (c1).2 := chargeRequest_kept k1
    exact Kept.mkSnd k2

theorem putMov_kept {r : MovRun} (k : Kept o h) : Kept o (putMov r h) := k.upd

theorem issueChunk_kept {r : MovRun} (k : Kept o h) : Kept o (issueChunk r h) := by
  unfold issueChunk
  extract_lets _ each1 c2
  have k1 : ∀ x0 x1 p, Kept o (p).2 → Kept o (each1 x0 x1 p).2 := by
    intro _ _ _ k2
    unfold each1
    exact Kept.foldlSnd (fun _ _ k3 => chargeChunk_kept k3) k2
  have k4 : Kept o (c2).2 := k1 _ _ _ (k1 _ _ _ (Kept.mkSnd k))
  exact Kept.ite (endMov_kept k) (askChunk_kept (putMov_kept k4))

theorem afterChunk_kept {r : MovRun} (k : Kept o h) : Kept o (afterChunk r h) := by
  unfold afterChunk
  extract_lets
  exact Kept.ite (endMov_kept k) (Kept.ite (endMov_kept k) (issueChunk_kept (putMov_kept k)))

theorem engineOrder_kept {a : Nat} {n : Nat} (k : Kept o h) : Kept o (engineOrder a n h) := by
  unfold engineOrder
  extract_lets h1
  have k1 : Kept o h1 := breakSeals_kept (writeLoss_kept k)
  exact Kept.ite (ladleKill_kept k1) k1

theorem drainFrom_kept {id0 : Nat} (k : Kept o h) : Kept o (drainFrom id0 h) := by
  unfold drainFrom
  exact Kept.forEach (fun _ _ k1 => effMemoryWriteComplete_kept k1) k

theorem engineWrite_kept {a : Nat} {d : List Byte} {m : List Bool} {zero : Bool} {pid : Nat} {cls : Nat} (k : Kept o h) : KeptOptSnd o (engineWrite a d m zero pid
    cls h) := by
  unfold engineWrite
  extract_lets _ p1 h2 r3 whole4
  have k1 : Kept o (p1).2 := pathCheck_kept (ghostLine_kept k)
  have k2 : Kept o h2 := k1
  have k3 : KeptWRes o r3 := kept_ite trivial (kept_ite (zeroHome_kept k2) (writeHome_kept k2))
  have k4 : ∀ p, Kept o (p).h → KeptOptSnd o (whole4 p) := by
    intro _ k5
    unfold whole4
    refine kept_ite (KeptOptSnd.mkSome (Kept.mkSnd k5)) ?_
    · clear_value *
      split
      · rename_i g e
        have k6 := KeptWRes.of_done (writeHome_kept k5) e
        exact KeptOptSnd.mkSome (Kept.mkSnd (drainFrom_kept k6))
      · rename_i g e
        have k7 := KeptWRes.of_derr (writeHome_kept k5) e
        exact KeptOptSnd.mkSome (Kept.mkSnd k7)
      · exact trivial
  refine kept_ite (KeptOptSnd.mkSome (Kept.mkSnd (drainFrom_kept (poisonWrite_kept k2)))) ?_
  · clear_value *
    split
    · exact KeptOptSnd.mkSome (Kept.mkSnd (drainFrom_kept k3))
    · exact KeptOptSnd.mkSome (Kept.mkSnd k3)
    · exact k4 _ (homeLine_kept k2)
    · exact trivial

theorem writeChunk_kept {r : MovRun} {bad : Nat → Nat → Bool} {data : Nat → Nat → List Byte} {base : Nat} {l : List (Nat × Nat × Nat)} (k : Kept o h) :
    KeptOptSnd o (writeChunk r bad data base l h) := by
  induction l generalizing h with
  | nil => exact k
  | cons c rest ih =>
    obtain ⟨line, off, n⟩ := c
    unfold writeChunk
    extract_lets _ h1 _
    have k1 : Kept o h1 := engineOrder_kept k
    refine kept_ite (ih (drainFrom_kept (poisonWrite_kept k1))) ?_
    clear_value *
    split
    · exact trivial
    · rename_i g e
      exact KeptOptSnd.mapSnd (fun _ k2 => k2) (ih (KeptOptSnd.of_some (engineWrite_kept k1) e))

theorem runChunk_kept {r : MovRun} (k : Kept o h) : Kept o (runChunk r h) := by
  unfold runChunk
  extract_lets _ _ _ _ g1 j2 _ g3
  have k1 : Kept o (g1).2 := readChunk_kept k
  have k2 : Kept o (j2).2 := readChunk_kept k1
  have k3 : Kept o (g3).2 := Kept.iteSnd (readChunk_kept k) (Kept.mkSnd k)
  refine Kept.ite ?_ (Kept.ite ?_ ?_)
  · clear_value *
    split
    · exact endMov_kept k1
    · exact afterChunk_kept k1
  · clear_value *
    split
    · exact endMov_kept k2
    · exact afterChunk_kept k2
  · clear_value *
    split
    · exact k
    · rename_i g e
      have k4 := KeptOptSnd.of_some (writeChunk_kept k3) e
      split
      · exact endMov_kept k4
      · exact Kept.ite (endMov_kept k4) (afterChunk_kept k4)

theorem effMoverChunkDone_kept {p : Nat} (k : Kept o h) : Kept o (effMoverChunkDone p h) := by
  unfold effMoverChunkDone
  split
  · exact k
  · extract_lets
    exact Kept.ite k (Kept.ite (endMov_kept k) (Kept.ite (askChunk_kept k) (runChunk_kept k)))

theorem ended_kept {status : Nat} {result : Nat} {info : Nat} (k : Kept o h) : Kept o (ended h status result info).1 := Kept.mkFst k

theorem consumeCounter_kept {m : Nat} {c : Nat} (k : Kept o h) : Kept o (consumeCounter m c h).2 := by
  unfold consumeCounter
  extract_lets h1
  have k1 : Kept o h1 := setMgr_kept k
  refine Kept.iteSnd ?_ (Kept.mkSnd k1)
  · clear_value *
    split
    · rename_i g e
      have k2 := Kept.of_snd (ledgerWrite_kept k1) e
      extract_lets
      exact Kept.mkSnd (Kept.ite k2.upd k2)

theorem authCheck_kept {m : Nat} {op : Nat} {c : CmdWord} (k : Kept o h) : Kept o (authCheck m op c h).1 := by
  unfold authCheck
  extract_lets
  refine Kept.iteFst (Kept.mkFst k) (Kept.iteFst (ended_kept k) (Kept.iteFst (ended_kept k) (Kept.iteFst (ended_kept k) (Kept.iteFst (ended_kept k) ?_))))
  · clear_value *
    split
    · rename_i g e
      have k1 := Kept.of_snd (consumeCounter_kept k) e
      exact Kept.iteFst (Kept.mkFst k1) (ended_kept k1)

theorem checkCmd_kept {m : Nat} {op : Nat} {c : CmdWord} {body : CmdBody} (kbody : ∀ x0 x1 h, Kept o h → Kept o (body x0 x1 h).1) (k : Kept o h) : Kept o (checkCmd
    m op c body h).1 := by
  unfold checkCmd
  split
  · exact ended_kept k
  · split
    · rename_i g _ e
      have k1 := Kept.of_fst (authCheck_kept k) e
      exact Kept.mkFst k1
    · rename_i g e
      have k2 := Kept.of_fst (authCheck_kept k) e
      exact Kept.iteFst (ended_kept k2) (Kept.iteFst (ended_kept k2) (kbody _ _ _ k2))

theorem takeCmd_kept {m : Nat} {op : Nat} {c : CmdWord} {body : CmdBody} (kbody : ∀ x0 x1 h, Kept o h → Kept o (body x0 x1 h).1) (k : Kept o h) : Kept o (takeCmd m
    op c body h) := by
  unfold takeCmd
  extract_lets h1
  have k1 : Kept o h1 := setMgr_kept k
  refine Kept.ite k ?_
  · clear_value *
    split
    · rename_i g _ e
      have k2 := Kept.of_fst (checkCmd_kept kbody k1) e
      exact postFinal_kept k2
    · rename_i g e
      have k3 := Kept.of_fst (checkCmd_kept kbody k1) e
      exact k3

theorem effNop_kept {m : Nat} {opcode : Nat} {c : CmdWord} (k : Kept o h) : Kept o (effNop m opcode c h) := by
  unfold effNop
  extract_lets
  exact takeCmd_kept (fun _ _ _ k1 => ended_kept k1) k

theorem bodyCacheEnable_kept {x : Nat} {c : CmdWord} (k : Kept o h) : Kept o (bodyCacheEnable x c h).1 := by
  unfold bodyCacheEnable
  extract_lets
  exact Kept.iteFst (ended_kept k) (Kept.iteFst (ended_kept k) (Kept.iteFst (ended_kept k) (ended_kept (enableCache_kept k))))

theorem effCacheEnable_kept {m : Nat} {c : CmdWord} (k : Kept o h) : Kept o (effCacheEnable m c h) := by
  unfold effCacheEnable
  exact takeCmd_kept (fun _ _ _ k1 => bodyCacheEnable_kept k1) k

theorem startHeavy_kept {m : Nat} {op : Nat} {c : CmdWord} (k : Kept none h) : Kept none (startHeavy m op c h).2 := by
  unfold startHeavy
  exact Kept.mkSnd k.updParts

theorem effCacheDisable_kept {m : Nat} {c : CmdWord} (k : Kept none h) : Kept none (effCacheDisable m c h) := by
  unfold effCacheDisable
  refine takeCmd_kept (fun _ _ _ k1 => Kept.iteFst (ended_kept k1) ?_) k
  · split
    · rename_i g e
      have k2 := Kept.of_snd (startHeavy_kept k1) e
      exact Kept.mkFst (startDrain_kept k2)

theorem cacheOff_kept (k : Kept o h) : Kept o (cacheOff h) := by
  unfold cacheOff
  extract_lets
  exact k.upd

theorem dropWalk_kept {w : Walk} (k : Kept o h) : Kept o (dropWalk w h) := k.upd

theorem effCacheDisableDrainDone_kept (k : Kept none h) : Kept none (effCacheDisableDrainDone h) := by
  unfold effCacheDisableDrainDone
  refine Kept.ite k ?_
  · split
    · exact k
    · extract_lets h1 _ h2
      have k1 : Kept none h1 := cacheOff_kept (dropWalk_kept k)
      have k2 : Kept none h2 := Kept.ite k1.upd k1
      exact settle_kept (finishHeavy_kept k2)

theorem killLadleRange_kept {base : Nat} {len : Nat} (k : Kept o h) : Kept o (killLadleRange base len h) := by
  unfold killLadleRange
  exact Kept.forEach (fun _ _ k1 => ladleKill_kept k1) k

theorem pushWalk_kept {w : Walk} (k : Kept o h) : Kept o (pushWalk w h) := k.upd

theorem bodyCacheRange_kept {m : Nat} {c : CmdWord} (k : Kept none h) : Kept none (bodyCacheRange m c h).1 := by
  unfold bodyCacheRange
  extract_lets
  refine Kept.iteFst (ended_kept k) (Kept.iteFst (ended_kept k) ?_)
  · clear_value *
    split
    · rename_i g e
      have k1 := Kept.of_snd (startHeavy_kept k) e
      extract_lets h1
      have k2 : Kept none h1 := Kept.ite k1 (killLadleRange_kept k1)
      exact Kept.mkFst (pushWalk_kept k2)

theorem effCacheRange_kept {m : Nat} {c : CmdWord} (k : Kept none h) : Kept none (effCacheRange m c h) := by
  unfold effCacheRange
  exact takeCmd_kept (fun _ _ _ k1 => bodyCacheRange_kept k1) k

theorem effCacheRangeDone_kept (k : Kept none h) : Kept none (effCacheRangeDone h) := by
  unfold effCacheRangeDone
  split
  · exact k
  · extract_lets h1
    have k1 : Kept none h1 := dropWalk_kept k
    exact Kept.ite (finishHeavy_kept k1) (finishHeavy_kept k1)

theorem powerOn_kept {mask : BitVec 16} (k : Kept o h) : Kept o (powerOn mask h) := by
  unfold powerOn
  extract_lets
  exact k.upd

theorem bodyWayPower_kept {m : Nat} {c : CmdWord} (k : Kept none h) : Kept none (bodyWayPower m c h).1 := by
  unfold bodyWayPower
  extract_lets
  refine Kept.iteFst (ended_kept k) (Kept.iteFst (Kept.iteFst (ended_kept k) (ended_kept (powerOn_kept k))) (Kept.iteFst (ended_kept k) ?_))
  · clear_value *
    split
    · rename_i g e
      have k1 := Kept.of_snd (startHeavy_kept k) e
      extract_lets _ h1
      have k2 : Kept none h1 := k1.upd
      exact Kept.mkFst (pushWalk_kept k2)

theorem effWayPower_kept {m : Nat} {c : CmdWord} (k : Kept none h) : Kept none (effWayPower m c h) := by
  unfold effWayPower
  exact takeCmd_kept (fun _ _ _ k1 => bodyWayPower_kept k1) k

theorem effWayPowerOffDone_kept (k : Kept none h) : Kept none (effWayPowerOffDone h) := by
  unfold effWayPowerOffDone
  split
  · exact k
  · extract_lets h1
    have k1 : Kept none h1 := dropWalk_kept k
    exact Kept.ite k (finishHeavy_kept k1.upd)

theorem bodyWayLock_kept {m : Nat} {c : CmdWord} (k : Kept none h) : Kept none (bodyWayLock m c h).1 := by
  unfold bodyWayLock
  extract_lets
  refine Kept.iteFst (Kept.iteFst (ended_kept k) (Kept.iteFst (ended_kept k) ?_)) (Kept.iteFst (ended_kept k) (Kept.iteFst (ended_kept k) ?_))
  · clear_value *
    split
    · rename_i g e
      have k1 := Kept.of_snd (startHeavy_kept k) e
      exact Kept.mkFst (pushWalk_kept k1)
  · clear_value *
    split
    · rename_i g e
      have k2 := Kept.of_snd (startHeavy_kept k) e
      exact Kept.mkFst (pushWalk_kept k2)

theorem effWayLock_kept {m : Nat} {c : CmdWord} (k : Kept none h) : Kept none (effWayLock m c h) := by
  unfold effWayLock
  exact takeCmd_kept (fun _ _ _ k1 => bodyWayLock_kept k1) k

theorem effWayLockDone_kept (k : Kept none h) : Kept none (effWayLockDone h) := by
  unfold effWayLockDone
  split
  · exact k
  · exact finishHeavy_kept (dropWalk_kept k)

theorem breakEntry_kept {e : REntry} (k : Kept o h) : Kept o (breakEntry e h) := by
  unfold breakEntry
  exact Kept.ite (Kept.forEach (fun _ _ k1 => breakSeal_kept k1) k) k

theorem applyRegion_kept {i : Nat} {e : REntry} (k : Kept o h) : Kept o (applyRegion i e h) := by
  unfold applyRegion
  extract_lets
  exact breakEntry_kept (breakEntry_kept k.upd)

theorem engineReqs_kept {op : Nat} {src : Src} {pid : Nat} {job : Nat} {lines : List Nat} (k : Kept o h) : Kept o (engineReqs op src pid job lines h) :=
  presentAll_kept k

theorem bodyRegionSet_kept {m : Nat} {c : CmdWord} (k : Kept none h) : Kept none (bodyRegionSet m c h).1 := by
  unfold bodyRegionSet
  extract_lets
  refine Kept.iteFst (Kept.iteFst (ended_kept k) (Kept.iteFst (ended_kept k) (ended_kept (applyRegion_kept k)))) ?_
  · clear_value *
    split
    · exact ended_kept k
    · refine Kept.iteFst (ended_kept k) (Kept.iteFst (ended_kept k) (Kept.iteFst (ended_kept k) (Kept.iteFst (ended_kept (applyRegion_kept k)) ?_)))
      · split
        · rename_i g e
          have k1 := Kept.of_snd (startHeavy_kept k) e
          extract_lets h1
          have k2 : Kept none h1 := k1.upd
          exact Kept.mkFst (engineReqs_kept k2)

theorem effRegionSet_kept {m : Nat} {c : CmdWord} (k : Kept none h) : Kept none (effRegionSet m c h) := by
  unfold effRegionSet
  exact takeCmd_kept (fun _ _ _ k1 => bodyRegionSet_kept k1) k

theorem loadLines_kept {e : REntry} {l : List Nat} {bad : Nat} (k : Kept o h) : Kept o (loadLines e l bad h).2 := by
  induction l generalizing bad h with
  | nil => exact k
  | cons i r ih =>
    unfold loadLines
    extract_lets _ g1
    have k1 : Kept o g1.h := homeLine_kept (hkBytes_kept k)
    exact Kept.iteSnd (ih (poisonLine_kept k1)) (ih (writeArrayLine_kept k1))

theorem effShadowLoadDone_kept (k : Kept none h) : Kept none (effShadowLoadDone h) := by
  unfold effShadowLoadDone
  split
  · exact k
  · rename_i job i e rest _
    extract_lets _ n _
    refine Kept.ite k (Kept.ite (engineReqs_kept k) ?_)
    split
    rename_i g eg
    have k1 : Kept none g := Kept.of_snd (loadLines_kept k) eg
    clear eg
    extract_lets h1 h2
    have k2 : Kept none h1 := checkFull_kept k1.upd
    have k3 : Kept none h2 := Kept.ite k2 (applyRegion_kept k2)
    exact Kept.ite (finishHeavy_kept k3) (finishHeavy_kept k3)

end

end Sys2Proof.Machine

/-!
The commands of partitions and their images keep them.
-/

namespace Sys2Proof.Machine

section
variable {o : Option Standing} {h : Hub}

theorem bodyArrayPopSet_kept {m : Nat} {c : CmdWord} (k : Kept none h) : Kept none (bodyArrayPopSet m c h).1 := by
  unfold bodyArrayPopSet
  extract_lets
  refine Kept.iteFst (ended_kept k) (Kept.iteFst (ended_kept k) ?_)
  · clear_value *
    split
    · rename_i g e
      have k1 := Kept.of_snd (ledgerWrite_kept k) e
      exact ended_kept k1
    · rename_i g e
      have k2 := Kept.of_snd (ledgerWrite_kept k) e
      extract_lets _ _ h1 _ h2
      have k3 : Kept none h1 := k2.upd
      have k4 : Kept none h2 := k3.upd
      exact Kept.iteFst (ended_kept k3) (Kept.mkFst (startHeavy_kept k4))

theorem effArrayPopSet_kept {m : Nat} {c : CmdWord} (k : Kept none h) : Kept none (effArrayPopSet m c h) := by
  unfold effArrayPopSet
  exact takeCmd_kept (fun _ _ _ k1 => bodyArrayPopSet_kept k1) k

theorem resetCold_kept {p : Nat} (k : Kept o h) : Kept o (resetCold p h) := by
  unfold resetCold
  extract_lets
  exact k.upd

theorem putPart_kept {p : Nat} {k' : Part} (k : Kept none h) : Kept none (putPart p k' h) := by
  unfold putPart
  exact k.updParts

theorem bodyPartCreate_kept {x : Nat} {c : CmdWord} (k : Kept none h) : Kept none (bodyPartCreate x c h).1 := by
  unfold bodyPartCreate
  extract_lets
  exact Kept.iteFst (ended_kept k) (Kept.iteFst (ended_kept k) (Kept.iteFst (ended_kept k) (ended_kept (regPut_kept (regPut_kept (resetCold_kept (putPart_kept
      k)))))))

theorem effPartCreate_kept {m : Nat} {c : CmdWord} (k : Kept none h) : Kept none (effPartCreate m c h) := by
  unfold effPartCreate
  exact takeCmd_kept (fun _ _ _ k1 => bodyPartCreate_kept k1) k

theorem trimLadle_kept {p : Nat} {share : Nat} {cl : Nat} (k : Kept o h) : Kept o (trimLadle p share cl h) := by
  unfold trimLadle
  extract_lets
  exact Kept.forEach (fun _ _ k1 => ladleKill_kept k1) k

theorem bodyPartSet_kept {x : Nat} {c : CmdWord} (k : Kept none h) : Kept none (bodyPartSet x c h).1 := by
  unfold bodyPartSet
  extract_lets _ _ _ h1 h2
  have k1 : Kept none h1 := putPart_kept k
  have k2 : Kept none h2 := Kept.ite (checkOvercommit_kept k1) k1
  exact Kept.iteFst (ended_kept k) (Kept.iteFst (ended_kept k) (Kept.iteFst (ended_kept k) (ended_kept (Kept.ite (Kept.forEach (fun _ _ k3 => trimLadle_kept k3) k2)
      k2))))

theorem effPartSet_kept {m : Nat} {c : CmdWord} (k : Kept none h) : Kept none (effPartSet m c h) := by
  unfold effPartSet
  exact takeCmd_kept (fun _ _ _ k1 => bodyPartSet_kept k1) k

theorem dropLadle_kept {p : Nat} (k : Kept o h) : Kept o (dropLadle p h) := by
  unfold dropLadle
  exact Kept.forEach (fun _ _ k1 => ladleKill_kept k1) k

theorem bodyPartQuiesce_kept {m : Nat} {c : CmdWord} (k : Kept none h) : Kept none (bodyPartQuiesce m c h).1 := by
  unfold bodyPartQuiesce
  extract_lets
  refine Kept.iteFst (ended_kept k) ?_
  · clear_value *
    split
    · rename_i g e
      have k1 := Kept.of_snd (startHeavy_kept k) e
      extract_lets h1 h2
      have k2 : Kept none h1 := stopWarm_kept (setPart_kept_none k1)
      have k3 : Kept none h2 := dropLadle_kept k2.upd
      exact Kept.mkFst (engineReqs_kept k3)

theorem effPartQuiesce_kept {m : Nat} {c : CmdWord} (k : Kept none h) : Kept none (effPartQuiesce m c h) := by
  unfold effPartQuiesce
  exact takeCmd_kept (fun _ _ _ k1 => bodyPartQuiesce_kept k1) k

theorem cancelSlots_kept {p : Nat} (k : Kept o h) : Kept o (cancelSlots p h) := by
  unfold cancelSlots
  extract_lets _ h1
  have k1 : Kept o h1 := by
    unfold h1
    refine Kept.forEach (fun _ _ k2 => ?_) k
    · extract_lets _ g2
      have k3 : Kept o (g2).h := engineLine_kept k2
      exact writeSlot_kept k3
  exact setPart_kept (fun _ => rfl) k1

theorem effPartQuiesceDone_kept {p : Nat} (k : Kept none h) : Kept none (effPartQuiesceDone p h) := by
  unfold effPartQuiesceDone
  extract_lets _ _ h1
  have k1 : Kept none h1 := Kept.ite k (cancelSlots_kept k)
  clear_value *
  split
  · exact k
  · exact Kept.ite k (Kept.ite (engineReqs_kept k) (Kept.ite k1 (finishHeavy_kept (setPart_kept_none k1))))

theorem bodyPartResume_kept {x : Nat} {c : CmdWord} (k : Kept none h) : Kept none (bodyPartResume x c h).1 := by
  unfold bodyPartResume
  extract_lets
  exact Kept.iteFst (ended_kept k) (ended_kept (setPart_kept_none k))

theorem effPartResume_kept {m : Nat} {c : CmdWord} (k : Kept none h) : Kept none (effPartResume m c h) := by
  unfold effPartResume
  exact takeCmd_kept (fun _ _ _ k1 => bodyPartResume_kept k1) k

theorem clearGhosts_kept {p : Nat} (k : Kept o h) : Kept o (clearGhosts p h) := by
  unfold clearGhosts
  extract_lets
  exact k.upd

theorem pinAfterDisarm_kept (k : Kept o h) : Kept o (pinAfterDisarm h) := by
  unfold pinAfterDisarm
  extract_lets
  exact Kept.ite k k.upd

theorem abandonSeal_kept {n : Nat} (k : Kept o h) : Kept o (abandonSeal n h) := by
  unfold abandonSeal
  extract_lets _ _ h1
  have k1 : Kept o h1 := k.upd
  exact Kept.ite k1 (settle_kept (Kept.forEach (fun _ _ k2 => finish_kept k2) k1))

theorem disarmWin_kept {n : Nat} (k : Kept o h) : Kept o (disarmWin n h) := pinAfterDisarm_kept (setWin_kept (abandonSeal_kept k))

theorem disarmAll_kept {pid : Nat} (k : Kept o h) : Kept o (disarmAll pid h) := by
  unfold disarmAll
  exact Kept.forEach (fun _ _ k1 => disarmWin_kept k1) k

theorem clearLocks_kept {p : Nat} (k : Kept o h) : Kept o (clearLocks p h) := by
  unfold clearLocks
  extract_lets
  exact k.upd

theorem bodyPartReset_kept {x : Nat} {c : CmdWord} (k : Kept none h) : Kept none (bodyPartReset x c h).1 := by
  unfold bodyPartReset
  extract_lets _ _ h1 h2
  have k1 : Kept none h1 := resetCold_kept (clearGhosts_kept (disarmAll_kept (clearLocks_kept (stopWarm_kept k))))
  have k2 : Kept none h2 := k1.upd
  exact Kept.iteFst (ended_kept k) (ended_kept (setPart_kept_none k2))

theorem effPartReset_kept {m : Nat} {c : CmdWord} (k : Kept none h) : Kept none (effPartReset m c h) := by
  unfold effPartReset
  exact takeCmd_kept (fun _ _ _ k1 => bodyPartReset_kept k1) k

theorem setBusy_kept {p : Nat} {b : Bool} (k : Kept none h) : Kept none (setBusy p b h) := by
  unfold setBusy
  exact setPart_kept_none k

theorem bodyPartFreeze_kept {m : Nat} {c : CmdWord} (k : Kept none h) : Kept none (bodyPartFreeze m c h).1 := by
  unfold bodyPartFreeze
  extract_lets
  refine Kept.iteFst (ended_kept k) ?_
  · clear_value *
    split
    · rename_i g e
      have k1 := Kept.of_snd (startHeavy_kept k) e
      extract_lets h1
      have k2 : Kept none h1 := setBusy_kept k1
      exact Kept.mkFst (Kept.ite k2 (pushWalk_kept k2))

theorem effPartFreeze_kept {m : Nat} {c : CmdWord} (k : Kept none h) : Kept none (effPartFreeze m c h) := by
  unfold effPartFreeze
  exact takeCmd_kept (fun _ _ _ k1 => bodyPartFreeze_kept k1) k

theorem effPartFreezeDone_kept {p : Nat} (k : Kept none h) : Kept none (effPartFreezeDone p h) := by
  unfold effPartFreezeDone
  extract_lets frozen1
  have k1 : ∀ h, Kept none h → Kept none (frozen1 h) := by
    intro _ k2
    unfold frozen1
    exact loseMons_kept (setPart_kept_none (stopWarm_kept k2))
  clear_value *
  split
  · exact k
  · split
    · exact finishHeavy_kept (k1 _ k)
    · exact Kept.ite k (finishHeavy_kept (k1 _ (dropWalk_kept k)))

theorem bodyPartSave_kept {m : Nat} {c : CmdWord} (k : Kept none h) : Kept none (bodyPartSave m c h).1 := by
  unfold bodyPartSave
  extract_lets
  refine Kept.iteFst (ended_kept k) (Kept.iteFst (ended_kept k) (Kept.iteFst (ended_kept k) ?_))
  · clear_value *
    split
    · rename_i g e
      have k1 := Kept.of_snd (startHeavy_kept k) e
      extract_lets _ h1
      have k2 : Kept none h1 := setBusy_kept k1.updParts
      exact Kept.mkFst (Kept.ite (pushWalk_kept k2) k2)

theorem effPartSave_kept {m : Nat} {c : CmdWord} (k : Kept none h) : Kept none (effPartSave m c h) := by
  unfold effPartSave
  exact takeCmd_kept (fun _ _ _ k1 => bodyPartSave_kept k1) k

theorem readBlocks_kept {p : Nat} {l : List Nat} (k : Kept o h) : Kept o (readBlocks p l h).2.2 := by
  induction l generalizing h with
  | nil => exact k
  | cons w r ih => exact ih (readKettleWord_kept k)

theorem buildImage_kept {p : Nat} {level : Nat} {hot : Option (List Nat)} (k : Kept o h) : Kept o (buildImage p level hot h).2.2 := by
  unfold buildImage
  extract_lets _ _ ket1
  have k1 : Kept o (ket1).2.2 := readBlocks_kept k
  exact Kept.mkTrd k1

theorem imageReady_kept {j : ImgJob} (k : Kept o h) : KeptOptTrd o (imageReady j h) := by
  unfold imageReady
  refine kept_ite (KeptOptTrd.mkSome (Kept.mkTrd k)) ?_
  · split
    · exact kept_ite (KeptOptTrd.mkSome (buildImage_kept k)) trivial
    · exact KeptOptTrd.mkSome (buildImage_kept k)

theorem askTwin_kept {m : Nat} {job : Nat} {rs : List Req} (k : Kept o h) : Kept o (askTwin m job rs h) := by
  unfold askTwin
  exact twinSettle_kept (Kept.forEach (fun _ _ k1 => toTwin_kept k1) k)

theorem dropTwinJob_kept {job : Nat} (k : Kept o h) : Kept o (dropTwinJob job h) := by
  unfold dropTwinJob
  extract_lets
  exact k.upd

/-- No lines: nothing stored. The equations are read off the recursor, because unfolding by `rfl` would run the line masks. -/
theorem storeLines_nil (pid cls : Nat) (d : List Byte) (h : Hub) : storeLines pid cls [] d h = some (0, h) := by
  delta storeLines List.brecOn List.brecOn.go
  dsimp only

/-- The first line, then the rest. (Built as a module the two sides have matchers of their own, which the steps behind the first one join.) -/
theorem storeLines_cons (pid cls : Nat) (c : Nat × Nat × Nat) (r : List (Nat × Nat × Nat)) (d : List Byte) (h : Hub) : storeLines pid cls (c :: r) d h =
    (match engineWrite c.1 (splice zeroLine c.2.1 (d.take c.2.2)) (splice (List.replicate 128 false) c.2.1 (List.replicate c.2.2 true)) false pid cls
        (hkBytes c.1 128 (engineOrder (c.1 + c.2.1) c.2.2 h)) with
    | none => none
    | some (bad, h) =>
      match storeLines pid cls r (d.drop c.2.2) h with
      | none => none
      | some (k, h) => some (k + b2n bad, h)) := by
  delta storeLines List.brecOn List.brecOn.go
  dsimp only <;> delta storeLines._f <;> dsimp only <;> generalize engineWrite _ _ _ _ _ _ _ = w <;> cases w <;> rfl

theorem storeLines_kept {pid : Nat} {cls : Nat} {l : List (Nat × Nat × Nat)} {d : List Byte} (k : Kept o h) : KeptOptSnd o (storeLines pid cls l d h) := by
  induction l generalizing d h with
  | nil =>
    rw [storeLines_nil]
    exact KeptOptSnd.mkSome (Kept.mkSnd k)
  | cons c r ih =>
    rw [storeLines_cons]
    have k1 : Kept o (hkBytes c.1 128 (engineOrder (c.1 + c.2.1) c.2.2 h)) := hkBytes_kept (engineOrder_kept k)
    revert k1
    generalize hkBytes c.1 128 (engineOrder (c.1 + c.2.1) c.2.2 h) = h1
    generalize splice zeroLine c.2.1 (d.take c.2.2) = w
    generalize splice (List.replicate 128 false) c.2.1 (List.replicate c.2.2 true) = m
    intro k1
    have k2 : KeptOptSnd o (engineWrite c.1 w m false pid cls h1) := engineWrite_kept k1
    revert k2
    generalize engineWrite c.1 w m false pid cls h1 = q
    intro k2
    split
    · exact trivial
    · have k3 := ih (d := d.drop c.2.2) k2
      split
      · exact trivial
      · rename_i e
        exact KeptOptSnd.mkSome (Kept.mkSnd (KeptOptSnd.of_some k3 e))

theorem storeRange_kept {m : Nat} {job : Nat} {a : Nat} {d : List Byte} (k : Kept o h) : KeptStored o (storeRange m job a d h) := by
  unfold storeRange
  extract_lets
  refine kept_ite (kept_ite (KeptStored.wait (askTwin_kept k)) (kept_ite (KeptStored.wait k) (KeptStored.done (dropTwinJob_kept k)))) (kept_ite (KeptStored.wait k)
      (kept_ite (KeptStored.wait (engineReqs_kept k)) ?_))
  · clear_value *
    split
    · exact KeptStored.wait k
    · rename_i g e
      have k1 := KeptOptSnd.of_some (storeLines_kept k) e
      exact KeptStored.done k1

theorem updImage_kept {job : Nat} {f : ImgJob → ImgJob} (k : Kept none h) : Kept none (updImage job f h) := by
  unfold updImage
  exact k.updParts

theorem poisonWordAt_kept {a : Nat} (k : Kept o h) : Kept o (poisonWordAt a h) := by
  unfold poisonWordAt
  split
  · exact k
  · extract_lets h1
    have k1 : Kept o h1 := Kept.ite (setLineSt_kept k) k
    exact Kept.ite k (Kept.ite (poisonLine_kept k) (Kept.ite (record_kept k) (poisonCopies_kept k1)))

theorem dropImage_kept {job : Nat} (k : Kept none h) : Kept none (dropImage job h) := by
  unfold dropImage
  exact k.updParts

theorem zeroKettle_kept {base : Nat} {count : Nat} (k : Kept o h) : Kept o (zeroKettle base count h) := by
  unfold zeroKettle
  extract_lets _ _ h1
  have k1 : Kept o h1 := loseMons_kept k
  exact k1.updMems id id (wf_filter · _)

theorem freePart_kept {p : Nat} (k : Kept none h) : Kept none (freePart p h) := by
  unfold freePart
  extract_lets _ h1
  have k1 : Kept none h1 := zeroKettle_kept (clearLocks_kept (disarmAll_kept (stopWarm_kept k)))
  exact checkOvercommit_kept k1.updParts

theorem effPartSaveDone_kept {p : Nat} (k : Kept none h) : Kept none (effPartSaveDone p h) := by
  unfold effPartSaveDone
  split
  · split
    · exact k
    · rename_i g e
      have k1 := KeptOptTrd.of_some (imageReady_kept k) e
      split
      · rename_i g e
        have k2 := KeptStored.of_wait (storeRange_kept k1) e
        exact updImage_kept k2
      · rename_i g e
        have k3 := KeptStored.of_done (storeRange_kept k1) e
        extract_lets h1 h2
        have k4 : Kept none h1 := Kept.forEach (fun _ _ k5 => poisonWordAt_kept k5) k3
        have k6 : Kept none h2 := dropImage_kept k4.upd
        exact Kept.ite (finishHeavy_kept (freePart_kept k6)) (finishHeavy_kept (setBusy_kept k6))
  · exact k

theorem readPiece_kept {job : Nat} {a : Nat} (k : Kept o h) : Kept o (readPiece job a h).h := by
  unfold readPiece
  extract_lets g1
  have k1 : Kept o (g1).h := engineLine_kept (hkBytes_kept k)
  refine Kept.iteGot (Kept.mkGot k1) ?_
  · clear_value *
    split
    · extract_lets
      exact Kept.mkGot k
    · exact Kept.mkGot k

theorem readPieces_kept {job : Nat} {l : List Nat} {off : Nat} (k : Kept o h) : Kept o (readPieces job l off h).2.2 := by
  induction l generalizing off h with
  | nil => exact k
  | cons a r ih =>
    unfold readPieces
    extract_lets g1
    have k1 : Kept o g1.h := readPiece_kept k
    exact Kept.iteTrd (Kept.mkTrd k1) (Kept.mkTrd (ih k1))

theorem fetchRange_kept {m : Nat} {job : Nat} {a : Nat} {n : Nat} (k : Kept o h) : KeptFetch o (fetchRange m job a n h) := by
  unfold fetchRange
  extract_lets _ _ _ _ g1
  have k1 : Kept o (g1).2.2 := readPieces_kept k
  exact kept_ite (KeptFetch.wait k) (kept_ite (KeptFetch.wait (engineReqs_kept (askTwin_kept k))) (kept_ite (KeptFetch.wait k) (KeptFetch.got (dropTwinJob_kept
      k1))))

theorem failRestore_kept {job : Nat} {p : Nat} {status : Nat} {result : Nat} {own : Bool} (k : Kept none h) : Kept none (failRestore job p status result own h) := by
  unfold failRestore
  extract_lets h1
  have k1 : Kept none h1 := dropImage_kept k
  exact finishHeavy_kept (Kept.ite (checkOvercommit_kept k1.updParts) k1)

theorem checkHeader_kept {j : ImgJob} {own : Bool} {bad : Bool} {d : List Byte} (k : Kept none h) : Kept none (checkHeader j own bad d h) := by
  unfold checkHeader
  extract_lets
  exact Kept.ite (failRestore_kept k) (Kept.ite (failRestore_kept k) (Kept.ite (failRestore_kept k) (updImage_kept (putPart_kept k))))

theorem bodyPartRestore_kept {m : Nat} {c : CmdWord} (k : Kept none h) : Kept none (bodyPartRestore m c h).1 := by
  unfold bodyPartRestore
  extract_lets
  clear_value *
  split
  · rename_i g e
    have k1 := Kept.of_snd (startHeavy_kept k) e
    extract_lets _ h1 h2
    have k2 : Kept none h1 := k1.updParts
    have k3 : Kept none h2 := Kept.ite (putPart_kept k2) k2
    clear_value *
    split
    · rename_i g e
      have k4 := KeptFetch.of_wait (fetchRange_kept k3) e
      exact Kept.mkFst k4
    · rename_i g e
      have k5 := KeptFetch.of_got (fetchRange_kept k3) e
      exact Kept.mkFst (checkHeader_kept k5)

theorem effPartRestore_kept {m : Nat} {c : CmdWord} (k : Kept none h) : Kept none (effPartRestore m c h) := by
  unfold effPartRestore
  exact takeCmd_kept (fun _ _ _ k1 => bodyPartRestore_kept k1) k

theorem loadWin_kept {p : Nat} {level : Nat} {b : List Byte} (k : Kept o h) : Kept o (loadWin p level b h) := by
  unfold loadWin
  extract_lets _ _ _ h1
  have k1 : Kept o h1 := k.upd
  exact Kept.ite (record_kept k) (Kept.ite (startSeal_kept (setWin_kept k1)) k1)

theorem loadKettle_kept {k' : Part} {body : List Byte} (k : Kept o h) : Kept o (loadKettle k' body h) := by
  unfold loadKettle
  extract_lets h1
  have k1 : Kept o h1 := zeroKettle_kept k
  exact k1.updMems id id (wf_memWriteN · _ _)

theorem loadSection_kept {p : Nat} {level : Nat} {s : ImgSec} (k : Kept o h) : Kept o (loadSection p level s h) := by
  unfold loadSection
  exact Kept.ite (setPart_kept (fun _ => rfl) k) (Kept.ite (Kept.forEach (fun _ _ k1 => loadWin_kept k1) k) (Kept.ite (loadKettle_kept k) (Kept.ite k.upd k)))

theorem loadImage_kept {j : ImgJob} {bad : Option Nat} {d : List Byte} (k : Kept none h) : Kept none (loadImage j bad d h) := by
  unfold loadImage
  extract_lets _ _ _ _ h1 h2 h3 h4
  have k1 : Kept none h1 := Kept.ite (zeroKettle_kept k) k
  have k2 : Kept none h2 := setPart_kept_none (resetCold_kept k)
  have k3 : Kept none h3 := Kept.forEach (fun _ _ k4 => loadSection_kept k4) k2
  have k5 : Kept none h4 := setPart_kept_none k3
  clear_value *
  split
  · exact failRestore_kept k1
  · exact finishHeavy_kept (dropImage_kept k5)

theorem effPartRestoreLoadDone_kept {p : Nat} (k : Kept none h) : Kept none (effPartRestoreLoadDone p h) := by
  unfold effPartRestoreLoadDone
  split
  · refine Kept.ite k (Kept.ite ?_ ?_)
    · split
      · rename_i g e
        have k1 := KeptFetch.of_wait (fetchRange_kept k) e
        exact k1
      · rename_i g e
        have k2 := KeptFetch.of_got (fetchRange_kept k) e
        exact checkHeader_kept k2
    · split
      · rename_i g e
        have k3 := KeptFetch.of_wait (fetchRange_kept k) e
        exact k3
      · rename_i g e
        have k4 := KeptFetch.of_got (fetchRange_kept k) e
        exact loadImage_kept k4
  · exact k

theorem bodyPartDestroy_kept {x : Nat} {c : CmdWord} (k : Kept none h) : Kept none (bodyPartDestroy x c h).1 := by
  unfold bodyPartDestroy
  extract_lets
  exact Kept.iteFst (ended_kept k) (ended_kept (freePart_kept k))

theorem effPartDestroy_kept {m : Nat} {c : CmdWord} (k : Kept none h) : Kept none (effPartDestroy m c h) := by
  unfold effPartDestroy
  exact takeCmd_kept (fun _ _ _ k1 => bodyPartDestroy_kept k1) k

end

end Sys2Proof.Machine

/-!
Firmware, power and the pins keep them.
-/

namespace Sys2Proof.Machine

section
variable {o : Option Standing} {h : Hub}

theorem bodyWitnessArm_kept {x : Nat} {c : CmdWord} (k : Kept o h) : Kept o (bodyWitnessArm x c h).1 := by
  unfold bodyWitnessArm
  extract_lets
  exact Kept.iteFst (ended_kept k) (Kept.iteFst (ended_kept k) (Kept.iteFst (ended_kept k) (ended_kept k.upd)))

theorem effWitnessArm_kept {m : Nat} {c : CmdWord} (k : Kept o h) : Kept o (effWitnessArm m c h) := by
  unfold effWitnessArm
  exact takeCmd_kept (fun _ _ _ k1 => bodyWitnessArm_kept k1) k

theorem effWitnessDisarm_kept {m : Nat} {c : CmdWord} (k : Kept o h) : Kept o (effWitnessDisarm m c h) := by
  unfold effWitnessDisarm
  refine takeCmd_kept (fun _ _ _ k1 => ?_) k
  · extract_lets
    exact Kept.iteFst (ended_kept (disarmWin_kept k1)) (ended_kept k1)

theorem bodyExpertSet_kept {x : Nat} {c : CmdWord} (k : Kept o h) : Kept o (bodyExpertSet x c h).1 := by
  unfold bodyExpertSet
  extract_lets
  clear_value *
  split
  · exact ended_kept k
  · extract_lets h1
    have k1 : Kept o h1 := putExpert_kept k
    exact Kept.iteFst (ended_kept k) (Kept.iteFst (ended_kept k) (ended_kept k1.upd))

theorem effExpertSet_kept {m : Nat} {c : CmdWord} (k : Kept o h) : Kept o (effExpertSet m c h) := by
  unfold effExpertSet
  exact takeCmd_kept (fun _ _ _ k1 => bodyExpertSet_kept k1) k

theorem storeKey_kept {t : Nat} {k' : List Nat} (k : Kept o h) : Kept o (storeKey t k' h).1 := by
  unfold storeKey
  split
  · rename_i g e
    have k1 := Kept.of_snd (ledgerWrite_kept k) e
    extract_lets
    exact Kept.iteFst (ended_kept k1.upd) (ended_kept k1)

theorem unwrapStore_kept {m : Nat} {t : Nat} {c : CmdWord} (k : Kept o h) : Kept o (unwrapStore m t c h).1 := by
  unfold unwrapStore
  split
  · exact ended_kept k
  · split
    · exact ended_kept k
    · exact storeKey_kept k

theorem bodyKeyLoad_kept {m : Nat} {c : CmdWord} (k : Kept o h) : Kept o (bodyKeyLoad m c h).1 := by
  unfold bodyKeyLoad
  extract_lets
  exact Kept.iteFst (Kept.iteFst (ended_kept k) (storeKey_kept k)) (Kept.iteFst (ended_kept k) (unwrapStore_kept k))

theorem effKeyLoad_kept {m : Nat} {c : CmdWord} (k : Kept o h) : Kept o (effKeyLoad m c h) := by
  unfold effKeyLoad
  exact takeCmd_kept (fun _ _ _ k1 => bodyKeyLoad_kept k1) k

theorem effKeyRotate_kept {m : Nat} {c : CmdWord} (k : Kept o h) : Kept o (effKeyRotate m c h) := by
  unfold effKeyRotate
  exact takeCmd_kept (fun _ _ _ k1 => unwrapStore_kept k1) k

theorem bodyFwStage_kept {m : Nat} {c : CmdWord} (k : Kept none h) : Kept none (bodyFwStage m c h).1 := by
  unfold bodyFwStage
  extract_lets
  refine Kept.iteFst (ended_kept k) (Kept.iteFst (ended_kept k) ?_)
  · clear_value *
    split
    · rename_i g e
      have k1 := Kept.of_snd (startHeavy_kept k) e
      exact Kept.mkFst k1.upd

theorem effFwStage_kept {m : Nat} {c : CmdWord} (k : Kept none h) : Kept none (effFwStage m c h) := by
  unfold effFwStage
  exact takeCmd_kept (fun _ _ _ k1 => bodyFwStage_kept k1) k

theorem bodyFwSwitch_kept {m : Nat} {c : CmdWord} (k : Kept none h) : Kept none (bodyFwSwitch m c h).1 := by
  unfold bodyFwSwitch
  extract_lets
  refine Kept.iteFst (ended_kept k) (Kept.iteFst ?_ (Kept.iteFst (ended_kept k) ?_))
  · clear_value *
    split
    · rename_i g e
      have k1 := Kept.of_snd (ledgerWrite_kept k) e
      extract_lets
      exact ended_kept (setLife_kept k1.upd)
    · rename_i g e
      have k2 := Kept.of_snd (ledgerWrite_kept k) e
      exact ended_kept k2
  · clear_value *
    split
    · rename_i g e
      have k3 := Kept.of_snd (startHeavy_kept k) e
      exact Kept.mkFst (setLife_kept k3)

theorem effFwSwitch_kept {m : Nat} {c : CmdWord} (k : Kept none h) : Kept none (effFwSwitch m c h) := by
  unfold effFwSwitch
  exact takeCmd_kept (fun _ _ _ k1 => bodyFwSwitch_kept k1) k

theorem effFwHandover_kept (k : Kept o h) : Kept o (effFwHandover h) := by
  unfold effFwHandover
  exact Kept.ite k (setFs_kept (setLife_kept k))

theorem markInjected_kept {ks : List Nat} (k : Kept o h) : Kept o (markInjected ks h) := by
  unfold markInjected
  extract_lets
  exact k.updMarks

theorem beatXor_kept {off : Nat} {b : Nat} {x : Nat} (k : Kept o h) : Kept o (beatXor off b x h) := by
  unfold beatXor
  extract_lets
  exact markInjected_kept k.updMarks

theorem placeErr_kept {kind : Nat} {d : Nat} {a : Nat} {copy : Bool} {e : REntry} (k : Kept o h) : KeptOpt o (placeErr kind d a copy e h) := by
  unfold placeErr
  extract_lets
  refine kept_ite (KeptOpt.map (fun _ => Kept.forEach (fun _ _ k1 => beatXor_kept k1) k)) (kept_ite (KeptOpt.map (fun _ => beatXor_kept k)) (kept_ite (KeptOpt.map
      (fun _ => markInjected_kept k.updMarks)) (kept_ite (KeptOpt.mkSome (markInjected_kept (xorMainErr_kept k))) (kept_ite ?_ (kept_ite ?_ (KeptOpt.mkSome
          (pathNote_kept k)))))))
  · clear_value *
    split
    · exact trivial
    · exact kept_ite (KeptOpt.mkSome (putSector_kept k)) trivial
  · clear_value *
    split
    · exact trivial
    · exact KeptOpt.mkSome k.upd

theorem placeErrs_kept {kind : Nat} {d : Nat} {copy : Bool} {e : REntry} {l : List Nat} {p : Nat × Hub} (k : Kept o p.2) : Kept o (placeErrs kind d copy e l p).2 := by
  induction l generalizing p with
  | nil => exact k
  | cons a r ih =>
    unfold placeErrs
    split
    · exact ih k
    · rename_i g e
      exact ih (KeptOpt.of_some (placeErr_kept k) e)

theorem bodyErrInject_kept {x : Nat} {c : CmdWord} (k : Kept o h) : Kept o (bodyErrInject x c h).1 := by
  unfold bodyErrInject
  extract_lets
  clear_value *
  split
  · exact ended_kept k
  · extract_lets p1
    have k1 : Kept o (p1).2 := placeErrs_kept (Kept.mkSnd k.upd)
    exact Kept.iteFst (ended_kept k) (ended_kept k1)

theorem effErrInject_kept {m : Nat} {c : CmdWord} (k : Kept o h) : Kept o (effErrInject m c h) := by
  unfold effErrInject
  exact takeCmd_kept (fun _ _ _ k1 => bodyErrInject_kept k1) k

theorem eraseBit_kept {b : Nat} (k : Kept o h) : Kept o (eraseBit b h) := by
  unfold eraseBit
  extract_lets
  exact Kept.ite k.upd (Kept.ite k.upd (Kept.ite k.upd (Kept.ite k.upd k.upd)))

theorem eraseAll_kept {l : List Nat} (k : Kept o h) : Kept o (eraseAll l h).2 := by
  induction l generalizing h with
  | nil => exact k
  | cons b r ih =>
    unfold eraseAll
    split
    · rename_i g e
      exact Kept.mkSnd (ih (Kept.of_snd (ledgerWrite_kept k) e))
    · rename_i g e
      exact ih (eraseBit_kept (Kept.of_snd (ledgerWrite_kept k) e))

theorem bodyLedgerErase_kept {x : Nat} {c : CmdWord} (k : Kept o h) : Kept o (bodyLedgerErase x c h).1 := by
  unfold bodyLedgerErase
  extract_lets
  refine Kept.iteFst (ended_kept k) (Kept.iteFst (ended_kept k) ?_)
  · clear_value *
    split
    · rename_i g e
      have k1 := Kept.of_snd (eraseAll_kept k) e
      exact ended_kept k1

theorem effLedgerErase_kept {m : Nat} {c : CmdWord} (k : Kept o h) : Kept o (effLedgerErase m c h) := by
  unfold effLedgerErase
  exact takeCmd_kept (fun _ _ _ k1 => bodyLedgerErase_kept k1) k

theorem effMover_kept {own : Nat} {p : Nat} {d : MovDesc} (k : Kept o h) : Kept o (effMover own p d h) := by
  unfold effMover
  extract_lets _ h1
  have k1 : Kept o h1 := k.upd
  exact Kept.ite k (Kept.ite (endMov_kept k1) (issueChunk_kept k1))

theorem regWrite_kept {a : RegAcc} {off : Nat} {v : Word32} (k : Kept none h) : Kept none (regWrite a off v h) := by
  unfold regWrite
  exact Kept.ite (cfgArrive_kept k) k

theorem drainCol_kept {die : Nat} (k : Kept o h) : Kept o (drainCol die h) := by
  unfold drainCol
  exact Kept.foldl (fun _ _ k1 => Kept.ite (drainOne_kept k1) k1) k

theorem resetCol_kept {die : Nat} (k : Kept o h) : Kept o (resetCol die h) := by
  unfold resetCol
  extract_lets h1
  have k1 : Kept o h1 := drainCol_kept k
  exact colGap_kept k1.upd

theorem clearPmu_kept {die : Nat} (k : Kept o h) : Kept o (clearPmu die h) := by
  unfold clearPmu
  extract_lets
  exact k.upd

theorem effWarmResetDone_kept {die : Nat} (k : Kept o h) : Kept o (effWarmResetDone die h) := by
  unfold effWarmResetDone
  extract_lets h1 h2
  have k1 : Kept o h1 := resetCol_kept (clearPmu_kept (settle_kept k))
  have k2 : Kept o h2 := k1.upd
  clear_value *
  split
  · exact k
  · extract_lets h3
    have k3 : Kept o h3 := setLife_kept k2
    exact Kept.ite k (Kept.forEach (fun _ _ k4 => takeDown_kept k4) k3)

theorem releaseSeam_kept {die : Nat} (k : Kept none h) : Kept none (releaseSeam die h) := by
  unfold releaseSeam
  extract_lets
  refine settle_kept (Kept.forEach (fun _ _ k1 => ?_) k)
  · extract_lets h1
    have k2 : Kept none h1 := k1.upd
    exact Kept.ite (cfgArrive_kept k2) (again_kept k2)

theorem effWarmResetServed_kept {die : Nat} (k : Kept none h) : Kept none (effWarmResetServed die h) := by
  unfold effWarmResetServed
  extract_lets g1
  have k1 : Kept none g1 := effWarmResetDone_kept k
  exact Kept.ite (releaseSeam_kept k1) k1

theorem startWake_kept (k : Kept o h) : Kept o (startWake h) := setLife_kept k

theorem toParked_kept (k : Kept none h) : Kept none (toParked h) := by
  unfold toParked
  extract_lets h1 h2 h3 _ _ _ _ h4
  have k1 : Kept none h1 := settle_kept (drainCol_kept (drainCol_kept k))
  have k2 : Kept none h2 := Kept.forEach (fun _ _ k2 => disarmWin_kept k2) k1
  have k3 : Kept none h3 := Kept.forEach (fun w _ k3 => by
    cases w.other with
    | none => exact k3
    | some p => exact goodCopy_kept k3) (cacheOff_kept k2)
  clear_value h1 h2 h3
  have k4 : Kept none h4 := k3.updMems id (fun _ => rfl) id
  exact Kept.ite (startWake_kept k4) k4

theorem effParkDrainDone_kept (k : Kept none h) : Kept none (effParkDrainDone h) := by
  unfold effParkDrainDone
  exact Kept.ite k (toParked_kept k)

theorem effMailboxFetchDone_kept {die : Nat} {k' : Nat} (k : Kept o h) : Kept o (effMailboxFetchDone die k' h) := by
  unfold effMailboxFetchDone
  refine Kept.ite k ?_
  · split
    · exact setMbox_kept k
    · exact setMbox_kept k

theorem regRead_kept {a : RegAcc} {off : Nat} (k : Kept none h) : Kept none (regRead a off h) := by
  unfold regRead
  exact Kept.ite (cfgArrive_kept k) k

theorem setSide_kept {f : Side → Side} (k : Kept o h) : Kept o (setSide f h) := k.upd

theorem effI3cRead_kept {index : Nat} (k : Kept o h) : Kept o (effI3cRead index h) := by
  unfold effI3cRead
  exact Kept.ite k (setSide_kept k)

theorem effI3cDynamicAddress_kept {addr : Nat} (k : Kept o h) : Kept o (effI3cDynamicAddress addr h) := by
  unfold effI3cDynamicAddress
  exact Kept.ite k (setSide_kept k)

theorem loadTap_kept {code : Nat} {out : Option Word32} (k : Kept o h) : Kept o (loadTap code out h) := setSide_kept k

theorem effBypass_kept (k : Kept o h) : Kept o (effBypass h) := loadTap_kept k

theorem effIdcode_kept (k : Kept o h) : Kept o (effIdcode h) := loadTap_kept k

theorem effSamplePreload_kept (k : Kept o h) : Kept o (effSamplePreload h) := loadTap_kept k

theorem extestOr_kept {code : Nat} (k : Kept o h) : Kept o (extestOr code h) := by
  unfold extestOr
  exact Kept.ite (loadTap_kept k) (effBypass_kept k)

/-- What main memory holds after a loss of its contents (R346). -/
theorem wf_foldl_memWrite (cells : List Host.Cell) {m : List Host.Cell} (hm : Memory.wf m = true) :
    Memory.wf (cells.foldl (fun m c => memWrite m c.1 c.2) m) = true := by
  induction cells generalizing m with
  | nil => exact hm
  | cons c r ih => exact ih (wf_memWrite hm _ _)

theorem coldHub_kept {lost : Bool} (k : Kept none h) : Kept none (coldHub lost h) := by
  obtain ⟨-, -, wkettle⟩ := (Mem.wf_iff _).1 (k.1 rfl)
  exact ⟨fun _ => (Mem.wf_iff _).2 ⟨wf_foldl_memWrite _ rfl, rfl, wkettle⟩, nofun⟩

theorem effColdReset_kept (k : Kept none h) : Kept none (effColdReset h) := coldHub_kept k

theorem bootKettle_keptAll (k : Kept o h) : Kept o (bootKettle h) := by
  have k1 : Kept o { h with mem := { h.mem with kettle := [], ketErr := [] } } := k.updMems id id fun _ => rfl
  exact Kept.ite (regSetField_kept (regSetField_kept (setLife_kept k1))) k

theorem bootPop_kept (k : Kept o h) : Kept o (bootPop h) := by
  unfold bootPop
  refine Kept.ite (setLife_kept k) ?_
  · split
    · exact ledgerPut_kept k
    · exact setLife_kept k

theorem bootBadRecords_kept (k : Kept o h) : Kept o (bootBadRecords h) := by
  unfold bootBadRecords
  extract_lets h1
  have k1 : Kept o h1 := Kept.forEach (fun _ _ k2 => record_kept k2) k
  exact k1.upd

theorem bootCounters_kept (k : Kept o h) : Kept o (bootCounters h) := by
  unfold bootCounters
  refine Kept.forEach (fun _ _ k1 => ?_) k
  · extract_lets
    exact ledgerPut_kept (setMgr_kept k1)

theorem powerEvent_kept {kind : Nat} (k : Kept o h) : Kept o (powerEvent kind h) := ledgerPut_kept k

theorem effPwrGood_kept {hubId : Bool} {bootSel : Bool} {pop : Nat} (k : Kept o h) : Kept o (effPwrGood hubId bootSel pop h) := by
  unfold effPwrGood
  extract_lets h1 h2
  have k1 : Kept o h1 := setLife_kept k
  have k2 : Kept o h2 := bootKettle_keptAll (bootPop_kept (bootBadRecords_kept (bootCounters_kept k1)))
  exact Kept.ite k (powerEvent_kept (checkTherm_kept k2.upd))

theorem effRailOutOfRange_kept {aon : Bool} (k : Kept none h) : Kept none (effRailOutOfRange aon h) := by
  unfold effRailOutOfRange
  exact Kept.ite k (coldHub_kept k)

theorem effPwrWarn_kept (k : Kept o h) : Kept o (effPwrWarn h) := by
  unfold effPwrWarn
  extract_lets h1
  have k1 : Kept o h1 := setLife_kept k
  refine Kept.ite k ?_
  · clear_value *
    split
    · exact k1
    · exact k1
    · exact k1.upd

theorem doWithout_kept {s : Snp} (k : Kept o h) : Kept o (doWithout s h) := by
  unfold doWithout
  exact Kept.ite (closeSnp_kept k) (closeSnp_kept (setHostSt_kept k.upd))

theorem abandon_kept {u : Txn} (k : Kept o h) : Kept o (abandon u h) := by
  unfold abandon
  extract_lets h1 h2 h3
  have k1 : Kept o h1 := Kept.forEach (fun _ _ k2 => doWithout_kept k2) k
  have k3 : Kept o h2 := by
    unfold h2
    clear_value *
    split
    · exact setSlotLine_kept k1
    · exact k1
  have k4 : Kept o h3 := Kept.ite (setHostSt_kept k3) k3
  exact finish_kept k4

theorem drainRound_kept (k : Kept o h) : Kept o (drainRound h) := by
  unfold drainRound
  extract_lets h1 _ h2
  have k1 : Kept o h1 := Kept.forEach (fun _ _ k2 => abandon_kept k2) k
  have k3 : Kept o h2 := Kept.forEach (fun _ _ k4 => doWithout_kept k4) k1
  exact presentWaiting_kept (settle_kept k3.upd)

theorem effPwrWarnSnoopDeadline_kept (k : Kept o h) : Kept o (effPwrWarnSnoopDeadline h) := by
  unfold effPwrWarnSnoopDeadline
  split
  · exact k
  · exact Kept.ite k (Kept.foldl (fun _ _ k1 => drainRound_kept k1) k)

theorem resumeDrain_kept (k : Kept o h) : Kept o (resumeDrain h) := settle_kept (setLife_kept k)

theorem effPwrWarnDrainDone_kept (k : Kept none h) : Kept none (effPwrWarnDrainDone h) := by
  unfold effPwrWarnDrainDone
  extract_lets h1 h2
  have k1 : Kept none h1 := setLife_kept k
  have k2 : Kept none h2 := powerEvent_kept (foldHistory_keptAll k1)
  exact Kept.ite k (Kept.ite (toParked_kept k2) (Kept.ite (resumeDrain_kept k2) k2))

theorem effPwrWarnRelease_kept (k : Kept o h) : Kept o (effPwrWarnRelease h) := by
  unfold effPwrWarnRelease
  extract_lets h1
  have k1 : Kept o h1 := setLife_kept k
  refine Kept.ite k ?_
  · clear_value *
    split
    · exact Kept.ite (resumeDrain_kept k1) (setLife_kept k1)
    · exact Kept.ite (startWake_kept k1) k1
    · exact k1

theorem effWake_kept (k : Kept o h) : Kept o (effWake h) := by
  unfold effWake
  split
  · exact Kept.ite (setLife_kept k) (startWake_kept k)
  · exact setLife_kept k
  · exact Kept.ite (setLife_kept k) k
  · exact k

theorem effKettleParkedScrub_kept {word : Nat} {x : BitVec 72} (k : Kept o h) : Kept o (effKettleParkedScrub word x h) := by
  unfold effKettleParkedScrub
  extract_lets h1
  have k1 : Kept o h1 := setKetErr_kept k
  exact Kept.ite k (readKettleWord_kept k1)

theorem effThermCrossing_kept {die : Nat} {temp : Byte} (k : Kept o h) : Kept o (effThermCrossing die temp h) := by
  unfold effThermCrossing
  extract_lets h1
  have k1 : Kept o h1 := setLife_kept k
  exact Kept.ite k1 (checkTherm_kept k1)

theorem effBlockLockLoss_kept {l : Nat} (k : Kept o h) : Kept o (effBlockLockLoss l h) := enterRecovery_kept k

theorem effPeerRecoveryTrainingSets_kept {l : Nat} (k : Kept o h) : Kept o (effPeerRecoveryTrainingSets l h) := enterRecovery_kept k

theorem effMemTrainingFailed_kept {die : Nat} {j : Nat} {reason : Nat} (k : Kept o h) : Kept o (effMemTrainingFailed die j reason h) := by
  unfold effMemTrainingFailed
  extract_lets
  exact Kept.ite k (Kept.ite (Kept.ite k (setLife_kept k)) (Kept.ite (Kept.ite k (setLife_kept k)) k))

theorem effChannelLost_kept {k' : Nat} {rate : Nat} (k : Kept o h) : Kept o (effChannelLost k' rate h) := by
  unfold effChannelLost
  extract_lets
  exact Kept.ite k (checkOvercommit_kept (setLife_kept k))

theorem effFwImageAuthFailed_kept (k : Kept none h) : Kept none (effFwImageAuthFailed h) := by
  unfold effFwImageAuthFailed
  extract_lets h1 h2
  have k1 : Kept none h1 := failSlot_kept (failSlot_kept k)
  have k2 : Kept none h2 := Kept.ite (setPhase_kept (applyBoot_kept k1)) k1
  exact Kept.ite k (setLife_kept k2)

theorem effFwResumedFromRetention_kept {good : Bool} (k : Kept none h) : Kept none (effFwResumedFromRetention good h) := by
  unfold effFwResumedFromRetention
  extract_lets c1 h2 h3 h4
  have k1 : Kept none c1 := coldHub_kept k
  have k2 : Kept none h2 := k.updParts
  have k3 : Kept none h3 := powerEvent_kept (bootCounters_kept k2)
  have k4 : Kept none h4 := Kept.forEach (fun _ _ k5 => Kept.ite (setLink_kept k5) k5) k3
  exact Kept.ite k (Kept.ite (effPwrGood_kept k1) (checkOvercommit_kept (enterRun_kept k4)))

theorem effFwStageDone_kept {digestGood : Bool} (k : Kept none h) : Kept none (effFwStageDone digestGood h) := by
  unfold effFwStageDone
  split
  · exact k
  · extract_lets
    clear_value *
    split
    · rename_i g e
      have k1 := KeptFetch.of_wait (fetchRange_kept k) e
      exact k1
    · rename_i g e
      have k2 := KeptFetch.of_got (fetchRange_kept k) e
      extract_lets h1 h2 h3 h4
      have k3 : Kept none h1 := k2.upd
      have k4 : Kept none h2 := setFwSlot_kept k3
      have k5 : Kept none h3 := setFwSlot_kept k4
      have k6 : Kept none h4 := Kept.ite (ledgerPut_kept k5) k5
      exact Kept.ite (finishHeavy_kept k3) (Kept.ite (finishHeavy_kept (putHeader_kept k4)) (finishHeavy_kept k6))

theorem effFwHandoverDone_kept (k : Kept none h) : Kept none (effFwHandoverDone h) := by
  unfold effFwHandoverDone
  split
  · exact k
  · extract_lets h1 h2
    have k1 : Kept none h1 := ledgerPut_kept k
    have k2 : Kept none h2 := setLife_kept (runSlot_kept k1)
    exact Kept.ite k (Kept.forEach (fun _ _ k3 => finishHeavy_kept k3) k2)

theorem effRingFetchErr_kept {mover : Bool} {i : Nat} (k : Kept o h) : Kept o (effRingFetchErr mover i h) := by
  unfold effRingFetchErr
  extract_lets h1
  have k1 : Kept o h1 := Kept.ite (setPart_kept (fun _ => rfl) (regSetField_kept k)) (setMgr_kept (regSetField_kept k))
  exact raiseEvt_kept (record_kept k1)

theorem returnCredits_kept {l : Nat} (k : Kept o h) : Kept o (returnCredits l h) := by
  unfold returnCredits
  extract_lets
  exact Kept.ite k (setLink_kept k)

theorem putFlit_kept {l : Nat} {body : List Byte} (k : Kept o h) : Kept o (putFlit l body h) := setLink_kept k

theorem pageMax_kept {pid : Nat} {i : Nat} {x : Nat} (k : Kept o h) : Kept o (pageMax pid i x h) := by
  unfold pageMax
  exact Kept.ite (setPart_kept (fun _ => rfl) k) k

theorem latSample_kept {key : Nat} {x : Nat} {pid : Nat} (k : Kept o h) : Kept o (latSample key x pid h) := by
  unfold latSample
  extract_lets h1
  have k1 : Kept o h1 := k.upd
  exact Kept.ite (pageMax_kept k1) k1

theorem witDerr_kept {l : Nat} {a : Nat} {n : Nat} (k : Kept o h) : Kept o (witDerr l a n h) := by
  unfold witDerr
  exact Kept.forEach (fun _ _ k1 => setWin_kept k1) k

theorem witTap_kept {l : Nat} {a : Nat} {d : List Byte} (k : Kept o h) : Kept o (witTap l a d h) := by
  unfold witTap
  refine Kept.ite k (Kept.forEach (fun _ _ k1 => ?_) k)
  · extract_lets
    exact Kept.ite k1 (setWin_kept k1)

theorem beginOut_kept {l : Nat} {o' : Out} (k : Kept o h) : Kept o (beginOut l o' h) := by
  unfold beginOut
  extract_lets _ h1 h2 h3
  have k1 : Kept o h1 := setLink_kept k
  have k2 : Kept o h2 := Kept.ite k1.upd k1
  have k3 : Kept o h3 := by
    unfold h3
    clear_value *
    split
    · exact latSample_kept k2
    · exact k2
  exact Kept.ite k3 (Kept.ite (witDerr_kept k3) (Kept.ite (witTap_kept k3) k3))

theorem endOut_kept {l : Nat} {m : Msg} (k : Kept o h) : Kept o (endOut l m h) := by
  unfold endOut
  extract_lets
  exact Kept.ite k k.upd

theorem fillFlit_kept {l : Nat} {n : Nat} {f : Fill} (k : Kept o f.h) : Kept o (fillFlit l n f).h := by
  induction n generalizing f with
  | zero => exact k
  | succ n ih =>
    unfold fillFlit
    extract_lets
    refine Kept.iteFill k ?_
    clear_value *
    split
    · exact k
    · extract_lets h1
      have k1 : Kept o h1 := Kept.ite (beginOut_kept k) k
      exact Kept.iteFill (ih (endOut_kept (setLink_kept k1))) (ih (setLink_kept k1))

theorem effFlitTime_kept {l : Nat} (k : Kept o h) : Kept o (effFlitTime l h) := by
  unfold effFlitTime
  extract_lets h1 _ _ h2 f3 _ _ h4 h5
  have k1 : Kept o h1 := returnCredits_kept k
  have k2 : Kept o h2 := setLink_kept k1
  have k3 : Kept o (f3).h := fillFlit_kept (Kept.mkFill k1)
  have k4 : Kept o h4 := setLink_kept k3
  have k5 : Kept o h5 := Kept.ite k4 (pmu_kept k4)
  clear_value *
  split
  · split
    · exact putFlit_kept (pmu_kept k2)
    · exact Kept.ite (putFlit_kept k1) (Kept.ite (putFlit_kept k1) (putFlit_kept k5))
  · exact k

end

end Sys2Proof.Machine

/-!
What a step does to the queue and to the memories, and the obligation that it keeps their form.
-/

namespace Sys2Proof.Machine

/-- Canonical memories are all that is kept where nothing is said of the rest. -/
theorem kept_none_iff {h : Hub} : Kept none h ↔ h.mem.wf = true := ⟨fun k => k.1 rfl, fun w => ⟨fun _ => w, nofun⟩⟩

/-- An outcome that goes on with the queue as it is and keeps the memories canonical. -/
def Goes (s : State) (r : Host.Outcome State Fault Refusal) : Prop := ∃ g, r = .next ⟨g, s.pending⟩ ∧ (s.memOk → g.mem.wf = true)

theorem goes_liftHub {s : State} {f : Hub → Hub} (hf : ∀ {h}, Kept none h → Kept none (f h)) : Goes s (liftHub f s) :=
  ⟨f s.hub, rfl, fun w => kept_none_iff.1 (hf (kept_none_iff.2 w))⟩

/-- A mailbox's last word stands where the hub's own mailbox says. -/
theorem goes_lastWordRead (a : RegAcc) (k : BitVec 2) (s : State) :
    Goes s (liftHub (fun h => regRead a (0x104 + 0x80 * k.toNat + 4 * max 1 (mbox h a.die.toNat k.toNat).words.length) h) s) :=
  goes_liftHub fun k => regRead_kept k

/-- Every command but FLIT_RECEIVED goes on, by the change that its effect makes of the hub. -/
theorem exec_goes (s : State) : ∀ c : Instr, (∀ l f, c ≠ .flitReceived l f) → Goes s (exec c s)
  | .rdShared .. | .rdUnique .. | .rdOnce .. | .rdNosnp .. | .cleanUnique .. | .rdResv .. | .wrLine .. | .wrPart .. | .wrNosnp .. | .zeroLine ..
    | .atomic .. | .stCond .. | .castOffer .. | .castData .. | .writeBack .. | .evictNote .. | .fence .. | .resvClear .. | .pfHint .. =>
    fun _ => goes_liftHub fun k => effRequest_kept k
  | .snpRsp .. => fun _ => goes_liftHub fun k => effSnpRsp_kept k
  | .fwdDone .. => fun _ => goes_liftHub fun k => effFwdDone_kept k
  | .data .. => fun _ => goes_liftHub fun k => effData_kept k
  | .linkCtlSetReport .. | .linkCtlSetQuery .. => fun _ => goes_liftHub fun k => effLinkCtl_kept k
  | .tick .. => fun _ => goes_liftHub fun k => effTickMsg_kept k
  | .snpShared .. | .snpUnique .. | .snpInval .. | .snpFwdShared .. | .snpFwdUnique .. => fun _ => goes_liftHub fun k => effTwinSnoop_kept k
  | .comp .. | .compData .. | .wbAck .. | .fenceAck .. | .scResult .. | .castAccept .. | .castDecline .. | .castDone .. =>
    fun _ => goes_liftHub fun k => effTwinRsp_kept k
  | .replayTimer .. => fun _ => goes_liftHub fun k => effReplayTimer_kept k
  | .recoveryTimeout .. => fun _ => goes_liftHub fun k => effRecoveryTimeout_kept k
  | .linkDown .. => fun _ => goes_liftHub fun k => effLinkDown_kept k
  | .linkUp .. => fun _ => goes_liftHub fun k => effLinkUp_kept k
  | .trainingStageTimeout .. => fun _ => goes_liftHub fun k => effTrainingStageTimeout_kept k
  | .trainingBackoffExpiry .. => fun _ => goes_liftHub fun k => effTrainingBackoffExpiry_kept k
  | .memTrainBackoffExpiry .. => fun _ => goes_liftHub fun k => effMemTrainBackoffExpiry_kept k
  | .channelTrained .. => fun _ => goes_liftHub fun k => effChannelTrained_kept k
  | .arrayTrained .. => fun _ => goes_liftHub fun k => effArrayTrained_kept k
  | .nearZeroFillDone => fun _ => goes_liftHub fun k => effNearZeroFillDone_kept k
  | .fwRetryBackoffExpiry => fun _ => goes_liftHub fun k => effFwRetryBackoffExpiry_kept k
  | .fwImageAuthenticated .. => fun _ => goes_liftHub fun k => effFwImageAuthenticated_kept k
  | .ftickEdge .. => fun _ => goes_liftHub fun k => effFtickEdge_kept k
  | .internalTimerTick => fun _ => goes_liftHub fun k => effInternalTimerTick_kept k
  | .frameTick => fun _ => goes_liftHub fun k => effFrameTick_kept k
  | .syntheticTick => fun _ => goes_liftHub fun k => effSyntheticTick_kept k
  | .tickFailover => fun _ => goes_liftHub fun k => effTickFailover_kept k
  | .subframeStep => fun _ => goes_liftHub fun k => effSubframeStep_kept k
  | .stewardPass => fun _ => goes_liftHub fun k => effStewardPass_kept k
  | .stewardPassDiscard => fun _ => goes_liftHub fun k => effStewardPassDiscard_kept k
  | .pmuWindowEnd => fun _ => goes_liftHub fun k => effPmuWindowEnd_kept k
  | .bwWindowEnd => fun _ => goes_liftHub fun k => effBwWindowEnd_kept k
  | .historyFold => fun _ => goes_liftHub fun k => effHistoryFold_kept k
  | .ladleExpiry .. => fun _ => goes_liftHub fun k => effLadleExpiry_kept k
  | .resvExpiry .. => fun _ => goes_liftHub fun k => effResvExpiry_kept k
  | .classBPromote .. => fun _ => goes_liftHub fun k => effClassBPromote_kept k
  | .snoopTimeout .. => fun _ => goes_liftHub fun k => effSnoopTimeout_kept k
  | .tongsHoldEnd .. => fun _ => goes_liftHub fun k => effTongsHoldEnd_kept k
  | .lidTimeout .. => fun _ => goes_liftHub fun k => effLidTimeout_kept k
  | .pairTimeout .. => fun _ => goes_liftHub fun k => effPairTimeout_kept k
  | .fillDataLands .. => fun _ => goes_liftHub fun k => twinSettle_kept (effFillDataLands_kept k)
  | .prefetchLands .. => fun _ => goes_liftHub fun k => effPrefetchLands_kept k
  | .memoryWriteComplete .. => fun _ => goes_liftHub fun k => twinSettle_kept (effMemoryWriteComplete_kept k)
  | .trackerFreedRetry .. => fun _ => goes_liftHub fun k => twinSettle_kept (effTrackerFreedRetry_kept k)
  | .streamMissRetry .. => fun _ => goes_liftHub fun k => twinSettle_kept (effStreamMissRetry_kept k)
  | .tagSetRebuild .. => fun _ => goes_liftHub fun k => effTagSetRebuild_kept k
  | .walkerTurn .. => fun _ => goes_liftHub fun k => effWalkerTurn_kept k
  | .whiskLineRead .. => fun _ => goes_liftHub fun k => effWhiskLineRead_kept k
  | .whiskLapEnd .. => fun _ => goes_liftHub fun k => effWhiskLapEnd_kept k
  | .btStep .. => fun _ => goes_liftHub fun k => effBtStep_kept k
  | .rebuildStart => fun _ => goes_liftHub fun k => effRebuildStart_kept k
  | .rebuildDone => fun _ => goes_liftHub fun k => effRebuildDone_kept k
  | .remapCopyDone .. => fun _ => goes_liftHub fun k => effRemapCopyDone_kept k
  | .colanderDrain .. => fun _ => goes_liftHub fun k => effColanderDrain_kept k
  | .sealComplete .. => fun _ => goes_liftHub fun k => effSealComplete_kept k
  | .cacheWarmSector .. => fun _ => goes_liftHub fun k => effCacheWarmSector_kept k
  | .moverChunkDone .. => fun _ => goes_liftHub fun k => effMoverChunkDone_kept k
  | .nop .. => fun _ => goes_liftHub fun k => effNop_kept k
  | .cacheEnable .. => fun _ => goes_liftHub fun k => effCacheEnable_kept k
  | .cacheDisable .. => fun _ => goes_liftHub fun k => effCacheDisable_kept k
  | .cacheDisableDrainDone => fun _ => goes_liftHub fun k => effCacheDisableDrainDone_kept k
  | .cacheRange .. => fun _ => goes_liftHub fun k => effCacheRange_kept k
  | .cacheRangeDone => fun _ => goes_liftHub fun k => effCacheRangeDone_kept k
  | .wayPower .. => fun _ => goes_liftHub fun k => effWayPower_kept k
  | .wayPowerOffDone => fun _ => goes_liftHub fun k => effWayPowerOffDone_kept k
  | .wayLock .. => fun _ => goes_liftHub fun k => effWayLock_kept k
  | .wayLockDone => fun _ => goes_liftHub fun k => effWayLockDone_kept k
  | .regionSet .. => fun _ => goes_liftHub fun k => effRegionSet_kept k
  | .shadowLoadDone => fun _ => goes_liftHub fun k => effShadowLoadDone_kept k
  | .arrayPopSet .. => fun _ => goes_liftHub fun k => effArrayPopSet_kept k
  | .partCreate .. => fun _ => goes_liftHub fun k => effPartCreate_kept k
  | .partSet .. => fun _ => goes_liftHub fun k => effPartSet_kept k
  | .partQuiesce .. => fun _ => goes_liftHub fun k => effPartQuiesce_kept k
  | .partQuiesceDone .. => fun _ => goes_liftHub fun k => effPartQuiesceDone_kept k
  | .partResume .. => fun _ => goes_liftHub fun k => effPartResume_kept k
  | .partReset .. => fun _ => goes_liftHub fun k => effPartReset_kept k
  | .partFreeze .. => fun _ => goes_liftHub fun k => effPartFreeze_kept k
  | .partFreezeDone .. => fun _ => goes_liftHub fun k => effPartFreezeDone_kept k
  | .partSave .. => fun _ => goes_liftHub fun k => effPartSave_kept k
  | .partSaveDone .. => fun _ => goes_liftHub fun k => effPartSaveDone_kept k
  | .partRestore .. => fun _ => goes_liftHub fun k => effPartRestore_kept k
  | .partRestoreLoadDone .. => fun _ => goes_liftHub fun k => effPartRestoreLoadDone_kept k
  | .partDestroy .. => fun _ => goes_liftHub fun k => effPartDestroy_kept k
  | .witnessArm .. => fun _ => goes_liftHub fun k => effWitnessArm_kept k
  | .witnessDisarm .. => fun _ => goes_liftHub fun k => effWitnessDisarm_kept k
  | .expertSet .. => fun _ => goes_liftHub fun k => effExpertSet_kept k
  | .keyLoad .. => fun _ => goes_liftHub fun k => effKeyLoad_kept k
  | .keyRotate .. => fun _ => goes_liftHub fun k => effKeyRotate_kept k
  | .fwStage .. => fun _ => goes_liftHub fun k => effFwStage_kept k
  | .fwSwitch .. => fun _ => goes_liftHub fun k => effFwSwitch_kept k
  | .fwHandover => fun _ => goes_liftHub fun k => effFwHandover_kept k
  | .errInject .. => fun _ => goes_liftHub fun k => effErrInject_kept k
  | .ledgerErase .. => fun _ => goes_liftHub fun k => effLedgerErase_kept k
  | .moverCopy .. | .moverFill .. | .moverZero .. | .moverCrc .. | .moverCompare .. => fun _ => goes_liftHub fun k => effMover_kept k
  | .cmdDb .. | .cplDb .. | .evtDb .. | .movDb .. | .witSeal .. | .lidKeyWrite .. | .warmResetWest .. | .warmResetEast .. | .snap .. | .park ..
    | .witCtlClear .. | .linkEnable .. | .retrain .. | .mgrCtlEnable .. | .cohHostGeomWrite .. | .cohTwinGeomWrite .. | .cacheTrkCtlWrite ..
    | .cacheCastCtlWrite .. | .fsPeriodWrite .. | .fsTickCtlWrite .. | .whiskFloorWrite .. | .pmuClrCyc .. | .pmuClrCnt .. | .mbSelWrite ..
    | .bitAliasWrite .. | .registerWrite .. => fun _ => goes_liftHub fun k => regWrite_kept k
  | .warmResetDone .. => fun _ => goes_liftHub fun k => effWarmResetServed_kept k
  | .parkDrainDone => fun _ => goes_liftHub fun k => effParkDrainDone_kept k
  | .mailboxFetchDone .. => fun _ => goes_liftHub fun k => effMailboxFetchDone_kept k
  | .mbLastWordRead a k => fun _ => goes_lastWordRead a k s
  | .clearOnRead .. => fun _ => goes_liftHub fun k => regRead_kept k
  | .i3cRead .. => fun _ => goes_liftHub fun k => effI3cRead_kept k
  | .i3cDynamicAddress .. => fun _ => goes_liftHub fun k => effI3cDynamicAddress_kept k
  | .bypass => fun _ => goes_liftHub fun k => effBypass_kept k
  | .idcode => fun _ => goes_liftHub fun k => effIdcode_kept k
  | .samplePreload => fun _ => goes_liftHub fun k => effSamplePreload_kept k
  | .extest | .extestPulse | .extestTrain => fun _ => goes_liftHub fun k => extestOr_kept k
  | .coldReset => fun _ => goes_liftHub fun k => effColdReset_kept k
  | .pwrGood .. => fun _ => goes_liftHub fun k => effPwrGood_kept k
  | .railOutOfRange .. => fun _ => goes_liftHub fun k => effRailOutOfRange_kept k
  | .pwrWarn => fun _ => goes_liftHub fun k => effPwrWarn_kept k
  | .pwrWarnSnoopDeadline => fun _ => goes_liftHub fun k => effPwrWarnSnoopDeadline_kept k
  | .pwrWarnDrainDone => fun _ => goes_liftHub fun k => effPwrWarnDrainDone_kept k
  | .pwrWarnRelease => fun _ => goes_liftHub fun k => effPwrWarnRelease_kept k
  | .wake => fun _ => goes_liftHub fun k => effWake_kept k
  | .kettleParkedScrub .. => fun _ => goes_liftHub fun k => effKettleParkedScrub_kept k
  | .thermCrossing .. => fun _ => goes_liftHub fun k => effThermCrossing_kept k
  | .blockLockLoss .. => fun _ => goes_liftHub fun k => effBlockLockLoss_kept k
  | .peerRecoveryTrainingSets .. => fun _ => goes_liftHub fun k => effPeerRecoveryTrainingSets_kept k
  | .memTrainingFailed .. => fun _ => goes_liftHub fun k => effMemTrainingFailed_kept k
  | .channelLost .. => fun _ => goes_liftHub fun k => effChannelLost_kept k
  | .fwImageAuthFailed => fun _ => goes_liftHub fun k => effFwImageAuthFailed_kept k
  | .fwResumedFromRetention .. => fun _ => goes_liftHub fun k => effFwResumedFromRetention_kept k
  | .fwStageDone .. => fun _ => goes_liftHub fun k => effFwStageDone_kept k
  | .fwHandoverDone => fun _ => goes_liftHub fun k => effFwHandoverDone_kept k
  | .ringFetchErr .. => fun _ => goes_liftHub fun k => effRingFetchErr_kept k
  | .flitTime .. => fun _ => goes_liftHub fun k => effFlitTime_kept k
  | .flitReceived l f => fun hc => absurd rfl (hc l f)

/-- FLIT_RECEIVED goes on or stops at a header in a slot that a message owes data to (R5). -/
theorem exec_flitReceived_cases (s : State) (l : BitVec 3) (f : List Byte) :
    exec (.flitReceived l f) s = .fault .undefinedMessage ∨ Goes s (exec (.flitReceived l f) s) := by
  have e : exec (.flitReceived l f) s = match effFlitReceived l.toNat f s.hub with
      | some h => .next ⟨h, s.pending⟩
      | none => .fault .undefinedMessage := rfl
  rw [e]
  cases eff : effFlitReceived l.toNat f s.hub with
  | none => exact .inl rfl
  | some g => exact .inr ⟨g, rfl, fun w => kept_none_iff.1 (KeptOpt.of_some (effFlitReceived_kept (kept_none_iff.2 w)) eff)⟩

/-- A step stops undefined or goes on, with the queue behind its front. -/
theorem step_cases (s : State) : step s = .fault .undefinedMessage ∨ Goes ⟨s.hub, s.pending.tail⟩ (step s) := by
  obtain ⟨h, q⟩ := s
  cases q with
  | nil => exact .inr ⟨cycle h, rfl, fun w => (congrArg Mem.wf (cycle_counted h).mem).trans w⟩
  | cons c r =>
    by_cases flit : ∃ l f, c = .flitReceived l f
    · obtain ⟨l, f, rfl⟩ := flit
      exact exec_flitReceived_cases ⟨h, r⟩ l f
    · exact .inr (exec_goes ⟨h, r⟩ c fun l f e => flit ⟨l, f, e⟩)

theorem Goes.next {s : State} {r : Host.Outcome State Fault Refusal} (g : Goes s r) : ∃ t, r = .next t := g.imp' _ fun _ => And.left

theorem queueOk_tail {h g : Hub} {q : List Instr} (ok : State.queueOk ⟨h, q⟩) : State.queueOk ⟨g, q.tail⟩ :=
  List.all_eq_true.2 fun c hc => List.all_eq_true.1 ok c (List.mem_of_mem_tail hc)

end Sys2Proof.Machine

namespace Sys2Proof.Machine.Slice0

/-- Settles O59: no command is refused, and each one's effect keeps the memories canonical (`exec_goes`, from the layer of `Kept` above). -/
theorem everyStepKeepsTheForm : Obligations.EveryStepKeepsTheForm := by
  intro s
  refine ⟨fun r e => ?_, fun c hc => (exec_goes s c hc).next, fun l f => (exec_flitReceived_cases s l f).imp_right Goes.next, fun t e => ?_⟩
  · rcases step_cases s with stop | ⟨g, go, _⟩
    · rw [stop] at e; cases e
    · rw [go] at e; cases e
  · rcases step_cases s with stop | ⟨g, go, keep⟩
    · rw [stop] at e; cases e
    · rw [go] at e
      cases e
      exact ⟨rfl, queueOk_tail, keep⟩

end Sys2Proof.Machine.Slice0

/-!
Heavy commands that move whole images (R216, R304 to R307, R414), and the obligation on their ends.
-/

namespace Sys2Proof.Machine

section
variable {h : Hub}

/-! ### SHADOW loads -/

/-- What the break of a seal leaves of a region map's change. -/
def mapView (h : Hub) := (h.mem, h.rmap, h.shadows)

theorem mapView_breakSeal (n a : Nat) (h : Hub) : mapView (breakSeal n a h) = mapView h := by
  rw [breakSeal]
  dsimp only
  split <;> simp [mapView, sealError]

theorem mapView_breakEntry (e : REntry) (h : Hub) : mapView (breakEntry e h) = mapView h := by
  rw [breakEntry]
  split
  · exact forEach_keeps mapView _ (fun n h => mapView_breakSeal n _ h) _ h
  · rfl

theorem mapView_applyRegion {e : REntry} (he : e.valid = true) (i : Nat) (h : Hub) : mapView (applyRegion i e h) = (h.mem, bset h.rmap i e, h.shadows) := by
  rw [applyRegion, if_pos he]
  exact (mapView_breakEntry ..).trans (mapView_breakEntry ..)

/-- A loaded entry put in force. -/
def shadowLoaded (k : Nat) (n : REntry) (h : Hub) : Hub := applyRegion k n (checkFull { h with shadows := [] })

theorem shadowLoaded_map {n : REntry} (hn : n.valid = true) (k : Nat) (h : Hub) :
    (shadowLoaded k n h).mem = h.mem ∧ bfind (shadowLoaded k n h).rmap k = some n ∧ (shadowLoaded k n h).shadows = [] := by
  have view := mapView_applyRegion hn k (checkFull { h with shadows := [] })
  rw [← shadowLoaded] at view
  simp only [mapView, Prod.mk.injEq] at view
  obtain ⟨mem, rmap, shadows⟩ := view
  exact ⟨mem, by rw [rmap, bfind_bset_same], shadows⟩

/-- The load of one SHADOW entry in a hub where nothing waits and no host owns a line. -/
theorem effShadowLoadDone_eq {job k bad : Nat} {n : REntry} {g : Hub} (hs : h.shadows = [(job, k, n)]) (hjob : job ≠ 0) (ht : h.txns = []) (hw : h.waiting = [])
    (hv : h.sieve = []) (hl : loadLines n (List.range (n.size * unit2M / 128)) 0 h = (bad, g)) :
    effShadowLoadDone h = finishHeavy job (if bad = 0 then 0 else 8) (if bad = 0 then n.size * unit2M / 128 else bad) (shadowLoaded k n g) := by
  have closed : (jobOpen h .hub0 job || dirtyComing h (n.src * unit2M) (n.size * unit2M)) = false := by rw [jobOpen, dirtyComing, ht, hw]; rfl
  have unowned : ownedIn h (n.src * unit2M) (n.size * unit2M) = [] := by rw [ownedIn, hv]; rfl
  unfold effShadowLoadDone
  split
  · next e => rw [hs] at e; cases e
  · next e =>
    rw [hs] at e
    cases e
    extract_lets _ _ own
    have none_ : own = [] := unowned
    rw [if_neg (ne_true_of_eq_false closed), if_neg (by simp [none_])]
    split
    next loaded =>
    rw [hl] at loaded
    cases loaded
    extract_lets h1 h2
    have put : h2 = shadowLoaded k n g := if_neg hjob
    rw [put]
    split <;> rfl

/-! ### Saved and restored partitions -/

theorem heavyFor_only {v : Heavy} {p op : Nat} (hh : h.heavy = [v]) (hp : v.pid = p) (ho : v.opcode = op) : heavyFor h p op = some v := by
  rw [heavyFor, hh, List.find?_cons_of_pos (by simp [hp, ho])]

theorem imageOf_only {j : ImgJob} {p : Nat} (hi : h.images = [j]) (hp : j.pid = p) : imageOf h p = some j := by
  rw [imageOf, hi, List.find?_cons_of_pos (by simp [hp])]

theorem kept_standing (h : Hub) : Kept (some h.standing) h := ⟨nofun, fun _ hS => Option.some.inj hS⟩

theorem life_of_kept {g : Hub} (k : Kept (some h.standing) g) (p : Nat) : (part g p).life = (part h p).life :=
  congrFun (congrArg Standing.life (k.2 _ rfl)) p

/-- A partition that is freed is FREE. -/
theorem part_freePart_st (p : Nat) (h : Hub) : (part (freePart p h) p).st = .free := by
  rw [freePart, part, parts_checkOvercommit]
  dsimp only
  rw [bget, bfind_bdel_same]
  rfl

/-- The hub that a freed partition's image leaves. -/
def saved (j : ImgJob) (h : Hub) : Hub := dropImage j.job { h with walks := h.walks.filter (fun w => !(w.job == j.job && w.kind == 6)) }

theorem effPartSaveDone_eq {p : Nat} {v : Heavy} {j : ImgJob} {img : List Byte} {g g' : Hub} (hv : heavyFor h p 0x16 = some v) (hj : imageOf h p = some j)
    (himg : imageReady j h = some (img, [], g)) (hst : storeRange v.mgr j.job j.addr img g = .done 0 g') :
    effPartSaveDone p h = finishHeavy v.job 0 img.length (freePart p (saved j g')) := by
  rw [effPartSaveDone, hv, hj]
  dsimp only
  rw [himg]
  dsimp only
  rw [hst]
  rfl

/-- The sections of a good image, loaded into partition `p` at the level the image has. -/
def loadedPart (p level : Nat) (l : List ImgSec) (h : Hub) : Hub :=
  forEach l (fun s h => loadSection p level s h) (setPart (resetCold p h) p (fun x => { x with st := .quiesced, busy := false, level := level }))

theorem life_loadedPart (p level : Nat) (l : List ImgSec) (h : Hub) : (part (loadedPart p level l h) p).life = (.quiesced, false, level) := by
  rw [loadedPart]
  generalize resetCold p h = g
  have k := Kept.forEach (l := l) (fun s _ k => loadSection_kept (p := p) (level := level) (s := s) k)
    (kept_standing (setPart g p (fun x => { x with st := .quiesced, busy := false, level := level })))
  rw [life_of_kept k, part_setPart_same]
  rfl

/-- A good image's end: the partition at its image's level, the job gone. -/
def restored (j : ImgJob) (l : List ImgSec) (h : Hub) : Hub :=
  dropImage j.job (setPart (loadedPart j.pid j.level l h) j.pid (fun x => { x with warming := !(bget (loadedPart j.pid j.level l h).warm j.pid []).isEmpty }))

theorem life_restored (j : ImgJob) (l : List ImgSec) (h : Hub) : (part (restored j l h) j.pid).life = (.quiesced, false, j.level) := by
  have done := life_loadedPart j.pid j.level l h
  rw [restored]
  generalize loadedPart j.pid j.level l h = g at done ⊢
  exact (congrArg Part.life (part_setPart_same g j.pid (fun x => { x with warming := !(bget g.warm j.pid []).isEmpty }))).trans done

theorem loadImage_eq {j : ImgJob} {d : List Byte} (hd : (parseSections d 8 64 0).2.1 = none) (h : Hub) :
    loadImage j none d h = finishHeavy j.job 0 d.length (restored j (parseSections d 8 64 0).1 h) := by
  rw [loadImage]
  dsimp only
  rw [hd]
  rfl

theorem effPartRestoreLoadDone_eq {p : Nat} {v : Heavy} {j : ImgJob} {d : List Byte} {g : Hub} (hv : heavyFor h p 0x17 = some v) (hj : imageOf h p = some j)
    (hload : j.save = false) (himg : j.image ≠ []) (hf : fetchRange v.mgr j.job j.addr (fieldOf j.image 12 4) h = .got none d g) :
    effPartRestoreLoadDone p h = loadImage j none d g := by
  rw [effPartRestoreLoadDone, hv, hj]
  dsimp only
  rw [hload, if_neg Bool.false_ne_true, if_neg (by simpa using himg), hf]

/-! ### A restore's start -/

/-- A range of the twin's, of which nothing was asked yet, is waited for. -/
theorem fetchRange_waits {m job a n : Nat} (hn : 0 < ceilDiv n 64) (hfar : ∀ i, i < ceilDiv n 64 → mappedTwin h (a + 64 * i) = true) (hup : twinUp h = true)
    (hreqs : h.twin.reqs = []) : ∃ x, fetchRange m job a n h = .wait x := by
  have first : a ∈ rangePieces a n := List.mem_map.2 ⟨0, List.mem_range.2 hn, rfl⟩
  have asked : a ∈ ((rangePieces a n).filter (mappedTwin h)).filter (fun p => (twinPiece h job p).isNone) :=
    List.mem_filter.2 ⟨List.mem_filter.2 ⟨first, hfar 0 hn⟩, by rw [twinPiece, hreqs]; rfl⟩
  unfold fetchRange
  extract_lets ps far ask own
  have asks : a ∈ ask := by rw [show ask = _ from if_pos hup]; exact asked
  split
  · exact ⟨_, rfl⟩
  · rw [if_pos (by simp [List.ne_nil_of_mem asks])]
    exact ⟨_, rfl⟩

/-- The image job of a PART_RESTORE of a FREE partition, and the hub behind its start. -/
def restoreJob (c : CmdWord) (h : Hub) : ImgJob :=
  { job := h.nextId, pid := c.pid.toNat, save := false, addr := c.arg1.toNat, level := 0, hot := true, image := [], arg0 := c.arg0 }

def restoreBegun (m : Nat) (c : CmdWord) (h : Hub) : Hub :=
  putPart c.pid.toNat { st := .created, busy := true } { started m 0x17 c h with images := h.images ++ [restoreJob c h] }

theorem bodyPartRestore_eq {m : Nat} {c : CmdWord} {x : Hub} (hp : c.pid ≠ 0#6) (hst : (part h c.pid.toNat).st = .free)
    (hf : fetchRange m h.nextId c.arg1.toNat 144 (restoreBegun m c h) = .wait x) : bodyPartRestore m c h = (x, none) := by
  have own : (c.pid.toNat != 0 && (part h c.pid.toNat).st == .free) = true := by
    rw [hst, Bool.and_eq_true, bne_iff_ne]
    exact ⟨fun e => hp (BitVec.eq_of_toNat_eq e), rfl⟩
  rw [bodyPartRestore]
  dsimp only
  rw [own, startHeavy_eq]
  dsimp only
  rw [if_pos rfl]
  generalize begins : putPart _ _ _ = g
  have same : g = restoreBegun m c h := begins.symm
  rw [same, hf]

theorem mappedTwin_of_rmap {g : Hub} (hr : g.rmap = h.rmap) (hid : g.life.hubId = h.life.hubId) (a : Nat) : mappedTwin g a = mappedTwin h a := by
  have here (e : REntry) : e.here g = e.here h := by rw [REntry.here, REntry.here, hid]
  simp only [mappedTwin, rmapFind, hr, here]

theorem twinUp_of_links {g : Hub} (hl : g.links = h.links) : twinUp g = twinUp h := by
  rw [twinUp, twinUp, isTwinLink, isTwinLink, linkTrained, linkTrained, link, link, hl]

theorem restoreBegun_homes (m : Nat) (c : CmdWord) (h : Hub) : (restoreBegun m c h).rmap = h.rmap ∧ (restoreBegun m c h).life = h.life
    ∧ (restoreBegun m c h).links = h.links ∧ (restoreBegun m c h).twin = h.twin := ⟨rfl, rfl, rfl, rfl⟩

/-- PART_RESTORE (R306) of an image homed on the twin waits for its header, the partition taken. -/
theorem partRestore_waits {m : Nat} {c : CmdWord} (ht : h.takesCmd m 0x17 c) (hp : c.pid ≠ 0#6) (hst : (part h c.pid.toNat).st = .free)
    (hfar : ∀ i, i < 3 → mappedTwin h (c.arg1.toNat + 64 * i) = true) (hup : twinUp h = true) (hreqs : h.twin.reqs = []) :
    ∃ u, effPartRestore m c h = u ∧ u.heavy = h.heavy ++ [begun h m 0x17 c] ∧ u.images = h.images ++ [restoreJob c h] ∧ (part u c.pid.toNat).busy = true := by
  obtain ⟨ms, -, -, taken⟩ := takeCmd_passes ht bodyPartRestore
  obtain ⟨rmap, life, links, twin⟩ := restoreBegun_homes m c (tookCmd ms h)
  have far (i : Nat) (hi : i < ceilDiv 144 64) : mappedTwin (restoreBegun m c (tookCmd ms h)) (c.arg1.toNat + 64 * i) = true :=
    (mappedTwin_of_rmap rmap (congrArg Life.hubId life) _).trans (hfar i hi)
  obtain ⟨x, waits⟩ := fetchRange_waits (m := m) (job := (tookCmd ms h).nextId) (by decide) far ((twinUp_of_links links).trans hup) ((congrArg Twin.reqs twin).trans hreqs)
  have k : Kept (some (restoreBegun m c (tookCmd ms h)).standing) x := KeptFetch.of_wait (fetchRange_kept (kept_standing _)) waits
  have stands := k.2 _ rfl
  have created : part (restoreBegun m c (tookCmd ms h)) c.pid.toNat = { st := .created, busy := true } := bget_bset_same ..
  refine ⟨x, ?_, congrArg Standing.heavy stands, congrArg Standing.images stands, ?_⟩
  · rw [effPartRestore, taken, bodyPartRestore_eq (h := tookCmd ms h) hp hst waits]
    rfl
  · have life := life_of_kept k c.pid.toNat
    rw [created] at life
    exact congrArg (fun l => l.2.1) life

/-! ### A staged firmware image -/

theorem fwSlot_setFwSlot (s : Bool) (f : FwSlot → FwSlot) (h : Hub) : fwSlot (setFwSlot s f h) s = f (fwSlot h s) := by cases s <;> rfl

/-- The hub that a staged image leaves: a bad one nothing, a good one in its slot. -/
def staged (s good : Bool) (d : List Byte) (h : Hub) : Hub :=
  if imageGood d = false then { h with stage := none }
  else if good then putHeader s (imageHdr d) (setFwSlot s (fun w => { w with image := d }) { h with stage := none })
  else setFwSlot s (fun w => { w with valid := false }) (setFwSlot s (fun w => { w with image := d }) { h with stage := none })

theorem staged_stage (s good : Bool) (d : List Byte) (h : Hub) : (staged s good d h).stage = none := by
  unfold staged
  split
  · rfl
  · split <;> rfl

theorem fwSlot_staged {d : List Byte} (hd : imageGood d = true) (s good : Bool) (h : Hub) :
    (fwSlot (staged s good d h) s).image = d ∧ (fwSlot (staged s good d h) s).valid = good := by
  rw [staged, if_neg (by simp [hd])]
  cases good with
  | true => rw [if_pos rfl, putHeader, fwSlot_setFwSlot, fwSlot_setFwSlot]; exact ⟨rfl, rfl⟩
  | false => rw [if_neg (by decide), fwSlot_setFwSlot, fwSlot_setFwSlot]; exact ⟨rfl, rfl⟩

theorem effFwStageDone_eq {v : Heavy} {s : Bool} {arg d : List Byte} {g : Hub} (hh : h.heavy = [v]) (hs : h.stage = some (v.job, s, arg))
    (hf : fetchRange v.mgr v.job (ofBytes (arg.take 8)) (ofBytes (arg.drop 8)) h = .got none d g) (hboot : g.led.bootSlot ≠ s) (good : Bool) :
    effFwStageDone good h = finishHeavy v.job (if imageGood d = false then 2 else if good then 0 else 8) (if imageGood d = false then 0 else d.length) (staged s good d g) := by
  have found : ((h.heavy.find? (fun w => w.job == v.job)).map Heavy.mgr).getD 0 = v.mgr := by
    rw [hh, List.find?_cons_of_pos (by simp)]
    rfl
  rw [effFwStageDone, hs]
  dsimp only
  rw [found, hf]
  dsimp only
  unfold staged
  cases imageGood d with
  | false => rfl
  | true =>
    cases good with
    | true => rfl
    | false =>
      have other : ¬ (setFwSlot s (fun w => { w with valid := false }) (setFwSlot s (fun w => { w with image := d }) { g with stage := none })).led.bootSlot = s := hboot
      rw [if_neg other]
      rfl

end

end Sys2Proof.Machine

namespace Sys2Proof.Machine.Slice0

/-- Settles O48: each end, where its range is read or written without a refusal, leaves what the clause names; a restore that has to ask the twin waits. -/
theorem imagesMove : Obligations.ImagesMove := by
  unfold Obligations.ImagesMove
  intro h q v hh
  refine ⟨fun k n hs hjob ht hw hv hvalid => ?_, fun p j img g g' hi hpid hjob hsave hop hvp himg hst => ?_, fun p j d g hi hpid hjob hsave hop hvp himg hf hd => ?_,
    fun m c hidle htakes hp hst hsieve hfar hup hreqs => ?_, fun s good arg d g hs hf hboot => ?_⟩
  · cases hl : loadLines n (List.range (n.size * unit2M / 128)) 0 h with
    | mk bad g =>
      obtain ⟨mem, rmap, shadows⟩ := shadowLoaded_map hvalid k g
      exact ⟨_, bad, next_of_eff rfl (effShadowLoadDone_eq hs hjob ht hw hv hl), rfl, mem, rmap, shadows⟩
  · exact ⟨saved j g', next_of_eff rfl (effPartSaveDone_eq (heavyFor_only hh hvp hop) (imageOf_only hi hpid) himg hst), rfl, rfl, part_freePart_st ..⟩
  · have done := (effPartRestoreLoadDone_eq (heavyFor_only hh hvp hop) (imageOf_only hi hpid) hsave himg hf).trans (loadImage_eq hd g)
    have life := life_restored j (parseSections d 8 64 0).1 g
    rw [hpid] at life
    rw [hjob] at done
    exact ⟨_, next_of_eff rfl done, congrArg (fun l => l.1) life, congrArg (fun l => l.2.1) life, congrArg (fun l => l.2.2) life⟩
  · obtain ⟨u, eq, heavy, images, busy⟩ := partRestore_waits htakes hp hst hfar hup hreqs
    rw [hh] at heavy
    exact ⟨u, _, _, next_of_eff rfl eq, heavy, rfl, rfl, rfl, images, rfl, rfl, rfl, busy⟩
  · exact ⟨_, next_of_eff rfl (effFwStageDone_eq hh hs hf hboot good), staged_stage .., fun hd => fwSlot_staged hd ..⟩

end Sys2Proof.Machine.Slice0
